-- ==== Sys2Proof/Word.lean ====
section
/-! DEFINITION. The plain data the whole model is written over: bytes, byte strings, sparse tables.
No operation stands here (a repair can mend none that does); the operations over these types are in `Machine/Tab.lean` and `Machine/Bits.lean`. -/

namespace Sys2Proof

/-- One byte of a payload, a frame or the pool (R10: multi-byte fields are little-endian). -/
abbrev Byte := BitVec 8

/-- A byte string, byte 0 first. -/
abbrev Bytes := List Byte

/-- A table of numbered objects (ports, rings, contexts, ...) as plain data: the listed numbers with their values,
every other number holding the default that the reader names. -/
abbrev Tab (α : Type) := List (Nat × α)

end Sys2Proof
end

