-- ==== Sys2Proof/Types.lean ====
section
/-! DEFINITION. The data that commands carry and that the state holds in common: statuses (R11), transactions
(R114 to R120, R219, R462), Vane frames (R414), training, capability and time records (Tables 13-7, 15-6, 9-2),
units with a state epoch (Table 14-8), and the requests of the standard protocols. -/

namespace Sys2Proof

/-- Completion statuses of Table 0-4 (R11). The reserved codes 0xB to 0xF are no status: a received one is handled by R15. -/
inductive Status where
  | ok | poisoned | nodeAbsent | ctxDenied | ctxRevoked | extRevoked | xlateFault | aged | timeout | malformed | retryLater
  deriving DecidableEq, Repr, Inhabited

/-- Transaction types of Table 5-1; the COL types of Table 8-7 and the MGT types among them. -/
inductive TType where
  | null | rd | wr | atom | resync | bisnp | rspData | rspAtom | rspDone | birsp
  | colData | colSide | colPart | colCtl | mgtMsg | nodeLeave
  deriving DecidableEq, Repr, Inhabited

/-- One transaction: the fields of the request header (Table 5-2), the response header (Table 5-4), the collective header
(Table 8-7) and the message header (R120, Table 16-5), the home word (Table 5-3) and the payload. A field that the layout of `ty` lacks is zero. -/
structure Txn where
  ty      : TType := .null
  akind   : Nat := 0            -- Table 5-2 AKIND
  acq     : Bool := false
  size    : Nat := 0            -- LEN - 1, or ATOP
  snode   : Nat := 0
  kgen    : Nat := 0
  ctx     : Nat := 0
  tag     : Nat := 0
  flow    : Nat := 0
  addr    : Nat := 0            -- bits [56:0] of the address
  home    : Option (Nat × Nat) := none   -- home word: PCLASS, KEY_SLOT
  status  : Nat := 0            -- response STATUS as carried (R15: reserved values can arrive)
  dslots  : Nat := 0
  acc     : Bool := false
  dnode   : Nat := 0
  hnode   : Nat := 0
  tnode   : Nat := 0
  fmt     : Nat := 0            -- COL FMT
  psn     : Bool := false
  inst    : Nat := 0
  phase   : Nat := 0
  eoff    : Nat := 0
  contrib : Nat := 0
  xb      : Nat := 0
  mkind   : Nat := 0            -- MGT: message kind (NODE_LEAVE: KIND of Table 16-5)
  lnode   : Nat := 0
  slot    : Nat := 0
  mword   : Nat := 0            -- MGT: bits specific to the message, or the UID payload of NODE_LEAVE
  rsvd    : Nat := 0            -- reserved bits of the header as they arrived
  data    : Bytes := []         -- payload bytes
  deriving DecidableEq, Repr, Inhabited

/-- A Vane frame (Table 14-4). -/
structure VFrame where
  ver     : Nat := 1
  op      : Nat := 0            -- 1 READ, 2 WRITE, 3 DESCRIBE, 4 NOTIFY
  rsp     : Bool := false
  last    : Bool := false
  rsvd    : Nat := 0            -- bits [15:9] and [159:144] as they arrived
  seq     : Nat := 0
  index   : Nat := 0
  sub     : Nat := 0
  abort   : Nat := 0
  epoch   : Nat := 0
  offset  : Nat := 0
  len     : Nat := 0
  payload : Bytes := []
  deriving DecidableEq, Repr, Inhabited

/-- What a typed dictionary write carries of its frame: the session it came in, its SEQ and its EPOCH (R418, R427). -/
structure VCtx where
  sess  : Nat
  seq   : Nat
  epoch : Nat
  deriving DecidableEq, Repr, Inhabited

/-- An issuing unit of an attached end-point: the node of the end-point and the number of its engine (R148, R447). -/
structure FarunUnit where
  node   : Nat
  engine : Nat
  deriving DecidableEq, Repr, Inhabited

/-- What an engine of an end-point is to issue: a transaction, as the release form where `rel` is set (R158). -/
structure FarunReq where
  rel : Bool := false
  txn : Txn := {}
  deriving DecidableEq, Repr, Inhabited

/-- Units that have a state epoch (Table 14-8). -/
inductive EUnit where
  | device | ring (n : Nat) | ctx (c : Nat) | key (k : Nat) | port (p : Nat) | stack (s : Nat) | ext (e : Nat)
  | rackTime | bank | host (h : Nat)
  deriving DecidableEq, Repr, Inhabited

/-- Training record, Table 13-7. -/
structure TrainRec where
  rates    : Nat := 1
  target   : Nat := 0
  lanes    : Nat := 0
  reversed : Bool := false
  format   : Nat := 1
  role     : Nat := 0
  wmode    : Bool := false
  enc      : Bool := false
  nonce    : Nat := 0
  echo     : Nat := 0
  rsvd     : Nat := 0
  deriving DecidableEq, Repr, Inhabited

/-- Capability frame, Table 15-6. -/
structure CapFrame where
  cfver       : Nat := 1
  kind        : Nat := 0
  hostep      : Bool := false
  status      : Nat := 0        -- 0 JOINING, 1 AVAIL, 2 DRAINING, 3 LEAVING
  phase       : Nat := 0
  cseq        : Nat := 0
  echo        : Nat := 0xFFFF
  uid         : Nat := 0
  node        : Nat := 0xFFF
  rack        : Nat := 0
  pos         : Nat := 0
  poolNode    : Nat := 0
  poolNode2   : Nat := 0
  hpMask      : Nat := 0
  hpNode      : Nat := 0
  memBytes    : Nat := 0
  engines     : Nat := 0
  atblBase    : Nat := 0
  atblEntries : Nat := 0
  imgVersion  : Nat := 0
  setOrPlan   : Nat := 0
  rsvd        : Nat := 0
  deriving DecidableEq, Repr, Inhabited

/-- Time record, Table 9-2; times in units of 2^-4 ns. -/
structure TimeRec where
  txTime  : Nat := 0
  echo    : Nat := 0
  turn    : Nat := 0
  quality : Nat := 0
  stratum : Nat := 0
  err     : Nat := 0
  rsvd    : Nat := 0
  deriving DecidableEq, Repr, Inhabited

/-- A received flit (R368): link-control bytes, the 56 body bytes and the 48 check bits. -/
structure Flit where
  lcb  : Nat
  body : Bytes
  chk  : Nat
  deriving DecidableEq, Repr, Inhabited

/-- A fragment of a link SPDM message (R372, R374). -/
structure Frag where
  mseq : Nat
  frag : Nat
  last : Bool
  body : Bytes
  deriving DecidableEq, Repr, Inhabited

/-- Where an SPDM message arrives (R349): the management network over UDP or I3C, the DOE instance of a host port, a link session. -/
inductive SpdmChan where
  | udp | i3c | doe (h : Nat) | link (p : Nat)
  deriving DecidableEq, Repr, Inhabited

/-- SPDM 1.3 requests (Table 12-5); `other` is any request code the table does not list. -/
inductive SpdmReq where
  | getVersion | getCapabilities | negotiateAlgorithms | getDigests
  | getCertificate (slot : Nat) | challenge (slot : Nat) | getMeasurements (index : Nat) (signed : Bool)
  | keyExchange (leafKey : Nat) (mutAuth : Bool) | finish (sess : Nat) (proof : Nat)
  | keyUpdate (sess : Nat) | heartbeat (sess : Nat) | endSession (sess : Nat) | chunk (data : Bytes)
  | vendorDefined (sess : Nat) (data : Bytes) | other (code : Nat)
  deriving DecidableEq, Repr, Inhabited

/-- Where an uncorrectable SRAM error lies (R455, in table order), with what identifies the cell. -/
inductive SramLoc where
  | firstCell (queue : Nat) (pos : Nat)
  | laterRequest (queue : Nat) (pos : Nat)
  | laterResponse (queue : Nat) (pos : Nat)
  | row (inst : Nat) (elem : Nat)
  | instState (inst : Nat)
  | xlate (tile : Nat) (pos : Nat)
  | accEntry (queue : Nat) (pos : Nat)
  | markTable
  deriving DecidableEq, Repr, Inhabited

/-- Instance entry of the OPS section, Table 8-9. -/
structure OpsEntry where
  inst       : Nat := 0
  opkind     : Nat := 0
  ctx        : Nat := 0
  inFmt      : Nat := 0
  outFmt     : Nat := 0
  rnd        : Nat := 0
  sat        : Bool := false
  flagEn     : Bool := false
  entryProg  : Nat := 0
  exitProg   : Nat := 0
  topkK      : Nat := 0
  nelem      : Nat := 0
  ncontrib   : Nat := 0
  tileFirst  : Nat := 0
  tileCount  : Nat := 0
  rowBase    : Nat := 0
  rset       : Nat := 0
  upnode     : Nat := 0
  resOff     : Nat := 0
  flagOff    : Nat := 0
  phaseFirst : Nat := 0
  naux       : Nat := 0
  qgroups    : Nat := 0
  rsvd       : Nat := 0
  deriving DecidableEq, Repr, Inhabited

/-- CXL.mem MetaValue of an M2S request (Table 11-6). -/
inductive Meta where
  | any | shared | invalid
  deriving DecidableEq, Repr, Inhabited

/-- A host-link completion (R316): data, poison, or an error. -/
inductive HostCpl where
  | success (data : Bytes) | poisoned | unsupported | abort
  deriving DecidableEq, Repr, Inhabited

/-- Host AtomicOps of Table 11-1. -/
inductive HostAtomic where
  | fetchAdd | swap | cas
  deriving DecidableEq, Repr, Inhabited

/-- An error a scrub window meets (R286, R284): a pool line, or a granule that no extent holds, on a stack. -/
inductive ScrubErr where
  | corrected (stack : Nat) (line : Nat)
  | uncorrectable (stack : Nat) (line : Nat)
  | uncorrectableFree (stack : Nat)
  deriving DecidableEq, Repr, Inhabited

/-- A data object of the DOE instance (R331). -/
inductive DoeReq where
  | discovery (index : Nat) | spdm (r : SpdmReq) | secured (sess : Nat) (r : SpdmReq) | ideKm (stream : Nat) (secure : Bool)
  | cdat (entry : Nat) | other (proto : Nat)
  deriving DecidableEq, Repr, Inhabited

end Sys2Proof
end

