-- ==== Sys2Proof/Syntax.lean ====
section
/-! DEFINITION. The commands of the block: one constructor per row of spec/opcode_table.json, in the table's order,
with the row's operands. A command that is a Vane write of an object with a row of its own carries the frame's
session, SEQ and EPOCH (`VCtx`) and the written value; `WRITE` carries a raw frame. -/

namespace Sys2Proof

/-- The commands and events of the Kolfy (spec/opcode_table.json). -/
inductive Instr where
  -- the object dictionary and Vane (R406 to R432)
  | read (sess : Nat) (f : VFrame)
  | write (sess : Nat) (f : VFrame)
  | describe (sess : Nat) (f : VFrame)
  | epochRecordWrite (v : VCtx) (u : EUnit)
  | segmentTimeout (sess : Nat) (index sub : Nat)
  | settleTimeout (u : EUnit)
  | mctpAssemblyTimeout (tag : Nat)
  | arpRequest (ip : Nat)
  | neighbourSolicitation (ip : Nat)
  | icmpEcho (v6 : Bool) (ip : Nat) (payload : Bytes)
  | spdmRequest (ch : SpdmChan) (r : SpdmReq)
  | bkeyDeliver (sess : Nat) (payload : Nat) (len : Nat)
  -- resets, phases, power and temperature (R26, R433 to R453, R468 to R495)
  | coldReset
  | coldResetRelease (railsGood : Bool)
  | strapSample (samples : List Nat)
  | firmwareAuthenticated (pass0 pass1 : Bool)
  | warmReset (lowNs : Nat) (coldLow : Bool)
  | packageReset (v : VCtx)
  | drain (v : VCtx)
  | drainEnd
  | roleStrapChanged (level : Bool)
  | powerWarnNAsserted (lowNs : Nat)
  | powerOffAfterExpired
  | hbmTrainingDone (failed : List Nat)
  | poolInitDone
  | thmFlowWrite (v : VCtx) (flow : Nat)
  | flowStale
  | tjSample (die : List Int) (stack : List Int)
  | flowLowExpired
  | stageHoldExpired
  | thermalTrip (tj : Int)
  | sramUe (tile : Nat) (loc : SramLoc)
  | hpRefclkLost (h : Nat)
  -- rack time and tables (R244 to R271)
  | refclkLost
  | refclkPresent
  | epochPulse (highNs : Nat)
  | epochPulseMissing
  | rtSet (v : VCtx) (e : Nat)
  | rtSource (v : VCtx) (src : Nat)
  | rtSrcPort (v : VCtx) (p : Nat)
  | time (p : Nat) (r : TimeRec)
  | timeRecordMissing
  | epochStart
  | holdoverLimit
  | rtResumeSlot (v : VCtx) (slot : Nat)
  | scheduledResume
  | tblImage (v : VCtx) (offset : Nat) (last : Bool) (data : Bytes)
  | imageCheckDone
  | tblArm (v : VCtx) (slot version : Nat)
  | tblCancel (v : VCtx) (version : Nat)
  | switchOver
  | bankRetired
  | telemetrySnapshot
  | eyeScanWindow (entry : Nat)
  | bitErrorWindow (entry : Nat)
  | bitErrorWindowEnd (p : Nat) (l : Nat) (bits errs : Nat)
  | scrubWindow (entry : Nat) (lines : Nat) (errs : List ScrubErr)
  -- lanes and links (R364 to R405)
  | portEnable (v : VCtx) (p : Nat) (on : Bool)
  | portCtlRetrain (v : VCtx) (p : Nat)
  | portTest (v : VCtx) (p : Nat)
  | rewiden (v : VCtx) (p : Nat)
  | laneSlip (v : VCtx) (l : Nat)
  | laneScan (v : VCtx) (l : Nat)
  | rebase (v : VCtx) (l : Nat)
  | eyeScanComplete (l eye : Nat) (vstep width height : Nat) (errors : List Nat)
  | signalDetected (p : Nat) (lanes : Nat)
  | laneLock (l : Nat) (codewords : Nat) (inverted : Bool)
  | deskew (p : Nat) (order : List Nat) (skew : Nat)
  | train (p : Nat) (r : TrainRec)
  | trainRepeat (p : Nat)
  | equaliseConverged (p : Nat) (coeff : Nat)
  | verifyEnd (p : Nat) (bers : List Nat) (uncorrectable : Bool)
  | trainingTimeout (p : Nat)
  | cap (p : Nat) (f : CapFrame)
  | capRepeat (p : Nat)
  | joiningWaitEnd (p : Nat)
  | spdm (p : Nat) (f : Frag)
  | spdmAck (p : Nat) (mseq : Nat)
  | spdmRepeat (p : Nat)
  | data (p : Nat) (f : Flit)
  | idle (p : Nat) (f : Flit)
  | tag (p : Nat) (f : Flit)
  | nakRepeat (p : Nat)
  | replayTimeout (p : Nat)
  | ackTimeout (p : Nat)
  | creditRefresh (p vc : Nat)
  | keyUpdate (p : Nat)
  | laneFault (l : Nat) (why : Nat)
  | serWindow (l : Nat) (ber : Nat)
  | narrow (p mask : Nat) (ack : Bool) (sw : Nat)
  | narrowRepeat (p : Nat)
  | narrowSwitch (p : Nat)
  | narrowTimeout (p : Nat)
  | signalLost (p : Nat) (decodable : Bool)
  | downIdleEnd (p : Nat)
  | retrain (p : Nat)
  | diagStart (p mask dur : Nat)
  | diagAck (p mask : Nat)
  | diagAckTimeout (p : Nat)
  | diagStop (p : Nat)
  | diagResult (p l : Nat) (bits errs : Nat)
  | diagResultRepeat (p : Nat)
  | diagResultTimeout (p l : Nat)
  | testEnd (p : Nat) (counts : List (Nat × Nat))
  -- transactions and the switch core (R114 to R201, R323, R464)
  | rd (adm : Nat) (t : Txn)
  | wr (adm : Nat) (t : Txn)
  | atom (adm : Nat) (t : Txn)
  | resync (adm : Nat) (t : Txn)
  | bisnp (adm : Nat) (t : Txn)
  | rspData (adm : Nat) (t : Txn)
  | rspAtom (adm : Nat) (t : Txn)
  | rspDone (adm : Nat) (t : Txn)
  | birsp (adm : Nat) (t : Txn)
  | queueHead (egress vc : Nat)
  | meltSweep
  | portTransmit (p : Nat)
  | repinWindowEnd
  | accHoldExpired (egress vc : Nat)
  | accretionTimeout (tag : Nat)
  | accEnable (v : VCtx) (on : Bool)
  | lineQueueHead (tile : Nat) (ue : Bool)
  | nodeLeave (adm : Nat) (t : Txn)
  | responseAtRequester
  | requestTimeout (node tag : Nat)
  | resyncIssue (node : FarunUnit) (ctx flow dest : Nat)
  | fence (node engine : Nat)
  | farunIssue (node engine : Nat) (t : FarunReq)
  -- rings and movers (R60 to R80)
  | ringEnable (v : VCtx) (n : Nat) (cfg : Nat)
  | ringDisable (v : VCtx) (n : Nat) (cfg : Nat)
  | ringConfigure (v : VCtx) (n : Nat) (cfg : Nat)
  | restart (v : VCtx) (n x : Nat)
  | tail (n : Nat) (value width : Nat)
  | cmplHead (n : Nat) (value width : Nat)
  | nop (n : Nat)
  | copy (n : Nat)
  | fill (n : Nat)
  | atomic (n : Nat)
  | opLaunch (n : Nat)
  | engineTileStart (tile : Nat)
  | moverLineResponse (tag : Nat)
  | moverRetry (tag : Nat)
  | descriptorSignal (n : Nat)
  | completionRecord (n : Nat)
  | notificationVector (n : Nat)
  | ringDrainEnd (n : Nat)
  -- translation (R81 to R113)
  | ctxBind (v : VCtx) (c : Nat) (rec : Nat)
  | withdrawContext (v : VCtx) (rec : Nat)
  | withdrawFa (v : VCtx) (rec : Nat)
  | withdrawalNotice (home : Nat) (id : Nat) (form : Bool) (ctx base len2m xgen : Nat) (bind : Option Nat)
  | doneNoticeSend (home id : Nat)
  | doneNotice (from_ id : Nat)
  | withdrawalTimeout (id : Nat)
  | notifyStoreResponse (tag : Nat)
  | walkStart (w : Nat)
  | walkEntryRead (tag : Nat)
  | walkTimeout (w : Nat)
  | holdExpired (tile : Nat)
  | atsCompletion (w : Nat) (addr size : Nat) (r wr u : Bool)
  | prgResponse (h ctx va : Nat) (code : Nat)
  | slowWaitExpired (n idx : Nat)
  | movingReread (w : Nat)
  | atsInvalidate (h pasid itag : Nat) (base len2m : Nat)
  | atsEnableCleared (h : Nat)
  -- drift, extents, stacks (R272 to R307)
  | driftScan
  | driftCopyDone (mv : Nat)
  | driftRelease (mv : Nat)
  | driftEnable (v : VCtx) (on : Bool)
  | driftLandRelease (v : VCtx) (fa : Nat)
  | poolBackptr (v : VCtx) (page entry : Nat)
  | holeZeroed (page : Nat)
  | extActivate (v : VCtx) (e : Nat)
  | extRelease (v : VCtx) (e : Nat)
  | extentReleased (e : Nat)
  | granuleZeroed (e : Nat)
  | extGrants (v : VCtx) (e : Nat) (rec : Nat)
  | extRevoke (v : VCtx) (e g : Nat)
  | revocationComplete (e g : Nat)
  | channelTimeout (channel : Nat)
  | stackFail (v : VCtx) (s : Nat)
  | rebuildStripe (d : Nat)
  | evacuateGranule (d : Nat)
  -- host ports (R308 to R333)
  | hostLinkUp (h : Nat)
  | hostLinkDown (h : Nat)
  | declareDead (v : VCtx) (h : Nat)
  | revive (v : VCtx) (h : Nat)
  | clearRid (v : VCtx) (h rid : Nat)
  | deadScanDone (h : Nat)
  | memRd (h dpa : Nat) (m : Meta)
  | memWr (h dpa : Nat) (m : Meta) (mask : Nat) (data : Bytes)
  | rwd (h dpa : Nat) (data : Bytes)
  | m2sBirsp (h dpa : Nat)
  | biTimeout (h line : Nat)
  | hostMemRead (h rid htag : Nat) (pasid : Option Nat) (off len : Nat)
  | hostMemWrite (h rid : Nat) (pasid : Option Nat) (ro : Bool) (off : Nat) (data : Bytes)
  | hostAtomicop (h rid htag : Nat) (pasid : Option Nat) (off : Nat) (op : HostAtomic) (width : Nat) (data : Bytes)
  | hostRetryDeadline (h id : Nat)
  | hostCompletion (h htag : Nat) (c : HostCpl)
  | hostCompletionTimeout (h htag : Nat)
  | mailboxGo (h g : Nat) (req : Bytes) (ctl : Nat)
  | lockInterfaceRequest (h : Nat)
  | startInterfaceRequest (h : Nat)
  | stopInterfaceRequest (h : Nat)
  | getDeviceInterfaceReport (h : Nat)
  | getDeviceInterfaceState (h : Nat)
  | ideIntegrityFail (h stream : Nat)
  | doeRequest (h : Nat) (len : Nat) (r : DoeReq)
  -- contexts and keys (R334 to R363)
  | ctxActivate (v : VCtx) (c : Nat) (clean : Bool) (nfa nval : Nat)
  | ctxStop (v : VCtx) (c : Nat) (nfa nval : Nat)
  | ctxStateNotice (home c st kgen : Nat) (clean : Bool)
  | ctxStateAck (from_ c : Nat)
  | keyGenerate (v : VCtx) (slot : Nat) (host : Bool) (owner : Nat)
  | keyDestroy (v : VCtx) (slot : Nat)
  | bundleLoad (v : VCtx) (rec : Nat)
  | bundleChunk
  -- in-fabric arithmetic (R202 to R243)
  | colData (adm : Nat) (t : Txn)
  | colSide (adm : Nat) (t : Txn)
  | colPart (adm : Nat) (t : Txn)
  | colCtlAbort (adm : Nat) (t : Txn)
  | colCtlCredit (adm : Nat) (t : Txn)
  | runStart (i : Nat)
  | runPeriod (i : Nat)
  | phaseDeadline (i : Nat)
  | resultWriteResponse (tag : Nat)
  | opsSlushEntry (v : VCtx) (e : OpsEntry)
  -- the last rows of the table
  | mgtMsg (adm : Nat) (t : Txn)
  | bundleKeyExpiry (b : Nat)
  | priReset (h : Nat)
  | railsOutOfTolerance (rail : Nat)
  | vaneSessionsLapse (sess : Nat)
  deriving DecidableEq, Repr

end Sys2Proof
end

