-- ==== Sys2Proof/Config.lean ====
section
/-! DEFINITION. What a part fixes at manufacture and what the spec leaves open. Every constant here is opaque: it has
no value that a proof can see, so a statement holds for every choice. `freeValue` is the source of the values that
the spec leaves open (log 3); the other constants are factory values and functions of published standards (log 4, 5). -/

namespace Sys2Proof.Config

/-- The n-th value that the spec leaves open; `Machine.State.fresh` applies it to a counter of the state. -/
opaque freeValue : Nat → BitVec 64
/-- The n-th byte string that the spec leaves open, of the stated length. -/
opaque freeBytes : Nat → Nat → List Byte

/-- `DEV.UID` less one (R413: factory value, never 0). -/
opaque uidLess1 : BitVec 32
/-- `DEV.VARIANT` (R413): true for VSK1024-LH. -/
opaque variantLH : Bool
/-- `DEV.STEPPING` (R413). -/
opaque stepping : BitVec 16
/-- `VANE.MAC` (R432). -/
opaque mac : BitVec 48
/-- `ATT.VENDOR_ID` (R363). -/
opaque vendorId : BitVec 48
/-- `DEV.FW_VERSION` of firmware copy 0 and of copy 1 (R413, R436). -/
opaque fwVersion : Bool → BitVec 64
/-- Firmware security version number (measurement block 3, R350). -/
opaque fwSvn : BitVec 32

/-- SHA-384 of the boot ROM, and of each firmware copy (measurement blocks 1 and 2, R350). -/
opaque romHash : BitVec 384
opaque fwHash : Bool → BitVec 384

/-- The device identity certificate chain of slot 0 (Table 12-5). -/
opaque certChain : List Byte

/-- Whether (r, s) is an ECDSA signature over P-384 of a SHA-384 digest under a public key, x then y (R264: FIPS 186-5). -/
opaque ecdsaP384 : (key : Nat) → (digest : BitVec 384) → (r s : Nat) → Bool
/-- SHA-384 of a byte string (R264, R350: FIPS 180-4). -/
opaque sha384 : List Byte → BitVec 384
/-- Whether a FINISH proves possession of the requester leaf key (R349: SPDM 1.3). -/
opaque spdmFinishOk : (leafKey : Nat) → (nonce : Nat) → (proof : Nat) → Bool
/-- The data key and the 32-bit IV of a direction of a session, from its secret by the SPDM key schedule; true is from the requester to the responder (R347). -/
opaque sessionKey : (secret : Nat) → (fromRequester : Bool) → BitVec 256
opaque sessionIv : (secret : Nat) → (fromRequester : Bool) → BitVec 32
/-- The secret of a session after SPDM KEY_UPDATE (R348). -/
opaque updatedSecret : (secret : Nat) → Nat
/-- Encryption and decryption of the body of flit `pos` of a group (R348: AES-256-GCM under a key and a 96-bit IV). -/
opaque gcmBody : (key : BitVec 256) → (iv : Nat) → (pos : Nat) → List Byte → List Byte
/-- The 16-byte tag of a group: its link-control bytes are the additional authenticated data, its bodies the ciphertext (R348). -/
opaque gcmTag : (key : BitVec 256) → (iv : Nat) → List (Nat × List Byte) → BitVec 128
/-- AES-256-XTS of a 64-byte line under the two keys of a slot and a tweak (R344: IEEE Std 1619). -/
opaque xts : (k1 k2 tweak : Nat) → List Byte → List Byte
/-- AES-256-GMAC of a byte string under a key and a 96-bit IV (R345: NIST SP 800-38D). -/
opaque gmac : (key iv : Nat) → List Byte → BitVec 128
/-- Decryption of a bundle chunk: key, bundle identity, chunk number, header, ciphertext with tag; none when the tag does not verify (R352). -/
opaque bundleOpen : (key : Nat) → (bundle chunk : Nat) → (hdr : List Byte) → List Byte → Option (List Byte)

/-- Which of the values within 1 ulp EXP2 and LOG2 give for an operand, the same on every tile (R217): 0 the next value of the format towards zero,
1 the next away from it, 2 of an exact result the one below. -/
opaque exp2Ulp : (fmt rnd : Nat) → (sat : Bool) → BitVec 32 → Fin 3
opaque log2Ulp : (fmt rnd : Nat) → (sat : Bool) → BitVec 32 → Fin 3
/-- LOG2 of a zero or of a negative operand, as FP32 bits, which no rule states. -/
opaque log2Open : (fmt rnd : Nat) → (sat : Bool) → BitVec 32 → BitVec 32

/-- Factory default equaliser coefficients of a lane at a rate (R451). -/
opaque eqDefault : (lane rate : Nat) → BitVec 64

/-- The token of an element, by which its gating score is found: Obier's plan, which no table lays out (R227, R237). -/
opaque tokenOf : (inst elem : Nat) → Nat
/-- The page requests that the host of a port lets be outstanding at once: the allocation that it writes in configuration space (R91). -/
opaque priAlloc : (port : Nat) → Nat
/-- The contributor plan of a Farun end-point by its identity, entry by entry with the fields of `Machine.PlanEnt` in their order, and the port whose partner
it takes time from: Obier's, which no table lays out (R224, R251, R444). -/
opaque plan : (planId : Nat) → List (List Nat)
opaque planPort : (planId : Nat) → Nat
/-- The contributors of a phase of an instance under an image version, each with its node, its contributor number and the first and the count of a range of
elements that it contributes: Obier's plan, which no section of the image lays out (R223, R224, R231). -/
opaque contributors : (version inst phase : Nat) → List (Nat × Nat × Nat × Nat)
/-- CONTRIB that a lower stage of an instance carries at its next stage: Obier's plan (R219, R224). -/
opaque upContrib : (inst : Nat) → BitVec 12

end Sys2Proof.Config
end

