-- ==== Sys2Proof/Machine/State.lean ====
section
/-! DEFINITION. The state of one Kolfy package as plain data, with the Farun end-points attached to it, and the state after reset.
The defaults of the fields are the Default columns of the object tables; a field that no object shows says the rule that gives it. -/

namespace Sys2Proof.Machine
open Sys2Proof

/-- The block stops with no fault: the spec answers every failure with a status, a state or an event (log 6). -/
inductive Fault
  deriving DecidableEq, Repr

/-- Why a command has no answer. -/
inductive Refusal where
  /-- Raised by `exec`'s arms alone for a command without a meaning; safe. No arm raises it. -/
  | notModelled (mnemonic : String)
  /-- Raised by the dictionary-write commands for an index of 0xF000 to 0xFFFF while `DEV.FACTORY_TEST` reads 1, where R4 and R406
  specify neither an effect nor an abort; safe. -/
  | factoryTestWrite
  deriving DecidableEq, Repr

inductive Phase where | cold | strap | slush | tables | full | degraded | drain | off
  deriving DecidableEq, Repr, Inhabited
inductive PortState where
  | disabled | detect | lock | exchange | equalise | verify | linked | inService | test | failed
  deriving DecidableEq, Repr, Inhabited
inductive Quality where | unset | acquiring | locked | holdover | unlocked
  deriving DecidableEq, Repr, Inhabited
inductive BankState where | empty | loading | checking | ready | armed | retiring
  deriving DecidableEq, Repr, Inhabited
inductive RingState where | disabled | running | halted | draining
  deriving DecidableEq, Repr, Inhabited
inductive CtxState where | free | active | stopping | revoking | thawing
  deriving DecidableEq, Repr, Inhabited
inductive ExtState where | unused | active | releasing | zeroing
  deriving DecidableEq, Repr, Inhabited
inductive StackState where | untrained | online | failed
  deriving DecidableEq, Repr, Inhabited
inductive DieState where | healthy | rebuilding | exposed | retired
  deriving DecidableEq, Repr, Inhabited
inductive HostState where | linkDown | active | dead
  deriving DecidableEq, Repr, Inhabited
inductive TdiState where | unlocked | locked | run | error
  deriving DecidableEq, Repr, Inhabited
inductive InstState where | idle | armed | running | delivering | done | failed
  deriving DecidableEq, Repr, Inhabited
inductive Thermal where | normal | alert | shed | drain | trip
  deriving DecidableEq, Repr, Inhabited
inductive BundlePhase where | idle | running | done | failed
  deriving DecidableEq, Repr, Inhabited

/-- What the device puts on its pins, links and buses, in the order it does so (the outbox, log 2). -/
inductive Output where
  | vane (sess : Nat) (f : VFrame)                       -- a Vane response (R415)
  | notify (sess : Nat) (f : VFrame)                     -- a NOTIFY frame (R431)
  | flit (p seq lane : Nat) (lcb : Nat) (body : Bytes)   -- a DATA or TAG flit on its first or a repeated transmission (R376)
  | lcb (p : Nat) (lcb : Nat)                            -- link-control bytes in an IDLE flit (R371)
  | ctrl (p ctype : Nat) (fields : List Nat)             -- a CTRL message (Table 13-5), its body fields in order
  | train (p : Nat) (r : TrainRec)
  | cap (p : Nat) (f : CapFrame)
  | time (p : Nat) (r : TimeRec)
  | spdmFrag (p : Nat) (f : Frag)
  | msix (h entry : Nat)
  | hostCpl (h htag : Nat) (code : Nat) (ep : Bool) (data : Bytes)   -- 0 Successful Completion, 1 Unsupported Request, 2 Completer Abort
  | hostReq (h htag kind : Nat) (pasid : Option Nat) (addr : Nat) (be : Nat) (data : Bytes)  -- 0 MemRd, 1 MemWr, 2 AtomicOp, 3 flush read
  | aer (h : Nat)                                        -- Uncorrectable Internal Error, non-fatal (R314)
  | cxlDrs (h dpa : Nat) (poison : Bool) (data : Bytes)
  | cxlNdr (h dpa : Nat)
  | cxlBisnp (h dpa : Nat)
  | atsReq (h w pasid va : Nat)                          -- an ATS Translation Request; w numbers the exchange
  | pageReq (h ctx pasid va : Nat) (wr : Bool)
  | atsInvDone (h itag : Nat)
  | tdisp (h msg : Nat) (body : List Nat)
  | doe (h : Nat) (body : List Nat)
  | spdm (ch : SpdmChan) (code : Nat) (body : List Nat)
  | arp (ip : Nat)
  | neighbour (ip : Nat)
  | icmp (v6 : Bool) (ip : Nat) (payload : Bytes)
  | pin (name level : Nat)                               -- 0 THERMTRIP_N, 1 MG_PHY_RST_N
  | farun (node port : Nat) (t : Txn)                    -- a transaction that an end-point sends on a fabric port
  | farunTime (node port : Nat) (r : TimeRec)            -- a time record that an end-point sends (R251)
  | report (node tag : Nat) (st : Status)                -- a requester's report to its engine (R14)
  | fence (node engine : Nat) (ok : Bool)
  deriving DecidableEq, Repr

/-- Table 16-2. -/
structure Event where
  cls : Nat
  code : Nat
  sev : Nat
  unit : Nat
  detail : Nat
  aux : Nat
  slot : Nat
  deriving DecidableEq, Repr, Inhabited

/-- Table 14-9 without the fields that other state gives; `mg` overrides the managed state of Table 14-8 (R430, R450). -/
structure EpochRec where
  epoch : Nat := 0
  mg : Option Nat := none
  since : Nat := 0
  disagree : Bool := false
  self : Bool := false
  slot : Nat := 0
  deriving DecidableEq, Repr, Inhabited

/-- A response kept for repetition (R418). -/
structure Kept where
  req : VFrame
  rsp : VFrame
  deriving DecidableEq, Repr, Inhabited

/-- A management session (R349, R423). Session 0 is the clear I3C path. -/
structure Session where
  isOpen : Bool := false
  chan : SpdmChan := .i3c
  leafKey : Nat := 0
  mutAuth : Bool := false
  established : Bool := false
  nonce : Nat := 0
  subscribe : Nat := 0
  rateAt : Nat := 0               -- start of the second in which datagrams are counted (R421)
  rateCount : Nat := 0
  kept : List Kept := []
  deriving DecidableEq, Repr, Inhabited

/-- A DOMAIN transfer under way (R417). -/
structure Transfer where
  sess : Nat
  index : Nat
  sub : Nat
  bytes : Bytes
  at_ : Nat
  abandoned : Bool
  deriving DecidableEq, Repr, Inhabited

structure Vane where
  ipv4 : Nat := 0
  ipv4Prefix : Nat := 24
  ipv6 : Nat := 0
  udpPort : Nat := 4940
  admin : Tab Nat := []
  adminLock : Bool := false
  rateLimit : Nat := 20000
  segTimeout : Nat := 1000
  settle : Nat := 5000
  rxDropped : Nat := 0
  authFails : Nat := 0
  aborts : Nat := 0
  notifySeq : Nat := 0
  sessions : Tab Session := []
  transfers : List Transfer := []
  mctp : Tab Nat := []             -- MCTP assemblies by message tag: time of the first packet (R422)
  epochs : Tab EpochRec := []      -- by `EUnit.code`
  rtLog : List (Nat × Nat) := []  -- log of rack time, newest 64: slot, and 1 for an RT.SET refused (R248), 2 for a backward offset above 1,000 ms (R254), 3 for several nodes that qualify for a port (R446)
  deriving DecidableEq, Repr, Inhabited

/-- Identity, phase, straps and pins (Tables 14-3, 15-2, 15-9). -/
structure Dev where
  uid : Nat := 0
  variantLH : Bool := false
  stepping : Nat := 0
  mac : Nat := 0
  vendorId : Nat := 0
  fwVersion : Nat := 0
  fwCopy : Bool := false
  phase : Phase := .cold
  phaseSince : Nat := 0
  spine : Bool := false            -- DEV.ROLE
  mode : Nat := 0
  factoryTest : Nat := 0
  label : Nat := 0
  roleStrapChanged : Bool := false
  rolePin : Bool := false          -- the level at the ROLE_SEL pin now (R26)
  straps : Nat := 0
  strapsSampled : Bool := false
  bootStatus : Nat := 0
  drainMax : Nat := 100
  drainSince : Nat := 0
  powerWarned : Option Nat := none -- when POWER_WARN_N was accepted (R468)
  offAfter : Nat := 4000
  warnings : Nat := 0
  hbmTrained : Bool := false
  fwRunning : Bool := false        -- a firmware copy has passed (R436)
  afterReset : Bool := false       -- a package reset has taken place since the last cold reset (R463)
  stepGroup : Option Nat := none   -- step-up group under way (R441)
  stepWait : List Nat := []        -- its ports that have still to finish
  deriving DecidableEq, Repr, Inhabited

/-- Coolant and thermal stages (R470, R471). -/
structure Therm where
  stage : Thermal := .normal
  tjMax : Int := 0
  tjPrev : Option Int := none
  tjHeld : Bool := false           -- a jump of more than 20 °C was discarded once
  flow : Nat := 0xFFFF
  flowAt : Nat := 0
  flowStale : Bool := false
  low2200 : Option Nat := none     -- since when the flow has been below 2,200 mL/min
  low1000 : Option Nat := none
  backSince : Option Nat := none   -- since when the leave condition of the stage has held
  stageSlot : Nat := 0
  sensors : List Int := []
  packagePower : Nat := 0
  rails : List (Nat × Nat) := []
  deriving DecidableEq, Repr, Inhabited

structure EventLog where
  log : List Event := []           -- newest last
  head : Nat := 0
  minSev : Nat := 0
  deriving DecidableEq, Repr, Inhabited

structure Telemetry where
  snap : Bytes := []
  seq : Nat := 0
  tileErr : Tab (Nat × Nat × Nat) := []
  tileMiss : Tab Nat := []
  tileJoin : Tab Nat := []
  tileFlake : Tab Nat := []
  flakeAt : Tab (List (Nat × Nat)) := []   -- by tile: slot and flake-cycles of the last 1,024 slots
  poolReads : Nat := 0
  poolWrites : Nat := 0
  deriving DecidableEq, Repr, Inhabited

/-- What a port keeps for time transfer (R249, R250). -/
structure TimePort where
  lastTx : Nat := 0        -- TX_TIME of the last record sent, 2^-4 ns
  lastRxTx : Nat := 0      -- TX_TIME of the last record received
  lastRxAt : Nat := 0      -- own rack time at its arrival, 2^-4 ns
  delay : Option Nat := none  -- D of R250 as last measured on the port, 2^-4 ns
  deriving DecidableEq, Repr, Inhabited

/-- Rack time (R244 to R258). -/
structure RackTime where
  source : Nat := 0
  srcPort : Nat := 0xFFFF
  now : Nat := 0
  quality : Quality := .unset
  err : Nat := 0xFFFFFFFF
  holdoverMax : Nat := 10000
  scheduled : Bool := false
  resumeSlot : Nat := 0
  stratum : Nat := 0
  pulseRejected : Nat := 0
  refLosses : Nat := 0
  refclk : Bool := false           -- REFCLK present (R247)
  refOkSince : Option Nat := none
  setEpoch : Option Nat := none    -- RT.SET written, not yet applied
  setWritten : Bool := false
  plausible : Nat := 0             -- consecutive plausible pulses or records
  lastMark : Option (Nat × Nat) := none  -- device time and rack time of the last pulse or record (UNLOCKED, R252)
  lastPulseAt : Option Nat := none -- device time of the last pulse, and of the last usable record
  missed : Nat := 0
  lockedSince : Nat := 0
  holdSince : Nat := 0
  lockedFor : Nat := 0             -- how long the device had been LOCKED at the loss, ns
  errAtLoss : Nat := 0
  slew : Int := 0                  -- offset still to be slewed, ns
  hold : Nat := 0                  -- ns for which the count is held (R254)
  partnerQuality : Nat := 0
  stepBlocked : Bool := false      -- backward offset above 1,000 ms waits for RT.SET (R254)
  ports : Tab TimePort := []
  deriving DecidableEq, Repr, Inhabited

structure NodeEnt where
  kind : Nat := 0
  pkg : Nat := 0
  hport : Nat := 0
  rsvd : Nat := 0
  deriving DecidableEq, Repr, Inhabited

structure RouteEnt where
  kind : Nat := 0      -- 0 NONE, 1 PORT, 2 LOCAL, 3 UP, 4 RACK
  target : Nat := 0
  wmode : Bool := false
  rsvd : Nat := 0
  deriving DecidableEq, Repr, Inhabited

structure EventEnt where
  kind : Nat := 0
  period : Nat := 0
  offset : Nat := 0
  len : Nat := 0
  target : Nat := 0
  rsvd : Nat := 0
  deriving DecidableEq, Repr, Inhabited

structure PhaseEnt where
  inst : Nat := 0
  phase : Nat := 0
  next : Nat := 0xFFFF
  start : Nat := 0
  len : Nat := 0
  cells : Nat := 0
  flakes : Nat := 0
  rsvd : Nat := 0
  deriving DecidableEq, Repr, Inhabited

structure DriftRule where
  ctx : Nat := 0
  anyCtx : Bool := false
  when_ : Nat := 0
  landFirst : Nat := 0
  landCount : Nat := 0
  rsvd : Nat := 0
  deriving DecidableEq, Repr, Inhabited

/-- The DRIFT section (R301). -/
structure DriftCfg where
  nrules : Nat := 0
  nland : Nat := 0
  hotThr : Nat := 0
  coldThr : Nat := 0
  coldAge : Nat := 0
  maxMoves : Nat := 0
  rsvd : Nat := 0
  rules : List DriftRule := []
  lands : List (Nat × Nat × Nat) := []     -- FA, FRAMES, reserved
  deriving DecidableEq, Repr, Inhabited

/-- A table image, decoded (R260 to R263). VERSION 0 stands for the built-in default (R439). -/
structure Image where
  imgLen : Nat := 0
  magic : Nat := 0x314C4254
  format : Nat := 3
  signer : Nat := 0
  version : Nat := 0
  setId : Nat := 0
  devUid : Nat := 0
  role : Nat := 0
  rack : Nat := 0
  pos : Nat := 0
  nracks : Nat := 1
  k : Nat := 0
  guardSlots : Nat := 2
  hyperLog2 : Nat := 10
  build : Nat := 0
  rsvd : Nat := 0
  dir : List (Nat × Nat × Nat × Nat) := []  -- directory: TYPE, reserved, OFFSET, LENGTH
  nodes : Tab NodeEnt := []
  routes : Tab RouteEnt := []
  uplink : Tab Nat := []          -- default 0xFFFF
  bucket : Tab Nat := []
  alt : Tab Nat := []             -- default 0xFFFF
  seed : Nat := 0
  admTab : Tab (Nat × Nat) := []   -- by 10a + v: FLOOR, CAP
  admitRsvd : Nat := 0
  accr : Tab Nat := []
  ops : Tab OpsEntry := []
  nodeSets : List (List Nat) := []
  prog : Tab Nat := []
  consts : Tab Nat := []
  timing : Tab (Nat × Nat) := []
  colRes : Tab Nat := []
  events : Tab EventEnt := []
  phases : Tab PhaseEnt := []
  drift : Option DriftCfg := none
  hash : Nat := 0                 -- SHA-384 of the image (measurement block 6)
  deriving DecidableEq, Repr, Inhabited

/-- Image banks (R265 to R271). -/
structure Tables where
  activeBank : Nat := 0
  active : Image := {}
  stdState : BankState := .empty
  stdBytes : Bytes := []
  stdLen : Nat := 0               -- IMG_LEN as read from the header that arrived
  std : Image := {}
  checkSince : Nat := 0
  loadCode : Nat := 0
  loadType : Nat := 0
  loadOff : Nat := 0
  armSlot : Nat := 0
  retiring : Option Image := none
  retiringSince : Nat := 0
  activeSet : Nat := 0
  switchSlot : Nat := 0
  minLead : Nat := 1024
  signers : Tab Nat := []
  signerLock : Bool := false
  defaultSince : Nat := 0         -- device time at which the built-in default came into force (R440)
  history : List (Nat × Tab NodeEnt) := []  -- switch-overs, newest first: rack time, NODES from then on (R43)
  deriving DecidableEq, Repr, Inhabited

/-- A flit of the retry buffer (R376). -/
structure RetryFlit where
  seq : Nat
  tag : Bool                      -- a TAG flit
  body : Bytes
  txn : Option Txn                -- the transaction whose last flit this is (R195, R241)
  lcb : Nat := 0                  -- its link-control bytes, which its group's tag covers (R348)
  sentAt : Nat
  deriving DecidableEq, Repr, Inhabited

/-- A narrowing or widening under way (R392, R396). -/
structure Narrow where
  mask : Nat
  sw : Nat
  acked : Bool
  switched : Bool := false        -- this end's transmitter uses the mask
  since : Nat
  sentAt : Nat
  deriving DecidableEq, Repr, Inhabited

/-- A bit-error test of a port (R401, R402). -/
structure Test where
  lanes : Nat
  dur : Nat                       -- µs
  leader : Bool
  window : Bool                   -- a window test of R402 rather than a whole-port test
  acked : Bool
  sent : Bool := false            -- DIAG START has been sent
  since : Nat
  ended : Bool
  endAt : Nat
  results : Tab (Nat × Nat)       -- own receiver counts per port lane: bits, errors
  peers : Tab (Nat × Nat)         -- the partner's RESULT per port lane
  deriving DecidableEq, Repr, Inhabited

/-- The session data key and the fixed part of the IV of one direction of a link (R347). -/
structure LinkKey where
  key : BitVec 256 := 0
  iv : BitVec 32 := 0
  deriving DecidableEq, Repr, Inhabited

/-- A fabric port (Tables 13-10, 2-8, 7-12, 15-9, 12-12) with the state of its link layer. -/
structure Port where
  enable : Bool := true
  st : PortState := .disabled
  stSince : Nat := 0
  maxRate : Nat := 3
  rate : Nat := 0
  limited : Bool := false
  lanesIn : Nat := 0
  lanesOut : Nat := 0
  minWidth : Nat := 1
  alignMode : Nat := 0
  windowMode : Bool := false
  windowActive : Bool := false    -- R53: in force since the last training
  partner : TrainRec := { rates := 0, format := 0 }
  sent : TrainRec := {}           -- own record of this attempt (NONCE, ECHO)
  lastTrain : Option TrainRec := none
  sameTrain : Nat := 0
  locked : Nat := 0               -- lanes that have locked
  signalled : Nat := 0
  deskewed : Bool := false
  agreedRate : Nat := 0
  eqTries : Nat := 0
  equalised : Bool := false
  attempts : Nat := 0
  naksSent : Nat := 0
  replays : Nat := 0
  flitsReplayed : Nat := 0
  downCount : Nat := 0
  downCause : Nat := 0
  downSlot : Nat := 0
  downAt : Nat := 0
  idling : Bool := false          -- electrical idle after going down (R388)
  bertTime : Nat := 1000
  partnerCap : Option CapFrame := none
  lastUid : Nat := 0              -- UID of the last partner accepted since cold reset (R449)
  capSent : Option CapFrame := none
  capTxAck : Bool := false        -- the partner has echoed the frame
  nextCseq : Nat := 0
  rxCseq : Nat := 0xFFFF
  joinUntil : Nat := 0            -- R449: JOINING until this device time
  leaving : Bool := false         -- a LEAVING frame has been accepted (R450)
  attaches : Nat := 0
  announced : Nat := 0
  unannounced : Nat := 0
  framesRefused : Nat := 0
  attachSlot : Nat := 0
  altOn : Bool := false           -- ALT stands in for the port (R195)
  -- retry and credits
  txSeq : Nat := 0
  retry : List RetryFlit := []
  ackAt : Nat := 0                -- when the acknowledgement last moved
  rxSeq : Nat := 0
  nak : Bool := false
  nakAt : Nat := 0
  txCredit : Tab Nat := []        -- per VC: cells that the partner has granted
  ccIn : Tab Nat := []            -- per VC: last CCOUNT accepted
  ccOut : Tab Nat := []           -- per VC: cells freed since training
  passed : Tab Nat := []          -- per class: starts for which it has been passed over (R175)
  lastPool : Tab Nat := []        -- per class: pool served last (R175)
  rxSlots : List Nat := []        -- 8-byte slots of a transaction not yet complete
  codewords : Nat := 0            -- codeword counter (R366)
  -- encryption and SPDM
  crypt : Nat := 1
  cryptState : Nat := 0           -- 0 OFF, 1 NEGOTIATING, 2 ON, 3 FAILED
  tagFails : Nat := 0
  tagFailAt : List Nat := []
  group : List (Nat × Bytes) := []    -- flits of the open received group: LCB, body
  txGroup : List (Nat × Bytes) := []
  rxGroupNo : Nat := 0
  txGroupNo : Nat := 0
  rxFlits : Nat := 0
  txFlits : Nat := 0
  secret : Nat := 0               -- secret of the link session, from which its keys come (R347)
  txKey : LinkKey := {}           -- key and fixed IV part of each direction
  rxKey : LinkKey := {}
  oldRx : Option LinkKey := none  -- the old receive key is held until KEY_UPDATE ends (R348)
  spdmRx : List Frag := []
  spdmTx : Option (Nat × Nat × Nat) := none  -- unacknowledged message: MSEQ, tries, time sent
  spdmMseq : Nat := 0
  spdmOut : Bytes := []           -- the unacknowledged message
  spdmStage : Nat := 0            -- requester: exchanges of the link session answered so far
  wideMask : Nat := 0             -- lanes that run EQUALISE and VERIFY alone (R396)
  wideStage : Nat := 0            -- 1 EQUALISE, 2 VERIFY
  narrowing : Option Narrow := none
  test : Option Test := none
  allow : List Nat := []          -- CTX.PORT_ALLOW: contexts allowed
  -- counters of Table 16-4
  flitsTx : Nat := 0
  flitsRx : Nat := 0
  cellsAdmitted : Nat := 0
  melted : Nat := 0
  agedSent : Nat := 0
  deriving DecidableEq, Repr, Inhabited

/-- An eye-scan record (Table 13-9) without the fields that its place gives. -/
structure EyeRec where
  lane : Nat := 0
  eye : Nat := 0
  rate : Nat := 0
  traffic : Bool := false
  baseline : Bool := false
  degraded : Bool := false
  dwell : Nat := 0
  vstep : Nat := 0
  width : Nat := 0
  height : Nat := 0
  startSlot : Nat := 0
  endSlot : Nat := 0
  baseWidth : Nat := 0
  baseHeight : Nat := 0
  errors : List Nat := []
  deriving DecidableEq, Repr, Inhabited

/-- A fabric lane (Table 13-10). -/
structure Lane where
  st : Nat := 0                   -- 0 OFF, 1 IN_SERVICE, 2 OUT, 3 TESTING
  alarm : Bool := false
  degraded : Bool := false
  lockOn : Bool := false
  inverted : Bool := false
  slips : Nat := 0
  corrected : Nat := 0
  uncorrectable : Nat := 0
  symbols : Nat := 0
  ser : Nat := 0                  -- F32 bits
  eq : Nat := 0
  conv : Tab Nat := []            -- converged equaliser values by rate (R383, R451)
  eyeRec : Option EyeRec := none
  bases : Tab EyeRec := []
  scanning : Option Nat := none   -- slot at which a scan began
  bertBits : Nat := 0
  bertErrs : Nat := 0
  bertSlot : Nat := 0
  bertRes : Nat := 0
  bertPass : Option Nat := none   -- slot of the last pass
  winSince : Nat := 0
  deriving DecidableEq, Repr, Inhabited

/-- Device-wide link objects (Table 13-10); error ratios are F32 bits. -/
structure LinkCfg where
  serAlarm : Nat := 0x3727C5AC
  serLimit : Nat := 0x38D1B717
  verifyBer : Nat := 0x3727C5AC
  eyeDwell : Nat := 17
  eyeMargin : Nat := 25
  bertLimit : Nat := 0x358637BD
  bertInterval : Nat := 86400
  trainTries : Nat := 8
  eqReuse : Bool := true
  rxFiltered : Nat := 0
  deriving DecidableEq, Repr, Inhabited

/-- A contributor of an accretion entry (R140), with the place its request is charged to. -/
structure Contrib where
  t : Txn
  adm : Nat
  vc : Nat
  cells : Nat
  reserved : Nat                  -- RSP cells reserved at admission point 265
  since : Nat := 0                -- its own residence (R142)
  hlim : Nat := 0
  deriving DecidableEq, Repr, Inhabited

/-- An accretion entry (R139 to R144). -/
structure AccEntry where
  contribs : List Contrib         -- leader first
  openedAt : Nat
  closed : Bool
  hold : Option Nat               -- ns, where the image marks the home for hold
  tile : Nat
  deriving DecidableEq, Repr, Inhabited

/-- A transaction in a queue of the package (R175, R188). -/
structure QEntry where
  t : Txn
  adm : Nat                       -- admission point that its cells are charged to
  vc : Nat
  cells : Nat
  since : Nat                     -- start of residence, device time
  hlim : Nat                      -- H_c in force then, ns
  repl : Bool := false            -- a replacement (R189)
  ready : Bool := false           -- passed the checks of the head of the queue (R192)
  acc : Option AccEntry := none
  gate : Option Status := none    -- status with which the pool's checks refused it as it entered a line queue (R277)
  native : Option Txn := none     -- what a window-mode request in a line queue was resolved to (R56)
  accepted : Option Nat := none   -- when the pool accepted it: it reached the head of its line queue and waits there for hosts (R126, R324)
  turn : Nat := 0                 -- its place in the order in which accesses enter line queues (R281)
  deriving DecidableEq, Repr, Inhabited

/-- A mark or a PASS record (R190, R196); `dest` none is a wildcard mark of a tile (R136). -/
structure Mark where
  snode : Nat
  ctx : Nat
  flow : Nat
  dest : Option Nat
  tile : Nat
  pass : Bool
  deriving DecidableEq, Repr, Inhabited

/-- Which flows a REPIN window holds (Table 7-9). -/
inductive RepinCause where
  | port (q : Nat) | switchOver | floodEnd | egress (e : Nat)
  deriving DecidableEq, Repr, Inhabited

structure Repin where
  cause : RepinCause
  until_ : Nat
  deriving DecidableEq, Repr, Inhabited

/-- Charges of one (admission point, VC) pair (R178). -/
structure Adm where
  held : Nat := 0                 -- cells held
  out : Nat := 0                  -- credits outstanding to the partner
  claimed : Nat := 0              -- cells and credits claimed from the shared region
  deriving DecidableEq, Repr, Inhabited

/-- The switch core (R172 to R201). -/
structure Switch where
  ageLimit : List Nat := [2000, 2000, 2000, 2000, 2000]
  hops : Nat := 1
  repinHold : Nat := 8000
  repins : List Repin := []
  marks : List Mark := []
  flood : Bool := false
  melted : List Nat := [0, 0, 0, 0, 0]
  markDiscards : Nat := 0
  updownViol : Nat := 0
  noRoute : Nat := 0
  adm : Tab Adm := []             -- by 10a + v
  shared : Nat := 0               -- cells of the shared region in use
  busyAt : Nat := 0               -- when a cell was last freed (R450)
  queues : Tab (List QEntry) := []     -- by 10 * egress + VC; egress 0-255 ports, 257-264 host ports
  lines : Tab (List QEntry) := []      -- pool line queues, by tile
  nextTurn : Nat := 0             -- accesses that have entered line queues (R281)
  oldAlt : List Nat := []         -- ports that ALT stood in for under the previous image (R196)
  oldUp : List Nat := []          -- ports in service at the switch-over
  oldImg : Option Image := none   -- the previous image, kept until its REPIN window ends (R196)
  deriving DecidableEq, Repr, Inhabited

structure Xact where
  accEnable : Bool := true
  accHold : Nat := 0
  accReads : Nat := 0
  accAtoms : Nat := 0
  accRefused : Nat := 0
  strayRsp : Nat := 0
  mgtDiscarded : Nat := 0
  nextTag : Nat := 0
  held : List Nat := []           -- requests recorded and not yet in the buffer, by key, oldest first: they wait for room (R178) or behind a RESYNC (R134)
  toSync : List (Nat × Nat × Nat × Nat) := []   -- flow keys whose next request is a RESYNC: SNODE, CTX, FLOW, destination (R134)
  waits : List Txn := []          -- messages and collective packets of the engines that wait for room at point 265 (R178)
  reserved : Tab Nat := []        -- response slots reserved, by requester node (R125)
  inbox : List Txn := []          -- responses that have reached one of the package's own requesters
  deriving DecidableEq, Repr, Inhabited

/-- What an outstanding request of one of the package's requesters, or of a Farun end-point, is for (R124). -/
inductive Purpose where
  | descFetch (n idx part : Nat)
  | snapWrite (n idx : Nat)
  | moverRead (n idx tile pos len : Nat)
  | moverWrite (n idx tile pos len : Nat)
  | atomicDesc (n idx : Nat)
  | signal (n idx : Nat)
  | complWrite (n idx : Nat)
  | resync
  | walk (w ctx : Nat)
  | driftScan (page : Nat)
  | driftRead (mv pos : Nat)
  | driftWrite (mv pos : Nat)
  | driftEntry (mv : Nat)
  | notify (kind id : Nat)        -- 0 withdrawal, 1 context change, 2 bundle load
  | result (i : Nat)
  | flag (i : Nat)
  | bundleRead (pos : Nat)
  | bundleWrite (pos : Nat)
  | accretion (e : AccEntry)
  | host (h id part : Nat)
  | frame (h id : Nat)            -- a host-port end-point's read of an aperture frame entry
  | farun (engine : Nat)
  | farunSync (engine : Nat)      -- a RESYNC of an end-point's engine
  | backInv (line h : Nat)        -- a BISNP of the pool home
  deriving DecidableEq, Repr, Inhabited

structure OutReq where
  t : Txn
  who : Purpose
  issuedAt : Nat
  timeout : Nat                   -- ns
  resp : Option Txn := none       -- response received and not yet acted on
  tries : Nat := 0
  waitUntil : Option Nat := none  -- backoff of R76
  deriving DecidableEq, Repr, Inhabited

/-- A ring's configuration (Table 3-1). -/
structure RingCfg where
  enable : Bool := false
  log2Depth : Nat := 8
  level : Nat := 1
  weight : Nat := 1
  ctx : Nat := 0
  notifyVec : Nat := 0xFFFF
  descBase : Nat := 0
  cmplBase : Nat := 0
  rsvd : Nat := 0
  deriving DecidableEq, Repr, Inhabited

/-- A descriptor (Table 3-4), the fields that software writes. -/
structure Desc where
  opcode : Nat := 0
  srcKind : Nat := 0
  dstKind : Nat := 0
  fence : Bool := false
  signal : Bool := false
  sigAdd : Bool := false
  notify : Bool := false
  atop : Nat := 0
  rsvd : Nat := 0
  len : Nat := 0
  src : Nat := 0
  dst : Nat := 0
  imm : Nat := 0
  opnd2 : Nat := 0
  sigAddr : Nat := 0
  sigValue : Nat := 0
  userTag : Nat := 0
  oparg : Nat := 0                -- bits [1023:768]
  deriving DecidableEq, Repr, Inhabited

/-- An engine tile (R73). -/
structure ETile where
  no : Nat
  start : Nat                     -- transfer position
  len : Nat
  src : Nat                       -- FA of the source at `start`
  dst : Nat
  srcPg : Nat := 0                -- page sizes and home attributes of its translations (R82)
  dstPg : Nat := 0
  srcAt : Option (Nat × Nat) := none
  dstAt : Option (Nat × Nat) := none
  issued : Nat := 0               -- bytes for which a line has been issued
  out : Nat := 0                  -- lines without a final response
  bad : Bool := false
  ended : Bool := false           -- ended early (R109)
  cut : Bool := false             -- what a withdrawal has cut off: it waits to be translated afresh (R109)
  srcStale : Bool := false        -- a withdrawal has matched its translation of the source, of the destination: nothing more is issued under it (R109)
  dstStale : Bool := false
  lastIssue : Nat := 0            -- when its latest line was issued (R109)
  deriving DecidableEq, Repr, Inhabited

/-- A fetched descriptor being worked on (R72 to R77). -/
structure Work where
  idx : Nat
  d : Desc
  snapSrc : Nat := 0
  snapDst : Nat := 0
  xgen : Nat := 0
  srcPg : Nat := 0
  dstPg : Nat := 0
  srcAt : Option (Nat × Nat) := none   -- home attributes of the snapshot's translations (R82)
  dstAt : Option (Nat × Nat) := none
  snapped : Bool := false         -- the snapshot has been taken (R72)
  snapOk : Bool := false          -- no withdrawal has matched it since (R107)
  snapOut : Bool := false         -- the write of the snapshot is outstanding
  snapBad : Option Status := none -- how it failed (R167)
  missed : Nat := 0               -- translations that missed and are not yet used (`XL.HITS`)
  next : Nat := 0                 -- transfer position of the next engine tile
  tiles : List ETile := []
  fails : List Status := []
  sig : Nat := 0                  -- 0 none or not yet, 1 issued, 2 performed
  status : Option Status := none  -- final status
  bytesDone : Nat := 0
  result : Nat := 0
  aux : Nat := 0
  recorded : Bool := false        -- its completion record has been written
  deriving DecidableEq, Repr, Inhabited

structure FetchBuf where
  idx : Nat
  lo : Option Bytes := none
  hi : Option Bytes := none
  deriving DecidableEq, Repr, Inhabited

structure Ring where
  cfg : RingCfg := {}
  st : RingState := .disabled
  cause : Nat := 0
  fault : Bool := false
  head : Nat := 0
  tail : Nat := 0
  cmplTail : Nat := 0
  cmplHead : Nat := 0
  resumeIdx : Nat := 0
  fetched : List FetchBuf := []
  work : List Work := []
  notifies : List Nat := []       -- descriptors whose vector is to be raised
  broken : List (Nat × Nat × Nat) := []   -- flows that the ring's requests broke: CTX, FLOW, destination
  resuming : Bool := false        -- after a RESTART: x is not fetched before the earlier requests have ended (R78, R134)
  drainSince : Nat := 0
  deficit : Nat := 0
  deriving DecidableEq, Repr, Inhabited

/-- A mover slice's scheduling state (R79). -/
structure Slice where
  served : Tab Nat := []          -- per level: consecutive tiles served from levels below it in number
  turn : Tab Nat := []            -- per level: ring whose turn it is
  deriving DecidableEq, Repr, Inhabited

structure Mov where
  timeout : Nat := 5000
  lowFloor : Nat := 64
  retryMax : Nat := 8
  dbIgnored : Nat := 0
  rings : Tab Ring := []
  slices : Tab Slice := []
  deriving DecidableEq, Repr, Inhabited

/-- `XL.CTX_BIND` (Table 4-1). -/
structure Bind where
  mode : Nat := 0
  scope : Nat := 0
  priEn : Bool := false
  homeNode : Nat := 0
  hostNode : Nat := 0
  pasid : Nat := 0
  root : Nat := 0
  deriving DecidableEq, Repr, Inhabited

/-- A tile translation-cache entry (R102). -/
structure TEntry where
  ctx : Nat
  va : Nat                        -- first byte of the page
  at_va : Nat := 0                -- the 2 MiB of VA for which it was read: of a 32 MiB page it serves no other (R97)
  size : Nat                      -- 1 2 MiB, 2 32 MiB, 3 1 GiB
  fa : Nat
  rd : Bool
  wr : Bool
  at_ : Bool
  attr : Option (Nat × Nat)       -- PCLASS, KEY_SLOT; none for host memory
  moving : Bool
  lastUse : Option Nat            -- rack time
  deriving DecidableEq, Repr, Inhabited

/-- A request held for translation at its tile (R84). -/
structure Held where
  e : QEntry
  since : Nat
  leader : Bool                   -- it missed itself; otherwise it waits behind a request of its flow
  deriving DecidableEq, Repr, Inhabited

/-- Who waits for a walk (R103, R104). -/
inductive Waiter where
  | direct (tile : Nat) | mover (n idx va need : Nat) | prefetch (tile : Nat)
  deriving DecidableEq, Repr, Inhabited

structure Miss where
  ctx : Nat
  va : Nat
  wr : Bool                       -- a write or an atomic waits for it
  since : Nat
  waiters : List Waiter
  deriving DecidableEq, Repr, Inhabited

/-- A walk or ATS exchange on a walker (R97 to R103). -/
structure Walk where
  m : Miss
  level : Nat := 0                -- 0 to 2 native; 3 frame entry; 4 ATS exchange; 5 page request
  entryFa : Nat := 0
  since : Nat := 0
  wds : List (Bool × Nat × Nat × Nat) := []   -- notices since it began: FA form, context, BASE, LEN_2M (R109)
  ats : Option (Bool × Bool) := none   -- R and W of the ATS result (R93)
  asked : Bool := false           -- the one page request has been made (R95)
  rereadAt : Option Nat := none   -- next read of a MOVING entry (R111)
  slowAt : Option Nat := none     -- since when movers wait for a page request or for MOVING (`XL.SLOW_WAIT`)
  tag : Option Nat := none        -- the outstanding entry read
  deriving DecidableEq, Repr, Inhabited

/-- A walk-cache entry (R103): a native pointer, or an ATS result. -/
inductive WEntry where
  | ptr (ctx level va fa : Nat)
  | ats (ctx base size addr : Nat) (r w u : Bool)
  deriving DecidableEq, Repr, Inhabited

/-- Why a withdrawal runs (R108 to R112). -/
inductive WdCause where
  | software | invalidate (h itag : Nat) | bind (c : Nat) (b : Bind) | stop (c : Nat) | hostLost (h : Nat) | drift (mv : Nat) | restore (page fa : Nat)
  deriving DecidableEq, Repr, Inhabited

structure Withdrawal where
  id : Nat
  fa : Bool                       -- FA form
  ctx : Nat
  base : Nat
  len2m : Nat
  nfa : Nat := 0
  nval : Nat := 0
  cause : WdCause
  running : Bool                  -- among the 256; otherwise waiting at the home
  since : Nat := 0
  waiting : List Nat := []        -- primary pool nodes without a done notice, this package's own among them
  reissued : Bool := false
  finished : Bool := false        -- completed, its completion store pending
  deriving DecidableEq, Repr, Inhabited

/-- A notice being performed at this package (R109): D once it is known. -/
structure WdNotice where
  home : Nat
  id : Nat
  d : Nat
  lines : List (Nat × Nat × Nat) := []   -- affected engine tiles: ring, descriptor, tile (M of R109)
  deriving DecidableEq, Repr, Inhabited

/-- Table 4-9. -/
structure FaultRec where
  kind : Nat
  status : Nat
  form : Nat
  node : Nat
  ctx : Nat
  fa : Nat
  slot : Nat
  deriving DecidableEq, Repr, Inhabited

/-- A mover's wait for a translation (R95, R103, R111). -/
structure MWait where
  n : Nat
  idx : Nat
  va : Nat
  need : Nat := 0                 -- 0 a read, 1 a write, 2 an atomic
  since : Nat
  deriving DecidableEq, Repr, Inhabited

structure Xl where
  aptBase : Nat := 0
  aptLog2 : Nat := 0
  holdMax : Nat := 50
  xlateTimeout : Nat := 100
  slowWait : Nat := 10000
  wdTimeout : Nat := 10000
  releaseGuard : Nat := 10
  prefetch : Nat := 4
  wdFailed : Nat := 0
  hits : Nat := 0
  misses : Nat := 0
  faults : Nat := 0
  holdExpired : Nat := 0
  faultLog : List FaultRec := []
  binds : Tab Bind := []
  binding : List Nat := []        -- contexts whose binding is being changed
  known : List Nat := []          -- contexts whose binding the package holds since its last reset (R90)
  xgen : Tab Nat := []
  cache : Tab (List TEntry) := []      -- by tile
  evCtx : Tab Nat := []           -- by 256 * tile + i (R102)
  evFa : Tab Nat := []
  holds : Tab (List Held) := []   -- by tile
  misses_ : Tab (List Miss) := [] -- by die
  walkers : Tab (Option Walk) := []
  wcache : Tab (List WEntry) := []     -- by die
  mwaits : List MWait := []
  mfaults : List MWait := []      -- mover translations that ended XLATE_FAULT
  wds : List Withdrawal := []
  nextWd : Nat := 0
  notices : List WdNotice := []
  exch : Tab (Nat × Nat) := []    -- ATS exchanges of other packages' walkers here, from number 128: package, walker (log 16)
  remoteApt : Tab (Nat × Nat) := []    -- `XL.APT_BASE` and `XL.APT_LOG2` behind a host-port node of another package (R93)
  invQueue : List (Nat × Nat × Nat × Nat × Nat) := []  -- host Invalidate Requests waiting: h, itag, ctx, base, len
  deriving DecidableEq, Repr, Inhabited

/-- One end-point's receiving windows (R55). -/
structure WinEp where
  table : Tab Nat := []           -- 128-bit entries
  enable : Bool := false
  denied : Nat := 0
  deriving DecidableEq, Repr, Inhabited

/-- A grant (Table 10-4) with its revocation (R296). -/
structure Grant where
  id : Nat := 0
  valid : Bool := false
  rd : Bool := false
  wr : Bool := false
  at_ : Bool := false
  host : Bool := false
  revoked : Bool := false
  rstate : Nat := 0               -- field of EXT.REVOKE_STATE
  poisonedAny : Bool := false
  revokedAt : Nat := 0            -- when its revocation began (R296)
  deriving DecidableEq, Repr, Inhabited

structure Granule where
  die : Nat
  no : Nat
  rebuilt : Nat := 0              -- stripes treated by the rebuild (R291)
  deriving DecidableEq, Repr, Inhabited

/-- An extent (R274 to R278). -/
structure Ext where
  st : ExtState := .unused
  owner : Nat := 0
  base : Nat := 0
  len : Nat := 0
  pclass : Nat := 0
  keySlot : Nat := 0
  mac : Bool := false
  grants : Tab Grant := []
  granules : List Granule := []
  node : Nat := 0                 -- primary pool node at activation (R344)
  deriving DecidableEq, Repr, Inhabited

structure Stack where
  st : StackState := .untrained
  ce : Nat := 0
  ue : Nat := 0
  ueAt : List Nat := []           -- uncorrectable errors of the last second
  scrubPass : Nat := 0
  scrubPos : Nat := 0
  deriving DecidableEq, Repr, Inhabited

structure Die where
  st : DieState := .healthy
  fresh : Nat := 0                -- granules never allocated start here
  returned : List Nat := []       -- granules zeroed and free again
  sparesUsed : Nat := 0
  failed : List Nat := []         -- stacks of the die in the order in which they failed after initialisation
  deriving DecidableEq, Repr, Inhabited

/-- Table 10-10. -/
structure Counter where
  reads : Nat := 0
  writes : Nat := 0
  last : Nat := 0
  hole : Bool := false
  zeroed : Bool := false          -- the hole has been zeroed (R306)
  deriving DecidableEq, Repr, Inhabited

/-- Table 10-6. -/
structure Moraine where
  cause : Nat
  stack : Nat
  ext : Nat
  owner : Nat
  lines : Nat
  fa : Nat
  slot : Nat
  deriving DecidableEq, Repr, Inhabited

/-- A drift move (R111, R304). -/
structure Move where
  id : Nat
  page : Nat                      -- pool offset of the page
  entry : Nat                     -- FA of its leaf or frame entry
  word : Nat                      -- the entry as read, 128 bits
  land : Nat                      -- FA of the landing frame
  stage : Nat := 0                -- 0 MOVING being set, 1 withdrawing, 2 copying, 3 new FA written, 4 guard running
  pos : Nat := 0                  -- bytes for which a line has been issued
  done : Nat := 0                 -- lines written
  failed : Bool := false
  aborting : Bool := false
  doneAt : Nat := 0               -- when the withdrawal completed
  deriving DecidableEq, Repr, Inhabited

/-- Coherence directory entry (Table 11-5). -/
structure DirEnt where
  excl : Bool
  sharers : List Nat
  owner : Nat
  granted : Nat
  deriving DecidableEq, Repr, Inhabited

/-- A back-invalidate under way (R323). -/
structure BackInv where
  line : Nat
  host : Nat
  since : Nat
  sent : Bool := true             -- its BISNP has entered the buffer; otherwise it waits for room at point 256 (R178)
  discard : Bool                  -- RELEASE: the write-back is accepted and discarded (R278)
  revoke : Option (Nat × Nat)     -- extent and grant under revocation
  cleared : Bool                  -- the write-back, if any, has been performed
  deriving DecidableEq, Repr, Inhabited

/-- The memory pool (R272 to R307, R320). -/
structure Pool where
  st : Nat := 0
  decayEpochs : Nat := 64
  rebuildShare : Nat := 25
  scrubShare : Nat := 10
  stackUeLimit : Nat := 64
  evacuate : Bool := true
  warmup : Nat := 256
  onlineEpoch : Nat := 0
  driftEnable : Bool := true
  driftRate : Nat := 200
  zeroRate : Nat := 400
  moves : Nat := 0
  aborts : Nat := 0
  log : List Moraine := []        -- newest last
  head : Nat := 0
  linesEver : Nat := 0
  stks : Tab Stack := []
  dies : Tab Die := []
  exts : Tab Ext := []
  zeroing : Tab (List Granule) := []    -- granules awaiting zeroing, by extent
  mem : List Host.Cell := []      -- pool bytes by pool offset; an unlisted byte is 0
  poison : Tab Nat := []          -- poisoned lines (pool offset div 64) with their cause; cause 0: not poisoned
  spares : List Nat := []         -- lines performed into a lost-line spare (R293)
  parity : Tab Bytes := []        -- parity lines of P1 stripes by the line number of their first data line; one unlisted is zero (R280)
  macs : Tab Nat := []            -- 28-bit MAC stored with a line of an extent with EXT.MAC, by line (R345); one unlisted is that of the line as activated
  counters : Tab Counter := []    -- by pool offset div 2 MiB
  backptr : Tab Nat := []         -- by pool offset div 2 MiB; 0: none
  movesNow : List Move := []
  nextMove : Nat := 0
  started : Nat := 0              -- moves started in this decay period
  landed : List (Nat × Nat × Nat) := []  -- landing frames counted as occupied: frame, former page, entry
  scanned : List Nat := []        -- pages whose entry read is outstanding
  decayed : Bool := false         -- a decay has taken place and drift has not scanned since (R303)
  dir : Tab DirEnt := []          -- coherence directory by line; absent: FREE
  backInvs : List BackInv := []
  dirEvictions : Nat := 0
  deriving DecidableEq, Repr, Inhabited

/-- A host access into the aperture (R312, R313). -/
structure HostAcc where
  id : Nat
  rid : Nat
  htag : Option Nat               -- none: posted
  ctx : Nat
  kind : Nat                      -- 0 read, 1 write, 2 atomic
  off : Nat
  len : Nat
  ro : Bool
  atop : Nat
  data : Bytes
  since : Nat
  frame : Option Nat := none      -- frame entry once read
  issued : Bool := false
  left : Nat := 0                 -- lines without a final response
  parts : Tab Bytes := []         -- read data by line number
  fails : List Status := []
  movingAt : Option Nat := none   -- since when it is held for MOVING (R312)
  turn : Nat := 0                 -- a CXL.mem access's place in the order of line queues (R281)
  passed : Bool := false          -- it has passed the pool's checks and waits for other hosts (R278)
  deriving DecidableEq, Repr, Inhabited

/-- A fabric request that the end-point carries on the host link (R315, R316, R170). -/
structure HostFab where
  htag : Nat
  t : Txn
  adm : Nat
  vc : Nat
  cells : Nat
  kind : Nat                      -- 0 MemRd, 1 AtomicOp, 2 flush read covering writes; each request has reserved its response's cells (R199)
  covered : List QEntry := []     -- writes that a flush read covers
  since : Nat
  deriving DecidableEq, Repr, Inhabited

/-- `HP.ERR_LOG` record (R314). -/
structure HpErr where
  rid : Nat
  fa : Nat
  status : Nat
  slot : Nat
  deriving DecidableEq, Repr, Inhabited

/-- A tenant mailbox page (Table 11-9). -/
structure Mailbox where
  req : Bytes := []
  rsp : Bytes := []
  len : Nat := 0
  st : Nat := 0
  rlen : Nat := 0
  deriving DecidableEq, Repr, Inhabited

/-- A host port (Table 11-10). -/
structure HostPort where
  st : HostState := .linkDown
  mode : Nat := 0
  modeActive : Nat := 0           -- R308: mode at the last training
  trained : Bool := false
  refclk : Bool := true
  nopasidCtx : Nat := 0xFFFF
  biTimeout : Nat := 200
  errLog : List HpErr := []
  biSent : Nat := 0
  linesLost : Nat := 0
  tdi : TdiState := .unlocked
  mbRefused : Nat := 0
  ats : Bool := true
  pri : Bool := true              -- page requests may be made (R95)
  atomicEn : Bool := true         -- AtomicOp Requester Enable (R315)
  linkIde : Option Bool := none   -- link IDE stream: none not in force, some true secure
  ideSel : Tab Bool := []         -- selective IDE streams
  stalled : List Nat := []        -- requester IDs
  accs : List HostAcc := []
  nextAcc : Nat := 0
  fabs : List HostFab := []
  nextHtag : Nat := 0
  unflushed : List QEntry := []   -- writes issued and not yet covered by a flush read
  cxlLog : List (Nat × Nat) := [] -- CXL Event Log, Failure log: DPA, status
  mail : Tab Mailbox := []        -- by ring group
  snoops : List (Nat × Txn) := []      -- BISNPs that the host has not answered: DPA of the line, request (R123)
  pageReqs : List (Nat × Nat × Nat) := []    -- page requests outstanding: context, VA, asking package
  pageWait : List (Nat × Nat × Nat × Bool) := []   -- those beyond the host's allocation, with Write Requested (R91)
  scanning : Bool := false        -- the directory scan of R327 is under way
  msix : Tab Nat := []            -- vectors raised, by entry
  deriving DecidableEq, Repr, Inhabited

/-- A context-table entry (R334 to R337). -/
structure Ctx where
  st : CtxState := .free
  kgen : Nat := 0
  mask : Nat := 0
  home : Nat := 0
  slot : Nat := 0
  freeAt : Option Nat := none     -- device time at which it last became FREE
  fenceSince : Nat := 0
  deriving DecidableEq, Repr, Inhabited

/-- A change of context state running at this home (R335). -/
structure CtxChange where
  c : Nat
  to_ : CtxState
  waiting : List Nat              -- packages whose acknowledgement is missing, by primary pool node
  nfa : Nat
  nval : Nat
  deriving DecidableEq, Repr, Inhabited

/-- A key slot (R342, R346). -/
structure KeySlot where
  loaded : Bool := false
  host : Bool := false
  sealed : Bool := false
  kgen : Nat := 0
  owner : Nat := 0
  k1 : Nat := 0                   -- key material: free values (R342)
  k2 : Nat := 0
  k3 : Nat := 0
  deriving DecidableEq, Repr, Inhabited

/-- A bundle-key slot (R351). -/
structure BKey where
  used : Bool := false
  ctx : Nat := 0
  kgen : Nat := 0
  bundle : Nat := 0
  key : Nat := 0
  expiry : Nat := 0
  deriving DecidableEq, Repr, Inhabited

/-- The bundle load (R353, R354). -/
structure Bundle where
  st : BundlePhase := .idle
  cause : Nat := 0
  bslot : Nat := 0
  src : Nat := 0
  dst : Nat := 0
  nfa : Nat := 0
  nval : Nat := 0
  hdr : Bytes := []
  plainLen : Nat := 0
  nchunks : Nat := 0
  chunk : Nat := 0
  written : Nat := 0
  buf : Tab Bytes := []           -- chunk bytes read, by 64-byte piece
  left : Nat := 0                 -- requests outstanding
  deriving DecidableEq, Repr, Inhabited

structure Sec where
  ctxs : Tab Ctx := []
  changes : List CtxChange := []
  revoked : Nat := 0
  tableReady : Bool := true       -- the context entries homed elsewhere have been obtained (R335)
  tableWait : List Nat := []
  keys : Tab KeySlot := []
  bkeys : Tab BKey := []
  bundle : Bundle := {}
  thawCount : Nat := 0
  thawCtx : Nat := 0
  thawSlot : Nat := 0
  brokers : Tab Nat := []
  brokerLock : Bool := false
  deriving DecidableEq, Repr, Inhabited

/-- A value of R206 and R236: NaN, an infinity, or an exact finite value in units of 2^-149. -/
inductive XVal where
  | nan | inf (neg : Bool) | fin (neg : Bool) (mag : Nat)
  deriving DecidableEq, Repr, Inhabited

/-- An accumulator row (Table 8-2): `val` is (SIGN, MAG) as an exact integer in units of 2^-149, `best` the value of a MAX or MIN row. -/
structure Row where
  val : Int := 0
  best : Option XVal := none
  nan : Bool := false
  pinf : Bool := false
  ninf : Bool := false
  onlynz : Bool := true
  psn : Bool := false
  nonz : Bool := false
  arrived : Nat := 0
  opst : Option XVal := none
  inst : Nat := 0                 -- owning instance, its context, and that context's key generation
  ctx : Nat := 0
  kgen : Nat := 0
  deriving DecidableEq, Repr, Inhabited

/-- An operator instance (R225 to R233). -/
structure Inst where
  st : InstState := .idle
  status : Nat := 0
  phase : Nat := 0
  run : Nat := 0                  -- current run number
  slot : Nat := 0
  entry : OpsEntry := {}
  kgen : Nat := 0                 -- key generation of the owning context
  retiring : Bool := false        -- the run goes on under the retiring image (R230)
  ring : Nat := 0
  descIdx : Nat := 0
  nruns : Nat := 0
  done : Nat := 0                 -- runs ended OK
  runBase : Nat := 0
  startSlot : Nat := 0            -- slot at which the current run begins
  credit : Bool := false
  phaseSince : Nat := 0           -- device time at which a credit-only phase began
  rows : Tab Row := []            -- by element
  aux : Tab Row := []             -- by stripe group * 8 + auxiliary row
  words : Tab Nat := []           -- instance state words
  side : Tab (List Nat) := []     -- side words by token * 4096 + contributor
  cands : Tab (List (Nat × Nat)) := []  -- top-k lists: FP32 bits, INT32 index
  senders : List Nat := []        -- nodes that have contributed to the run
  peers : List Nat := []          -- lower stages that have contributed
  fails : List Status := []       -- failures of the run that do not end it at once (R229, R240)
  credits : List (Nat × Nat) := []  -- node and PHASE of each COL_CTL CREDIT: the sender has ended every phase before it
  emitted : List Nat := []        -- stripe groups rounded and sent
  lines : List (Nat × List (Byte × Bool)) := []  -- result bytes of lines that wait for another group
  out : Nat := 0                  -- result writes outstanding
  flags : Nat := 0                -- flag stores outstanding
  flagSent : Bool := false
  overflow : Nat := 0             -- RESULT[63:32]
  endSlot : Nat := 0
  revokedSeen : Bool := false
  deriving DecidableEq, Repr, Inhabited

structure Ops where
  enable : Bool := true
  grace : Nat := 4
  creditDeadline : Nat := 20000
  slushEntry : OpsEntry := {}
  slushNodes : Option (List Nat) := none
  discarded : Nat := 0
  runsOk : Nat := 0
  runsFailed : Nat := 0
  insts : Tab Inst := []
  deriving DecidableEq, Repr, Inhabited

/-- One entry of a contributor plan (R224): a range of elements of an instance's phase, and where, when and how densely it is sent. -/
structure PlanEnt where
  dnode : Nat := 0
  inst : Nat := 0
  phase : Nat := 0
  contrib : Nat := 0
  first : Nat := 0                -- first element
  count : Nat := 0                -- elements
  sides : Nat := 0                -- COL_SIDE packets that precede them
  port : Nat := 0
  anchor : Nat := 0               -- run starts: slots s with s mod period = anchor
  period : Nat := 1
  start : Nat := 0                -- first slot after the run start, and how many
  len : Nat := 0
  cells : Nat := 0                -- cells per slot
  deriving DecidableEq, Repr, Inhabited

/-- An end-point's contribution to one run of one instance (R224, R258). -/
structure ColRun where
  run : Nat := 0                  -- run periods since slot 0
  credit : Bool := false          -- the rest of the run is credit-only
  stopped : Bool := false         -- an ABORT has arrived
  sides : Tab Nat := []           -- COL_SIDE packets sent, by plan entry
  elems : Tab Nat := []           -- elements sent, by plan entry
  slot : Tab Nat := []            -- slot of the last packet, by plan entry
  used : Tab Nat := []            -- cells sent in it
  deriving DecidableEq, Repr, Inhabited

/-- A Farun end-point attached to the package, as the manual's end-point statements require it to behave (R2, R15, R36, R37, R46, R124 to R136,
R157 to R168, R224, R251, R341, R465). -/
structure Farun where
  ports : List Nat := []          -- its in-service fabric ports
  leaf : Tab Nat := []            -- LEAF number behind each port, from the capability frames (Table 7-6)
  pools : Tab (List Nat) := []    -- upper-range nodes behind each port (R444)
  pod : Bool := false
  racks : Nat := 0
  nextTag : Nat := 0
  broken : List (Nat × Nat × Nat) := []       -- flow keys to be resynchronised: CTX, FLOW, destination
  hints : List (Nat × Nat × Nat) := []        -- plane hints: CTX, VA div 2 MiB, TNODE
  absent : List Nat := []
  fencing : List Nat := []        -- engines whose fence waits
  failedW : List Nat := []        -- engines with a write or atomic that has not completed OK since their last successful fence
  fenced : List Nat := []         -- engines whose fence has succeeded and that have issued nothing since
  acquiring : List Nat := []      -- engines that wait for an acquire's response
  reserved : Nat := 0             -- response slots reserved (R125)
  mgtDiscarded : Nat := 0
  stray : Nat := 0
  engines : Nat := 1              -- issuing units declared (R148)
  pins : Tab (Nat × Option Nat) := []           -- by key of an outstanding request: its port, and the destination by which it was chosen (R133)
  uid : Nat := 0                  -- its identity (R444)
  gives : Tab Nat := []           -- node that each port's partner gives (R447)
  unsync : List (Nat × Nat × Nat × Nat) := []   -- engine and flow key (CTX, FLOW, destination) of its lost writes, until the RESYNC of R167
  releases : List (Nat × Txn) := []             -- engine and release that waits for its fence (R158)
  log : List (Nat × Nat) := []    -- reserved statuses received: HNODE, value (R15)
  oldNode : Option Nat := none    -- the node under which requests are still outstanding after a change (R447)
  memBytes : Nat := 0             -- populated memory (R46)
  atblBase : Nat := 0             -- its access table (R341)
  atblEntries : Nat := 0
  mem : List Host.Cell := []      -- its memory by offset; an unlisted byte is 0
  planId : Nat := 0               -- identity of its contributor plan (R444)
  plan : List PlanEnt := []
  planPort : Nat := 0             -- port whose partner it takes time from (R251)
  runs : Tab ColRun := []         -- by instance
  flying : Tab Nat := []          -- COL cells sent on a port and not yet arrived
  timeAt : Nat := 0               -- device time of the last record it took time from
  timeIs : Nat := 0               -- rack time at that moment, ns
  timeOn : Tab Nat := []          -- by port: epoch of the last usable record
  timePorts : Tab TimePort := []
  timeQ : Nat := 0                -- quality and stratum of that record
  timeStratum : Nat := 15
  deriving DecidableEq, Repr, Inhabited

/-- The whole machine. -/
structure State where
  pending : List Instr := []      -- commands waiting, first in first out
  out : List Output := []         -- everything emitted, oldest first
  free : Nat := 0                 -- count of free values taken (log 3)
  clk : Nat := 0                  -- device time in ns (log 1)
  dev : Dev := {}
  vane : Vane := {}
  evt : EventLog := {}
  thm : Therm := {}
  tel : Telemetry := {}
  rt : RackTime := {}
  tbl : Tables := {}
  ports : Tab Port := []
  lanes : Tab Lane := []
  link : LinkCfg := {}
  sw : Switch := {}
  xact : Xact := {}
  reqs : Tab OutReq := []         -- outstanding requests by node * 2^20 + TAG
  mov : Mov := {}
  xl : Xl := {}
  win : Tab WinEp := []
  pool : Pool := {}
  hp : Tab HostPort := []
  sec : Sec := {}
  ops : Ops := {}
  absent : List Nat := []         -- NODE.ABSENT
  noticeSlot : Tab Nat := []      -- SLOT of the last notice applied, by node (R464)
  departures : Nat := 0
  excluded : List Nat := []       -- packages excluded under R475
  farun : Tab Farun := []         -- attached end-points by node
  deriving DecidableEq, Repr

/-- The package right after a cold reset (R410, R452): every object at its Default, phase COLD, the CONST objects at their factory values. -/
def State.reset : State :=
  { dev := { uid := Config.uidLess1.toNat + 1, variantLH := Config.variantLH, stepping := Config.stepping.toNat,
             mac := Config.mac.toNat, vendorId := Config.vendorId.toNat },
    sec := { ctxs := [(0, { st := .active })] } }

end Sys2Proof.Machine
end

