-- ==== Sys2Proof/Machine/Bits.lean ====
section
/-! DEFINITION. Bit fields, byte strings and the check codes: little-endian fields (R10), CRC-32C (R183),
the 16-bit CRC of link control, and small list operations. -/

namespace Sys2Proof.Machine
open Sys2Proof

/-- Bits [lo + w - 1 : lo] of a number. -/
def field (v lo w : Nat) : Nat := v / 2 ^ lo % 2 ^ w
/-- Bit `i` of a number. -/
def bitOf (v i : Nat) : Bool := v.testBit i
def boolNat (b : Bool) : Nat := if b then 1 else 0
/-- Packs fields, given as (width, value) from bit 0 upward; a value is cut to its width. -/
def pack : List (Nat × Nat) → Nat
  | [] => 0
  | (w, v) :: r => v % 2 ^ w + 2 ^ w * pack r
/-- Splits a number into fields of the given widths from bit 0 upward. -/
def unpack : List Nat → Nat → List Nat
  | [], _ => []
  | w :: r, v => v % 2 ^ w :: unpack r (v / 2 ^ w)
/-- The `n` bytes of a number, least significant first (R10). -/
def leBytes : Nat → Nat → Bytes
  | 0, _ => []
  | n + 1, v => BitVec.ofNat 8 v :: leBytes n (v / 256)
/-- The number whose bytes these are, least significant first. -/
def leNat : Bytes → Nat
  | [] => 0
  | b :: r => b.toNat + 256 * leNat r
/-- The `n` bytes of a string from place `i`; places past its end read 0. -/
def slice (b : Bytes) (i n : Nat) : Bytes := ((b.drop i).take n) ++ List.replicate (n - ((b.drop i).take n).length) 0
/-- The number in the `n` bytes from place `i`. -/
def leAt (b : Bytes) (i n : Nat) : Nat := leNat (slice b i n)
/-- Replaces the bytes from place `i` by `x`. -/
def splice (b : Bytes) (i : Nat) (x : Bytes) : Bytes := slice b 0 i ++ x ++ b.drop (i + x.length)
/-- A number of `w` bits read as two's complement. -/
def toSigned (w v : Nat) : Int := if v % 2 ^ w < 2 ^ (w - 1) then (v % 2 ^ w : Nat) else (v % 2 ^ w : Nat) - (2 ^ w : Nat)
/-- Two's complement of an integer in `w` bits. -/
def ofSigned (w : Nat) (i : Int) : Nat := (i % (2 ^ w : Nat)).toNat
def ceilDiv (a b : Nat) : Nat := (a + b - 1) / b
/-- Number of set bits among bits 0 to n - 1. -/
def popc : Nat → Nat → Nat
  | 0, _ => 0
  | n + 1, v => v % 2 + popc n (v / 2)
/-- The set bits of a mask, in rising order, among bits 0 to n - 1. -/
def bitsOf (n v : Nat) : List Nat := (List.range n).filter (fun i => v.testBit i)
/-- The mask with these bits set. -/
def maskOf (l : List Nat) : Nat := l.foldl (fun m i => m ||| 2 ^ i) 0
/-- `l` without the elements that fail `p`, and the first that passes `q`. -/
def takeFirst {α : Type} (q : α → Bool) : List α → Option (α × List α)
  | [] => none
  | x :: r => if q x then some (x, r) else
    match takeFirst q r with
    | none => none
    | some (y, r') => some (y, x :: r')
/-- Adds an element that is not there yet. -/
def addNew (l : List Nat) (n : Nat) : List Nat := if l.contains n then l else l ++ [n]
def lastN {α : Type} (n : Nat) (l : List α) : List α := l.drop (l.length - n)

/-- One bit of the reflected Castagnoli CRC, polynomial 0x82F63B78 (R183). -/
def crc32cBit (r : Nat) : Nat := if r % 2 = 1 then (r / 2) ^^^ 0x82F63B78 else r / 2
def crc32cByte (r : Nat) (b : Byte) : Nat :=
  crc32cBit (crc32cBit (crc32cBit (crc32cBit (crc32cBit (crc32cBit (crc32cBit (crc32cBit (r ^^^ b.toNat))))))))
/-- The register after the bytes, before the final XOR. -/
def crc32cRun (seed : Nat) (bs : Bytes) : Nat := bs.foldl crc32cByte seed
/-- CRC-32C of RFC 3720 from a given initial register. -/
def crc32c (seed : Nat) (bs : Bytes) : Nat := crc32cRun seed bs ^^^ 0xFFFFFFFF
/-- One bit of the CRC of polynomial 0x1021, most significant bit first. -/
def crc16Bit (r : Nat) : Nat := if r / 32768 % 2 = 1 then (r * 2 % 65536) ^^^ 0x1021 else r * 2 % 65536
def crc16Byte (r : Nat) (b : Byte) : Nat :=
  crc16Bit (crc16Bit (crc16Bit (crc16Bit (crc16Bit (crc16Bit (crc16Bit (crc16Bit (r ^^^ (b.toNat * 256)))))))))
def crc16 (bs : Bytes) : Nat := bs.foldl crc16Byte 0xFFFF

end Sys2Proof.Machine
end

