-- ==== Sys2Proof/Machine/Base.lean ====
section
/-! DEFINITION. What every family uses: time, free values, the outbox, events (R456 to R459), state epochs (R426 to R430),
the phase of the package (R458), its own nodes (R40 to R44) and images. -/

namespace Sys2Proof

def Status.code : Status → Nat
  | .ok => 0 | .poisoned => 1 | .nodeAbsent => 2 | .ctxDenied => 3 | .ctxRevoked => 4 | .extRevoked => 5
  | .xlateFault => 6 | .aged => 7 | .timeout => 8 | .malformed => 9 | .retryLater => 10
/-- The status that a code stands for; codes that R11 reserves have none. -/
def statusOf : Nat → Option Status
  | 0 => some .ok | 1 => some .poisoned | 2 => some .nodeAbsent | 3 => some .ctxDenied | 4 => some .ctxRevoked
  | 5 => some .extRevoked | 6 => some .xlateFault | 7 => some .aged | 8 => some .timeout | 9 => some .malformed
  | 10 => some .retryLater | _ => none
/-- The order of R13 with TIMEOUT after AGED (R500): the lowest rank is the first. -/
def Status.rank : Status → Nat
  | .malformed => 0 | .ctxRevoked => 1 | .xlateFault => 2 | .nodeAbsent => 3 | .aged => 4 | .timeout => 5
  | .ctxDenied => 6 | .extRevoked => 7 | .retryLater => 8 | .poisoned => 9 | .ok => 10
/-- The place of a unit in the table of epochs. -/
def EUnit.code : EUnit → Nat
  | .device => 0 | .rackTime => 1 | .bank => 2 | .host h => 16 + h | .stack k => 64 + k | .port p => 256 + p
  | .ext e => 1024 + e | .key k => 8192 + k | .ring n => 65536 + n | .ctx c => 131072 + c
/-- Index and sub-index of a unit's epoch record (Table 14-8). -/
def EUnit.obj : EUnit → Nat × Nat
  | .device => (0x1000, 0x20) | .ring n => (0x1C00 + n / 256, n % 256) | .ctx c => (0x1D00 + c / 256, c % 256)
  | .key k => (0x1F00 + k / 256, k % 256) | .port p => (0x2000 + 16 * p, 0xFE) | .stack k => (0x4100 + k, 0xFE)
  | .ext e => (0x4A00 + e, 0xFE) | .rackTime => (0x7000, 0xFE) | .bank => (0x7100, 0xFE) | .host h => (0xA000 + 16 * h, 0xFE)

end Sys2Proof

namespace Sys2Proof.Machine
open Sys2Proof

/-- The answer of a command. -/
abbrev Answer := Host.Outcome State Fault Refusal

/-- Current slot of rack time (R8's term slot: 1,024 ns). -/
def State.slot (s : State) : Nat := s.rt.now / 1024
/-- Current epoch number: 1,024 slots. -/
def State.epochNo (s : State) : Nat := s.rt.now / 1048576
/-- Puts an output into the outbox (log 2). -/
def State.emit (s : State) (o : Output) : State := { s with out := s.out ++ [o] }
/-- The next free value, and the state that has taken it (log 3). -/
def State.fresh (s : State) : BitVec 64 × State := (Config.freeValue s.free, { s with free := s.free + 1 })
/-- A free byte string of `n` bytes, and the state that has taken it (log 3). -/
def State.freshBytes (s : State) (n : Nat) : Bytes × State := (slice (Config.freeBytes s.free n) 0 n, { s with free := s.free + 1 })

def State.port (s : State) (p : Nat) : Port := tget {} s.ports p
def State.modPort (s : State) (p : Nat) (f : Port → Port) : State := { s with ports := tmod {} s.ports p f }
def State.lane (s : State) (l : Nat) : Lane := tget {} s.lanes l
def State.modLane (s : State) (l : Nat) (f : Lane → Lane) : State := { s with lanes := tmod {} s.lanes l f }
def State.host (s : State) (h : Nat) : HostPort := tget {} s.hp h
def State.modHost (s : State) (h : Nat) (f : HostPort → HostPort) : State := { s with hp := tmod {} s.hp h f }
def State.ring (s : State) (n : Nat) : Ring := tget {} s.mov.rings n
def State.modRing (s : State) (n : Nat) (f : Ring → Ring) : State :=
  { s with mov := { s.mov with rings := tmod {} s.mov.rings n f } }
def State.ctx (s : State) (c : Nat) : Ctx := tget {} s.sec.ctxs c
def State.modCtx (s : State) (c : Nat) (f : Ctx → Ctx) : State :=
  { s with sec := { s.sec with ctxs := tmod {} s.sec.ctxs c f } }
def State.key (s : State) (k : Nat) : KeySlot := tget {} s.sec.keys k
def State.modKey (s : State) (k : Nat) (f : KeySlot → KeySlot) : State :=
  { s with sec := { s.sec with keys := tmod {} s.sec.keys k f } }
def State.ext (s : State) (e : Nat) : Ext := tget {} s.pool.exts e
def State.modExt (s : State) (e : Nat) (f : Ext → Ext) : State :=
  { s with pool := { s.pool with exts := tmod {} s.pool.exts e f } }
def State.stack (s : State) (k : Nat) : Stack := tget {} s.pool.stks k
def State.modStack (s : State) (k : Nat) (f : Stack → Stack) : State :=
  { s with pool := { s.pool with stks := tmod {} s.pool.stks k f } }
def State.die (s : State) (d : Nat) : Die := tget {} s.pool.dies d
def State.modDie (s : State) (d : Nat) (f : Die → Die) : State :=
  { s with pool := { s.pool with dies := tmod {} s.pool.dies d f } }
def State.inst (s : State) (i : Nat) : Inst := tget {} s.ops.insts i
def State.modInst (s : State) (i : Nat) (f : Inst → Inst) : State :=
  { s with ops := { s.ops with insts := tmod {} s.ops.insts i f } }

-- Codes of the state objects
def Phase.code : Phase → Nat
  | .cold => 0 | .strap => 1 | .slush => 2 | .tables => 3 | .full => 4 | .degraded => 5 | .drain => 6 | .off => 7
def PortState.code : PortState → Nat
  | .disabled => 0 | .detect => 1 | .lock => 2 | .exchange => 3 | .equalise => 4 | .verify => 5 | .linked => 6
  | .inService => 7 | .test => 8 | .failed => 9
def Quality.code : Quality → Nat
  | .unset => 0 | .acquiring => 1 | .locked => 2 | .holdover => 3 | .unlocked => 4
def BankState.code : BankState → Nat
  | .empty => 0 | .loading => 1 | .checking => 2 | .ready => 3 | .armed => 4 | .retiring => 5
def RingState.code : RingState → Nat
  | .disabled => 0 | .running => 1 | .halted => 2 | .draining => 3
def CtxState.code : CtxState → Nat
  | .free => 0 | .active => 1 | .stopping => 2 | .revoking => 3 | .thawing => 4
def ExtState.code : ExtState → Nat
  | .unused => 0 | .active => 1 | .releasing => 2 | .zeroing => 3
def StackState.code : StackState → Nat
  | .untrained => 0 | .online => 1 | .failed => 2
def DieState.code : DieState → Nat
  | .healthy => 0 | .rebuilding => 1 | .exposed => 2 | .retired => 3
def HostState.code : HostState → Nat
  | .linkDown => 0 | .active => 1 | .dead => 2
def Thermal.code : Thermal → Nat
  | .normal => 0 | .alert => 1 | .shed => 2 | .drain => 3 | .trip => 4
def InstState.code : InstState → Nat
  | .idle => 0 | .armed => 1 | .running => 2 | .delivering => 3 | .done => 4 | .failed => 5
/-- The first status of a list in the order of R500; OK of an empty list. -/
def worst (l : List Status) : Status := l.foldl (fun a b => if b.rank < a.rank then b else a) .ok

/-- VERSION of the image in the standby bank (Table 9-16): of one being loaded or checked, from its header bytes. -/
def Tables.standbyVersion (t : Tables) : Nat :=
  match t.stdState with
  | .empty => 0 | .loading => leAt t.stdBytes 16 8 | .checking => leAt t.stdBytes 16 8 | .ready => t.std.version | .armed => t.std.version
  | .retiring => (t.retiring.getD {}).version
/-- Whether the built-in default image is in force (R439). -/
def State.builtIn (s : State) : Bool := s.tbl.active.version == 0
def State.isLeaf (s : State) : Bool := !s.dev.spine
/-- The POS and RACK straps give the built-in default its number; an image gives the package's number in Table 9-8's code. -/
def State.pkgNo (s : State) : Nat :=
  if s.dev.spine then 288 + s.tbl.active.pos else 18 * s.tbl.active.rack + s.tbl.active.pos
def nodeEnt (img : Image) (n : Nat) : NodeEnt := tget {} img.nodes n
def routeEnt (img : Image) (n : Nat) : RouteEnt := tget {} img.routes n
/-- The first node of a kind that an image gives to a package (and host port). -/
def nodeOf (img : Image) (kind pkg hport : Nat) : Option Nat :=
  (img.nodes.find? (fun x => x.2.kind == kind && x.2.pkg == pkg && x.2.hport == hport)).map Prod.fst
/-- `DEV.POOL_NODE` (R44). -/
def State.poolNode (s : State) : Nat := (nodeOf s.tbl.active (if s.dev.spine then 3 else 2) s.pkgNo 0).getD 0xFFFF
/-- `DEV.POOL_NODE2` (R44). -/
def State.poolNode2 (s : State) : Nat :=
  if s.dev.variantLH then (nodeOf s.tbl.active 5 s.pkgNo 0).getD 0xFFFF else 0xFFFF
/-- `HP.NODE` (R44). -/
def State.hpNode (s : State) (h : Nat) : Nat := (nodeOf s.tbl.active 4 s.pkgNo h).getD 0xFFFF
/-- All nodes of this package. -/
def State.ownNodes (s : State) : List Nat :=
  ((s.poolNode :: s.poolNode2 :: (List.range 8).map s.hpNode).filter (· < 0xFFF))
/-- Primary pool nodes of the scope: the packages of the rack in rack mode, of the pod in pod mode (R108, R335). -/
def State.scopeNodes (s : State) (pod : Bool) : List Nat :=
  (s.tbl.active.nodes.filter (fun x => (x.2.kind == 2 && (pod || x.2.pkg / 18 == s.tbl.active.rack)) || (x.2.kind == 3 && pod))).map Prod.fst
/-- Whether the package works in a pod: pod-mode LEAF or SPINE. -/
def State.inPod (s : State) : Bool := s.dev.mode != 0

/-- Whether port `p` carries virtual channels, and the pool of Table 7-2 in which its arrivals stand: 0 U, 1 D. -/
def State.portPool (s : State) (p : Nat) : Option Nat :=
  if s.dev.spine then (if s.builtIn then none else some 0)
  else if s.dev.mode == 1 && s.tbl.active.uplink.any (fun x => x.2 == p) then some 1
  else if p % 4 == 3 && !(s.tbl.active.routes.any (fun x => x.2.kind == 1 && x.2.target == p)) then none
  else some 0
def State.portHasVcs (s : State) (p : Nat) : Bool := (s.portPool p).isSome

def State.epochRec (s : State) (u : EUnit) : EpochRec := tget {} s.vane.epochs u.code
def State.modEpoch (s : State) (u : EUnit) (f : EpochRec → EpochRec) : State :=
  { s with vane := { s.vane with epochs := tmod {} s.vane.epochs u.code f } }
/-- DP_STATE of a unit (Tables 14-8, 14-9). -/
def State.dpState (s : State) : EUnit → Nat
  | .device => s.dev.phase.code
  | .ring n => (s.ring n).st.code
  | .ctx c => (s.ctx c).st.code
  | .key k => boolNat (s.key k).loaded
  | .port p => (s.port p).st.code
  | .stack k => (s.stack k).st.code
  | .ext e => (s.ext e).st.code
  | .rackTime => s.rt.quality.code
  | .bank => s.tbl.stdState.code
  | .host h => (s.host h).st.code
/-- MG_STATE of a unit: what R430 or a command has set, else the state that the unit's configuration asks for (Table 14-8). -/
def State.mgState (s : State) (u : EUnit) : Nat :=
  match (s.epochRec u).mg with
  | some m => m
  | none =>
    match u with
    | .device => 4
    | .ring n => boolNat (s.ring n).cfg.enable
    | .ctx c => if c == 0 then 1 else 0
    | .key _ => 0
    | .port p => if (s.port p).enable then (if s.portHasVcs p then 7 else 6) else 0
    | .stack _ => 1
    | .ext _ => 0
    | .rackTime => 2
    | .bank => 0
    | .host h => if (s.host h).mode == 0 then 0 else 1
/-- Sets a managed state, as a write or a command does (R429); none returns the unit to its configured one. -/
def State.setMg (s : State) (u : EUnit) (m : Option Nat) : State := s.modEpoch u (fun r => { r with mg := m, since := s.clk })

/-- The 32 bytes of an event record (Table 16-2). -/
def Event.bytes (e : Event) : Bytes :=
  leBytes 32 (pack [(4, e.cls), (2, e.sev), (2, 0), (8, e.code), (16, e.unit), (32, e.detail), (64, e.slot), (64, e.aux), (64, 0)])
/-- Sends a NOTIFY of the event to session `i` if it is subscribed (R431). -/
def notifyOne (e : Event) (s : State) (i : Nat × Session) : State :=
  if i.2.isOpen && i.2.subscribe.testBit e.cls then
    { s with vane := { s.vane with notifySeq := s.vane.notifySeq + 1 } }.emit
      (.notify i.1 { op := 4, rsp := true, seq := (s.vane.notifySeq + 1) % 65536, index := 0x9000, sub := 1, len := 32, payload := e.bytes })
  else s
/-- Writes an event (R456, R459). -/
def State.event (s : State) (cls code sev unit detail aux : Nat) : State :=
  if sev < s.evt.minSev then s else
  let e : Event := { cls := cls, code := code, sev := sev, unit := unit, detail := detail, aux := aux, slot := s.slot }
  let s1 := { s with evt := { s.evt with log := lastN 4096 (s.evt.log ++ [e]), head := s.evt.head + 1 } }
  s1.vane.sessions.foldl (notifyOne e) s1

/-- Accounts for a change of unit `u` from its state in `old` to its state now: the epoch rises, and DISAGREE is set when the
data path left the managed state on its own, cleared when the managed state is reached (R426, R429). -/
def State.noteChange (old s : State) (u : EUnit) (self : Bool) (force : Bool) : State :=
  let moved := old.dpState u != s.dpState u
  let s1 := if moved || force then
      s.modEpoch u (fun r => { r with epoch := (r.epoch + 1) % 4294967296, self := self, slot := s.slot })
    else s
  if s1.dpState u == s1.mgState u then s1.modEpoch u (fun r => { r with disagree := false })
  else if self && moved && old.dpState u == old.mgState u && !(s1.epochRec u).disagree then
    (s1.modEpoch u (fun r => { r with disagree := true })).event 1 0x01 1 u.obj.1 u.obj.2 0
  else s1
/-- A change that the data path makes on its own. -/
def State.selfChange (s : State) (u : EUnit) (f : State → State) : State := State.noteChange s (f s) u true false
/-- A change that a command makes. -/
def State.cmdChange (s : State) (u : EUnit) (f : State → State) : State := State.noteChange s (f s) u false false

/-- Moves the package to a phase. -/
def State.toPhase (s : State) (ph : Phase) (self : Bool) : State :=
  State.noteChange s { s with dev := { s.dev with phase := ph, phaseSince := s.clk } } .device self false
/-- The conditions of DEGRADED (R458). -/
def State.degradedCond (s : State) : Bool :=
  s.pool.dies.any (fun d => d.2.st != .healthy) || s.sw.flood || decide (2 ≤ s.thm.stage.code) || !s.excluded.isEmpty
/-- Moves between FULL and DEGRADED as R458 states. -/
def State.settlePhase (s : State) : State :=
  if s.dev.phase == .full && s.degradedCond then s.toPhase .degraded true
  else if s.dev.phase == .degraded && !s.degradedCond then s.toPhase .full true
  else s
/-- FULL or DEGRADED. -/
def State.inService (s : State) : Bool := s.dev.phase == .full || s.dev.phase == .degraded

/-- The limit A_c of a class in ns (R187). -/
def State.ageLimit (s : State) (cls : Nat) : Nat := (s.sw.ageLimit.getD cls 2000) * 1000
/-- The hop limit H_c in ns: whole microseconds (R187). -/
def State.hopLimit (s : State) (cls : Nat) : Nat := ((s.sw.ageLimit.getD cls 2000 - 30) / s.sw.hops) * 1000

end Sys2Proof.Machine
end

