-- ==== Sys2Proof/Machine/Num.lean ====
section
/-! DEFINITION. Exact values and their rounding. A finite value is a magnitude in units of 2^-149, the quantum of binary32, so
that every value of R206 and every sum of such values is exact. -/

namespace Sys2Proof.Machine
open Sys2Proof

/-- Rounding modes (Table 8-9 RND): to nearest even, toward zero, up, down. -/
inductive Rnd where | rne | rz | rup | rdn
  deriving DecidableEq, Repr

/-- Whether the quotient `n` with remainder `r` over `d` is rounded away from zero. -/
def roundsUp (m : Rnd) (neg : Bool) (n r d : Nat) : Bool :=
  match m with
  | .rne => decide (d < 2 * r) || (2 * r == d && n % 2 == 1)
  | .rz => false
  | .rup => !neg && r != 0
  | .rdn => neg && r != 0
/-- The magnitude num/den (units of 2^-149) rounded to `p` significant bits with the smallest quantum 2^qmin. -/
def roundMag (m : Rnd) (p qmin : Nat) (neg : Bool) (num den : Nat) : Nat :=
  let q := Nat.log2 (num / den)
  let e := if q + 1 ≤ p + qmin then qmin else q + 1 - p
  let d := den * 2 ^ e
  let n := num / d
  (if roundsUp m neg n (num % d) d then n + 1 else n) * 2 ^ e
/-- A magnitude of at most 24 significant bits as the low 31 bits of binary32. -/
def f32MagBits (mag : Nat) : Nat :=
  let e := Nat.log2 mag - 23
  e * 2 ^ 23 + mag / 2 ^ e
/-- The value of a binary32 pattern. -/
def f32Val (b : Nat) : XVal :=
  let s := b.testBit 31
  let e := field b 23 8
  let m := field b 0 23
  if e == 255 then (if m == 0 then .inf s else .nan)
  else if e == 0 then .fin s m else .fin s ((2 ^ 23 + m) * 2 ^ (e - 1))
/-- The value of a BF16 pattern: the upper half of a binary32 one. -/
def bf16Val (b : Nat) : XVal := f32Val (b % 65536 * 65536)
/-- A signed magnitude as an integer. -/
def signedMag (neg : Bool) (mag : Nat) : Int := if neg then -(mag : Int) else mag
/-- The exact sum of two values: opposite infinities give NaN; an exact zero sum is +0 unless both are -0 (R129). -/
def xAdd : XVal → XVal → XVal
  | .nan, _ => .nan
  | _, .nan => .nan
  | .inf a, .inf b => if a == b then .inf a else .nan
  | .inf a, .fin _ _ => .inf a
  | .fin _ _, .inf b => .inf b
  | .fin a x, .fin b y =>
    let t := signedMag a x + signedMag b y
    if t = 0 then .fin (a && b) 0 else .fin (decide (t < 0)) t.natAbs
/-- Binary32 bits of a value, rounded to nearest even; overflow gives infinity (R129). -/
def f32Bits : XVal → Nat
  | .nan => 0x7FC00000
  | .inf s => boolNat s * 2 ^ 31 + 0x7F800000
  | .fin s mag =>
    let r := roundMag .rne 24 0 s mag 1
    boolNat s * 2 ^ 31 + (if 2 ^ 277 ≤ r then 0x7F800000 else f32MagBits r)
/-- BF16 bits of a value, rounded once to nearest even. -/
def bf16Bits : XVal → Nat
  | .nan => 0x7FC0
  | .inf s => boolNat s * 32768 + 0x7F80
  | .fin s mag =>
    let r := roundMag .rne 8 16 s mag 1
    boolNat s * 32768 + (if 2 ^ 277 ≤ r then 0x7F80 else f32MagBits r / 65536)
/-- FADD_F32 (R129). -/
def fadd32 (a b : Nat) : Nat := f32Bits (xAdd (f32Val a) (f32Val b))
/-- One lane of FADD_BF16X2 (R129). -/
def faddBf16 (a b : Nat) : Nat := bf16Bits (xAdd (bf16Val a) (bf16Val b))

end Sys2Proof.Machine
end

