-- ==== Sys2Proof/Machine/Txn.lean ====
section
/-! DEFINITION. Transactions: classes and sizes (Tables 5-1, 7-1), atomic operations (Table 5-6, R129), responses (R123, R138)
and the access a request makes. -/

namespace Sys2Proof

/-- Class code of R176: REQ 0, FWD 1, RSP 2, COL 3, MGT 4. -/
def TType.cls : TType → Nat
  | .rd => 0 | .wr => 0 | .atom => 0 | .resync => 0 | .bisnp => 1
  | .rspData => 2 | .rspAtom => 2 | .rspDone => 2 | .birsp => 2
  | .colData => 3 | .colSide => 3 | .colPart => 3 | .colCtl => 3 | .mgtMsg => 4 | .nodeLeave => 4 | .null => 4
/-- ATOP's operation, width in bytes, and whether the combination exists (Table 5-6). -/
def atopOp (a : Nat) : Nat := a % 16
def atopWidth (a : Nat) : Nat := 4 * 2 ^ (a / 16 % 4)
def atopOk (a : Nat) : Bool :=
  [0x00, 0x10, 0x01, 0x02, 0x03, 0x13, 0x14, 0x24, 0x05, 0x15, 0x06, 0x16, 0x07, 0x17, 0x08, 0x18,
   0x09, 0x19, 0x0A, 0x1A, 0x0B, 0x1B].contains a
/-- Combinable operations: all but the floating-point additions and CAS (Table 5-6). -/
def atopCombinable (a : Nat) : Bool := atopOk a && !([1, 2, 4].contains (atopOp a))
/-- Payload slots of an ATOM (Table 5-6). DESIGN CHOICE (log 48): the table gives none for a combination that it does not list; the receiver takes one. -/
def atopSlots (a : Nat) : Nat := if a == 0x14 then 2 else if a == 0x24 then 4 else 1
/-- Bytes that a request covers (R117). -/
def Txn.len (t : Txn) : Nat :=
  match t.ty with
  | .rd => t.size + 1 | .wr => t.size + 1 | .atom => atopWidth t.size | .bisnp => 64 | _ => 0
/-- The destination node of a request, once it holds one: NODE of its FA or window-mode address (R132). -/
def Txn.dest (t : Txn) : Option Nat := if t.akind == 1 then none else some (t.addr / 2 ^ 41 % 4096)
def Txn.off (t : Txn) : Nat := t.addr % 2 ^ 41
def Txn.isReq (t : Txn) : Bool := t.ty.cls == 0
def Txn.isRsp (t : Txn) : Bool := t.ty.cls == 2
/-- Slots of 8 bytes (R114, R121). -/
def Txn.slots (t : Txn) : Nat :=
  2 + (if t.home.isSome then 1 else 0) +
  match t.ty with
  | .wr => (t.addr % 8 + t.size + 1 + 7) / 8
  | .atom => atopSlots t.size
  | .rspData => t.dslots
  | .rspAtom => t.dslots
  | .colData => t.data.length / 8
  | .colSide => t.data.length / 8
  | .colPart => t.data.length / 8
  | .colCtl => t.data.length / 8
  | .mgtMsg => t.data.length / 8
  | .nodeLeave => 1
  | _ => 0
/-- Cells of the firn buffer (R172). -/
def Txn.cells (t : Txn) : Nat := (t.slots + 7) / 8
/-- Flow key without its destination (R132). -/
def Txn.flowOf (t : Txn) : Nat × Nat × Nat := (t.snode, t.ctx, t.flow)
/-- Whether the bytes of two requests overlap. -/
def Txn.overlaps (a b : Txn) : Bool :=
  decide (a.addr < b.addr + b.len) && decide (b.addr < a.addr + a.len) && decide (0 < a.len) && decide (0 < b.len)
/-- The response of a hop that fails a request (R138, R189): RSP_DONE; to a BISNP BIRSP (R123), but RSP_DONE where it is discarded (R189). -/
def Txn.fail (t : Txn) (st hnode : Nat) : Txn :=
  { ty := if t.ty == .bisnp && st != 7 then .birsp else .rspDone, status := st, dnode := t.snode, kgen := t.kgen, ctx := t.ctx, tag := t.tag,
    hnode := hnode, tnode := t.dest.getD 0xFFF, flow := t.flow }
/-- The response of a home that has performed a request, with what it returns (R123). -/
def Txn.reply (t : Txn) (st hnode : Nat) (data : Bytes) : Txn :=
  let base := t.fail st hnode
  match t.ty with
  | .rd => if st == 0 || st == 1 then { base with ty := .rspData, dslots := data.length / 8, data := data } else base
  | .atom => if st == 0 then { base with ty := .rspAtom, dslots := data.length / 8, data := data } else base
  | _ => base

/-- Bits of the hash key: source, context, flow, destination (R183). -/
def hashKey (src ctx flow dst : Nat) : Nat := src % 4096 + 2 ^ 12 * (ctx % 65536) + 2 ^ 28 * (flow % 8) + 2 ^ 31 * (dst % 4096)
/-- The hash key of a transaction (R183; R222 for class COL). A BISNP names its host port by `dnode` (log 20). -/
def Txn.key (t : Txn) : Nat :=
  if t.isRsp then hashKey t.hnode t.ctx t.flow t.dnode
  else if t.ty.cls == 4 then hashKey t.snode 0 0 t.dnode
  else if t.ty.cls == 3 || t.ty.cls == 1 then hashKey t.snode t.ctx 0 t.dnode
  else hashKey t.snode t.ctx t.flow (t.dest.getD 0xFFF)
/-- The node by which a transaction is routed (R181). -/
def Txn.routeNode (t : Txn) : Nat := if t.isReq then t.dest.getD 0xFFF else t.dnode

end Sys2Proof

namespace Sys2Proof.Machine
open Sys2Proof

/-- An integer operation of Table 5-6 on two operands of `w` bits: old value first. -/
def intOp (op w a b : Nat) : Nat :=
  match op with
  | 0 => (a + b) % 2 ^ w
  | 3 => b
  | 5 => if toSigned w b < toSigned w a then b else a
  | 6 => if toSigned w a < toSigned w b then b else a
  | 7 => if b < a then b else a
  | 8 => if a < b then b else a
  | 9 => a &&& b
  | 10 => a ||| b
  | 11 => a ^^^ b
  | _ => a
/-- The value that an atomic leaves, from the old value, the operand and CAS's swap value (R129). -/
def atomNew (atop old x swap : Nat) : Nat :=
  match atopOp atop with
  | 1 => fadd32 old x
  | 2 => faddBf16 (old % 65536) (x % 65536) + 65536 * faddBf16 (old / 65536) (x / 65536)
  | 4 => if old == x then swap else old
  | op => intOp op (8 * atopWidth atop) old x
/-- Operand and swap value of an ATOM's payload (R128). -/
def atomOperands (t : Txn) : Nat × Nat :=
  let w := atopWidth t.size
  (leAt t.data 0 w, if atopOp t.size == 4 then leAt t.data w w else 0)
/-- The four bytes above a 4-byte operand are zero (R128). -/
def atomSlotOk (t : Txn) : Bool := atopWidth t.size != 4 || leAt t.data 4 4 == 0
/-- The slots of an old value: one, or two for 16 bytes. -/
def atomData (atop old : Nat) : Bytes := leBytes (if atopWidth atop == 16 then 16 else 8) old
/-- The line check and alignment checks of R117 with R128's list, for the fields of a request. -/
def reqShapeOk (t : Txn) : Bool :=
  t.rsvd == 0 &&
  match t.ty with
  | .rd => decide (t.size < 64) && decide (t.addr % 64 + t.size + 1 ≤ 64)
  | .wr => decide (t.size < 64) && decide (t.addr % 64 + t.size + 1 ≤ 64)
  | .atom => atopOk t.size && t.addr % atopWidth t.size == 0
  | .resync => t.size == 0 && t.akind == 0 && t.off == 0
  | .bisnp => t.size == 0 && t.akind == 0
  | _ => true
/-- The address check of the first Kolfy (R35, R36, R116). -/
def reqAddrOk (t : Txn) : Bool :=
  t.akind == 1 || (t.akind != 3 && t.addr / 2 ^ 53 % 16 == 0 && t.addr / 2 ^ 41 % 4096 != 0xFFF)
/-- The combined operand of an accretion entry (Table 5-9). -/
def combine (atop : Nat) : List Nat → Nat
  | [] => 0
  | x :: r => r.foldl (intOp (atopOp atop) (8 * atopWidth atop)) x
/-- The results of the contributors, from the old value (Table 5-9): each receives the fold of the operands before its own. -/
def splitResults (atop : Nat) (v : Nat) : List Nat → List Nat
  | [] => []
  | x :: r => v :: splitResults atop (intOp (atopOp atop) (8 * atopWidth atop) v x) r

end Sys2Proof.Machine
end

