-- ==== Sys2Proof/Machine/Switch.lean ====
section
/-! DEFINITION. The switch core: admission (R176 to R178), routes and hash pinning (R181 to R185), broken flows (R190 to R194),
REPIN (R196), queues, melt (R187 to R189) and accretion (R139 to R144). -/

namespace Sys2Proof.Machine
open Sys2Proof

/-- Whether a (context, generation) pair is current (R340). -/
def State.kgenCurrent (s : State) (ctx kgen : Nat) : Bool :=
  if ctx == 0 then kgen == 0
  else ((s.ctx ctx).st == .active || (s.ctx ctx).st == .stopping) && (s.ctx ctx).kgen == kgen

-- Admission (R178)
def State.admOf (s : State) (a v : Nat) : Adm := tget {} s.sw.adm (10 * a + v)
def State.floorCap (s : State) (a v : Nat) : Nat × Nat := tget (0, 0) s.tbl.active.admTab (10 * a + v)
/-- Cells of the shared region that nothing has claimed. -/
def State.sharedFree (s : State) : Nat :=
  6291456 - (s.tbl.active.admTab.map (fun x => x.2.1)).sum - s.sw.shared
/-- Sets the charges of (a, v) and settles what it claims from the shared region. -/
def State.setAdm (s : State) (a v held out : Nat) : State :=
  let old := s.admOf a v
  let c := held + out - (s.floorCap a v).1
  { s with sw := { s.sw with adm := tset s.sw.adm (10 * a + v) { held := held, out := out, claimed := c },
                             shared := s.sw.shared + c - old.claimed } }
/-- Grants `n` credits of (a, v) to the partner of port a: its credit count rises. -/
def State.grant (s : State) (a v n : Nat) : State :=
  let o := s.admOf a v
  (s.setAdm a v o.held (o.out + n)).modPort a (fun p => { p with ccOut := tmod 0 p.ccOut v (· + n) })
/-- For each of `n` admitted cells, one further credit while O < CAP and the shared region has a free cell. -/
def grantMore (a v : Nat) : Nat → State → State
  | 0, s => s
  | n + 1, s =>
    let o := s.admOf a v
    if o.held + o.out < (s.floorCap a v).2 && 0 < s.sharedFree then grantMore a v n (s.grant a v 1) else s
/-- Charges arriving cells; a fabric port's cells use credits that the device had granted. -/
def State.charge (s : State) (a v n : Nat) : State :=
  let o := s.admOf a v
  if a < 256 then grantMore a v n (s.setAdm a v (o.held + n) (o.out - n)) else s.setAdm a v (o.held + n) 0
def State.portUp (s : State) (p : Nat) : Bool := (s.port p).st == .inService
/-- Frees cells of (a, v); the partner of a port in service is granted credits until O equals FLOOR. A port that is down grants at its next training. -/
def State.freeCells (s : State) (a v n : Nat) : State :=
  let o := s.admOf a v
  let s0 := s.setAdm a v (o.held - n) o.out
  let s1 := { s0 with sw := { s0.sw with busyAt := s.clk } }
  let lack := (s.floorCap a v).1 - (o.held - n + o.out)
  if a < 256 && 0 < lack && s.portUp a then s1.grant a v lack else s1
/-- Whether `n` more cells may be reserved at an internal point. -/
def State.canReserve (s : State) (a v n : Nat) : Bool :=
  let o := s.admOf a v
  decide (o.held + n ≤ (s.floorCap a v).2) && decide (o.held + n - (s.floorCap a v).1 - o.claimed ≤ s.sharedFree)

-- Routes (R181 to R185)
/-- The first port that is up on the ALT chain of `p`, within `n` steps. -/
def altChain (img : Image) (up : Nat → Bool) : Nat → Nat → Option Nat
  | 0, _ => none
  | n + 1, p =>
    let q := tget 0xFFFF img.alt p
    if 256 ≤ q then none else if up q then some q else altChain img up n q
/-- The port that carries the traffic of port `p`: ALT applies while `p` is down or ALT stands in for it. -/
def viaAlt (img : Image) (up : Nat → Bool) (standsIn : Bool) (p : Nat) : Option Nat :=
  if up p && !standsIn then some p
  else match altChain img up 4 p with
    | some q => some q
    | none => if up p then some p else none
/-- The hash of R183 and its bucket. -/
def hashOf (img : Image) (key : Nat) : Nat := crc32c img.seed (leBytes 8 key)
def bucketOf (img : Image) (key : Nat) : Nat := tget 0 img.bucket (hashOf img key % 256)
/-- The egress that a route entry chooses before ALT: ports 0 to 255, 256 the pool end-point, 257 + h host port h (R185). -/
def baseEgress (img : Image) (adm node key : Nat) : Option Nat :=
  let r := routeEnt img node
  match r.kind with
  | 1 => some r.target
  | 2 => some (256 + r.target)
  | 3 => let p := tget 0xFFFF img.uplink (bucketOf img key); if p < 256 then some p else none
  | 4 =>
    let w := 64 / (if img.k == 0 then 1 else img.k)
    some (w * r.target + (if adm < 256 then adm % w else bucketOf img key % w))
  | _ => none
/-- The egress of a transaction under the active image; none is route NONE. -/
def State.egress (s : State) (adm node key : Nat) : Option Nat :=
  match baseEgress s.tbl.active adm node key with
  | none => none
  | some e => if e < 256 then viaAlt s.tbl.active s.portUp (s.port e).altOn e else some e
/-- The egress that requests took under the previous image: by the states of the ports and the ALT substitutions at the switch-over (R196). -/
def State.oldEgress (s : State) (img : Image) (adm node key : Nat) : Option Nat :=
  match baseEgress img adm node key with
  | none => none
  | some e => if e < 256 then viaAlt img s.sw.oldUp.contains (s.sw.oldAlt.contains e) e else some e

-- Marks (R190 to R194)
/-- Opens a REPIN window (Table 7-9); one already open for the same flows goes on until the later end. -/
def State.addRepin (s : State) (c : RepinCause) (dur : Nat) : State :=
  let old := ((s.sw.repins.filter (fun r => r.cause == c)).map (fun r => r.until_)).foldl max 0
  { s with sw := { s.sw with repins := s.sw.repins.filter (fun r => r.cause != c) ++ [{ cause := c, until_ := max old (s.clk + dur) }] } }
def State.enterFlood (s : State) : State :=
  if s.sw.flood then s else (({ s with sw := { s.sw with flood := true } }).event 8 0x01 1 0 0 0).settlePhase
/-- FLOOD ends when the spill falls below 75 % of its capacity (R194). -/
def State.floodCheck (s : State) : State :=
  if s.sw.flood && decide (s.sw.marks.length < 65536 + 3145728) then
    ((({ s with sw := { s.sw with flood := false } }).event 8 0x02 0 0 0 0).addRepin .floodEnd (s.ageLimit 0 + s.ageLimit 2)).settlePhase
  else s
/-- Adds a mark or PASS record; a window-mode source is never marked (R193), and a full table starts FLOOD (R194). -/
def State.addMark (s : State) (m : Mark) : State :=
  if (routeEnt s.tbl.active m.snode).wmode || s.sw.flood || s.sw.marks.contains m then s
  else if 65536 + 4194304 ≤ s.sw.marks.length then s.enterFlood
  else { s with sw := { s.sw with marks := s.sw.marks ++ [m] } }
/-- Marks the flow of a request that came through admission point `adm`: its key, or the wildcard of its tile (R136). -/
def State.markFlow (s : State) (t : Txn) (adm : Nat) : State :=
  s.addMark { snode := t.snode, ctx := t.ctx, flow := t.flow, dest := t.dest, tile := if t.dest.isSome then 0 else adm, pass := false }
def Mark.hits (m : Mark) (t : Txn) (adm : Nat) : Bool :=
  m.snode == t.snode && m.ctx == t.ctx && m.flow == t.flow &&
  (match m.dest with | some d => t.dest == some d | none => m.tile == adm)
def State.marked (s : State) (t : Txn) (adm : Nat) : Bool := s.sw.marks.any (fun m => !m.pass && m.hits t adm)
def State.passes (s : State) (t : Txn) (adm : Nat) : Bool := s.sw.marks.any (fun m => m.pass && m.hits t adm)
/-- Drops the marks and PASS records that `p` holds for. -/
def State.dropMarks (s : State) (p : Mark → Bool) : State :=
  ({ s with sw := { s.sw with marks := s.sw.marks.filter (fun m => !p m) } }).floodCheck
/-- Whether a flow is in REPIN (Table 7-9). -/
def State.inRepin (s : State) (t : Txn) (adm : Nat) : Bool :=
  s.sw.repins.any (fun r => decide (s.clk < r.until_) &&
    match r.cause with
    | .port q => baseEgress s.tbl.active adm t.routeNode t.key == some q
    | .switchOver =>
      (match s.sw.oldImg with
       | some img => s.oldEgress img adm t.routeNode t.key != s.egress adm t.routeNode t.key
       | none => false)
    | .floodEnd => true
    | .egress e => s.egress adm t.routeNode t.key == some e)
/-- Whether a request is discarded with AGED for its flow: at a mark, or in REPIN without a PASS record (R192, R196). -/
def State.barred (s : State) (t : Txn) (adm : Nat) : Bool := s.marked t adm || (s.inRepin t adm && !s.passes t adm)

-- Queues
def State.queue (s : State) (egress vc : Nat) : List QEntry := tget [] s.sw.queues (10 * egress + vc)
def State.setQueue (s : State) (egress vc : Nat) (q : List QEntry) : State :=
  { s with sw := { s.sw with queues := tset s.sw.queues (10 * egress + vc) q } }
def State.lineQ (s : State) (tile : Nat) : List QEntry := tget [] s.sw.lines tile
def State.setLineQ (s : State) (tile : Nat) (q : List QEntry) : State :=
  { s with sw := { s.sw with lines := tset s.sw.lines tile q } }
def State.enqueue (s : State) (egress vc : Nat) (e : QEntry) : State := s.setQueue egress vc (s.queue egress vc ++ [e])
/-- A transaction as it enters the buffer now. -/
def State.entry (s : State) (t : Txn) (adm vc : Nat) : QEntry :=
  { t := t, adm := adm, vc := vc, cells := t.cells, since := s.clk, hlim := s.hopLimit t.ty.cls }
/-- The request that the home serves: a window-mode one as resolved (R56). -/
def QEntry.homeTxn (e : QEntry) : Txn := e.native.getD e.t
/-- VC of the queue that a transaction takes: its class in the pool that admitted it. -/
def QEntry.queueVc (e : QEntry) : Nat := e.t.ty.cls + 5 * (e.vc / 5)
def State.release (s : State) (e : QEntry) : State := s.freeCells e.adm e.vc e.cells
/-- Hands a response to the package's own requesters (R124). -/
def State.toInbox (s : State) (t : Txn) : State := { s with xact := { s.xact with inbox := s.xact.inbox ++ [t] } }
/-- Sends a response that a hop or a home has formed in the entry's cell (R138): by its route, UP included. -/
def State.sendRsp (s : State) (e : QEntry) : State :=
  match s.egress e.adm e.t.dnode e.t.key with
  | none => { s.release e with sw := { (s.release e).sw with noRoute := s.sw.noRoute + 1 } }
  | some 256 => (s.release e).toInbox e.t
  | some eg => s.enqueue eg e.queueVc e
/-- Turns an entry into the response of a hop that does not perform it; the first cell carries it, the others are freed (R138, R189). -/
def State.failEntry (s : State) (e : QEntry) (st : Nat) (repl : Bool) : State :=
  let rsp := e.t.fail st s.poolNode
  let s1 := s.freeCells e.adm e.vc (e.cells - 1)
  s1.sendRsp { e with t := rsp, cells := 1, since := s.clk, hlim := s.hopLimit 2, repl := repl, ready := false, acc := none }
/-- A response that a hop turns into RSP_DONE AGED (R189, Table 12-2). -/
def State.ageRsp (s : State) (e : QEntry) : State :=
  let s1 := s.freeCells e.adm e.vc (e.cells - 1)
  s1.sendRsp { e with t := { e.t with ty := .rspDone, status := 7, dslots := 0, data := [], hnode := s.poolNode },
                      cells := 1, since := s.clk, hlim := s.hopLimit 2, repl := true, ready := false }
/-- Which contributors' flows the end of an accretion entry marks (Table 7-7): none, those of an atomic entry (R144), or all, as each is a request
that this hop discards. -/
inductive MarkOf where
  | none | atomics | all
  deriving DecidableEq, Repr
def MarkOf.marks (m : MarkOf) (t : Txn) : Bool :=
  match m with | .none => false | .atomics => t.ty == .atom | .all => true
/-- Answers the contributors of an accretion entry that ends without a result (R144, Table 12-2). -/
def failContribs (st : Nat) (mark : MarkOf) : List Contrib → State → State
  | [], s => s
  | c :: r, s =>
    let s1 := if mark.marks c.t then s.markFlow c.t c.adm else s
    let s2 := s1.freeCells 265 2 c.reserved
    let e := s2.entry (c.t.fail st s2.poolNode) c.adm c.vc
    failContribs st mark r ((s2.freeCells c.adm c.vc (c.cells - 1)).sendRsp { e with cells := if c.cells == 0 then 0 else 1, repl := true })
/-- Discards a request, or an entry with its contributors, with AGED in its place (R189). -/
def State.discard (s : State) (e : QEntry) (mark : MarkOf) : State :=
  match e.acc with
  | some a => failContribs 7 mark a.contribs s
  | none => (if mark.marks e.t then s.markFlow e.t e.adm else s).failEntry e 7 true
/-- The requests that a queue entry stands for. -/
def QEntry.requests (e : QEntry) : Nat := match e.acc with | some a => a.contribs.length | none => 1
/-- Discards a request at a mark or in REPIN, where its flow is marked (R192, R196). -/
def State.markDiscard (s : State) (e : QEntry) : State :=
  { s with sw := { s.sw with markDiscards := s.sw.markDiscards + e.requests } }.discard e .all
def bumpAt (l : List Nat) (i : Nat) : List Nat := l.set i (l.getD i 0 + 1)
/-- Melt (R189, R191): counts the discard, marks the flow of a request and answers in its place. -/
def State.melt (s : State) (e : QEntry) (egress : Option Nat) : State :=
  let c := e.t.ty.cls
  let s1 := { s with sw := { s.sw with melted := bumpAt s.sw.melted c } }
  let s2 := match egress with | some p => if p < 256 then s1.modPort p (fun x => { x with melted := x.melted + 1 }) else s1 | none => s1
  if c == 0 then
    match e.acc with
    | some a => if a.contribs.length < 2 then (s2.markFlow e.t e.adm).failEntry e 7 true
                else failContribs 7 .all a.contribs s2
    | none => (s2.markFlow e.t e.adm).failEntry e 7 true
  else if c == 1 then s2.failEntry e 7 true
  else if c == 2 && !e.repl then s2.ageRsp e
  else s2.release e
/-- Whether an entry's residence has passed its limit (R188); it ended where the pool has accepted the request. -/
def State.tooOld (s : State) (e : QEntry) : Bool := e.accepted.isNone && decide (e.hlim < s.clk - e.since)
def State.countRevoked (s : State) : State := { s with sec := { s.sec with revoked := s.sec.revoked + 1 } }
/-- Table 12-2 for an entry of a retired generation. -/
def State.retire (s : State) (e : QEntry) : State :=
  let s1 := s.countRevoked
  if e.t.ty.cls == 2 then s1.ageRsp e
  else match e.acc with
    | some a => failContribs 4 .none a.contribs s1
    | none => s1.failEntry e 4 false
/-- Whether Table 12-2 acts on an entry: class REQ, FWD or RSP of a retired pair, but for an RSP_DONE that already reports AGED or CTX_REVOKED. -/
def State.retired (s : State) (t : Txn) : Bool :=
  !s.kgenCurrent t.ctx t.kgen && (t.ty.cls == 0 || (t.ty.cls == 2 && !(t.ty == .rspDone && (t.status == 7 || t.status == 4))))
/-- The checks of the head of a queue (R188, R192, R196, R340) in the order of R13: the new state where the entry ends there, none where it passes. -/
def State.headCheck (s : State) (e : QEntry) (egress : Option Nat) : Option State :=
  if e.t.isReq && s.retired e.t then some (s.retire e)
  else if s.tooOld e then some (s.melt e egress)
  else if s.retired e.t then some (s.retire e)
  else if e.t.isReq && e.t.ty != .resync && s.barred e.t e.adm then some (s.markDiscard e)
  else none

/-- Whether an accretion entry at the head of a queue holds contributors whose flows are marked or in REPIN: each is a request that has reached
the head (R192, R196). -/
def State.trims (s : State) (e : QEntry) : Bool :=
  match e.acc with
  | some a => decide (2 ≤ a.contribs.length) && a.contribs.any (fun c => s.barred c.t c.adm) && !s.tooOld e && !s.retired e.t
  | none => false
/-- Discards those contributors; the next in arrival order leads the rest, which `put` puts back at the head (R144, R192). -/
def State.trim (s : State) (e : QEntry) (put : QEntry → State → State) : State :=
  match e.acc with
  | some a =>
    let bad := a.contribs.filter (fun c => s.barred c.t c.adm)
    let s1 := failContribs 7 .all bad { s with sw := { s.sw with markDiscards := s.sw.markDiscards + bad.length } }
    (match a.contribs.filter (fun c => !s.barred c.t c.adm) with
      | [] => s1
      | c :: r => put { e with t := c.t, adm := c.adm, vc := c.vc, cells := c.cells, since := c.since, hlim := c.hlim, acc := some { a with contribs := c :: r } } s1)
  | none => s
-- Accretion (R139 to R142)
/-- Whether the image and the objects enable accretion of this request at this home (R139). -/
def State.accretes (s : State) (t : Txn) (home : Nat) : Bool :=
  s.xact.accEnable && s.inService && (t.akind == 0 || t.akind == 3) && !t.acq &&
  ((t.ty == .rd && (tget 0 s.tbl.active.accr home).testBit 0) ||
   (t.ty == .atom && atopCombinable t.size && atomSlotOk t && (tget 0 s.tbl.active.accr home).testBit 1))
/-- Entries that hold a place at a tile (R142). -/
def State.accPlaces (s : State) (tile : Nat) : Nat :=
  let inQ := fun (qs : Tab (List QEntry)) =>
    (qs.map (fun x => (x.2.filter (fun e => match e.acc with | some a => a.tile == tile | none => false)).length)).sum
  inQ s.sw.queues + inQ s.sw.lines +
    (s.reqs.filter (fun r => match r.2.who with | .accretion a => a.tile == tile | _ => false)).length
/-- Whether `t` may join the entry led by `e` (R140), the reservation apart. -/
def joinable (t : Txn) (e : QEntry) : Bool :=
  match e.acc with
  | none => false
  | some a => !a.closed && decide (a.contribs.length < 64) && e.t.ty == t.ty && e.t.addr == t.addr && e.t.size == t.size &&
      e.t.ctx == t.ctx && e.t.kgen == t.kgen && e.t.akind == t.akind && e.t.home == t.home
/-- Cells that the response of an accreted request reserves: one for an ATOM, two for an RD (R140). -/
def rspCells (t : Txn) : Nat := if t.ty == .rd then 2 else 1
/-- Whether a queue entry, or a contributor in it, is of `t`'s flow key. -/
def sameFlow (t : Txn) (e : QEntry) : Bool :=
  let k := fun (x : Txn) => x.snode == t.snode && x.ctx == t.ctx && x.flow == t.flow && x.dest == t.dest
  match e.acc with | some a => a.contribs.any (fun c => k c.t) | none => k e.t
/-- The queue with the open entries that `t` overlaps closed (R141). -/
def closeOverlaps (t : Txn) (q : List QEntry) : List QEntry :=
  q.map (fun e => match e.acc with
    | some a => if e.t.overlaps t then { e with acc := some { a with closed := true } } else e
    | none => e)
/-- The entries behind the first that passes `p`. -/
def behind (p : QEntry → Bool) : List QEntry → List QEntry
  | [] => []
  | e :: r => if p e then r else behind p r
def mapFirst (p : QEntry → Bool) (f : QEntry → QEntry) : List QEntry → List QEntry
  | [] => []
  | e :: r => if p e then f e :: r else e :: mapFirst p f r
/-- Cells to reserve at (265, RSP) when `t` joins: its own, and the leader's where nothing is reserved for it yet. -/
def joinCells (t : Txn) (e : QEntry) : Nat :=
  match e.acc with | some a => if a.contribs.any (fun c => c.reserved == 0) then 2 * rspCells t else rspCells t | none => 0
def addContrib (c : Contrib) (e : QEntry) : QEntry :=
  match e.acc with
  | some a => { e with acc := some { a with contribs := a.contribs.map (fun x => { x with reserved := c.reserved }) ++ [c] } }
  | none => e
/-- An entry opens with its leader (R140), with the hold that the image and `XACT.ACC_HOLD` give it (R141, R146). -/
def State.openEntry (s : State) (e : QEntry) (tile home : Nat) : QEntry :=
  let c : Contrib := { t := e.t, adm := e.adm, vc := e.vc, cells := e.cells, reserved := 0, since := e.since, hlim := e.hlim }
  let hold := if e.t.ty == .atom && (tget 0 s.tbl.active.accr home).testBit 2 then some s.xact.accHold else none
  { e with acc := some { contribs := [c], openedAt := s.clk, closed := false, tile := tile, hold := hold } }
/-- Puts a request into a queue that leads directly to its home, with accretion: the new queue and state. -/
def State.accretePut (s : State) (q : List QEntry) (e : QEntry) (tile home : Nat) : List QEntry × State :=
  if !s.accretes e.t home then (closeOverlaps e.t q ++ [e], s)
  else
    match q.find? (joinable e.t) with
    | some g =>
      if !(behind (joinable e.t) q).any (sameFlow e.t) && s.canReserve 265 2 (joinCells e.t g) then
        let s1 := (s.release e).charge 265 2 (joinCells e.t g)
        let q1 := mapFirst (joinable e.t) (addContrib { t := e.t, adm := e.adm, vc := e.vc, cells := 0, reserved := rspCells e.t, since := e.since, hlim := e.hlim }) q
        (q1, { s1 with xact := (if e.t.ty == .rd then { s1.xact with accReads := s1.xact.accReads + 1 }
                              else { s1.xact with accAtoms := s1.xact.accAtoms + 1 }),
                       tel := { s1.tel with tileJoin := tmod 0 s1.tel.tileJoin tile (· + 1) } })
      else
        let q1 := closeOverlaps e.t q
        let refused := !(behind (joinable e.t) q).any (sameFlow e.t)   -- for lack of RSP space
        let s1 := if refused then { s with xact := { s.xact with accRefused := s.xact.accRefused + 1 } } else s
        if s1.accPlaces tile < 256 then (q1 ++ [s1.openEntry e tile home], s1)
        else (q1 ++ [e], if refused then s1 else { s1 with xact := { s1.xact with accRefused := s1.xact.accRefused + 1 } })
    | none =>
      let q1 := closeOverlaps e.t q
      if s.accPlaces tile < 256 then (q1 ++ [s.openEntry e tile home], s)
      else (q1 ++ [e], { s with xact := { s.xact with accRefused := s.xact.accRefused + 1 } })
/-- Whether an entry of atomics still waits at the head of its queue for its hold (R141). -/
def State.accHeld (s : State) (e : QEntry) : Bool :=
  match e.acc with
  | some a => (match a.hold with
    | some h => decide (s.clk < a.openedAt + h) && !a.closed && decide (a.contribs.length < 64)
    | none => false)
  | none => false

-- Tags and outstanding requests (R124)
/-- The first tag from `t` that no outstanding request of the node holds. -/
def freeTag (reqs : Tab OutReq) (node : Nat) : Nat → Nat → Nat
  | 0, t => t % 1048576
  | n + 1, t => if (tfind reqs (node * 1048576 + t % 1048576)).isSome then freeTag reqs node n (t + 1) else t % 1048576
def State.newTag (s : State) : Nat := freeTag s.reqs s.poolNode s.reqs.length s.xact.nextTag
/-- The combined request of an entry with joiners (R141, R143). -/
def combinedTxn (a : AccEntry) (t : Txn) (node tag : Nat) : Txn :=
  { t with snode := node, tag := tag, flow := 0,
           data := if t.ty == .atom then
               leBytes (8 * atopSlots t.size) (combine t.size (a.contribs.map (fun c => (atomOperands c.t).1))) else t.data }
/-- What leaves the queue for an entry: the leader's own request, or the combined request under a tag of the package (R141). -/
def State.leave (s : State) (e : QEntry) : QEntry × State :=
  match e.acc with
  | none => (e, s)
  | some a =>
    if a.contribs.length < 2 then
      let r := (a.contribs.map (fun c => c.reserved)).sum   -- what joiners that were discarded have left
      ({ e with acc := none }, if r == 0 then s else s.freeCells 265 2 r)
    else
      let tag := s.newTag
      let t := combinedTxn a e.t s.poolNode tag
      ({ e with acc := none, t := t },
       { s with xact := { s.xact with nextTag := tag + 1 },
                reqs := tset s.reqs (s.poolNode * 1048576 + tag)
                  { t := t, who := .accretion { a with contribs := a.contribs.map (fun c => { c with cells := 0 }) },
                    issuedAt := s.clk, timeout := s.ageLimit 0 + s.ageLimit 2 } })

/-- The tile whose queue serves a pool offset (R279 to R281): by the extent that holds it. -/
def extOfOff (s : State) (off : Nat) : Option (Nat × Ext) :=
  s.pool.exts.find? (fun x => x.2.st != .unused && decide (x.2.base ≤ off) && decide (off < x.2.base + x.2.len))
/-- Where an offset of an extent lies: granule index, line in it, and for P1 the stripe and the place in it. -/
def granBytes (pclass : Nat) : Nat := if pclass == 1 then 10485760 else 12582912
def granIdx (x : Ext) (off : Nat) : Nat := (off - x.base) / granBytes x.pclass
def granLine (x : Ext) (off : Nat) : Nat := (off - x.base) % granBytes x.pclass / 64
def granAt (x : Ext) (i : Nat) : Granule := x.granules.getD i { die := 0, no := 0 }
/-- Stack position q of a line within its die, and its channel position (R279, R280). -/
def linePos (x : Ext) (off : Nat) : Nat × Nat :=
  let l := granLine x off
  if x.pclass == 1 then
    let z := l / 5
    let k := l % 5
    let p := z % 6
    (if k < p then k else k + 1, z % 32)
  else (l / 32 % 6, l % 32)
def lineStack (x : Ext) (off : Nat) : Nat := 6 * (granAt x (granIdx x off)).die + (linePos x off).1
/-- Stack of the parity line of a P1 line's stripe. -/
def parityStack (x : Ext) (off : Nat) : Nat := 6 * (granAt x (granIdx x off)).die + (granLine x off / 5) % 6
/-- Row of a line in its channel's share of the granule (R279, R280). -/
def lineRow (x : Ext) (off : Nat) : Nat := if x.pclass == 1 then granLine x off / 5 / 32 else granLine x off / 192
/-- The tile of a line's queue (R281). -/
def lineTile (x : Ext) (off : Nat) : Nat :=
  (32 * (if x.pclass == 1 then parityStack x off else lineStack x off) + (linePos x off).2) / 3
/-- The pool offset of an FA at one of this package's pool nodes (R42). -/
def State.poolOff (s : State) (fa : Nat) : Nat :=
  if s.poolNode2 != 0xFFFF && fa / 2 ^ 41 % 4096 == s.poolNode2 then 2 ^ 41 + fa % 2 ^ 41 else fa % 2 ^ 41
/-- The FA of a pool offset. -/
def State.poolFa (s : State) (off : Nat) : Nat :=
  if 2 ^ 41 ≤ off then s.poolNode2 * 2 ^ 41 + off % 2 ^ 41 else s.poolNode * 2 ^ 41 + off
/-- The tile whose line queue a request for an offset takes; where no extent holds it, the request is refused at the head whatever the queue. -/
def State.tileOf (s : State) (off : Nat) : Nat :=
  match extOfOff s off with | some (_, x) => lineTile x off | none => off / 64 % 256

-- Receiving windows (R55, R56)
structure WinEnt where
  valid : Bool
  rd : Bool
  wr : Bool
  at_ : Bool
  ctx : Nat
  base : Nat
  lenM1 : Nat
  deriving DecidableEq, Repr
def winEnt (v : Nat) : WinEnt :=
  { valid := bitOf v 0, rd := bitOf v 1, wr := bitOf v 2, at_ := bitOf v 3, ctx := field v 8 16, base := field v 32 25, lenM1 := field v 64 15 }
def State.winEp (s : State) (e : Nat) : WinEp := tget {} s.win e
/-- Resolves a window-mode request at end-point `e` (R56): its native request, or the status of the first failing step. -/
def State.window (s : State) (e : Nat) (t : Txn) : Except Status Txn :=
  if t.akind != 2 then .ok t
  else if !(s.winEp e).enable then .error .malformed
  else
    let w := winEnt (tget 0 (s.winEp e).table (field t.addr 31 10))
    let woff := field t.addr 0 31
    if !w.valid then .error .ctxDenied
    else if (w.lenM1 + 1) * 65536 < woff + t.len then .error .ctxDenied
    else if !(match t.ty with | .rd => w.rd | .wr => w.wr | .atom => w.at_ | _ => true) then .error .ctxDenied
    else .ok { t with akind := 0, ctx := w.ctx, addr := t.addr / 2 ^ 41 * 2 ^ 41 + w.base * 65536 + woff }
def State.winDeny (s : State) (e : Nat) : State := { s with win := tmod {} s.win e (fun w => { w with denied := w.denied + 1 }) }

/-- The doorbell aperture of the primary pool node (R68). -/
def inDoorbell (off : Nat) : Bool := decide (0x1FFFF000000 ≤ off) && decide (off < 2 ^ 41)
-- The pool end-point's checks
/-- The right that an access type needs of a grant. -/
def Grant.allows (g : Grant) (ty : TType) : Bool :=
  match ty with | .rd => g.rd | .wr => g.wr | .atom => g.at_ && g.wr | _ => true
/-- R277: the status of the extent check for a context or a host port: none passes. -/
def extCheck (x : Ext) (ty : TType) (ctx : Option Nat) (host : Option Nat) : Option Status :=
  let hit := fun (g : Grant) => g.valid && g.allows ty &&
    (match ctx, host with
     | some c, _ => !g.host && g.id == c
     | none, some h => g.host && g.id % 8 == h
     | none, none => false)
  if ctx == some x.owner || ctx == some 0 then none
  else if x.grants.any (fun g => hit g.2 && !g.2.revoked) then none
  else if x.grants.any (fun g => hit g.2 && g.2.revoked) then some .extRevoked
  else some .ctxDenied
/-- A write by which another package's drift fills a landing frame of this pool (R304). -/
def State.landing (s : State) (t : Txn) : Bool :=
  t.ty == .wr && t.akind == 3 && t.ctx == 0 && t.size == 63 && t.snode != s.poolNode &&
  ((nodeEnt s.tbl.active t.snode).kind == 2 || (nodeEnt s.tbl.active t.snode).kind == 3)
/-- Whether a page is a hole for a request: only a landing write may enter one, once it has been zeroed (R52, R306). -/
def State.holeFor (s : State) (t : Txn) (off : Nat) : Bool :=
  let c := tget {} s.pool.counters (off / 2 ^ 21)
  c.hole && !(c.zeroed && s.landing t)
/-- A sealed extent's data may leave only on an encrypted port or towards a host with a secure IDE stream (R346). -/
def State.sealOk (s : State) (x : Ext) (t : Txn) : Bool :=
  !(s.key x.keySlot).sealed || !(t.ty == .rd || t.ty == .atom) ||
  (match s.egress 256 t.snode (hashKey (t.dest.getD 0) t.ctx t.flow t.snode) with
   | some eg => if eg < 256 then (s.port eg).cryptState == 2
                else if eg == 256 then true
                else (s.host (eg - 257)).linkIde == some true || (s.host (eg - 257)).ideSel.any (fun y => y.2)
   | none => true)
/-- The checks of the home that a native request meets as it enters the pool's line queues (R47, R83, R277, R346, R438), in the order of R13; a request
that has passed them is performed whatever changes afterwards (R278, R296). The doorbell aperture and RESYNC have checks of their own (R68, R135). -/
def State.homeGate (s : State) (t : Txn) : Option Status :=
  if t.ty == .resync || (inDoorbell (t.addr % 2 ^ 41) && t.dest == some s.poolNode) then none
  else if s.pool.st == 0 then some .retryLater
  else match extOfOff s (s.poolOff t.addr) with
    | none => some .ctxDenied
    | some (_, x) =>
      if x.st != .active || s.holeFor t (s.poolOff t.addr) then some .ctxDenied
      else if t.akind == 3 && t.home != some (x.pclass, x.keySlot) then some .ctxDenied
      else if !s.sealOk x t then some .ctxDenied
      else extCheck x t.ty (some t.ctx) none
/-- The next place in the order of line queues (R281). -/
def State.takeTurn (s : State) : State := { s with sw := { s.sw with nextTurn := s.sw.nextTurn + 1 } }
/-- Puts a request into the line queue of its line (R139, R188, R281): a window-mode request resolved first (R56), one that fails a check with its status. -/
def State.putTurn (s : State) (e : QEntry) : State :=
  match (if e.t.ty == .atom && !atomSlotOk e.t then .error .malformed else s.window 0 e.t) with
  | .error st =>
    let tile := s.tileOf (s.poolOff e.t.addr)
    (if st == .ctxDenied then s.winDeny 0 else s).setLineQ tile (s.lineQ tile ++ [{ e with gate := some st }])
  | .ok t =>
    let tile := s.tileOf (s.poolOff t.addr)
    match s.homeGate t with
    | some st => s.setLineQ tile (closeOverlaps t (s.lineQ tile) ++ [{ e with gate := some st }])
    | none =>
      if e.t.akind == 2 then s.setLineQ tile (closeOverlaps t (s.lineQ tile) ++ [{ e with native := some t }])
      else
        let r := s.accretePut (s.lineQ tile) e tile (e.t.dest.getD 0xFFF)
        r.2.setLineQ tile r.1
def State.putLine (s : State) (e : QEntry) : State := s.takeTurn.putTurn { e with turn := s.sw.nextTurn }
/-- Whether a CXL.mem access stands before an access in the queue of a tile (R281). -/
def State.cxlBefore (s : State) (tile turn : Nat) : Bool :=
  s.hp.any (fun q => q.2.accs.any (fun b => decide (4 ≤ b.kind) && s.tileOf b.off == tile && decide (b.turn < turn)))
/-- Whether no request and no CXL.mem access waits in the queue of a tile. -/
def State.lineFree (s : State) (tile : Nat) : Bool := (s.lineQ tile).isEmpty && !s.cxlBefore tile s.sw.nextTurn
/-- Whether no access waits in a line queue for a range of the pool. -/
def State.rangeFree (s : State) (base len : Nat) : Bool :=
  let in_ := fun (o : Nat) => decide (base ≤ o) && decide (o < base + len)
  s.sw.lines.all (fun q => q.2.all (fun r => !in_ (s.poolOff r.homeTxn.addr))) && s.hp.all (fun q => q.2.accs.all (fun b => b.kind < 4 || !in_ b.off))

/-- Puts a request that has passed its checks into the queue of its egress (R175, R139): line queues for the pool end-point. -/
def State.putReq (s : State) (e : QEntry) (eg : Nat) : State :=
  if eg == 256 then s.putLine e
  else
    let home := e.t.dest.getD 0xFFF
    if eg < 256 && (routeEnt s.tbl.active home).kind == 1 && (routeEnt s.tbl.active home).target == eg && s.isLeaf then
      let r := s.accretePut (s.queue eg e.queueVc) e eg home
      r.2.setQueue eg e.queueVc r.1
    else s.enqueue eg e.queueVc e
/-- The AGED checks of R13 at admission: FLOOD, marks, REPIN; RESYNC clears marks and writes a PASS record (R135, R192, R194, R196). -/
def State.agedOrPut (s : State) (e : QEntry) (eg : Nat) : State :=
  if e.t.ty == .resync then
    let s1 := s.dropMarks (fun m => !m.pass && m.hits e.t e.adm)
    let s2 := if s1.inRepin e.t e.adm then
        s1.addMark { snode := e.t.snode, ctx := e.t.ctx, flow := e.t.flow, dest := e.t.dest, tile := e.adm, pass := true } else s1
    s2.putReq e eg
  else if s.sw.flood then s.discard e .none
  else if s.barred e.t e.adm then s.markDiscard e
  else s.putReq e eg
/-- Routes a request that holds its FA: NODE_ABSENT and AGED in the order of R13, a D-pool arrival never up (R182). -/
def State.forward (s : State) (e : QEntry) : State :=
  let node := e.t.dest.getD 0xFFF
  if s.absent.contains node then s.failEntry e 2 false
  else if 5 ≤ e.vc && (routeEnt s.tbl.active node).kind == 3 then
    { s with sw := { s.sw with updownViol := s.sw.updownViol + 1 } }.failEntry e 2 false
  else match s.egress e.adm node e.t.key with
    | none => s.failEntry e 2 false
    | some eg => s.agedOrPut e eg
/-- The flow key of a request (R132). -/
def flowKeyOf (t : Txn) : Nat × Nat × Nat × Nat := (t.snode, t.ctx, t.flow, t.dest.getD 0xFFF)
/-- Response space that a request reserves, in slots (R125): the header, and 8 slots for an RD or 2 for an ATOM. -/
def reserveSlots (t : Txn) : Nat := match t.ty with | .rd => 10 | .atom => 4 | _ => 2
/-- The admission point of one of the package's requesters: 257 + h for a host-port end-point's node, else 265 (Table 7-2). -/
def State.pointOf (s : State) (node : Nat) : Nat :=
  if node == s.poolNode then 265 else 257 + (nodeEnt s.tbl.active node).hport
/-- An end-point's own node for NODE = 0xFFF in an FA (R36). -/
def ownFa (node : Nat) (t : Txn) : Txn :=
  if t.akind != 1 && t.addr / 2 ^ 41 % 4096 == 0xFFF then { t with addr := t.addr / 2 ^ 53 * 2 ^ 53 + node % 4096 * 2 ^ 41 + t.addr % 2 ^ 41 } else t
/-- Whether a request of the package must wait: no room at its point (R178), a RESYNC due first on its flow (R134), or an earlier one of its flow waits. -/
def State.mustWait (s : State) (t : Txn) : Bool :=
  !s.canReserve (s.pointOf t.snode) 0 t.cells || (t.ty != .resync && s.xact.toSync.contains (flowKeyOf t)) ||
  s.xact.held.any (fun k => (tfind s.reqs k).any (fun r => flowKeyOf r.t == flowKeyOf t))
/-- A recorded request enters the buffer at its point, or waits until it may. -/
def State.launch (s : State) (key : Nat) (t : Txn) : State :=
  if s.mustWait t then { s with xact := { s.xact with held := s.xact.held ++ [key] } }
  else (s.charge (s.pointOf t.snode) 0 t.cells).forward (s.entry t (s.pointOf t.snode) 0)
/-- Issues a request of one of the package's requesters under its node, the context's current generation and a tag of the node (R36, R124, R125, R340). -/
def State.issueAs (s : State) (node : Nat) (t : Txn) (who : Purpose) (timeout : Nat) : State :=
  let tag := freeTag s.reqs node s.reqs.length s.xact.nextTag
  let t1 := { ownFa node t with snode := node, kgen := (s.ctx t.ctx).kgen, tag := tag }
  ({ s with xact := { s.xact with nextTag := tag + 1, reserved := tmod 0 s.xact.reserved node (· + reserveSlots t1) },
            reqs := tset s.reqs (node * 1048576 + tag) { t := t1, who := who, issuedAt := s.clk, timeout := timeout } }).launch (node * 1048576 + tag) t1
/-- Issues a request of one of the package's engines, from admission point 265. -/
def State.issue (s : State) (t : Txn) (who : Purpose) (timeout : Nat) : State := s.issueAs s.poolNode t who timeout
/-- Issues a request of an outstanding record again, under the same tag. -/
def State.reissue (s : State) (key : Nat) (r : OutReq) : State :=
  ({ s with reqs := tset s.reqs key { r with issuedAt := s.clk, resp := none, waitUntil := none, tries := r.tries + 1 } }).launch key r.t
/-- The wait before retry number `tries` (R76): 1 µs, doubled for each earlier one, at most 64 µs. -/
def backoffNs (tries : Nat) : Nat := 1000 * min 64 (2 ^ tries)
/-- RETRY_LATER before the last retry: the request waits for its backoff (R76). -/
def State.backoff (s : State) (key : Nat) (o : OutReq) : State :=
  { s with reqs := tset s.reqs key { o with resp := none, waitUntil := some (s.clk + backoffNs o.tries) } }
/-- Ends an outstanding request: its response space is free again (R125). -/
def State.endReq (s : State) (key : Nat) : State :=
  { s with reqs := terase s.reqs key,
           xact := { s.xact with reserved := tmod 0 s.xact.reserved (key / 1048576) (· - ((tfind s.reqs key).map (fun r => reserveSlots r.t)).getD 0),
                                 held := s.xact.held.filter (· != key) } }
def addKey (l : List (Nat × Nat × Nat × Nat)) (k : Nat × Nat × Nat × Nat) : List (Nat × Nat × Nat × Nat) := if l.contains k then l else l ++ [k]
/-- The flow of a request that ended AGED or TIMEOUT: its next request is a RESYNC (R134). The key is the response's, or the request's own where that names no node. -/
def State.breakKey (s : State) (t r : Txn) : State :=
  let k := (t.snode, t.ctx, t.flow, if r.tnode == 0xFFF then t.dest.getD 0xFFF else r.tnode)
  if t.isReq && (r.status == 7 || r.status == 8) then { s with xact := { s.xact with toSync := addKey s.xact.toSync k } } else s
/-- Whether an outstanding request has been sent and has no response yet. -/
def State.inFlight (s : State) (r : Nat × OutReq) : Bool := r.2.resp.isNone && r.2.waitUntil.isNone && !s.xact.held.contains r.1
/-- The request outstanding under a tag of the package. -/
def State.ownReq (s : State) (tag : Nat) : Option OutReq := tfind s.reqs (s.poolNode * 1048576 + tag)
/-- An 8-byte store of an engine under a context (a completion store, a signal or a flag). -/
def storeTxn (ctx fa value len flow : Nat) : Txn :=
  { ty := .wr, akind := 0, size := len - 1, ctx := ctx, flow := flow, addr := fa % 2 ^ 57, data := leBytes (8 * ((fa % 8 + len + 7) / 8)) (value * 256 ^ (fa % 8)) }
def readTxn (ctx fa len flow : Nat) (acq : Bool) : Txn :=
  { ty := .rd, akind := 0, size := len - 1, ctx := ctx, flow := flow, addr := fa % 2 ^ 57, acq := acq }
def resyncTxn (ctx flow dest : Nat) : Txn := { ty := .resync, ctx := ctx, flow := flow, addr := dest * 2 ^ 41 }
/-- Request timeout of the package's engines (R80, R126). -/
def State.reqTimeout (s : State) : Nat := s.mov.timeout * 1000
/-- Sends the RESYNC of a flow key that has no outstanding request, where its point has room for it (R134). -/
def State.syncOne (s : State) (k : Nat × Nat × Nat × Nat) : State :=
  if s.reqs.any (fun r => s.inFlight r && flowKeyOf r.2.t == k) || !s.canReserve (s.pointOf k.1) 0 1 then s
  else
    let t := resyncTxn k.2.1 k.2.2.1 k.2.2.2
    let tag := freeTag s.reqs k.1 s.reqs.length s.xact.nextTag
    let t1 := { t with snode := k.1, kgen := (s.ctx t.ctx).kgen, tag := tag }
    let s1 := { s with xact := { s.xact with nextTag := tag + 1, reserved := tmod 0 s.xact.reserved k.1 (· + reserveSlots t1), toSync := s.xact.toSync.filter (· != k) },
                       reqs := tset s.reqs (k.1 * 1048576 + tag) { t := t1, who := .resync, issuedAt := s.clk, timeout := s.reqTimeout } }
    (s1.charge (s1.pointOf k.1) 0 1).forward (s1.entry t1 (s1.pointOf k.1) 0)
/-- Sends a request that waited, if it may go now. -/
def State.sendHeld (s : State) (key : Nat) : State :=
  match tfind s.reqs key with
  | none => s
  | some r => ({ s with reqs := tset s.reqs key { r with issuedAt := s.clk } }).launch key r.t
/-- Sends a message or a collective packet of the engines from point 265 (Table 7-2), or lets it wait there for room, behind those of its class that wait (R178). -/
def State.sendOut (s : State) (t : Txn) : State :=
  match s.egress 265 t.dnode t.key with
  | none => { s with sw := { s.sw with noRoute := s.sw.noRoute + 1 } }
  | some eg =>
    if eg == 256 then s
    else if !s.canReserve 265 t.ty.cls t.cells || s.xact.waits.any (fun w => w.ty.cls == t.ty.cls) then { s with xact := { s.xact with waits := s.xact.waits ++ [t] } }
    else (s.charge 265 t.ty.cls t.cells).enqueue eg t.ty.cls ((s.charge 265 t.ty.cls t.cells).entry t 265 t.ty.cls)
/-- What the package's requesters and engines hold back goes out as far as it may: RESYNCs, requests in order, messages and packets (R134, R178). -/
def State.pump (s : State) : State :=
  let s1 := s.xact.toSync.foldl State.syncOne s
  let s2 := s1.xact.held.foldl State.sendHeld { s1 with xact := { s1.xact with held := [] } }
  s2.xact.waits.foldl State.sendOut { s2 with xact := { s2.xact with waits := [] } }

end Sys2Proof.Machine
end

