-- ==== Sys2Proof/Machine/Xlate.lean ====
section
/-! DEFINITION. Address translation at the edge: tile caches, holds, walks (R81 to R105), withdrawals (R108 to R112) and the
fault log (R499). -/

namespace Sys2Proof.Machine
open Sys2Proof

def State.modXl (s : State) (f : Xl → Xl) : State := { s with xl := f s.xl }
def State.bind (s : State) (c : Nat) : Bind := tget {} s.xl.binds c
/-- `XL.CTX_BIND` as its fields (Table 4-1), and back. -/
def bindOf (r : Nat) : Bind :=
  { mode := field r 0 2, scope := field r 2 1, priEn := bitOf r 3, homeNode := field r 8 12, hostNode := field r 20 12,
    pasid := field r 32 20, root := field r 64 64 }
def Bind.rec_ (b : Bind) : Nat :=
  pack [(2, b.mode), (1, b.scope), (1, boolNat b.priEn), (4, 0), (12, b.homeNode), (12, b.hostNode), (20, b.pasid), (12, 0), (64, b.root)]
/-- The record of a context that is bound no more: HOME_NODE and SCOPE stay, what belongs to a MODE is zero (Table 4-1, log 48). -/
def Bind.unbound (b : Bind) : Bind := { homeNode := b.homeNode, scope := b.scope }
def pageSize (code : Nat) : Nat := if code == 3 then 2 ^ 30 else if code == 2 then 2 ^ 25 else 2 ^ 21
/-- Whether this package lies in a binding's scope (Table 4-1). -/
def State.inScope (s : State) (b : Bind) : Bool :=
  b.scope == 1 || (s.isLeaf && decide (0xC00 ≤ b.homeNode) && (b.homeNode - 0xC00) / 18 == s.tbl.active.rack)
def State.logFault (s : State) (f : FaultRec) : State :=
  s.modXl (fun x => { x with faultLog := lastN 64 (x.faultLog ++ [f]) })

-- Native entries (Table 4-4)
structure NEntry where
  valid : Bool
  leaf : Bool
  size : Nat
  rd : Bool
  wr : Bool
  at_ : Bool
  mlock : Bool
  moving : Bool
  pclass : Nat
  keySlot : Nat
  fa : Nat
  deriving DecidableEq, Repr
def nEntry (v : Nat) : NEntry :=
  { valid := bitOf v 0, leaf := bitOf v 1, size := field v 2 2, rd := bitOf v 4, wr := bitOf v 5, at_ := bitOf v 6, mlock := bitOf v 7,
    moving := bitOf v 8, pclass := field v 10 2, keySlot := field v 12 12, fa := field v 32 64 }
/-- An entry with FA and MOVING replaced, everything else as it was (R92, R111). -/
def nEntrySet (v fa : Nat) (moving : Bool) : Nat :=
  field v 0 8 + 2 ^ 8 * boolNat moving + 2 ^ 9 * field v 9 23 + 2 ^ 32 * (fa % 2 ^ 64) + 2 ^ 96 * field v 96 32
/-- Size of the table that a pointer at a level points to (Table 4-3). -/
def tableSize (level : Nat) : Nat := if level == 0 then 2 ^ 15 else 2 ^ 13
/-- The malformed entries of R100; level 3 is a frame entry. -/
def nMalformed (v level : Nat) : Bool :=
  let e := nEntry v
  let okSize := if !e.leaf then e.size == 0 else if level == 1 then e.size == 3 else if level == 2 then e.size == 1 || e.size == 2 else e.size == 1
  let align := if e.leaf then pageSize e.size else tableSize level
  e.valid && (bitOf v 9 || field v 24 8 != 0 || (e.leaf && level == 0) || (!e.leaf && (level == 2 || level == 3)) || !okSize ||
    e.fa % align != 0 || e.fa / 2 ^ 53 != 0 || (e.at_ && !e.wr) || decide (2 ≤ e.pclass))
/-- FA of the entry that a walk reads at a level, from the table's FA (Table 4-3). -/
def walkEntryFa (level table va : Nat) : Nat :=
  table + 16 * (if level == 0 then field va 41 16 else if level == 1 then field va 30 11 else field va 21 9)

-- Tile caches (R102)
def State.cacheOf (s : State) (tile : Nat) : List TEntry := tget [] s.xl.cache tile
/-- Whether a request is translated with an entry. Of a 32 MiB page an entry serves the 2 MiB whose level-2 entry was read (R97). -/
def TEntry.covers (e : TEntry) (ctx va : Nat) : Bool :=
  e.ctx == ctx && decide (e.va ≤ va) && decide (va < e.va + pageSize e.size) && (e.size != 2 || va / 2 ^ 21 == e.at_va / 2 ^ 21)
def State.lookup (s : State) (tile ctx va : Nat) : Option TEntry := (s.cacheOf tile).find? (fun e => e.covers ctx va)
/-- Records the eviction of an entry in both tables of eviction times (R102). -/
def noteEvict (tile now : Nat) (x : Xl) (e : TEntry) : Xl :=
  { x with evCtx := tset x.evCtx (256 * tile + e.ctx % 256) now, evFa := tset x.evFa (256 * tile + e.fa / 2 ^ 21 % 256) now }
/-- Fills a tile cache of 1,024 entries; the oldest fill is evicted (log 13). A fill sets no last-use time: the same translation keeps its own, another
in its place evicts it (R102). -/
def State.fill (s : State) (tile : Nat) (e : TEntry) : State :=
  let same := fun (x : TEntry) => x.covers e.ctx e.at_va && x.va == e.va && x.size == e.size && x.fa == e.fa
  let use := ((s.cacheOf tile).find? same).bind (fun x => x.lastUse)
  let old := (s.cacheOf tile).filter (fun x => !(x.covers e.ctx e.at_va))
  let cut := (s.cacheOf tile).filter (fun x => x.covers e.ctx e.at_va && !(same x)) ++ old.take (old.length + 1 - 1024)
  let x1 := cut.foldl (noteEvict tile s.rt.now) s.xl
  { s with xl := { x1 with cache := tset x1.cache tile (old.drop (old.length + 1 - 1024) ++ [{ e with lastUse := use }]) } }
/-- Sets the last-use time of the entry that translated a direct request (R102); a request that had missed counts no hit. -/
def State.touch (s : State) (tile ctx va : Nat) (hit : Bool) : State :=
  s.modXl (fun x => { x with hits := x.hits + boolNat hit,
                             cache := tset x.cache tile ((s.cacheOf tile).map (fun e => if e.covers ctx va then { e with lastUse := some s.rt.now } else e)) })
/-- Counts a miss of a tile's cache (`XL.MISSES`, Table 16-4). -/
def State.countMiss (s : State) (tile : Nat) : State :=
  { s with xl := { s.xl with misses := s.xl.misses + 1 }, tel := { s.tel with tileMiss := tmod 0 s.tel.tileMiss tile (· + 1) } }
/-- The right that a request needs. -/
def TEntry.allows (e : TEntry) (ty : TType) : Bool :=
  match ty with | .rd => e.rd | .wr => e.wr | .atom => e.wr && e.at_ | _ => true
/-- The request with the FA and the home attributes of its translation (R82, R116). -/
def xlated (e : TEntry) (t : Txn) : Txn :=
  { t with akind := if e.attr.isSome then 3 else 0, addr := e.fa + (t.addr - e.va), home := e.attr }

/-- The edge completes a CVA request itself: a write or an atomic marks its flow (R85, R136). -/
def State.edgeFail (s : State) (e : QEntry) (st : Nat) : State :=
  let s1 := if e.t.ty == .wr || e.t.ty == .atom then s.markFlow e.t e.adm else s
  let s2 := if st == 6 then s1.modXl (fun x => { x with faults := x.faults + 1 }) else s1
  s2.failEntry e st false
/-- RETRY_LATER by R84, R103 or R111, which `XL.HOLD_EXPIRED` counts. -/
def State.edgeRetry (s : State) (e : QEntry) : State := (s.modXl (fun x => { x with holdExpired := x.holdExpired + 1 })).edgeFail e 10
/-- Sends a translated request on, with R87's check of the route. -/
def State.edgeForward (s : State) (e : QEntry) (x : TEntry) : State :=
  let e1 := { e with t := xlated x e.t, cells := e.cells }
  let node := e1.t.dest.getD 0xFFF
  if s.absent.contains node || (s.egress e.adm node e1.t.key).isNone then s.edgeFail e1 2 else s.forward e1
-- Misses (R84, R103)
def State.missQ (s : State) (d : Nat) : List Miss := tget [] s.xl.misses_ d
def State.walker (s : State) (w : Nat) : Option Walk := tget none s.xl.walkers w
def State.setWalker (s : State) (w : Nat) (x : Option Walk) : State := s.modXl (fun y => { y with walkers := tset y.walkers w x })
def sameMiss (ctx va : Nat) (m : Miss) : Bool := m.ctx == ctx && m.va / 2 ^ 21 == va / 2 ^ 21
def isMover : Waiter → Bool
  | .mover .. => true | _ => false
/-- Adds a waiter to the walk of (ctx, va) on a die: one queued or running is joined, else the queue of 512 takes it (R103). A walker that waits for a
page request is joined by movers only (R95). -/
def State.addMiss (s : State) (d : Nat) (m : Miss) : Option State :=
  let join := fun (x : Miss) => { x with waiters := x.waiters ++ m.waiters, wr := x.wr || m.wr }
  if (s.missQ d).any (sameMiss m.ctx m.va) then
    some (s.modXl (fun x => { x with misses_ := tset x.misses_ d ((s.missQ d).map (fun y => if sameMiss m.ctx m.va y then join y else y)) }))
  else match (List.range 32).find? (fun i => match s.walker (32 * d + i) with | some w => sameMiss m.ctx m.va w.m && (w.level != 5 || m.waiters.all isMover) | none => false) with
    | some i => (s.walker (32 * d + i)).map (fun w => s.setWalker (32 * d + i) (some { w with m := join w.m }))
    | none => if 512 ≤ (s.missQ d).length then none
              else some (s.modXl (fun x => { x with misses_ := tset x.misses_ d (s.missQ d ++ [m]) }))
def State.holdsOf (s : State) (tile : Nat) : List Held := tget [] s.xl.holds tile
def State.setHolds (s : State) (tile : Nat) (l : List Held) : State := s.modXl (fun x => { x with holds := tset x.holds tile l })
/-- The host port of this package that a node is, if it is one. -/
def State.ownPort (s : State) (node : Nat) : Option Nat := (List.range 8).find? (fun h => s.hpNode h == node)
/-- An MGT message of the package to another package, from admission point 265 (R120); its kinds are the model's (log 16). -/
def State.sendMgt (s : State) (t : Txn) : State := s.sendOut t
/-- A message with its content: 80 bits of it in the header, the rest in payload slots (R120, log 16). -/
def State.mgt (s : State) (dnode kind word : Nat) : Txn :=
  { ty := .mgtMsg, snode := s.poolNode, dnode := dnode, mkind := kind, mword := word, slot := s.slot,
    data := leBytes (8 * ceilDiv (Nat.log2 (word / 2 ^ 80) + 1) 64 * boolNat (decide (2 ^ 80 ≤ word))) (word / 2 ^ 80) }
/-- Whether an absent mapping or right of a context leads to a page request (R95). A host port of another package answers itself when its host wants none. -/
def State.asksPages (s : State) (b : Bind) : Bool :=
  b.mode == 2 && b.priEn && (match s.ownPort b.hostNode with | some h => (s.host h).pri | none => true)
/-- Sends a Page Request for a package on host port h, or lets it wait while as many are outstanding as the host allows (R91, R95). -/
def State.askHost (s : State) (h ctx va asker : Nat) (wr : Bool) : State :=
  if (s.host h).pageReqs.length < Config.priAlloc h then
    (s.emit (.pageReq h ctx (s.bind ctx).pasid va wr)).modHost h (fun x => { x with pageReqs := x.pageReqs ++ [(ctx, va, asker)] })
  else s.modHost h (fun x => { x with pageWait := x.pageWait ++ [(ctx, va, asker, wr)] })
/-- Asks the bound host port for a page, by a message where it is another package's (R95, log 16). -/
def State.askPage (s : State) (ctx va : Nat) (wr : Bool) : State :=
  let page := va / 2 ^ 21 * 2 ^ 21
  match s.ownPort (s.bind ctx).hostNode with
  | some h => s.askHost h ctx page s.poolNode wr
  | none => s.sendMgt (s.mgt (s.bind ctx).homeNode 11 (ctx + 2 ^ 16 * boolNat wr + 2 ^ 17 * page))
/-- Translates a CVA request at its tile, or has it held behind a walk (R84 to R86, R95). `since` is when it came to the tile; `first`: it has not missed
before. -/
def State.translateDirect (s : State) (e : QEntry) (since : Nat) (first : Bool) : State :=
  let c := e.t.ctx
  let va := e.t.addr
  let b := s.bind c
  if b.mode == 0 || !s.inScope b then s.edgeFail e 6
  else match s.lookup e.adm c va with
    | some x =>
      if x.allows e.t.ty then (s.touch e.adm c va first).edgeForward e x
      else if s.asksPages b then (s.askPage c va (e.t.ty != .rd)).edgeFail e 10
      else s.edgeFail e 6
    | none =>
      let s1 := s.countMiss e.adm
      match s1.addMiss (e.adm / 64) { ctx := c, va := va / 2 ^ 21 * 2 ^ 21, wr := e.t.ty == .wr || e.t.ty == .atom, since := s.clk, waiters := [.direct e.adm] } with
        | none => s1.edgeRetry e
        | some s2 => if 256 ≤ (s2.holdsOf e.adm).length then s2.edgeRetry e
                     else s2.setHolds e.adm (s2.holdsOf e.adm ++ [{ e := e, since := since, leader := true }])
/-- Whether a request of the same (SNODE, CTX, FLOW) is held at a tile (R84). -/
def flowHeld (l : List Held) (t : Txn) : Bool := l.any (fun h => h.e.t.flowOf == t.flowOf)
/-- Lets the held requests of a tile go on, in arrival order, as far as their translations are there (R84). -/
def resumeHolds (tile : Nat) : List Held → State → State
  | [], s => s
  | h :: r, s =>
    if flowHeld (s.holdsOf tile) h.e.t then resumeHolds tile r (s.setHolds tile (s.holdsOf tile ++ [h]))
    else if h.e.t.akind != 1 then resumeHolds tile r (s.forward h.e)
    else if (s.lookup tile h.e.t.ctx h.e.t.addr).isNone && h.leader then resumeHolds tile r (s.setHolds tile (s.holdsOf tile ++ [h]))
    else resumeHolds tile r (s.translateDirect h.e h.since (!h.leader))
def State.resumeTile (s : State) (tile : Nat) : State := resumeHolds tile (s.holdsOf tile) (s.setHolds tile [])

-- Walks (R97 to R103)
/-- The walks' reads go out under context 0 on flow 0 (log 14), with acquire semantics (R99). -/
def State.walkRead (s : State) (w : Nat) (k : Walk) (level fa : Nat) : State :=
  let tag := s.newTag
  let s1 := s.setWalker w (some { k with level := level, entryFa := fa, tag := some tag, rereadAt := none })
  s1.issue (readTxn 0 fa 16 0 true) (.walk w k.m.ctx) s.reqTimeout
def State.wcacheOf (s : State) (d : Nat) : List WEntry := tget [] s.xl.wcache d
/-- Adds a walk-cache entry; a die holds 2,048, the oldest leaves (R103, log 13). -/
def State.wfill (s : State) (d : Nat) (e : WEntry) : State :=
  s.modXl (fun x => { x with wcache := tset x.wcache d (lastN 2048 (s.wcacheOf d ++ [e])) })
def ptrOf (l : List WEntry) (ctx level va : Nat) : Option Nat :=
  l.findSome? (fun e => match e with
    | .ptr c lv v fa => if c == ctx && lv == level && v == va / (if level == 0 then 2 ^ 41 else 2 ^ 30) then some fa else none
    | _ => none)
def atsOf (l : List WEntry) (ctx va : Nat) : Option (Nat × Nat × Nat × Bool × Bool × Bool) :=
  l.findSome? (fun e => match e with
    | .ats c b sz a r w u => if c == ctx && decide (b ≤ va) && decide (va < b + sz) then some (b, sz, a, r, w, u) else none
    | _ => none)
/-- Fails the requests held for a page with a status, then lets the rest of the tile go on. -/
def State.failHeld (s : State) (tile ctx va st : Nat) : State :=
  let hit := fun (h : Held) => h.leader && h.e.t.ctx == ctx && h.e.t.addr / 2 ^ 21 == va / 2 ^ 21
  let gone := (s.holdsOf tile).filter hit
  (gone.foldl (fun s h => s.edgeFail h.e st) (s.setHolds tile ((s.holdsOf tile).filter (fun h => !hit h)))).resumeTile tile
/-- Ends a walk without a translation: waiting requests complete with `st`, movers' translations end XLATE_FAULT, prefetches are dropped. -/
def waiterFail (ctx va st : Nat) (s : State) (x : Waiter) : State :=
  match x with
  | .direct tile => s.failHeld tile ctx va st
  | .mover n idx a need =>
    s.modXl (fun y => { y with mwaits := y.mwaits.filter (fun m => !(m.n == n && m.idx == idx && m.va == a && m.need == need)),
                               mfaults := y.mfaults ++ (y.mwaits.filter (fun m => m.n == n && m.idx == idx && m.va == a && m.need == need)) })
  | .prefetch _ => s
def State.walkFault (s : State) (w : Nat) (k : Walk) : State :=
  k.m.waiters.foldl (waiterFail k.m.ctx k.m.va 6) (s.setWalker w none)
/-- Ends a walk with a translation: it fills the caches of the waiting tiles, and held requests go on. -/
def waiterFill (x : TEntry) (va : Nat) (s : State) (y : Waiter) : State :=
  match y with
  | .direct tile => (s.fill tile x).resumeTile tile
  | .mover n idx a need =>
    (s.fill (n % 256) x).modXl (fun z => { z with mwaits := z.mwaits.filter (fun m => !(m.n == n && m.idx == idx && m.va == a && m.need == need)) })
  | .prefetch tile => s.fill tile x
/-- R95: an absent mapping or right in HOST mode with PRI_EN: a page request; direct requests complete RETRY_LATER at once, movers wait on the walker for
the response, once. Otherwise XLATE_FAULT. -/
def State.walkAbsent (s : State) (w : Nat) (k : Walk) : State :=
  let movers := k.m.waiters.filter isMover
  let others := k.m.waiters.filter (fun x => !isMover x)
  let direct := others.any (fun x => match x with | .prefetch _ => false | _ => true)
  let wait := !movers.isEmpty && !k.asked
  if s.asksPages (s.bind k.m.ctx) then
    let s1 := if direct || wait then s.askPage k.m.ctx k.m.va k.m.wr else s
    let s2 := if wait then s1.setWalker w (some { k with level := 5, asked := true, tag := none, rereadAt := none, slowAt := some s.clk, m := { k.m with waiters := movers } })
              else movers.foldl (waiterFail k.m.ctx k.m.va 6) (s1.setWalker w none)
    others.foldl (waiterFail k.m.ctx k.m.va 10) s2
  else s.walkFault w k
/-- Whether a translation has the right that a waiter needs; a direct request is judged at its tile. -/
def waiterOk (x : TEntry) : Waiter → Bool
  | .mover _ _ _ need => if need == 0 then x.rd else x.wr && (need == 1 || x.at_)
  | _ => true
/-- A translation has been found: it fills the caches of the waiting tiles and held requests go on; a mover without the right is as R86 and R95 say. -/
def State.walkGot (s : State) (w : Nat) (k : Walk) (x : TEntry) : State :=
  let s1 := (k.m.waiters.filter (waiterOk x)).foldl (waiterFill x k.m.va) (s.setWalker w none)
  let bad := k.m.waiters.filter (fun y => !(waiterOk x y))
  if bad.isEmpty then s1
  else s1.walkAbsent w { k with m := { k.m with waiters := bad, wr := bad.any (fun y => match y with | .mover _ _ _ n => n != 0 | _ => false) } }
/-- A leaf or frame entry has been read (R82, R93, R97, R111). -/
def State.walkLeaf (s : State) (w : Nat) (k : Walk) (e : NEntry) : State :=
  if e.moving then
    if k.m.waiters.any isMover then s.setWalker w (some { k with rereadAt := some (s.clk + 4000), slowAt := some (k.slowAt.getD s.clk), tag := none })
    else s.setWalker w none
  else
    let perm := k.ats.getD (true, true)
    let sz := if k.level == 3 then 1 else e.size
    s.walkGot w k { ctx := k.m.ctx, va := k.m.va / pageSize sz * pageSize sz, at_va := k.m.va, size := sz, fa := e.fa, rd := e.rd && perm.1, wr := e.wr && perm.2,
                    at_ := e.at_ && perm.2, attr := some (e.pclass, e.keySlot), moving := false, lastUse := none }
/-- The aperture of a host port: base of its frame table and log2 of its frames (R92), as its package has told where it is another's (log 16). -/
def State.aptOf (s : State) (hostNode : Nat) : Nat × Nat :=
  if (s.ownPort hostNode).isSome then (s.xl.aptBase, s.xl.aptLog2) else tget (0, 0) s.xl.remoteApt hostNode
/-- The frame entry, or the host-memory translation, of an ATS result (R93, steps 1 to 3). `t` is relative to the aperture BAR (log 15). -/
def State.atsResult (s : State) (w : Nat) (k : Walk) (base size t : Nat) (r wr u : Bool) : State :=
  if !r && !wr then s.walkAbsent w k
  else
    let pos := t + (k.m.va - base)
    let apt := s.aptOf (s.bind k.m.ctx).hostNode
    let inApt := apt.2 != 0 && decide (pos < 2 ^ (apt.2 + 21))
    if inApt && decide (size < 2 ^ 21) then s.walkFault w k
    else if inApt && !u then s.walkRead w { k with ats := some (r, wr) } 3 (apt.1 + 16 * (pos / 2 ^ 21))
    else if 2 ^ 41 ≤ k.m.va then s.walkFault w k
    else
      s.walkGot w k { ctx := k.m.ctx, va := k.m.va, at_va := k.m.va, size := 1, fa := (s.bind k.m.ctx).hostNode * 2 ^ 41 + k.m.va, rd := r, wr := wr, at_ := wr,
                      attr := none, moving := false, lastUse := none }
/-- Begins or begins again a walk or an ATS exchange (R97, R94, R103). -/
def State.walkBegin (s : State) (w : Nat) (k : Walk) : State :=
  let b := s.bind k.m.ctx
  let wc := s.wcacheOf (w / 32)
  if b.mode == 1 then
    match ptrOf wc k.m.ctx 1 k.m.va with
    | some fa => s.walkRead w k 2 (walkEntryFa 2 fa k.m.va)
    | none => match ptrOf wc k.m.ctx 0 k.m.va with
      | some fa => s.walkRead w k 1 (walkEntryFa 1 fa k.m.va)
      | none => s.walkRead w k 0 (walkEntryFa 0 b.root k.m.va)
  else if b.mode == 2 then
    match atsOf wc k.m.ctx k.m.va with
    | some (bs, sz, a, r, wr, u) => s.atsResult w k bs sz a r wr u
    | none =>
      let s1 := s.setWalker w (some { k with level := 4, tag := none })
      (match s.ownPort b.hostNode with
        | some h => s1.emit (.atsReq h w b.pasid k.m.va)
        | none => s1.sendMgt (s1.mgt b.homeNode 9 (w + 2 ^ 7 * k.m.ctx + 2 ^ 23 * k.m.va)))
  else s.walkFault w k
/-- The word of 16 bytes that a read of an entry has returned. -/
def rspWord (t : Txn) : Nat := leAt t.data 0 16
/-- Whether a notice covers a translation of `n` bytes at (ctx, va, fa). -/
def wdMatch (fa : Bool) (ctx base len2m c v f n : Nat) : Bool :=
  let top := base + len2m * 2 ^ 21
  if fa then decide (f < top) && decide (base < f + n) else c == ctx && decide (v < top) && decide (base < v + n)
/-- Whether a notice that came while a walk ran overlaps a result of `n` bytes of VA, and `fn` bytes at an FA (R109(b)). -/
def Walk.hit (k : Walk) (va n fa fn : Nat) : Bool :=
  k.wds.any (fun x => wdMatch x.1 x.2.1 x.2.2.1 x.2.2.2 k.m.ctx va fa (if x.1 then fn else n))
/-- A walk's entry read has been answered (R97 to R100, R109(b)). -/
def State.walkEntry (s : State) (w : Nat) (k : Walk) (r : Txn) : State :=
  let again := s.walkBegin w { k with wds := [], ats := none }
  if r.status != 0 then
    let s1 := s.logFault { kind := 3, status := r.status, form := 0, node := 0, ctx := k.m.ctx, fa := k.entryFa, slot := s.slot }
    s1.walkFault w k
  else
    let v := rspWord r
    let e := nEntry v
    if nMalformed v k.level then
      if k.hit k.m.va (2 ^ 21) 0 0 then again
      else (s.logFault { kind := 1, status := 0, form := 0, node := 0, ctx := k.m.ctx, fa := k.entryFa, slot := s.slot }).walkFault w k
    else if !e.valid then (if k.hit k.m.va (2 ^ 21) 0 0 then again else s.walkAbsent w k)
    else if e.leaf then
      let p := if k.level == 3 then 2 ^ 21 else pageSize e.size
      if k.hit (k.m.va / p * p) p e.fa p then again else s.walkLeaf w { k with wds := [] } e
    else
      let span := if k.level == 0 then 2 ^ 41 else 2 ^ 30
      if k.hit (k.m.va / span * span) span e.fa (tableSize k.level) then again
      else
        let s1 := s.wfill (w / 32) (.ptr k.m.ctx k.level (k.m.va / span) e.fa)
        s1.walkRead w k (k.level + 1) (walkEntryFa (k.level + 1) e.fa k.m.va)

/-- The end of an ATS exchange at the walker (R93, R94): a result that a withdrawal overtook is discarded (R109(b)). -/
def State.atsDone (s : State) (w addr size : Nat) (r wr u : Bool) : State :=
  match s.walker w with
  | some k =>
    if k.level != 4 then s
    else
      let sz := max size 4096
      let base := k.m.va / sz * sz
      if k.hit base sz 0 0 then s.walkBegin w { k with wds := [] } else
      let s1 := if r || wr then s.wfill (w / 32) (.ats k.m.ctx base sz addr r wr u) else s
      s1.atsResult w k base sz addr r wr u
  | none => s
/-- Ends a page request at a walker that waits for it (R95). -/
def prgAt (c va : Nat) (ok : Bool) (s : State) (w : Nat) : State :=
  match s.walker w with
  | some k =>
    if k.level == 5 && k.m.ctx == c && k.m.va / 2 ^ 21 == va / 2 ^ 21 then
      (if ok then
        let s1 := s.modXl (fun x => { x with wcache := tset x.wcache (w / 32) ((s.wcacheOf (w / 32)).filter (fun e => match e with
          | .ats cc b sz _ _ _ _ => !(cc == c && decide (b ≤ k.m.va) && decide (k.m.va < b + sz)) | _ => true)) })
        s1.walkBegin w { k with since := s.clk, slowAt := none, wds := [], ats := none }
      else s.walkFault w k)
    else s
  | none => s
/-- An answer to a page request reaches this package's walkers. -/
def State.pageAnswer (s : State) (c va : Nat) (ok : Bool) : State := (List.range 128).foldl (prgAt c va ok) s
/-- Tells a package that asked the answer to its page request. -/
def State.tellPage (c va : Nat) (ok : Bool) (s : State) (asker : Nat) : State :=
  if asker == s.poolNode then s.pageAnswer c va ok else s.sendMgt (s.mgt asker 12 (c + 2 ^ 16 * boolNat ok + 2 ^ 17 * (va / 2 ^ 21 * 2 ^ 21)))
/-- Another package's walker asks for an ATS exchange on a host port of this one (message kind 9 of log 16). -/
def State.remoteAts (s : State) (from_ w ctx va : Nat) : State :=
  match s.ownPort (s.bind ctx).hostNode with
  | none => s
  | some h =>
    let k := 128 + (s.xl.exch.map (fun x => x.1 - 127)).foldl max 0
    (s.modXl (fun x => { x with exch := tset x.exch k (from_, w) })).emit (.atsReq h k (s.bind ctx).pasid va)
/-- Another package asks for a page of a host (message kind 11); a port that asks for no pages answers at once that there is none. -/
def State.remotePage (s : State) (from_ ctx va : Nat) (wr : Bool) : State :=
  match s.ownPort (s.bind ctx).hostNode with
  | none => State.tellPage ctx va false s from_
  | some h => if (s.host h).pri then s.askHost h ctx va from_ wr else State.tellPage ctx va false s from_

-- Withdrawals (R108 to R112)
/-- Whether the FA rows of eviction times that a range covers include row `i` (R102, R109). -/
def rowCovered (base len2m i : Nat) : Bool := decide (256 ≤ len2m) || decide ((i + 256 - base / 2 ^ 21 % 256) % 256 < len2m)
/-- U of R109: the latest last use of the matched entries, and the latest eviction of the covered rows. -/
def State.lastUseOf (s : State) (fa : Bool) (ctx base len2m : Nat) : Nat :=
  let uses := s.xl.cache.flatMap (fun x => x.2.filterMap (fun e =>
    if wdMatch fa ctx base len2m e.ctx e.va e.fa (pageSize e.size) then e.lastUse else none))
  let rows := if fa then (s.xl.evFa.filter (fun r => rowCovered base len2m (r.1 % 256))).map Prod.snd
              else (s.xl.evCtx.filter (fun r => r.1 % 256 == ctx % 256)).map Prod.snd
  (uses ++ rows).foldl max 0
/-- A number that no engine tile of a descriptor has. -/
def freshNo (l : List ETile) : Nat := (l.map (fun t => t.no + 1)).foldl max 0
/-- A part of a descriptor that waits at its start position for new translations (R109(c)). -/
def cutAt (no start len : Nat) : ETile := { no := no, start := start, len := len, src := 0, dst := 0, cut := true }
/-- Ends the engine tiles that `p` picks at the lines already issued; the rest of each becomes a new tile to be translated afresh (R109(c)). -/
def cutTiles (p : ETile → Bool) : Nat → List ETile → List ETile
  | _, [] => []
  | k, t :: r =>
    if p t && decide (t.issued < t.len) then { t with len := t.issued, ended := true } :: cutAt k (t.start + t.issued) (t.len - t.issued) :: cutTiles p (k + 1) r
    else t :: cutTiles p k r
/-- A line whose translation has been withdrawn before it was performed is to be moved anew: its tile has one line less out, and the line is a tile of its own. -/
def Work.redo (w : Work) (no pos len : Nat) : Work :=
  { w with tiles := w.tiles.map (fun t => if t.no == no then { t with out := t.out - 1 } else t) ++ [cutAt (freshNo w.tiles) pos len] }
/-- Whether a notice covers the page that translates `a` to `f`. -/
def pageHit (fa : Bool) (ctx base len2m rctx a f pg : Nat) : Bool :=
  wdMatch fa ctx base len2m rctx (a / pageSize pg * pageSize pg) (f - a % pageSize pg) (pageSize pg)
/-- Whether a notice covers the translation of the source, or of the destination, that an engine tile uses. -/
def srcHit (fa : Bool) (ctx base len2m rctx : Nat) (d : Desc) (t : ETile) : Bool :=
  !t.cut && d.opcode == 1 && d.srcKind == 1 && pageHit fa ctx base len2m rctx (d.src + t.start) t.src t.srcPg
def dstHit (fa : Bool) (ctx base len2m rctx : Nat) (d : Desc) (t : ETile) : Bool :=
  !t.cut && d.dstKind == 1 && pageHit fa ctx base len2m rctx (d.dst + t.start) t.dst t.dstPg
def tileHit (fa : Bool) (ctx base len2m rctx : Nat) (d : Desc) (t : ETile) : Bool := srcHit fa ctx base len2m rctx d t || dstHit fa ctx base len2m rctx d t
/-- The effect of a notice on a descriptor being worked on: its snapshot and its engine tiles (R109(a), (c)). -/
def workHit (fa : Bool) (ctx base len2m rctx : Nat) (w : Work) : Work :=
  let snap := (w.d.srcKind == 1 && pageHit fa ctx base len2m rctx w.d.src w.snapSrc w.srcPg) ||
              (w.d.dstKind == 1 && pageHit fa ctx base len2m rctx w.d.dst w.snapDst w.dstPg)
  { w with snapOk := w.snapOk && !snap,
           tiles := (cutTiles (fun t => !t.ended && tileHit fa ctx base len2m rctx w.d t) (freshNo w.tiles) w.tiles).map (fun t =>
             { t with srcStale := t.srcStale || srcHit fa ctx base len2m rctx w.d t, dstStale := t.dstStale || dstHit fa ctx base len2m rctx w.d t }) }
def affectedTiles (s : State) (fa : Bool) (ctx base len2m : Nat) : List (Nat × Nat × Nat) :=
  s.mov.rings.flatMap (fun r => r.2.work.flatMap (fun w => (w.tiles.filter (fun t => 0 < t.out && tileHit fa ctx base len2m r.2.cfg.ctx w.d t)).map
    (fun t => (r.1, w.idx, t.no))))
/-- Whether the translation by which a line of a mover was issued has been withdrawn (R109). -/
def State.staleLine (s : State) (p : Purpose) : Bool :=
  let tile := fun (n idx no : Nat) (f : ETile → Bool) => (s.ring n).work.any (fun w => w.idx == idx && w.tiles.any (fun t => t.no == no && f t))
  match p with
  | .moverRead n idx no _ _ => tile n idx no (fun t => t.srcStale || t.dstStale)
  | .moverWrite n idx no _ _ => tile n idx no (fun t => t.dstStale)
  | _ => false
def State.redoLine (s : State) (p : Purpose) : State :=
  match p with
  | .moverRead n idx no pos len => s.modRing n (fun r => { r with work := r.work.map (fun w => if w.idx == idx then w.redo no pos len else w) })
  | .moverWrite n idx no pos len => s.modRing n (fun r => { r with work := r.work.map (fun w => if w.idx == idx then w.redo no pos len else w) })
  | _ => s
/-- A mover's request that still waits for room is not sent under a withdrawn translation: a line is moved anew, an atomic or a signal is translated again. -/
def unholdStale (s : State) (key : Nat) : State :=
  match tfind s.reqs key with
  | some o => (match o.who with
    | .atomicDesc _ _ => { s with xact := { s.xact with held := s.xact.held.filter (· != key) }, reqs := tset s.reqs key { o with waitUntil := some s.clk } }
    | .signal _ _ => { s with xact := { s.xact with held := s.xact.held.filter (· != key) }, reqs := tset s.reqs key { o with waitUntil := some s.clk } }
    | p => if s.staleLine p then (s.endReq key).redoLine p else s)
  | none => s
/-- Steps (a) to (c) of R109 at this package, and the time D before which it sends no done notice. -/
def State.applyNotice (s : State) (home id : Nat) (fa : Bool) (ctx base len2m : Nat) : State :=
  let u := s.lastUseOf fa ctx base len2m
  let l := s.ageLimit 0
  -- rack time and device time advance together; U is a rack time
  let d := if u == 0 then s.clk else max s.clk (s.clk + (u + l - s.rt.now))
  let hitT := fun (e : TEntry) => wdMatch fa ctx base len2m e.ctx e.va e.fa (pageSize e.size)
  let hitW := fun (e : WEntry) => match e with
    | .ptr c lv v f => if fa then wdMatch true ctx base len2m c 0 f (tableSize lv)
                       else wdMatch false ctx base len2m c (v * (if lv == 0 then 2 ^ 41 else 2 ^ 30)) 0 (if lv == 0 then 2 ^ 41 else 2 ^ 30)
    | .ats c b sz _ _ _ _ => !fa && wdMatch false ctx base len2m c b 0 sz
  let walk := fun (k : Walk) => if k.level == 5 then k else { k with wds := k.wds ++ [(fa, ctx, base, len2m)] }
  let lines := affectedTiles s fa ctx base len2m
  let s1 : State := { s with
    xl := { s.xl with cache := tmap s.xl.cache (fun _ l => l.filter (fun e => !hitT e)),
                      wcache := tmap s.xl.wcache (fun _ l => l.filter (fun e => !hitW e)),
                      walkers := tmap s.xl.walkers (fun _ o => o.map walk),
                      notices := s.xl.notices ++ [{ home := home, id := id, d := d, lines := lines }] },
    mov := { s.mov with rings := tmap s.mov.rings (fun _ r => { r with work := r.work.map (workHit fa ctx base len2m r.cfg.ctx) }) } }
  s1.xact.held.foldl unholdStale s1
/-- Withdrawals running at this home (`XL.WD_ACTIVE`). -/
def State.wdActive (s : State) : Nat := (s.xl.wds.filter (fun w => w.running && !w.finished)).length
/-- The scope of a withdrawal: of its context's binding, or of the rack or pod for the FA form (R108). -/
def State.wdScope (s : State) (w : Withdrawal) : List Nat :=
  let pod := if w.fa then s.inPod else (s.bind w.ctx).scope == 1 && s.inPod
  (s.scopeNodes pod).filter (fun n => n == s.poolNode || !s.absent.contains n)
/-- The content of a withdrawal notice (message kind 1 of log 16): number, form, context, generation, range. -/
def wdWord (w : Withdrawal) (xgen : Nat) : Nat :=
  pack [(32, w.id), (1, boolNat w.fa), (15, 0), (16, w.ctx), (32, xgen), (64, w.base), (64, w.len2m)]
/-- Step 2 of R108: the generation rises for the context form, the home applies the notice itself and sends it to the scope. -/
def State.runWd (s : State) (w : Withdrawal) : State :=
  let scope := s.wdScope w
  let scope := if scope.contains s.poolNode then scope else s.poolNode :: scope
  let s1 := if w.fa then s else s.modXl (fun x => { x with xgen := tmod 0 x.xgen w.ctx (fun g => (g + 1) % 4294967296) })
  let w1 := { w with running := true, since := s.clk, waiting := scope }
  let s2 := s1.modXl (fun x => { x with wds := (x.wds.filter (fun y => y.id != w.id)) ++ [w1] })
  let s3 := s2.applyNotice s.poolNode w.id w.fa w.ctx w.base w.len2m
  (scope.filter (· != s.poolNode)).foldl (fun s n => s.sendMgt (s.mgt n 1 (wdWord w (tget 0 s3.xl.xgen w.ctx)))) s3
/-- Starts a withdrawal, or lets it wait at the home while 256 run (R110). -/
def State.startWd (s : State) (fa : Bool) (ctx base len2m nfa nval : Nat) (cause : WdCause) : State :=
  let w : Withdrawal := { id := s.xl.nextWd, fa := fa, ctx := ctx, base := base, len2m := len2m, nfa := nfa, nval := nval, cause := cause, running := false, since := s.clk }
  let s1 := s.modXl (fun x => { x with nextWd := x.nextWd + 1 })
  if s.wdActive < 256 then s1.runWd w else s1.modXl (fun x => { x with wds := x.wds ++ [w] })
/-- A whole-context withdrawal: BASE 0, LEN_2M 2^36. -/
def State.startCtxWd (s : State) (ctx : Nat) (cause : WdCause) : State := s.startWd false ctx 0 (2 ^ 36) 0 0 cause
/-- The queue of waiting withdrawals goes on: those of the device first, then host Invalidate Requests (R110). -/
def wdNext : Nat → State → State
  | 0, s => s
  | n + 1, s =>
    if 256 ≤ s.wdActive then s else
    match s.xl.wds.find? (fun w => !w.running) with
    | some w => wdNext n (s.runWd w)
    | none =>
      match s.xl.invQueue with
      | [] => s
      | (h, it, c, b, l) :: r => wdNext n ((s.modXl (fun x => { x with invQueue := r })).startWd false c b l 0 0 (.invalidate h it))
/-- The time until which a package may still wait for lines of affected engine tiles (M of R109). -/
def State.tileBusy (s : State) (k : Nat × Nat × Nat) : Bool :=
  (s.ring k.1).work.any (fun w => w.idx == k.2.1 && w.tiles.any (fun t => t.no == k.2.2 && decide (0 < t.out) && decide (s.clk < t.lastIssue + s.ageLimit 0)))

end Sys2Proof.Machine
end

