-- ==== Sys2Proof/Machine/Pool.lean ====
section
/-! DEFINITION. The memory pool: granules and extents (R272 to R278), where lines live and which are lost (R279 to R293), poison and the
moraine log (R287, R288), stack failure, rebuild and evacuation (R289 to R295), grants (R277, R296), counters (R298, R299), drift (R300 to R306). -/

namespace Sys2Proof.Machine
open Sys2Proof

def State.modPool (s : State) (f : Pool → Pool) : State := { s with pool := f s.pool }
/-- Granules per die (Table 10-1). -/
def State.dieGranules (s : State) : Nat := if s.dev.variantLH then 44703 else 29802
def State.freeOnDie (s : State) (d : Nat) : Nat :=
  if (s.die d).st == .healthy && s.pool.st != 0 then s.dieGranules - (s.die d).fresh + (s.die d).returned.length else 0
def State.granFree (s : State) : Nat := ((List.range 4).map s.freeOnDie).sum
/-- Takes a granule from the first die from `d` on that has one (R276): returned granules first, the lowest number (log 13). -/
def State.takeGranule (s : State) (d : Nat) : Option (Granule × State) :=
  match ([d, d + 1, d + 2, d + 3].map (· % 4)).find? (fun i => 0 < s.freeOnDie i) with
  | none => none
  | some i =>
    match (s.die i).returned with
    | g :: r => some ({ die := i, no := g }, s.modDie i (fun x => { x with returned := r }))
    | [] => some ({ die := i, no := (s.die i).fresh }, s.modDie i (fun x => { x with fresh := x.fresh + 1 }))
/-- Allocates `n` granules of extent `e` from granule index `i` on (R276). -/
def allocGranules (e : Nat) : Nat → Nat → State → List Granule × State
  | 0, _, s => ([], s)
  | n + 1, i, s =>
    match s.takeGranule (e + i) with
    | none => ([], s)
    | some (g, s1) => let r := allocGranules e n (i + 1) s1; (g :: r.1, r.2)

-- Lost lines (R290 to R293)
/-- The place q of data line k of a P1 stripe: moved to the parity place once the stripe is rebuilt (R280, R291). -/
def stripePlace (g : Granule) (failed : List Nat) (z k : Nat) : Nat :=
  let p := z % 6
  let q := if k < p then k else k + 1
  if decide (z < g.rebuilt) && failed.head? == some (6 * g.die + q) then p else q
/-- Whether the stripe still has its parity line: not after a rebuild that wrote a data line into its place. -/
def stripeParity (g : Granule) (failed : List Nat) (z : Nat) : Bool :=
  let p := z % 6
  !failed.contains (6 * g.die + p) && !(decide (z < g.rebuilt) && !failed.isEmpty && failed.head? != some (6 * g.die + p))
/-- Data lines of a stripe that lie on a failed stack. -/
def stripeLost (g : Granule) (failed : List Nat) (z : Nat) : List Nat :=
  (List.range 5).filter (fun k => failed.contains (6 * g.die + stripePlace g failed z k))
/-- The cause with which a line is lost, 0 where it is not: STACK_LOST in P0, DOUBLE_LOSS in P1 (R290, R292). -/
def State.lostCause (s : State) (x : Ext) (off : Nat) : Nat :=
  let g := granAt x (granIdx x off)
  let failed := (s.die g.die).failed
  if failed.isEmpty || s.pool.spares.contains (off / 64) then 0
  else if x.pclass == 1 then
    let z := granLine x off / 5
    let lost := stripeLost g failed z
    if lost.contains (granLine x off % 5) && !(lost.length == 1 && stripeParity g failed z) then 3 else 0
  else if failed.contains (lineStack x off) then 2 else 0
def State.linePoison (s : State) (x : Ext) (off : Nat) : Nat :=
  let l := s.lostCause x off
  if l != 0 then l else tget 0 s.pool.poison (off / 64)
/-- Whether the stripe of a P1 line can supply it: it has its parity, and no other line of it is lost (R284). -/
def State.stripeSupplies (s : State) (x : Ext) (off : Nat) : Bool :=
  let g := granAt x (granIdx x off)
  let failed := (s.die g.die).failed
  x.pclass == 1 && stripeParity g failed (granLine x off / 5) && (stripeLost g failed (granLine x off / 5)).isEmpty

-- Parity (R280, R282, R290, R291)
/-- The XOR of lines. -/
def xorLines (l : List Bytes) : Bytes := (List.range 64).map (fun i => l.foldl (fun a b => a ^^^ b.getD i 0) 0)
/-- Offset of the first of the five data lines of a line's stripe. -/
def stripeBase (x : Ext) (off : Nat) : Nat := x.base + granIdx x off * granBytes x.pclass + granLine x off / 5 * 320
/-- The XOR of the data lines of a stripe that begins at an offset. -/
def State.stripeXor (s : State) (b : Nat) : Bytes := xorLines ((List.range 5).map (fun k => memRead s.pool.mem (b + 64 * k) 64))
/-- Sets the parity line of the stripe of a P1 line; one that no longer has its place holds none (R291). -/
def State.putParity (s : State) (x : Ext) (off : Nat) : State :=
  let b := stripeBase x off
  let g := granAt x (granIdx x off)
  let v := if stripeParity g (s.die g.die).failed (granLine x off / 5) then s.stripeXor b else List.replicate 64 0
  if x.pclass != 1 then s
  else s.modPool (fun p => { p with parity := if v == List.replicate 64 0 then terase p.parity (b / 64) else tset p.parity (b / 64) v })
-- Encryption and MAC of a line (R344, R345)
/-- The XTS tweak of a line (Table 12-4). -/
def lineTweak (x : Ext) (off : Nat) : Nat := off / 64 % 2 ^ 36 + 2 ^ 36 * (x.node % 4096) + 2 ^ 48 * x.owner
/-- A line as it is stored: its plaintext under AES-256-XTS with the keys of the extent's slot. -/
def State.cipherLine (s : State) (x : Ext) (off : Nat) : Bytes :=
  Config.xts (s.key x.keySlot).k1 (s.key x.keySlot).k2 (lineTweak x off) (memRead s.pool.mem (off / 64 * 64) 64)
/-- The 28-bit MAC of a line: GMAC over its ciphertext under the slot's MAC key, with the low 96 bits of the tweak as the IV. -/
def State.lineMac (s : State) (x : Ext) (off : Nat) : Nat :=
  (Config.gmac (s.key x.keySlot).k3 (lineTweak x off % 2 ^ 96) (s.cipherLine x off)).toNat % 2 ^ 28
def State.putMac (s : State) (x : Ext) (off : Nat) : State :=
  if x.mac then s.modPool (fun p => { p with macs := tset p.macs (off / 64) (s.lineMac x off) }) else s
/-- Whether the line's stored MAC is that of its ciphertext. -/
def State.macOk (s : State) (x : Ext) (off : Nat) : Bool := !x.mac || (tfind s.pool.macs (off / 64)).all (fun m => m == s.lineMac x off)
/-- Writes bytes of one line of the pool, of a P1 line its parity with them (R282), and of an extent with EXT.MAC the line's MAC (R345). -/
def State.poolWrite (s : State) (off : Nat) (b : Bytes) : State :=
  let s1 := s.modPool (fun p => { p with mem := memWrite p.mem off b })
  match extOfOff s off with | some (_, x) => (s1.putParity x off).putMac x off | none => s1
/-- A P1 line as the other five lines of its stripe give it (R284, R290). -/
def State.fromStripe (s : State) (x : Ext) (off : Nat) : Bytes :=
  let b := stripeBase x off
  xorLines (tget (List.replicate 64 0) s.pool.parity (b / 64) ::
    ((List.range 5).filter (fun k => k != granLine x off % 5)).map (fun k => memRead s.pool.mem (b + 64 * k) 64))
/-- Whether a P1 data line lies on a failed stack and its stripe supplies it (R290). -/
def State.degraded (s : State) (x : Ext) (off : Nat) : Bool :=
  let g := granAt x (granIdx x off)
  x.pclass == 1 && (stripeLost g (s.die g.die).failed (granLine x off / 5)).contains (granLine x off % 5) && !s.pool.spares.contains (off / 64) &&
  s.lostCause x off == 0
/-- Reads bytes of one line of the pool; a lost line of a P1 stripe is rebuilt from the other five (R290). -/
def State.poolRead (s : State) (off n : Nat) : Bytes :=
  match extOfOff s off with
  | some (_, x) =>
    if s.degraded x off then slice (s.fromStripe x off) (off % 64) n
    else memRead s.pool.mem off n
  | none => memRead s.pool.mem off n

-- Poison and the moraine log (R287)
/-- Appends a moraine record (R288). -/
def State.moraine (s : State) (m : Moraine) : State :=
  s.modPool (fun p => { p with log := lastN 65536 (p.log ++ [m]), head := p.head + 1, linesEver := p.linesEver + m.lines })
/-- One record per 2 MiB page for the lines (as line numbers) that an event poisons in extent `e`. -/
def moraineFor (e : Nat) (x : Ext) (cause stack : Nat) (lines : List Nat) (s : State) (page : Nat) : State :=
  let n := (lines.filter (fun l => l / 32768 == page)).length
  if n == 0 then s else
  s.moraine { cause := cause, stack := stack, ext := e, owner := x.owner, lines := n, fa := s.poolFa (page * 2 ^ 21), slot := s.slot }
/-- Poisons lines of an extent: the records, and event 3/0x03. -/
def State.recordPoison (s : State) (e : Nat) (x : Ext) (cause stack : Nat) (lines : List Nat) : State :=
  if lines.isEmpty then s else
  let pages := lines.foldl (fun a l => addNew a (l / 32768)) []
  let s1 := pages.foldl (moraineFor e x cause stack lines) s
  s1.event 3 0x03 2 e lines.length (s.poolFa (pages.headD 0 * 2 ^ 21))
def State.poison (s : State) (e : Nat) (x : Ext) (cause stack : Nat) (lines : List Nat) : State :=
  let s1 := s.modPool (fun p => { p with poison := lines.foldl (fun t l => tset t l cause) p.poison })
  s1.recordPoison e x cause stack lines
/-- The check of a line's MAC as an access reads it: on a mismatch a P1 line is rebuilt from its stripe and checked again, and a P0 line, or one that fails again,
is poisoned with cause MAC (R285). -/
def State.macCheck (s : State) (off : Nat) : State :=
  match extOfOff s off with
  | none => s
  | some (e, x) =>
    if s.linePoison x off != 0 || s.macOk x off then s
    else
      let s1 := if s.stripeSupplies x off then s.modPool (fun p => { p with mem := memWrite p.mem (off / 64 * 64) (s.fromStripe x off) }) else s
      if s1.macOk x off then s1 else s1.poison e x 4 (lineStack x off) [off / 64]
/-- An uncorrectable error at a line (R284). -/
def State.lineUe (s : State) (off : Nat) : State :=
  match extOfOff s off with
  | none => s
  | some (e, x) => if s.stripeSupplies x off then s else s.poison e x 1 (lineStack x off) [off / 64]

-- Dies and stacks (R289 to R295)
def granulesOn (s : State) (d pclass : Nat) : Bool :=
  s.pool.exts.any (fun x => (x.2.st == .active || x.2.st == .releasing) && x.2.pclass == pclass && x.2.granules.any (fun g => g.die == d))
def State.setDie (s : State) (d : Nat) (st : DieState) : State :=
  if (s.die d).st == st then s else
  ((s.modDie d (fun x => { x with st := st })).event 3 0x02 1 d st.code 0)
def State.retireCheck (s : State) (d : Nat) : State :=
  if (s.die d).st == .exposed && !granulesOn s d 0 && !granulesOn s d 1 then s.setDie d .retired else s
/-- Lines of an extent that a failure newly loses. -/
def newlyLost (old s : State) (x : Ext) : List Nat :=
  ((List.range (x.len / 64)).map (fun i => x.base + 64 * i)).filterMap (fun o =>
    if s.lostCause x o != 0 && old.lostCause x o == 0 && tget 0 s.pool.poison (o / 64) == 0 then some (o / 64) else none)
/-- A stack becomes FAILED (R289, R290, R292, R295). -/
def State.failStack (s : State) (k cause : Nat) (self : Bool) : State :=
  if (s.stack k).st == .failed then s else
  let d := k / 6
  let s1 := State.noteChange s (s.modStack k (fun x => { x with st := .failed })) (.stack k) self false
  let s2 := s1.event 3 0x01 2 k cause 0
  let s3 := s2.modDie d (fun x => { x with failed := x.failed ++ [k] })
  let s4 := match (s3.die d).st with
    | .healthy => s3.setDie d (if granulesOn s3 d 1 then .rebuilding else .exposed)
    | .rebuilding => s3.setDie d .exposed
    | _ => s3
  let s5 := (s4.pool.exts.filter (fun x => (x.2.st == .active || x.2.st == .releasing) && x.2.granules.any (fun g => g.die == d))).foldl
    (fun t x => t.recordPoison x.1 x.2 (if x.2.pclass == 1 then 3 else 2) k (newlyLost s s4 x.2)) s4
  let s6 := s5.modPool (fun p => { p with st := if p.st == 0 then 0 else 2 })
  (s6.retireCheck d).settlePhase
/-- Counts an uncorrectable error on a stack; more than `POOL.STACK_UE_LIMIT` within 1 s fails it (R284, R289). -/
def State.countUe (s : State) (k : Nat) : State :=
  let at1 := ((s.stack k).ueAt.filter (fun t => decide (s.clk < t + 1000000000))) ++ [s.clk]
  let s1 := s.modStack k (fun x => { x with ue := x.ue + 1, ueAt := at1 })
  if s.pool.stackUeLimit < at1.length then s1.failStack k 2 true else s1
/-- The first stripe of a granule from `z` on whose lost line is a data line (R291). -/
def nextStripe (q : Nat) (z : Nat) : Nat := if z % 6 == q then z + 1 else z
/-- The P1 granule that the rebuild of a die treats next: extent, index (R291). -/
def State.rebuildAt (s : State) (d : Nat) : Option (Nat × Nat) :=
  let q := ((s.die d).failed.headD 0) % 6
  s.pool.exts.findSome? (fun x =>
    if (x.2.st == .active || x.2.st == .releasing) && x.2.pclass == 1 then
      ((List.range x.2.granules.length).find? (fun i =>
        (granAt x.2 i).die == d && decide (nextStripe q (granAt x.2 i).rebuilt < 32768))).map (fun i => (x.1, i))
    else none)
/-- Rebuilds one stripe of a REBUILDING die: its lost line takes the place of the parity line, which is no more (R291). It is one access in the stripe's
queue (R281): its turn comes when none waits there. With no stripe left the die is EXPOSED. -/
def State.rebuildStripe (s : State) (d : Nat) : State :=
  if (s.die d).st != .rebuilding then s else
  let q := ((s.die d).failed.headD 0) % 6
  match s.rebuildAt d with
  | none => ((s.setDie d .exposed).retireCheck d).settlePhase
  | some (e, i) =>
    let x := s.ext e
    let off := x.base + i * granBytes x.pclass + 320 * nextStripe q (granAt x i).rebuilt
    if !s.lineFree (lineTile x off) then s else
    let s0 := s.modPool (fun p => { p with parity := terase p.parity (off / 64) })
    let s1 := s0.modExt e (fun x => { x with granules := x.granules.set i { (granAt x i) with rebuilt := nextStripe q (granAt x i).rebuilt + 1 } })
    if (s1.rebuildAt d).isNone then ((s1.setDie d .exposed).retireCheck d).settlePhase else s1
/-- The granule that evacuation moves next off an EXPOSED die: P1 before P0 (R294). -/
def State.evacAt (s : State) (d : Nat) : Option (Nat × Nat) :=
  let pick := fun (c : Nat) => s.pool.exts.findSome? (fun x =>
    if (x.2.st == .active || x.2.st == .releasing) && x.2.pclass == c then
      ((List.range x.2.granules.length).find? (fun i => (granAt x.2 i).die == d)).map (fun i => (x.1, i))
    else none)
  match pick 1 with | some r => some r | none => pick 0
/-- Moves a granule to a HEALTHY die with its poison, a P1 granule with fresh parity; its spared lines lie in it from then on (R294). Its copies take their turns
in the queues of its lines (R281), and come when none of them waits. -/
def State.evacuate (s : State) (d : Nat) : State :=
  if !s.pool.evacuate || (s.die d).st != .exposed then s else
  match s.evacAt d with
  | none => s.retireCheck d
  | some (e, i) =>
    if !s.rangeFree ((s.ext e).base + i * granBytes (s.ext e).pclass) (granBytes (s.ext e).pclass) then s else
    match s.takeGranule (e + i) with
    | none => s
    | some (g, s1) =>
      let x := s.ext e
      let lines := (List.range (granBytes x.pclass / 64)).map (fun n => (x.base + i * granBytes x.pclass) / 64 + n)
      let lost := lines.filter (fun l => s.lostCause x (64 * l) != 0)
      let spared := lines.filter (fun l => s.pool.spares.contains l)
      let s2 := s1.modPool (fun p => { p with poison := lost.foldl (fun t l => tset t l (s.lostCause x (64 * l))) p.poison,
                                              spares := p.spares.filter (fun l => !spared.contains l) })
      let s3 := s2.modDie d (fun y => { y with sparesUsed := y.sparesUsed - spared.length })
      let s4 := s3.modExt e (fun y => { y with granules := y.granules.set i g })
      let stripes := if x.pclass == 1 then (List.range 32768).map (fun z => x.base + i * granBytes 1 + 320 * z) else []
      ((stripes.foldl (fun t o => t.putParity (t.ext e) o) s4).retireCheck d).settlePhase

-- The coherence directory (R320, R327)
/-- Hosts that a directory entry shows holding the line. -/
def DirEnt.hosts (d : DirEnt) : List Nat := if d.excl then [d.owner] else d.sharers
def State.dirOf (s : State) (line : Nat) : Option DirEnt := tfind s.pool.dir line
/-- Removes a host from a line's entry; an entry with no holder is FREE. -/
def DirEnt.drop (d : DirEnt) (h : Nat) : Option DirEnt :=
  if d.excl then (if d.owner == h then none else some d)
  else if (d.sharers.filter (· != h)).isEmpty then none else some { d with sharers := d.sharers.filter (· != h) }
def State.dirDrop (s : State) (line h : Nat) : State :=
  match s.dirOf line with
  | none => s
  | some d => s.modPool (fun p => { p with dir := match d.drop h with | none => terase p.dir line | some d' => tset p.dir line d' })
/-- A line of an extent was lost while a revocation from port h runs, which then completes with state 3 (R328). -/
def State.noteLost (s : State) (e h : Nat) : State :=
  s.modExt e (fun y => { y with grants := tmap y.grants (fun _ g => if g.host && g.id % 8 == h && g.rstate == 1 then { g with poisonedAny := true } else g) })
/-- A line in EXCL whose owner is DEAD is poisoned HOST_LOST and its entry freed; a dead sharer's bit is cleared (R327). -/
def State.dirDead (s : State) (line h : Nat) : State :=
  match s.dirOf line with
  | none => s
  | some d =>
    let s1 := s.dirDrop line h
    if d.excl && d.owner == h then
      match extOfOff s (64 * line) with
      | some (e, x) => ((s1.poison e x 5 31 [line]).noteLost e h).modHost h (fun p => { p with linesLost := p.linesLost + 1 })
      | none => s1.modHost h (fun p => { p with linesLost := p.linesLost + 1 })
    else s1
/-- Entries naming dead ports are handled when an access meets them. -/
def State.dirClean (s : State) (line : Nat) : State :=
  match s.dirOf line with
  | none => s
  | some d => (d.hosts.filter (fun h => (s.host h).st == .dead)).foldl (fun t h => t.dirDead line h) s

-- Moves that abort (R305)
/-- Writes an entry of a move: its FA and MOVING in one 16-byte write (R111). -/
def entryStore (entry word fa : Nat) (moving : Bool) : Txn :=
  { ty := .wr, size := 15, addr := entry % 2 ^ 57, data := leBytes 16 (nEntrySet word fa moving) }
def State.modMove (s : State) (mv : Nat) (f : Move → Move) : State :=
  s.modPool (fun p => { p with movesNow := p.movesNow.map (fun m => if m.id == mv then f m else m) })
def State.move (s : State) (mv : Nat) : Option Move := s.pool.movesNow.find? (fun m => m.id == mv)
/-- Ends a move that aborts: the old FA with MOVING = 0 goes into the entry, the landing frame is freed, the abort is counted (R305). -/
def State.abortMove (s : State) (mv : Nat) : State :=
  match s.move mv with
  | none => s
  | some m =>
    let s1 := s.modPool (fun p => { p with movesNow := p.movesNow.filter (fun x => x.id != mv), aborts := p.aborts + 1 })
    s1.issue (entryStore m.entry m.word (nEntry m.word).fa false) (.driftEntry (mv + 2 ^ 32)) s.reqTimeout
/-- An aborting move ends at its next engine-tile boundary, once nothing of it is in flight (R278); one that aborts for a failed copy request goes no further (R305). -/
def State.abortCheck (s : State) (mv : Nat) : State :=
  match s.move mv with
  | some m =>
    if m.aborting && m.stage == 2 && (m.failed || m.pos % 262144 == 0) && !(s.reqs.any (fun r => match r.2.who with | .driftRead x _ => x == mv | .driftWrite x _ => x == mv | _ => false)) then s.abortMove mv else s
  | none => s

-- Extents (R274 to R278)
def State.extTop (s : State) : Nat := if s.dev.variantLH then 2 ^ 42 else 2 ^ 41
/-- R274, R276: the checks of ACTIVATE apart from free granules and the key. -/
def State.extShapeOk (s : State) (e : Nat) : Bool :=
  let x := s.ext e
  x.base % 2 ^ 21 == 0 && x.len % 2 ^ 21 == 0 && x.len != 0 && decide (x.base + x.len ≤ s.extTop) && x.base / 2 ^ 41 == (x.base + x.len - 1) / 2 ^ 41 &&
  decide (x.pclass ≤ 1) && x.owner != 0 && !(decide (x.base < 0x20000000000) && decide (0x1FFFF000000 < x.base + x.len)) &&
  s.pool.exts.all (fun y => y.1 == e || y.2.st == .unused || decide (y.2.base + y.2.len ≤ x.base) || decide (x.base + x.len ≤ y.2.base))
def granCount (x : Ext) : Nat := ceilDiv x.len (granBytes x.pclass)
/-- R343: the key slot is LOADED and belongs to the owner at its current generation, or to a host port. -/
def State.extKeyOk (s : State) (e : Nat) : Bool :=
  let k := s.key (s.ext e).keySlot
  k.loaded && (k.host || (k.owner == (s.ext e).owner && k.kgen == (s.ctx k.owner).kgen))
/-- Whether ACTIVATE of an extent is accepted (R276, R343). -/
def State.extCanActivate (s : State) (e : Nat) : Bool :=
  (s.ext e).st == .unused && s.pool.st != 0 && s.extShapeOk e && s.extKeyOk e && decide (granCount (s.ext e) ≤ s.granFree)
/-- Every line of a newly activated extent reads as zero (R276). -/
def clearRange (p : Pool) (base len : Nat) : Pool :=
  let out := fun (l : Nat) => decide (64 * l < base) || decide (base + len ≤ 64 * l)
  let outPage := fun (g : Nat) => decide (2 ^ 21 * g < base) || decide (base + len ≤ 2 ^ 21 * g)
  { p with mem := memZero p.mem base len, poison := p.poison.filter (fun x => out x.1), spares := p.spares.filter out,
           counters := p.counters.filter (fun x => outPage x.1), backptr := p.backptr.filter (fun x => outPage x.1),
           dir := p.dir.filter (fun x => out x.1), parity := p.parity.filter (fun x => out x.1), macs := p.macs.filter (fun x => out x.1) }
/-- The counters of `n` pages from page `g` on, untouched since epoch `e` (R451). -/
def freshCounters (p : Pool) (g n e : Nat) : Pool :=
  { p with counters := p.counters.filter (fun x => decide (x.1 < g)) ++ (List.range n).map (fun i => (g + i, { last := e })) ++
                       p.counters.filter (fun x => decide (g + n ≤ x.1)) }
def State.extActivate (s : State) (e : Nat) : State :=
  let x := s.ext e
  let r := allocGranules e (granCount x) 0 s
  let s1 := r.2.modPool (fun p => freshCounters (clearRange p x.base x.len) (x.base / 2 ^ 21) (x.len / 2 ^ 21) (s.epochNo % 2 ^ 24))
  (s1.modExt e (fun y => { y with st := .active, granules := r.1, node := s.poolNode }))
/-- The drift moves of an extent's pages. -/
def movesOf (s : State) (x : Ext) : List Move := s.pool.movesNow.filter (fun m => decide (x.base ≤ m.page) && decide (m.page < x.base + x.len))
def inExt (x : Ext) (off : Nat) : Bool := decide (x.base ≤ off) && decide (off < x.base + x.len)
/-- Sends the BISNP of a back-invalidate from point 256 (R323, Table 7-2), or leaves it waiting there for room (R178). -/
def State.sendBisnp (s : State) (line h : Nat) : State :=
  if !s.canReserve 256 1 1 then s else
  let tag := s.newTag
  let t : Txn := { ty := .bisnp, snode := s.poolNode, tag := tag, addr := s.poolFa (64 * line) % 2 ^ 57, dnode := s.hpNode h }
  let s1 := (s.modPool (fun p => { p with backInvs := p.backInvs.map (fun b => if b.line == line && b.host == h then { b with sent := true } else b) })).modHost h
    (fun x => { x with biSent := x.biSent + 1 })
  let s2 := { s1 with xact := { s1.xact with nextTag := tag + 1 },
                      reqs := tset s1.reqs (s.poolNode * 1048576 + tag) { t := t, who := .backInv line h, issuedAt := s.clk, timeout := (s.host h).biTimeout * 1000 } }
  (s2.charge 256 1 1).enqueue (257 + h) 1 (s2.entry t 256 1)
/-- Back-invalidates a line held by a host (R323), unless one is under way for it. -/
def State.startBackInv (s : State) (line h : Nat) (discard : Bool) (rev : Option (Nat × Nat)) : State :=
  if s.pool.backInvs.any (fun b => b.line == line && b.host == h) then
    s.modPool (fun p => { p with backInvs := p.backInvs.map (fun b => if b.line == line && b.host == h then { b with discard := b.discard || discard, revoke := if rev.isSome then rev else b.revoke } else b) })
  else
    (s.modPool (fun p => { p with backInvs := p.backInvs ++
      [{ line := line, host := h, since := s.clk, sent := false, discard := discard, revoke := rev, cleared := false }] })).sendBisnp line h
/-- The BISNPs that wait for room go out as far as they may (R178). -/
def State.pumpBisnps (s : State) : State := (s.pool.backInvs.filter (fun b => !b.sent)).foldl (fun t b => t.sendBisnp b.line b.host) s
/-- Back-invalidates every line of an extent that a host holds (R278, R296). -/
def State.backInvExt (s : State) (x : Ext) (only : Option Nat) (discard : Bool) (rev : Option (Nat × Nat)) : State :=
  let s0 := ((s.pool.dir.filter (fun d => inExt x (64 * d.1))).map Prod.fst).foldl State.dirClean s
  (s0.pool.dir.filter (fun d => inExt x (64 * d.1))).foldl (fun t d =>
    (d.2.hosts.filter (fun h => only == none || only == some h)).foldl (fun t h => t.startBackInv d.1 h discard rev) t) s0
/-- RELEASE (R278): the extent stops serving, held lines are recalled, its moves abort. -/
def State.extRelease (s : State) (e : Nat) : State :=
  let x := s.ext e
  let s1 := s.modExt e (fun y => { y with st := .releasing })
  let s2 := s1.backInvExt x none true none
  let s3 := s2.modPool (fun p => { p with movesNow := p.movesNow.map (fun m => if inExt x m.page then { m with aborting := true } else m) })
  (movesOf s3 x).foldl (fun t m => t.abortCheck m.id) s3
/-- Whether a request that has passed the checks for an extent waits in a line queue (R278, R296). -/
def State.lineWaits (s : State) (x : Ext) (p : QEntry → Bool) : Bool :=
  s.sw.lines.any (fun q => q.2.any (fun r => r.gate.isNone && r.t.ty != .resync && inExt x (s.poolOff r.homeTxn.addr) && p r))
/-- Whether RELEASING may end: no request of the extent in its queues, no CXL.mem access that has passed the checks, no line held or being recalled, no move (R278). -/
def State.extDrained (s : State) (e : Nat) : Bool :=
  let x := s.ext e
  x.st == .releasing && !s.lineWaits x (fun _ => true) && !(s.hp.any (fun q => q.2.accs.any (fun a => a.passed && inExt x a.off))) &&
  !(s.pool.dir.any (fun d => inExt x (64 * d.1))) && !(s.pool.backInvs.any (fun b => inExt x (64 * b.line))) && (movesOf s x).isEmpty
def State.extToZeroing (s : State) (e : Nat) : State :=
  let x := s.ext e
  let s1 := s.modExt e (fun y => { y with st := .zeroing, granules := [] })
  let s2 := s1.modPool (fun p => { p with zeroing := tset p.zeroing e x.granules })
  (List.range 4).foldl (fun t d => t.retireCheck d) s2
/-- One granule has been zeroed: it returns to the free pool of a HEALTHY die, or is retired (R278, R295). -/
def State.granuleZeroed (s : State) (e : Nat) : State :=
  match tget [] s.pool.zeroing e with
  | [] => s
  | g :: r =>
    let s1 := s.modPool (fun p => { p with zeroing := if r.isEmpty then terase p.zeroing e else tset p.zeroing e r })
    if (s.die g.die).st == .healthy then s1.modDie g.die (fun y => { y with returned := y.returned ++ [g.no] }) else s1

-- Grants (Table 10-4)
def grantOf (v : Nat) : Grant :=
  { id := field v 0 16, valid := bitOf v 16, rd := bitOf v 17, wr := bitOf v 18, at_ := bitOf v 19, host := bitOf v 20, revoked := bitOf v 21 }
def Grant.word (g : Grant) : Nat :=
  pack [(16, g.id), (1, boolNat g.valid), (1, boolNat g.rd), (1, boolNat g.wr), (1, boolNat g.at_), (1, boolNat g.host), (1, boolNat g.revoked), (10, 0)]
-- Counters (R298, R299)
def sat16 (n : Nat) : Nat := if 65535 < n then 65535 else n
def State.countAccess (s : State) (off : Nat) (read : Bool) : State :=
  s.modPool (fun p => { p with counters := tmod {} p.counters (off / 2 ^ 21) (fun c =>
    { c with reads := if read then sat16 (c.reads + 1) else c.reads, writes := if read then c.writes else sat16 (c.writes + 1), last := s.epochNo % 2 ^ 24 }) })
def ageOf (e last : Nat) : Nat := (e + 2 ^ 24 - last) % 2 ^ 24
/-- The halving at a decay epoch, with the bound on ages (R299). -/
def State.decay (s : State) : State :=
  let e := s.epochNo % 2 ^ 24
  s.modPool (fun p => { p with
    counters := tmap p.counters (fun _ c => { c with reads := c.reads / 2, writes := c.writes / 2, last := if 2 ^ 23 ≤ ageOf e c.last then (e + 2 ^ 23) % 2 ^ 24 else c.last }),
    started := 0, decayed := true })
/-- HOT 0, COLD 1, neither none (R299); no page is classed during the warm-up (R442's bound in `DEV` objects). -/
def classOf (s : State) (d : DriftCfg) (page : Nat) : Option Nat :=
  let c := tget {} s.pool.counters page
  if s.epochNo < s.pool.onlineEpoch + s.pool.warmup then none
  else if d.hotThr ≤ c.reads + c.writes then some 0
  else if c.reads + c.writes ≤ d.coldThr && d.coldAge ≤ ageOf (s.epochNo % 2 ^ 24) c.last then some 1
  else none

-- Drift (R300 to R306)
def freeFrame (taken : List Nat) (lands : List (Nat × Nat × Nat)) : Option Nat :=
  lands.findSome? (fun l => ((List.range l.2.1).find? (fun i => !taken.contains (l.1 + i * 2 ^ 21))).map (fun i => l.1 + i * 2 ^ 21))
/-- Landing frames that drift counts as occupied (R304). -/
def State.takenFrames (s : State) : List Nat := s.pool.landed.map (fun l => l.1) ++ s.pool.movesNow.map (fun m => m.land)
def ruleFor (d : DriftCfg) (owner cls : Nat) : Option DriftRule :=
  match d.rules.find? (fun r => r.anyCtx || r.ctx == owner) with
  | some r => if r.when_ == cls then some r else none
  | none => none
def rangeLines (base n : Nat) : List Nat := (List.range (n / 64)).map (fun i => base / 64 + i)
/-- The pages that a scan examines: a back-pointer, an ACTIVE extent not sealed, no poison, a class that a rule matches (R303, R346). -/
def State.driftCandidate (s : State) (d : DriftCfg) (page : Nat) : Bool :=
  tget 0 s.pool.backptr page != 0 &&
  (match extOfOff s (page * 2 ^ 21) with
   | some (_, x) => x.st == .active && !(s.key x.keySlot).sealed &&
       !((rangeLines (page * 2 ^ 21) (2 ^ 21)).any (fun l => s.linePoison x (64 * l) != 0)) &&
       (match classOf s d page with | some c => (ruleFor d x.owner c).isSome | none => false)
   | none => false)
/-- Starts a move of a page whose entry has been read (R303, R304): MOVING is set first (R111). -/
def State.startMove (s : State) (page word land : Nat) : State :=
  let entry := tget 0 s.pool.backptr page
  let m : Move := { id := s.pool.nextMove, page := page * 2 ^ 21, entry := entry, word := word, land := land }
  let s1 := s.modPool (fun p => { p with movesNow := p.movesNow ++ [m], nextMove := p.nextMove + 1, started := p.started + 1 })
  s1.issue (entryStore entry word (nEntry word).fa true) (.driftEntry m.id) s.reqTimeout
/-- The answer to a scan's read of an entry (R303). -/
def State.driftScanRsp (s : State) (page : Nat) (r : Txn) : State :=
  let s0 := s.modPool (fun p => { p with scanned := p.scanned.filter (· != page) })
  let v := rspWord r
  let e := nEntry v
  match s.tbl.active.drift, extOfOff s (page * 2 ^ 21) with
  | some d, some (_, x) =>
    if r.status != 0 || !(e.valid && e.leaf && e.size == 1 && !e.mlock && !e.moving && e.fa == s.poolFa (page * 2 ^ 21)) then
      s0.modPool (fun p => { p with backptr := terase p.backptr page, aborts := p.aborts + 1 })
    else if !s.pool.driftEnable || !s.inService || !s.driftCandidate d page || d.maxMoves ≤ s.pool.started then s0
    else match classOf s d page with
      | some c => (match ruleFor d x.owner c with
        | some rule => (match freeFrame s.takenFrames ((d.lands.drop rule.landFirst).take rule.landCount) with
          | some land => s0.startMove page v land
          | none => s0)
        | none => s0)
      | none => s0
  | _, _ => s0
/-- Copies: up to eight lines in flight, in the order of the page's eight engine tiles of 256 KiB (R304; log 17). A move that aborts finishes its engine tile. -/
def State.driftIssue (s : State) (mv : Nat) (n : Nat) : State :=
  match n with
  | 0 => s
  | n + 1 =>
    match s.move mv with
    | none => s
    | some m =>
      if m.stage == 2 && !m.failed && (!m.aborting || m.pos % 262144 != 0) && m.pos < 2 ^ 21 then
        ((s.modMove mv (fun x => { x with pos := x.pos + 64 })).issue (readTxn 0 (s.poolFa (m.page + m.pos)) 64 0 false) (.driftRead mv m.pos) s.reqTimeout).driftIssue mv n
      else s
/-- A failed request of an engine that reissues it: its flow gets a RESYNC first, which the reissued request waits behind (R134, R167). -/
def State.breakFor (s : State) (o : OutReq) (r : Txn) : State := s.breakKey o.t { r with status := 7 }
/-- A response to a copy's read or write; a failure is reissued once after RESYNC, then aborts the move (R167, R305). -/
def State.driftCopyRsp (s : State) (key mv pos : Nat) (o : OutReq) (r : Txn) (isRead : Bool) : State :=
  match s.move mv with
  | none => s.endReq key
  | some m =>
    if r.status != 0 then
      if o.tries == 0 then (s.breakFor o r).reissue key o
      else ((s.endReq key).modMove mv (fun x => { x with aborting := true, failed := true })).abortCheck mv
    else if isRead then
      let e := nEntry m.word
      let t : Txn := { ty := .wr, akind := 3, size := 63, addr := (m.land + pos) % 2 ^ 57, home := some (e.pclass, e.keySlot), data := r.data }
      if m.failed then (s.endReq key).abortCheck mv else (s.endReq key).issue t (.driftWrite mv pos) s.reqTimeout
    else
      (((s.endReq key).modMove mv (fun x => { x with done := x.done + 1 })).driftIssue mv 1).abortCheck mv
/-- The response to a write of a move's entry (R111): MOVING set starts the withdrawal, the new FA starts the guard. -/
def State.driftEntryRsp (s : State) (mv : Nat) : State :=
  match s.move mv with
  | none => s
  | some m =>
    if m.stage == 0 then (s.modMove mv (fun x => { x with stage := 1 })).startWd true 0 (s.poolFa m.page) 1 0 0 (.drift mv)
    else if m.stage == 3 then s.modMove mv (fun x => { x with stage := 4 })
    else s

end Sys2Proof.Machine
end

