-- ==== Sys2Proof/Machine/Vane.lean ====
section
/-! DEFINITION. The common course of a Vane write: the session's view (R423), kept responses (R418), the epoch check (R427, R428),
the order of aborts (R420), the response (R414, R415) and the acceptance that raises the unit's epoch (R426). -/

namespace Sys2Proof.Machine
open Sys2Proof

-- Abort codes (Table 14-6)
def abortOk : Nat := 0x00
def abortMalformed : Nat := 0x01
def abortNoObject : Nat := 0x02
def abortReadOnly : Nat := 0x03
def abortWriteOnly : Nat := 0x04
def abortLocked : Nat := 0x05
def abortLength : Nat := 0x06
def abortSegment : Nat := 0x07
def abortStale : Nat := 0x08
def abortRange : Nat := 0x09
def abortRefused : Nat := 0x0A
def abortBusy : Nat := 0x0B
def abortAuth : Nat := 0x0C
def abortSeq : Nat := 0x0D

def State.session (s : State) (i : Nat) : Session := tget {} s.vane.sessions i
def State.modSession (s : State) (i : Nat) (f : Session → Session) : State :=
  { s with vane := { s.vane with sessions := tmod {} s.vane.sessions i f } }
/-- Whether a session is served in the PRV view: an SPDM session with mutual authentication whose key an administrator slot holds, or
clear I3C (session 0) while every slot is empty and unlocked (R423). -/
def State.prvView (s : State) (sess : Nat) : Bool :=
  if sess == 0 then s.vane.admin.all (fun x => x.2 == 0) && !s.vane.adminLock
  else (s.session sess).isOpen && (s.session sess).established && (s.session sess).mutAuth &&
    (s.session sess).leafKey != 0 && s.vane.admin.any (fun x => x.2 == (s.session sess).leafKey)
/-- Whether the device answers a session at all: clear I3C, or a session that is open (R421, R423). -/
def State.answers (s : State) (sess : Nat) : Bool := sess == 0 || ((s.session sess).isOpen && (s.session sess).established)
/-- Whether the device answers a frame at all in its phase: nothing in COLD and after TRIP, five identity objects on I3C in STRAP (R436), I3C alone in OFF (R450). -/
def State.vaneOpen (s : State) (sess : Nat) (f : VFrame) : Bool :=
  if s.thm.stage == .trip then false else
  match s.dev.phase with
  | .cold => false
  | .strap => sess == 0 && (f.op == 1 || f.op == 3) && f.index == 0x1000 && (f.sub == 1 || f.sub == 2 || f.sub == 3 || f.sub == 5 || f.sub == 0x0E)
  | .off => sess == 0 || (s.session sess).chan == .i3c
  | _ => true
/-- The unit to which Table 14-10 gives the object of a frame; `CTX.CTL` and `KEY.CTL` name it in the record (log 31). -/
def unitOf (f : VFrame) : Option EUnit :=
  let i := f.index
  let split := fun (base : Nat) => (i - base) * 256 + f.sub
  if i == 0x1000 && f.sub == 0x20 then some .device
  else if 0x1C00 ≤ i && i < 0x1D00 then some (.ring (split 0x1C00))
  else if 0x1D00 ≤ i && i < 0x1E00 then some (.ctx (split 0x1D00))
  else if 0x1F00 ≤ i && i < 0x1F10 then some (.key (split 0x1F00))
  else if 0x2000 ≤ i && i < 0x3000 && i % 16 == 0 && [0x01, 0x08, 0x0C, 0xFE].contains f.sub then some (.port ((i - 0x2000) / 16))
  else if 0x4100 ≤ i && i < 0x4118 && [0x04, 0xFE].contains f.sub then some (.stack (i - 0x4100))
  else if 0x4A00 ≤ i && i < 0x4E00 && [2, 3, 4, 5, 6, 7, 9, 0x0A, 0xFE].contains f.sub then some (.ext (i - 0x4A00))
  else if i == 0x6000 && f.sub == 1 && f.op == 2 && 3 ≤ f.payload.length then some (.ctx (leAt f.payload 1 2))
  else if i == 0x6000 && f.sub == 2 && f.op == 2 && 3 ≤ f.payload.length then some (.key (leAt f.payload 1 2 % 4096))
  else if 0x6400 ≤ i && i < 0x6500 then some (.ring (split 0x6400))
  else if 0x6600 ≤ i && i < 0x6700 then some (.ring (split 0x6600))
  else if i == 0x7000 && [1, 2, 3, 9, 0xFE].contains f.sub then some .rackTime
  else if i == 0x7100 && [1, 4, 5, 0xFE].contains f.sub then some .bank
  else if 0xA000 ≤ i && i < 0xA080 && i % 16 == 0 && [3, 6, 0xFE].contains f.sub then some (.host ((i - 0xA000) / 16))
  else none
/-- The current epoch of the unit of a frame's object; zero for an object of no unit (Table 14-4). -/
def State.frameEpoch (s : State) (f : VFrame) : Nat := match unitOf f with | some u => (s.epochRec u).epoch | none => 0
/-- The response to a frame (R415, Table 14-4). -/
def State.rspFrame (s : State) (f : VFrame) (abort : Nat) (last : Bool) (payload : Bytes) : VFrame :=
  { op := f.op, rsp := true, last := last, seq := f.seq, index := f.index, sub := f.sub, abort := abort, epoch := s.frameEpoch f,
    offset := if f.op == 1 && abort == 0 then f.offset else 0,
    len := payload.length, payload := payload }
/-- Sends a response; it is kept among the session's last 64 unless its abort is BUSY or SEQ_CONFLICT (R418). -/
def State.respond (s : State) (sess : Nat) (f r : VFrame) : State :=
  let s1 := if r.abort == abortBusy || r.abort == abortSeq then s
            else s.modSession sess (fun x => { x with kept := lastN 64 ((x.kept.filter (fun k => k.req.seq != f.seq)) ++ [{ req := f, rsp := r }]) })
  let s2 := if r.abort == 0 then s1 else { s1 with vane := { s1.vane with aborts := s1.vane.aborts + 1 } }
  s2.emit (.vane sess r)
/-- An entry of the log of facts that rules log and Table 16-3 has no event for: 1 a refused RT.SET (R248), 2 a step left to management (R254), 3 several nodes
that qualify for one port (R446) (log 48). -/
def State.noteRt (s : State) (cause : Nat) : State := { s with vane := { s.vane with rtLog := lastN 64 (s.vane.rtLog ++ [(s.slot, cause)]) } }
/-- A write of `RT.SET` that the device refuses is logged (R248). -/
def State.noteRefused (s : State) (f : VFrame) (abort : Nat) : State :=
  if f.op == 2 && f.index == 0x7000 && f.sub == 3 && abort == abortRefused then s.noteRt 1 else s
/-- The answer to a request that the device does not accept. -/
def State.refuse (s : State) (sess : Nat) (f : VFrame) (abort : Nat) : State := (s.noteRefused f abort).respond sess f (s.rspFrame f abort false [])
/-- The answer to an accepted write. -/
def State.acknowledge (s : State) (sess : Nat) (f : VFrame) : State := s.respond sess f (s.rspFrame f 0 false [])
/-- The kept response of a session under a SEQ. -/
def State.keptOf (s : State) (sess seq : Nat) : Option Kept := (s.session sess).kept.find? (fun k => k.req.seq == seq)
/-- An accepted epoch-checked write raises the unit's epoch (R426). -/
def State.accept (s : State) (u : Option EUnit) : State :=
  match u with
  | some x => s.modEpoch x (fun r => { r with epoch := (r.epoch + 1) % 4294967296, self := false, slot := s.slot })
  | none => s
/-- A write in the PRV view of an object that exists and may be written, in the order of R420 from SEQ_CONFLICT on: the kept response, the epoch
check, then the object's own checks and effect, an abort code or the state after it. -/
def State.judge (s : State) (f : VFrame) (u : Option EUnit) (eff : State → Except Nat State) : Nat × State :=
  if u.any (fun x => (s.epochRec x).epoch != f.epoch) then (abortStale, s)
  else match eff s with
    | .error a => (a, s)
    | .ok t => (0, t.accept u)
/-- Judges a write and sends its response. -/
def State.vaneJudge (s : State) (sess : Nat) (f : VFrame) (u : Option EUnit) (eff : State → Except Nat State) : State :=
  (s.judge f u eff).2.refuse sess f (s.judge f u eff).1
/-- The write frame of a typed dictionary write. -/
def writeFrame (v : VCtx) (index sub : Nat) (payload : Bytes) : VFrame :=
  { op := 2, seq := v.seq, index := index, sub := sub, epoch := v.epoch, len := payload.length, payload := payload }
def State.dropFrame (s : State) : State := { s with vane := { s.vane with rxDropped := s.vane.rxDropped + 1 } }
/-- Counts a datagram of a UDP session towards `VANE.RATE_LIMIT` (R421; log 32). -/
def State.countDatagram (s : State) (sess : Nat) : State :=
  if sess == 0 || (s.session sess).chan != .udp then s
  else s.modSession sess (fun x => if x.rateAt + 1000000000 ≤ s.clk then { x with rateAt := s.clk, rateCount := 1 } else { x with rateCount := x.rateCount + 1 })
/-- Whether a datagram comes within the limit. -/
def State.rateOk (s : State) (sess : Nat) : Bool :=
  sess == 0 || (s.session sess).chan != .udp || decide ((s.session sess).rateAt + 1000000000 ≤ s.clk) ||
  decide ((s.session sess).rateCount < s.vane.rateLimit)
/-- An authentication failure (R432, event 7/0x02); `where_` is the transport, 0 UDP, 1 I3C. -/
def State.authFail (s : State) (where_ : Nat) : State :=
  { s with vane := { s.vane with authFails := s.vane.authFails + 1 } }.event 7 0x02 0 0 where_ 0
/-- Whether a frame comes over I3C: in clear, or in a session there. One without the privilege of R423 completes AUTH (Table 14-6). -/
def State.onI3c (s : State) (sess : Nat) : Bool := sess == 0 || (s.session sess).chan == .i3c
/-- Answers a repeated request with its kept response (R418). -/
def State.resend (s : State) (sess : Nat) (k : Kept) : State :=
  { s with vane := { s.vane with aborts := s.vane.aborts + boolNat (k.rsp.abort != 0) } }.emit (.vane sess k.rsp)
/-- Serves a frame up to its object: no answer in a phase without Vane, outside a session or above the rate limit; AUTH, the kept response, SEQ_CONFLICT;
else `k` (R418, R420, R421, R423). -/
def State.vaneServe (s : State) (sess : Nat) (f : VFrame) (k : State → State) : State :=
  if !s.vaneOpen sess f then s
  else if !s.answers sess || !s.rateOk sess then s.dropFrame
  else if !s.prvView sess then
    if s.onI3c sess then (s.authFail 1).refuse sess f abortAuth
    else s.dropFrame
  else match s.keptOf sess f.seq with
    | some kp => if kp.req == f then s.resend sess kp else s.refuse sess f abortSeq
    | none => k (s.countDatagram sess)
/-- A typed write of an object with a row of its own. -/
def State.vaneWrite (s : State) (v : VCtx) (obj : Nat × Nat) (payload : Bytes) (u : Option EUnit) (eff : State → Except Nat State) : Answer :=
  .next (s.vaneServe v.sess (writeFrame v obj.1 obj.2 payload) (fun t => t.vaneJudge v.sess (writeFrame v obj.1 obj.2 payload) u eff))
/-- A condition that must hold, with the abort that stands for its failure. -/
def check (c : Bool) (a : Nat) (k : Except Nat State) : Except Nat State := if c then k else .error a

end Sys2Proof.Machine
end

