-- ==== Sys2Proof/Machine/Movers.lean ====
section
/-! DEFINITION. Rings and bulk movers: configuration and states (R60 to R64), doorbells (R65 to R68), descriptors (R70 to R72),
engine tiles (R73, R79), signals, completion records and notification (R74, R75), errors, halting and restart (R76 to R78). -/

namespace Sys2Proof.Machine
open Sys2Proof

/-- What the translations of a ring's earlier descriptors have left ends with them. -/
def State.clearWaits (s : State) (n : Nat) : State :=
  s.modXl (fun x => { x with mwaits := x.mwaits.filter (fun m => m.n != n), mfaults := x.mfaults.filter (fun m => m.n != n) })
-- RING.CFG (Table 3-1)
def ringCfgOf (v : Nat) : RingCfg :=
  { enable := bitOf v 0, log2Depth := field v 8 5, level := field v 16 2, weight := field v 24 8, ctx := field v 32 16, notifyVec := field v 48 16,
    descBase := field v 64 64, cmplBase := field v 128 64, rsvd := field v 1 7 + field v 13 3 + field v 18 6 + field v 192 64 }
def RingCfg.word (c : RingCfg) : Nat :=
  pack [(1, boolNat c.enable), (7, 0), (5, c.log2Depth), (3, 0), (2, c.level), (6, 0), (8, c.weight), (16, c.ctx), (16, c.notifyVec), (64, c.descBase), (64, c.cmplBase), (64, 0)]
/-- An FA as R34 and R35 allow it: bits [63:53] zero. -/
def isFa (a : Nat) : Bool := decide (a < 2 ^ 53)
/-- The fields of a ring configuration inside their ranges (Table 3-1, R311). -/
def ringRangeOk (c : RingCfg) : Bool :=
  decide (4 ≤ c.log2Depth) && decide (c.log2Depth ≤ 16) && decide (1 ≤ c.weight) &&
  (c.notifyVec == 0xFFFF || (decide (c.notifyVec < 16384) && c.notifyVec % 2048 != 0))
/-- The defects of R61 that are refused: alignment, FA form, a context other than that of the group's enabled rings. -/
def State.ringCfgOk (s : State) (n : Nat) (c : RingCfg) : Bool :=
  c.descBase % 4096 == 0 && c.cmplBase % 4096 == 0 && isFa c.descBase && isFa c.cmplBase &&
  (!c.enable || (List.range 16).all (fun k => 16 * (n / 16) + k == n || !(s.ring (16 * (n / 16) + k)).cfg.enable || (s.ring (16 * (n / 16) + k)).cfg.ctx == c.ctx))
def Ring.depth (r : Ring) : Nat := 2 ^ r.cfg.log2Depth
/-- A distance of free-running 32-bit indices. -/
def idxSub (a b : Nat) : Nat := (a + 2 ^ 32 - b % 2 ^ 32) % 2 ^ 32
def idxAdd (a b : Nat) : Nat := (a + b) % 2 ^ 32
/-- A write of ENABLE = 0 to a RUNNING or HALTED ring: DRAINING (R64). -/
def State.ringDrain (s : State) (n : Nat) : State :=
  if (s.ring n).st == .running || (s.ring n).st == .halted then
    s.cmdChange (.ring n) (fun t => t.modRing n (fun r => { r with st := .draining, drainSince := s.clk, cfg := { r.cfg with enable := false } }))
  else s.modRing n (fun r => { r with cfg := { r.cfg with enable := false } })
/-- The effect of a `RING.CFG` write (R61, R64). -/
def ringCfgWrite (n v : Nat) (s : State) : Except Nat State :=
  let c := ringCfgOf v
  let r := s.ring n
  if !ringRangeOk c then .error abortRange
  else if c.rsvd != 0 then .error abortRefused
  else if r.st == .disabled then
    if !s.ringCfgOk n c then .error abortRefused
    else if c.enable && !s.inService && s.dev.phase != .slush && s.dev.phase != .tables then .error abortRefused
    else if c.enable then
      .ok ((((s.setMg (.ring n) none).modRing n (fun x => { x with cfg := c })).clearWaits n).cmdChange (.ring n) (fun t => t.modRing n (fun x =>
        { x with st := .running, head := 0, tail := 0, cmplTail := 0, cmplHead := 0, fetched := [], work := [], notifies := [] })))
    else .ok ((s.setMg (.ring n) none).modRing n (fun x => { x with cfg := c }))
  else if (r.st == .running || r.st == .halted) && !c.enable && c == { r.cfg with enable := false } then .ok ((s.setMg (.ring n) none).ringDrain n)
  else .error abortRefused
def ringCfgObj (n : Nat) : Nat × Nat := (0x6400 + n / 256, n % 256)
def ringCtlObj (n : Nat) : Nat × Nat := (0x6600 + n / 256, n % 256)

-- Doorbells (R65 to R68)
def State.dbIgnore (s : State) : State := { s with mov := { s.mov with dbIgnored := s.mov.dbIgnored + 1 } }
/-- A ring fault (R75). -/
def State.ringFault (s : State) (n st : Nat) : State :=
  if (s.ring n).st == .running then
    s.selfChange (.ring n) (fun t => t.modRing n (fun x => { x with st := .halted, fault := true, cause := st, resumeIdx := x.cmplTail }))
  else s
/-- Whether an outstanding request was issued for a ring. -/
def Purpose.ofRing (p : Purpose) (n : Nat) : Bool :=
  match p with
  | .descFetch m _ _ => m == n | .snapWrite m _ => m == n | .moverRead m _ _ _ _ => m == n | .moverWrite m _ _ _ _ => m == n
  | .atomicDesc m _ => m == n | .signal m _ => m == n | .complWrite m _ => m == n | _ => false
def State.ringOut (s : State) (n : Nat) : Bool := s.reqs.any (fun x => x.2.who.ofRing n)
/-- The flow keys that a ring's requests broke. -/
def State.ringKeys (s : State) (n : Nat) : List (Nat × Nat × Nat × Nat) := (s.ring n).broken.map (fun b => (s.poolNode, b.1, b.2.1, b.2.2))
/-- A RESTART goes on once the requests from before it have ended and the RESYNCs of the broken flows have been issued (R78, R134). -/
def State.resumeRing (s : State) (n : Nat) : State :=
  if (s.ring n).resuming && !s.ringOut n then
    let s1 := { s with xact := { s.xact with toSync := (s.ringKeys n).foldl addKey s.xact.toSync } }.pump
    if (s.ringKeys n).any (fun k => s1.xact.toSync.contains k) then s1
    else s1.modRing n (fun x => { x with resuming := false, broken := [] })
  else s
/-- Whether a ring waits for an acquire, a descriptor fetch: it issues nothing else until the response has come (R159, R161). -/
def State.acquiring (s : State) (n : Nat) : Bool := s.reqs.any (fun x => match x.2.who with | .descFetch m _ _ => m == n | _ => false)
/-- A ring has new descriptors: its slice issues the fetch of the oldest one not yet fetched, as an acquire, in two line reads one after the other
(R69, R159, Table 6-3), with up to 8 descriptors ahead (R79). -/
def State.fetchNext (s0 : State) (n : Nat) : State :=
  let s := s0.resumeRing n
  let r := s.ring n
  if r.st == .running && !r.resuming && !s.acquiring n && idxSub r.tail r.head != 0 &&
      r.fetched.length + (r.work.filter (fun w => !w.recorded)).length < 8 then
    let i := r.head
    let a := r.cfg.descBase + 128 * (i % r.depth)
    if s.absent.contains (a / 2 ^ 41) then s.ringFault n 2
    else
    let s1 := s.modRing n (fun x => { x with head := idxAdd i 1, fetched := x.fetched ++ [{ idx := i }] })
    s1.issue (readTxn r.cfg.ctx a 64 (n % 8) true) (.descFetch n i 0) s.reqTimeout
  else s
/-- A doorbell write to the register at `off` (0x00 TAIL, 0x08 CMPL_HEAD) of ring n's region (R66). One that R355 has the ring ignore, because its context
is in STOPPING, is not counted (DESIGN CHOICE, log 48). -/
def State.doorbell (s : State) (n off value width : Nat) : State :=
  let r := s.ring n
  let x := value % 2 ^ 32
  if !((width == 4 || width == 8) && (off == 0 || off == 8) && (r.st == .running || r.st == .halted)) then s.dbIgnore
  else if (s.ctx r.cfg.ctx).st == .stopping then s
  else if off == 0 then
    if idxSub x r.head ≤ r.depth then (s.modRing n (fun y => { y with tail := x })).fetchNext n else s.dbIgnore
  else if idxSub r.cmplTail x ≤ r.depth then s.modRing n (fun y => { y with cmplHead := x })
  else s.dbIgnore
/-- What a read of the 256-byte region of a ring returns, from offset `o` (R65). -/
def State.doorbellRead (s : State) (n o len : Nat) : Bytes :=
  slice (leBytes 4 (s.ring n).tail ++ leBytes 4 0 ++ leBytes 4 (s.ring n).cmplHead ++ List.replicate 244 0) o len
/-- A request to the doorbell aperture: its status and data, and the state after it (R68). -/
def State.serveDoorbell (s : State) (t : Txn) : Nat × Bytes × State :=
  let o := t.off - 0x1FFFF000000
  let n := o / 256
  if t.ty == .atom then (9, [], s)
  else if t.ctx != 0 && t.ctx != (s.ring n).cfg.ctx then (3, [], s)
  else if t.ty == .rd then (0, slice (s.doorbellRead n (o % 256 / 8 * 8) (8 * ceilDiv (o % 8 + t.len) 8)) 0 (8 * ceilDiv (o % 8 + t.len) 8), s)
  else (0, [], s.doorbell n (o % 256) (leAt t.data (o % 8) t.len) t.len)

/-- After the end of a request of a ring: a RESTART that waited for it goes on. -/
def State.afterEnd (s : State) (n : Nat) : State := if (s.ring n).resuming then s.fetchNext n else s

-- Descriptors (Table 3-4, R71)
def descOf (b : Bytes) : Desc :=
  let v := leAt b 0 64
  { opcode := field v 0 8, srcKind := field v 8 2, dstKind := field v 10 2, fence := bitOf v 12, signal := bitOf v 13, sigAdd := bitOf v 14,
    notify := bitOf v 15, atop := field v 16 8, rsvd := field v 24 8, len := field v 32 32, src := field v 64 64, dst := field v 128 64,
    imm := field v 192 64, opnd2 := field v 256 64, sigAddr := field v 320 64, sigValue := field v 384 64, userTag := field v 448 64,
    oparg := leAt b 96 32 }
/-- An operand address that R35 or R38 makes malformed, or an FA operand that runs past its node's 2 TiB (R71). -/
def addrBad (kind a len : Nat) : Bool :=
  if kind == 0 then decide (2 ^ 53 ≤ a) || decide (2 ^ 41 < a % 2 ^ 41 + len) else decide (2 ^ 57 ≤ a)
/-- The malformed descriptors of R71 and R226. -/
def descMalformed (d : Desc) : Bool :=
  let isCas16 := d.opcode == 3 && d.len == 16
  decide (2 ≤ d.srcKind) || decide (2 ≤ d.dstKind) || d.rsvd != 0 ||
  !([0, 1, 2, 3, 0x10].contains d.opcode) ||
  (d.opcode != 3 && d.atop != 0) || (d.opcode != 1 && d.src != 0) || (d.opcode == 0 && d.len != 0) ||
  (d.opcode == 0x10 && (d.len != 0 || d.dst != 0 || d.srcKind != 0 || d.dstKind != 0)) || (d.opcode == 1 && d.len == 0) ||
  (d.opcode == 2 && (d.len % 8 != 0 || d.dst % 8 != 0)) ||
  (d.opcode == 3 && (!(atopOk d.atop) || atopWidth d.atop != d.len || d.dst % d.len != 0 || (d.len == 4 && d.imm / 2 ^ 32 != 0) ||
     (d.len == 16 && d.atop != 0x24))) ||
  (!(d.opcode == 3 && atopOp d.atop == 4) && d.opnd2 != 0) || (d.opcode != 0x10 && !isCas16 && d.oparg != 0) || (isCas16 && d.oparg / 2 ^ 128 != 0) ||
  d.sigAddr % 8 != 0 || (d.signal && addrBad d.dstKind d.sigAddr 8) ||
  (d.opcode == 1 && addrBad d.srcKind d.src d.len) || ((d.opcode == 1 || d.opcode == 2 || d.opcode == 3) && addrBad d.dstKind d.dst d.len)
def Work.hasSrc (w : Work) : Bool := w.d.opcode == 1
def Work.hasDst (w : Work) : Bool := w.d.opcode == 1 || w.d.opcode == 2 || w.d.opcode == 3
def State.work (s : State) (n idx : Nat) : Option Work := (s.ring n).work.find? (fun w => w.idx == idx)
def State.modWork (s : State) (n idx : Nat) (f : Work → Work) : State :=
  s.modRing n (fun r => { r with work := r.work.map (fun w => if w.idx == idx then f w else w) })
/-- A mover operand's translation: FA, page size, right, home attributes (R82). -/
structure MTrans where
  fa : Nat
  pg : Nat := 0
  ok : Bool := true
  attr : Option (Nat × Nat) := none
  deriving DecidableEq, Repr
/-- The translation of a mover operand through the cache of the ring's tile (R81): an FA is itself. None: not there yet, or to be obtained anew after a
page request (R95). `need` is 0 for a read, 1 for a write, 2 for an atomic. -/
def State.operand (s : State) (n ctx kind a need : Nat) : Option MTrans :=
  if kind == 0 then some { fa := a }
  else match s.lookup (n % 256) ctx a with
    | some e =>
      let ok := waiterOk e (.mover 0 0 0 need)
      if !ok && s.asksPages (s.bind ctx) then none else some { fa := e.fa + (a - e.va), pg := e.size, ok := ok, attr := e.attr }
    | none => none
/-- A mover's translation waits for a walk (R95, R103, R111). -/
def State.wantXlate (s : State) (n idx ctx va need : Nat) : State :=
  if s.xl.mwaits.any (fun m => m.n == n && m.idx == idx && m.va == va && m.need == need) then s
  else
    let s1 := (s.countMiss (n % 256)).modXl (fun x => { x with mwaits := x.mwaits ++ [{ n := n, idx := idx, va := va, need := need, since := s.clk }] })
    let s2 := s1.modRing n (fun r => { r with work := r.work.map (fun w => if w.idx == idx then { w with missed := w.missed + 1 } else w) })
    match s2.addMiss (n % 256 / 64) { ctx := ctx, va := va / 2 ^ 21 * 2 ^ 21, wr := need != 0, since := s.clk, waiters := [.mover n idx va need] } with
    | some s3 => s3
    | none => s2
/-- Counts the tile-cache hits of `k` translations that a descriptor now uses; those that had missed count none. -/
def State.countHits (s : State) (n idx k : Nat) : State :=
  let missed := ((s.work n idx).map (fun w => w.missed)).getD 0
  (s.modXl (fun x => { x with hits := x.hits + (k - missed) })).modWork n idx (fun w => { w with missed := 0 })
/-- Whether a mover translation has ended XLATE_FAULT. -/
def State.xlateFaulted (s : State) (n idx va : Nat) : Bool := s.xl.mfaults.any (fun m => m.n == n && m.idx == idx && m.va / 2 ^ 21 == va / 2 ^ 21)
/-- Ends a descriptor with a status, before its record (R77): the first of its statuses in the order of R500. -/
def State.finish (s : State) (n idx : Nat) (st : Status) : State :=
  s.modWork n idx (fun w => { w with status := some st })
/-- A tile's final responses are all in, and everything of it has been issued or it has ended (R77). -/
def ETile.over (t : ETile) : Bool := t.out == 0 && (t.ended || t.issued == t.len)
/-- Bytes of the longest prefix of engine tiles that completed OK (Table 3-6): up to the start of the first that has not. -/
def donePrefix (w : Work) : Nat := (w.tiles.filter (fun t => !(t.over && !t.bad))).foldl (fun a t => min a t.start) w.next
/-- A descriptor that has failed ends when none of its lines is outstanding: the status of R77, AUX and BYTES_DONE of Table 3-6. A tile that waits for
a new translation has no line. -/
def Work.failEnd (w : Work) : Work :=
  if w.status.isNone && !w.fails.isEmpty && w.tiles.all (fun t => t.out == 0) then
    { w with status := some (worst w.fails), bytesDone := donePrefix w, aux := if worst w.fails == .xlateFault then w.aux else 0 }
  else w
/-- A descriptor's translation failed: XLATE_FAULT with the faulting CVA in AUX (R72, R77). -/
def State.faultDesc (s : State) (n idx va : Nat) : State :=
  (s.modXl (fun x => { x with mfaults := x.mfaults.filter (fun m => !(m.n == n && m.idx == idx)), faults := x.faults + 1 })).modWork n idx
    (fun w => Work.failEnd { w with fails := w.fails ++ [.xlateFault], aux := va })
/-- The snapshot of a fetched descriptor (R72): bytes 64 to 95 of its slot. -/
def snapBytes (w : Work) : Bytes :=
  leBytes 32 (pack [(64, w.snapSrc), (64, w.snapDst), (32, w.xgen), (2, w.srcPg), (2, w.dstPg), (1, 1), (91, 0)])
/-- Both halves of a descriptor are there: it is checked, and joins the ring's work in order (R71). -/
def State.fetchedDesc (s : State) (n idx : Nat) (b : Bytes) : State :=
  let d := descOf b
  let w : Work := { idx := idx, d := d, status := if descMalformed d then some .malformed else none }
  s.modRing n (fun r => { r with fetched := r.fetched.filter (fun f => f.idx != idx), work := r.work ++ [w] })
/-- The right that a descriptor's DST needs: an atomic's for ATOMIC. -/
def Work.dstNeed (w : Work) : Nat := if w.d.opcode == 3 then 2 else 1
/-- The translations of both operands at transfer position x. -/
def State.operands (s : State) (n : Nat) (w : Work) (x : Nat) : Option MTrans × Option MTrans :=
  let c := (s.ring n).cfg.ctx
  (if w.hasSrc then s.operand n c w.d.srcKind (w.d.src + x) 0 else some { fa := 0 }, if w.hasDst then s.operand n c w.d.dstKind (w.d.dst + x) w.dstNeed else some { fa := 0 })
/-- Operands of a descriptor that are CVAs. -/
def Work.cvas (w : Work) : Nat := boolNat (w.hasSrc && w.d.srcKind == 1) + boolNat (w.hasDst && w.d.dstKind == 1)
/-- The CVA of a descriptor at position x that cannot be translated: its context is not bound here, its translation ended XLATE_FAULT, or the right lacks (R86). -/
def State.opFault (s : State) (n : Nat) (w : Work) (x : Nat) : Option Nat :=
  let b := s.bind (s.ring n).cfg.ctx
  let unbound := b.mode == 0 || !s.inScope b
  let bad := fun (has : Bool) (kind a : Nat) (t : Option MTrans) =>
    has && kind == 1 && (unbound || s.xlateFaulted n w.idx (a + x) || (match t with | some m => !m.ok | none => false))
  if bad w.hasSrc w.d.srcKind w.d.src (s.operands n w x).1 then some (w.d.src + x)
  else if bad w.hasDst w.d.dstKind w.d.dst (s.operands n w x).2 then some (w.d.dst + x)
  else none
/-- Has the operand at position x whose translation is missing wait for a walk. -/
def State.wantOperands (s : State) (n : Nat) (w : Work) (x : Nat) : State :=
  let c := (s.ring n).cfg.ctx
  if (s.operands n w x).1.isNone then s.wantXlate n w.idx c (w.d.src + x) 0
  else if (s.operands n w x).2.isNone then s.wantXlate n w.idx c (w.d.dst + x) w.dstNeed
  else s
/-- Takes the snapshot of a descriptor when its operands are translated, once: none while a translation is missing, or while the ring waits for an acquire
(R72, R107, R159). -/
def State.snapshot (s : State) (n idx : Nat) : State :=
  match s.work n idx with
  | none => s
  | some w =>
    if w.snapped || w.status.isSome || s.acquiring n then s else
    let r := s.ring n
    let c := r.cfg.ctx
    match s.opFault n w 0 with
    | some va => s.faultDesc n idx va
    | none =>
      match s.operands n w 0 with
      | (some a, some b) =>
        let w1 := { w with snapSrc := a.fa, snapDst := b.fa, srcPg := a.pg, dstPg := b.pg, srcAt := a.attr, dstAt := b.attr, xgen := tget 0 s.xl.xgen c, snapped := true, snapOk := true, snapOut := true }
        let s1 := (s.countHits n idx w.cvas).modWork n idx (fun _ => { w1 with missed := 0 })
        let at_ := r.cfg.descBase + 128 * (idx % r.depth) + 64
        s1.issue { ty := .wr, size := 31, ctx := c, flow := n % 8, addr := at_, data := snapBytes w1 } (.snapWrite n idx) s.reqTimeout
      | _ => s.wantOperands n w 0

-- Engine tiles (R73, R79)
/-- An exclusive descriptor: ATOMIC, OP_LAUNCH or one with a signal, before and after which nothing of the ring runs (R74). -/
def Work.exclusive (w : Work) : Bool := w.d.opcode == 3 || w.d.opcode == 0x10 || w.d.signal
def Work.completed (w : Work) : Bool := w.status.isSome && w.recorded
/-- Whether a descriptor may start or go on: those before it do not hold it back (R74). -/
def mayRun (ws : List Work) (idx : Nat) : Bool :=
  match ws.find? (fun w => w.idx == idx) with
  | none => false
  | some w =>
    let before := ws.takeWhile (fun x => x.idx != idx)
    if w.exclusive || w.d.fence then before.all Work.completed else before.all (fun x => !x.exclusive || x.completed)
/-- The next engine-tile boundary after position x (R73): a multiple of 256 KiB, or a boundary of the page of either side, or the end. `ps` and `pd` are
the page sizes at x (Table 3-4). -/
def tileEnd (w : Work) (ps pd x : Nat) : Nat :=
  let tile := (x / 262144 + 1) * 262144
  let page := fun (kind sz a : Nat) => if kind == 1 then x + (pageSize sz - (a + x) % pageSize sz) else w.d.len
  let a := min tile w.d.len
  min (min a (if w.hasSrc then page w.d.srcKind ps w.d.src else w.d.len)) (page w.d.dstKind pd w.d.dst)
/-- Length of the piece of a line copy at offset `x` of a tile: to the next 64-byte boundary of either side. -/
def pieceLen (src dst hasSrc left : Nat) : Nat :=
  min left (min (64 - dst % 64) (if hasSrc == 1 then 64 - src % 64 else 64))
def FILLpattern (imm : Nat) (dst len : Nat) : Bytes := leBytes (8 * ceilDiv (dst % 8 + len) 8) ((List.range 9).foldl (fun a i => a + imm * 2 ^ (64 * i)) 0)
/-- Issues the next line of an engine tile (R73, R76): a read of a COPY, a write of a FILL. -/
def State.issueLine (s : State) (n idx : Nat) (w : Work) (t : ETile) : State :=
  let c := (s.ring n).cfg.ctx
  let x := t.issued
  let len := pieceLen (t.src + x) (t.dst + x) (boolNat w.hasSrc) (t.len - x)
  let s1 := s.modWork n idx (fun w => { w with tiles := w.tiles.map (fun y => if y.no == t.no then { y with issued := x + len, out := y.out + 1, lastIssue := s.clk } else y) })
  if w.hasSrc then
    s1.issue { readTxn c (t.src + x) len (n % 8) false with akind := if t.srcAt.isSome then 3 else 0, home := t.srcAt } (.moverRead n idx t.no (t.start + x) len) s.reqTimeout
  else
    s1.issue { ty := .wr, akind := if t.dstAt.isSome then 3 else 0, home := t.dstAt, size := len - 1, ctx := c, flow := n % 8, addr := (t.dst + x) % 2 ^ 57, data := FILLpattern w.d.imm (t.dst + x) len }
      (.moverWrite n idx t.no (t.start + x) len) s.reqTimeout
/-- The 64-byte reads that a slice has outstanding, of which it may have 2,048 (R74). -/
def State.sliceReads (s : State) (tile : Nat) : Nat :=
  (s.reqs.filter (fun x => match x.2.who with | .moverRead n _ _ _ _ => n % 256 == tile | _ => false)).length
/-- Issues the lines of an engine tile that are not yet issued, as far as the slice may and while the ring waits for no acquire (R74, R77, R159). -/
def issueTile (n idx no : Nat) : Nat → State → State
  | 0, s => s
  | k + 1, s =>
    match s.work n idx with
    | none => s
    | some w =>
      match w.tiles.find? (fun t => t.no == no) with
      | none => s
      | some t =>
        if t.ended || t.cut || t.len ≤ t.issued || !w.fails.isEmpty || s.acquiring n || (w.hasSrc && 2048 ≤ s.sliceReads (n % 256)) then s else issueTile n idx no k (s.issueLine n idx w t)
/-- The translations of an engine tile at its start position: the first uses the snapshot, later ones translate afresh (R107). -/
def State.tileXlate (s : State) (n : Nat) (w : Work) (x : Nat) : Option (MTrans × MTrans) :=
  if x == 0 && w.snapOk then some ({ fa := w.snapSrc, pg := w.srcPg, attr := w.srcAt }, { fa := w.snapDst, pg := w.dstPg, attr := w.dstAt })
  else match s.operands n w x with
    | (some a, some b) => if a.ok && b.ok then some (a, b) else none
    | _ => none
/-- Stream prefetch at the start of an engine tile (R104). -/
def State.prefetch (s : State) (n : Nat) (w : Work) (x : Nat) : State :=
  let c := (s.ring n).cfg.ctx
  let one := fun (s : State) (va : Nat) (wr : Bool) =>
    if (s.lookup (n % 256) c va).isSome then s.modXl (fun y => { y with hits := y.hits + 1 })
    else
      let s1 := s.countMiss (n % 256)
      (s1.addMiss (n % 256 / 64) { ctx := c, va := va / 2 ^ 21 * 2 ^ 21, wr := wr, since := s.clk, waiters := [.prefetch (n % 256)] }).getD s1
  (List.range s.xl.prefetch).foldl (fun t i =>
    let y := x + 262144 * (i + 1)
    let t1 := if y < w.d.len && w.hasSrc && w.d.srcKind == 1 then one t (w.d.src + y) false else t
    if y < w.d.len && w.d.dstKind == 1 then one t1 (w.d.dst + y) true else t1) s
/-- Starts the next engine tile of a COPY or FILL, or lets it wait for its translation (R73, R104, R107). -/
def State.startTile (s : State) (n idx : Nat) (w : Work) : State :=
  let x := w.next
  match s.tileXlate n w x with
  | some (a, b) =>
    let e := tileEnd w a.pg b.pg x
    let t : ETile := { no := freshNo w.tiles, start := x, len := e - x, src := a.fa, dst := b.fa, srcPg := a.pg, dstPg := b.pg, srcAt := a.attr, dstAt := b.attr }
    let s0 := if x == 0 && w.snapOk then s else s.countHits n idx w.cvas
    let s1 := (s0.prefetch n w x).modWork n idx (fun w => { w with next := e, tiles := w.tiles ++ [t] })
    issueTile n idx t.no t.len s1
  | none => match s.opFault n w x with
    | some va => s.faultDesc n idx va
    | none => s.wantOperands n w x
/-- Gives a waiting tile its addresses; where its new page ends inside it, the rest is a tile of its own (R73). -/
def splitTile (no t0 : Nat) (a b : MTrans) (e : Nat) (t : ETile) : List ETile :=
  let t1 := { t with src := a.fa, dst := b.fa, srcPg := a.pg, dstPg := b.pg, srcAt := a.attr, dstAt := b.attr, issued := 0, cut := false }
  if t.no != t0 then [t]
  else if e < t.start + t.len then [{ t1 with len := e - t.start }, cutAt no e (t.start + t.len - e)]
  else [t1]
/-- A tile cut by a withdrawal starts like any other once it is translated at its start position, with its prefetches (R104, R109(c)). -/
def State.resumeCut (s : State) (n idx : Nat) (w : Work) (t : ETile) : State :=
  match s.tileXlate n { w with snapOk := false } t.start with
  | some (a, b) =>
    issueTile n idx t.no t.len (((s.countHits n idx w.cvas).prefetch n w t.start).modWork n idx (fun w =>
      { w with tiles := w.tiles.flatMap (splitTile (freshNo w.tiles) t.no a b (tileEnd w a.pg b.pg t.start)) }))
  | none => match s.opFault n w t.start with
    | some va => s.faultDesc n idx va
    | none => s.wantOperands n w t.start
/-- The engine tiles in flight that have lines left to issue go on with them (R73, R74). -/
def State.refill (s : State) (tile : Nat) : State :=
  (s.mov.rings.filter (fun r => r.1 % 256 == tile)).foldl (fun t r => r.2.work.foldl (fun t w =>
    (w.tiles.filter (fun x => !x.ended && !x.cut && decide (x.issued < x.len))).foldl (fun t x => issueTile r.1 w.idx x.no x.len t) t) t) s
/-- Whether a COPY or FILL may start another engine tile now (R73, R77). -/
def Work.canStart (w : Work) : Bool :=
  (w.d.opcode == 1 || w.d.opcode == 2) && w.status.isNone && w.fails.isEmpty && w.snapped &&
  decide ((w.tiles.filter (fun t => !t.over && !t.cut)).length < 8) && (decide (w.next < w.d.len) || w.tiles.any (fun t => t.cut))
/-- Whether a NOP, an ATOMIC or an OP_LAUNCH may be performed now. -/
def Work.smallReady (w : Work) : Bool :=
  (w.d.opcode == 0 || w.d.opcode == 3 || w.d.opcode == 0x10) && w.status.isNone && w.fails.isEmpty && w.tiles.isEmpty && w.next == 0 && (w.d.opcode != 3 || w.snapped)
/-- Whether a ring's state lets a descriptor go on: any while RUNNING, while DRAINING those that have started (R64). -/
def Ring.goesOn (r : Ring) (w : Work) : Bool := r.st == .running || (r.st == .draining && !w.tiles.isEmpty)
/-- The first descriptor of a ring with work that its slice can start: an engine tile, a NOP, an ATOMIC or an OP_LAUNCH whose translation is not being waited
for (R79); none while the ring waits for an acquire (R159). -/
def State.startable (s : State) (n : Nat) : Option Work :=
  if s.acquiring n then none
  else (s.ring n).work.find? (fun w => (w.canStart || w.smallReady) && mayRun (s.ring n).work w.idx && (s.ring n).goesOn w &&
    !s.xl.mwaits.any (fun m => m.n == n && m.idx == w.idx))
/-- Ends a COPY or FILL whose lines have all ended, with the status of R77 and BYTES_DONE of R75. -/
def State.tileCheck (s : State) (n idx : Nat) : State :=
  match s.work n idx with
  | none => s
  | some w =>
    let ends := w.tiles.all ETile.over && w.next == w.d.len
    if !w.fails.isEmpty then s.modWork n idx Work.failEnd
    else if w.status.isNone && (w.d.opcode == 1 || w.d.opcode == 2) && ends then
      let done := donePrefix w
      if w.d.signal && w.sig != 2 then s.modWork n idx (fun w => { w with bytesDone := done })
      else s.modWork n idx (fun w => { w with status := some .ok, bytesDone := done })
    else s
/-- Data of a descriptor is done and OK, so that its signal may go (R74). -/
def Work.dataDone (w : Work) : Bool :=
  w.status.isNone && w.fails.isEmpty &&
  (if w.d.opcode == 1 || w.d.opcode == 2 then w.next == w.d.len && w.tiles.all (fun t => t.over && !t.bad)
   else if w.d.opcode == 3 then w.next == w.d.len else w.next == 1)
/-- The halt of a descriptor that completed other than OK (R77): later descriptors stop where they are. -/
def State.haltRing (s : State) (n idx : Nat) (st : Status) : State :=
  s.selfChange (.ring n) (fun t => t.modRing n (fun x => { x with st := .halted, fault := false, cause := st.code, resumeIdx := idxAdd idx 1, fetched := [] }))
/-- The completion record of a descriptor (Table 3-6). -/
def recordBytes (r : Ring) (w : Work) (st : Status) : Bytes :=
  let d := w.d
  leBytes 32 (pack [(4, st.code), (1, 1 - (w.idx / r.depth) % 2), (1, boolNat (decide (w.bytesDone < d.len))), (2, 0), (8, d.opcode), (16, w.idx % r.depth),
    (32, w.bytesDone), (64, d.userTag), (64, w.result), (64, w.aux)])
/-- The oldest descriptor of a ring that has ended and has no record yet, all earlier ones recorded. -/
def Ring.nextRecord (r : Ring) : Option Work := (r.work.find? (fun w => !w.recorded)).bind (fun w => if w.status.isSome && !w.snapOut && w.idx == r.cmplTail then some w else none)
/-- The record of a descriptor has been written: CMPL_TAIL moves on; a status other than OK halts the ring, unless a ring fault already has (R75, R77). -/
def State.recorded (s : State) (n : Nat) (w : Work) : State :=
  let st := w.status.getD .ok
  let s1 := s.modRing n (fun x => { x with
    cmplTail := idxAdd w.idx 1, resumeIdx := if x.st == .halted && x.resumeIdx == w.idx then idxAdd w.idx 1 else x.resumeIdx,
    work := x.work.map (fun y => if y.idx == w.idx then { y with recorded := true } else y),
    notifies := if w.d.notify && x.cfg.notifyVec != 0xFFFF then x.notifies ++ [w.idx] else x.notifies })
  if st != .ok && (s.ring n).st == .running then s1.haltRing n w.idx st else s1
/-- Drops descriptors whose record has been written. -/
def Ring.prune (r : Ring) : Ring := { r with work := r.work.filter (fun w => !w.completed || r.notifies.contains w.idx) }
/-- Remembers a flow that a request of the ring broke, to be resynchronised at RESTART (R78). -/
def State.breakFlow (s : State) (n : Nat) (t : Txn) (r : Txn) : State :=
  s.modRing n (fun x => { x with broken := if x.broken.contains (t.ctx, t.flow, r.tnode) then x.broken else x.broken ++ [(t.ctx, t.flow, r.tnode)] })

end Sys2Proof.Machine
end

