-- ==== Sys2Proof/Machine/RingCmds.lean ====
section
/-! DEFINITION. The commands of rings and movers (R60 to R80): one meaning for each. -/

namespace Sys2Proof.Machine
open Sys2Proof

/-- RING_ENABLE (R61, R64): a `RING.CFG` write with ENABLE = 1. -/
def execRingEnable (v : VCtx) (n cfg : Nat) (s : State) : Answer :=
  s.vaneWrite v (ringCfgObj n) (leBytes 32 (cfg / 2 * 2 + 1)) (some (.ring n)) (ringCfgWrite n (cfg / 2 * 2 + 1))
/-- RING_DISABLE (R61, R64): a `RING.CFG` write that differs only in ENABLE = 0. -/
def execRingDisable (v : VCtx) (n cfg : Nat) (s : State) : Answer :=
  s.vaneWrite v (ringCfgObj n) (leBytes 32 (cfg / 2 * 2)) (some (.ring n)) (ringCfgWrite n (cfg / 2 * 2))
/-- RING_CONFIGURE (R61): a `RING.CFG` write with ENABLE = 0 to a DISABLED ring. -/
def execRingConfigure (v : VCtx) (n cfg : Nat) (s : State) : Answer :=
  s.vaneWrite v (ringCfgObj n) (leBytes 32 (cfg / 2 * 2)) (some (.ring n)) (ringCfgWrite n (cfg / 2 * 2))
/-- Returns a HALTED ring to RUNNING at index x: the broken flows are resynchronised before descriptor x is fetched (R78). -/
def State.restartRing (s : State) (n x : Nat) : State :=
  ((s.cmdChange (.ring n) (fun t => t.modRing n (fun y => { y with st := .running, head := x, cmplTail := x, fetched := [], work := [], resuming := true }))).clearWaits n).fetchNext n
/-- Whether RESTART at x is accepted (R78). -/
def State.restartOk (s : State) (n x : Nat) : Bool :=
  let r := s.ring n
  r.st == .halted && decide (idxSub r.tail x ≤ r.depth) && decide (idxSub x r.cmplHead ≤ r.depth)
/-- The effect of a `RING.CTL` write. -/
def ringCtlWrite (n value : Nat) (s : State) : Except Nat State :=
  check (value % 256 == 1) abortRange (check (field value 8 24 == 0) abortRefused
    (check (s.restartOk n (field value 32 32)) abortRefused (.ok (s.restartRing n (field value 32 32)))))
/-- RESTART (R78). -/
def execRestart (v : VCtx) (n x : Nat) (s : State) : Answer :=
  s.vaneWrite v (ringCtlObj n) (leBytes 8 (1 + 2 ^ 32 * (x % 2 ^ 32))) (some (.ring n)) (ringCtlWrite n (1 + 2 ^ 32 * (x % 2 ^ 32)))
/-- TAIL (R66): a doorbell write to offset 0x00 of the ring's registers. -/
def execTail (n value width : Nat) (s : State) : Answer := .next (s.doorbell n 0 value width)
/-- CMPL_HEAD (R66): a doorbell write to offset 0x08. -/
def execCmplHead (n value width : Nat) (s : State) : Answer := .next (s.doorbell n 8 value width)

-- The slice's choice (R79)
/-- Cost of the next work of a descriptor: the size of an engine tile, with 2 MiB pages while its translation is missing; 4 KiB for the other opcodes. -/
def State.nextCost (s : State) (n : Nat) (w : Work) : Nat :=
  if w.smallReady then 4096
  else match w.tiles.find? (fun t => t.cut) with
  | some t => t.len
  | none => match s.tileXlate n w w.next with
    | some (a, b) => tileEnd w a.pg b.pg w.next - w.next
    | none => tileEnd w 1 1 w.next - w.next
/-- Rings of a slice at a level with work to start. -/
def State.readyRings (s : State) (tile lvl : Nat) : List Nat :=
  (s.mov.rings.filter (fun r => r.1 % 256 == tile && r.2.cfg.level == lvl && (s.startable r.1).isSome)).map Prod.fst
/-- The level that a slice serves next: the lowest in number with work, unless one above it has been passed over for `MOV.LOW_FLOOR` tiles. -/
def State.sliceLevel (s : State) (tile : Nat) : Option Nat :=
  let sl := tget {} s.mov.slices tile
  let busy := (List.range 4).filter (fun l => !(s.readyRings tile l).isEmpty)
  match busy.find? (fun l => s.mov.lowFloor ≤ tget 0 sl.served l && busy.headD l < l) with
  | some l => some l
  | none => busy.head?
/-- Deficit round robin (R79): from the ring whose turn it is, each ring visited gains its quantum until one can pay for its work. -/
def drrPick (s : State) : Nat → List Nat → State → Option (Nat × State)
  | 0, _, _ => none
  | _, [], _ => none
  | k + 1, n :: r, t =>
    match s.startable n with
    | none => drrPick s k r t
    | some w =>
      if s.nextCost n w ≤ (t.ring n).deficit then some (n, t)
      else drrPick s k (r ++ [n]) (t.modRing n (fun x => { x with deficit := x.deficit + x.cfg.weight * 65536 }))
def rotateTo (l : List Nat) (n : Nat) : List Nat := l.filter (fun x => decide (n ≤ x)) ++ l.filter (fun x => decide (x < n))
/-- Counts what a slice serves at a level against the levels above it in number; the work of the opcodes other than COPY and FILL counts as a tile (log 41). -/
def noteServed (lvl : Nat) (sl : Slice) (n : Nat) : Slice :=
  { sl with served := (List.range 4).foldl (fun t l => if l == lvl then tset t l 0 else if lvl < l then tmod 0 t l (· + 1) else t) sl.served,
            turn := tset sl.turn lvl n }
/-- What a slice would start next: the ring and its descriptor, and the state once that has been paid for. -/
def State.pick (s : State) (tile : Nat) : Option (Nat × Work × State) :=
  match s.sliceLevel tile with
  | none => none
  | some lvl =>
    let rs := rotateTo (s.readyRings tile lvl) (tget 0 (tget {} s.mov.slices tile).turn lvl)
    match drrPick s (8 * rs.length + 8) rs s with
    | none => none
    | some (n, t) =>
      match s.startable n with
      | none => none
      | some w =>
        let t1 := t.modRing n (fun r => { r with deficit := r.deficit - s.nextCost n w })
        some (n, w, { t1 with mov := { t1.mov with slices := tmod {} t1.mov.slices tile (fun sl => noteServed lvl sl n) } })
/-- The descriptor of ring n with a given opcode other than COPY and FILL, if it is what its slice starts next. -/
def State.picked (s : State) (n op : Nat) : Option (Work × State) :=
  match s.pick (n % 256) with
  | some (m, w, t) => if m == n && w.d.opcode == op then some (w, t) else none
  | none => none
/-- NOP (R70, R79, Table 3-5): no effect; without a signal it completes OK. -/
def execNop (n : Nat) (s : State) : Answer :=
  match s.picked n 0 with
  | none => .next s
  | some (w, t) => .next (if w.d.signal then t.modWork n w.idx (fun w => { w with next := 1 }) else t.finish n w.idx .ok)
/-- COPY (R72, R73): the snapshot of the oldest fetched COPY without one; its engine tiles are started by ENGINE_TILE_START. -/
def execCopy (n : Nat) (s : State) : Answer :=
  match (s.ring n).work.find? (fun w => w.d.opcode == 1 && w.status.isNone && !w.snapped) with
  | none => .next s
  | some w => .next (s.snapshot n w.idx)
/-- FILL (R72, R73): as COPY; a FILL of length 0 ends with its snapshot. -/
def execFill (n : Nat) (s : State) : Answer :=
  match (s.ring n).work.find? (fun w => w.d.opcode == 2 && w.status.isNone && !w.snapped) with
  | none => .next s
  | some w => .next ((s.snapshot n w.idx).tileCheck n w.idx)
/-- The operand slots of an ATOMIC descriptor (R128, Table 3-4): compare value first, then the swap value. -/
def atomicPayload (d : Desc) : Bytes :=
  if d.atop == 0x14 then leBytes 8 d.opnd2 ++ leBytes 8 d.imm
  else if d.atop == 0x24 then
    leBytes 8 d.opnd2 ++ leBytes 8 (field d.oparg 64 64) ++ leBytes 8 d.imm ++ leBytes 8 (field d.oparg 0 64)
  else leBytes 8 d.imm
/-- Issues the atomic of an ATOMIC descriptor under its translation. -/
def State.atomicIssue (s : State) (n : Nat) (w : Work) (b : MTrans) : State :=
  let s1 := (if w.snapOk then s else s.countHits n w.idx w.cvas).modWork n w.idx (fun w => { w with
    tiles := [{ no := 0, start := 0, len := w.d.len, src := 0, dst := b.fa, dstPg := b.pg, dstAt := b.attr, issued := w.d.len, out := 1, lastIssue := s.clk }] })
  s1.issue { ty := .atom, akind := if b.attr.isSome then 3 else 0, home := b.attr, size := w.d.atop, ctx := (s.ring n).cfg.ctx, flow := n % 8, addr := b.fa % 2 ^ 57, data := atomicPayload w.d }
    (.atomicDesc n w.idx) s.reqTimeout
/-- ATOMIC (R72, R74, R79, R107): the snapshot of the oldest ATOMIC without one; else one atomic at DST, once every earlier descriptor has completed and the
slice chooses it. -/
def execAtomic (n : Nat) (s : State) : Answer :=
  match (s.ring n).work.find? (fun w => w.d.opcode == 3 && w.status.isNone && !w.snapped) with
  | some w => .next (s.snapshot n w.idx)
  | none =>
    match s.picked n 3 with
    | none => .next s
    | some (w, t) =>
      match s.tileXlate n w 0 with
      | some (_, b) => .next (t.atomicIssue n w b)
      | none => .next (match s.opFault n w 0 with
        | some va => s.faultDesc n w.idx va
        | none => s.wantOperands n w 0)

-- ENGINE_TILE_START (R79)
/-- ENGINE_TILE_START (R73, R79, R104): the slice of a tile starts the engine tile that it chooses, and pays for it once it is translated. -/
def execEngineTileStart (tile : Nat) (s : State) : Answer :=
  match s.pick tile with
  | none => .next s
  | some (n, w, t) =>
    if w.smallReady then .next s
    else match w.tiles.find? (fun t => t.cut) with
      | some e => .next ((if (s.tileXlate n { w with snapOk := false } e.start).isSome then t else s).resumeCut n w.idx w e)
      | none => .next (((if (s.tileXlate n w w.next).isSome then t else s).startTile n w.idx w).tileCheck n w.idx)

-- MOVER_LINE_RESPONSE, MOVER_RETRY (R76, R77)
/-- A line of a descriptor has ended: OK, or with a status that ends the descriptor (R77). -/
def State.lineEnd (s : State) (n idx no : Nat) (st : Status) : State :=
  (s.modWork n idx (fun w => { w with
    tiles := w.tiles.map (fun t => if t.no == no then { t with out := t.out - 1, bad := t.bad || st != .ok } else t),
    fails := if st == .ok then w.fails else w.fails ++ [st] })).tileCheck n idx
/-- The bytes of a read response that the read covers, placed in the slots of a write to `dst`. -/
def moveBytes (src dst len : Nat) (d : Bytes) : Bytes :=
  List.replicate (dst % 8) 0 ++ slice d (src % 8) len ++ List.replicate (8 * ceilDiv (dst % 8 + len) 8 - dst % 8 - len) 0
/-- The write of a COPY line whose read has returned OK. -/
def State.lineWrite (s : State) (n idx no pos len : Nat) (o : OutReq) (r : Txn) : State :=
  match s.work n idx with
  | none => s
  | some w =>
    match w.tiles.find? (fun t => t.no == no) with
    | none => s
    | some t =>
      let c := (s.ring n).cfg.ctx
      let dst := t.dst + (pos - t.start)
      (s.modWork n idx (fun w => { w with tiles := w.tiles.map (fun y => if y.no == no then { y with lastIssue := s.clk } else y) })).issue
        { ty := .wr, akind := if t.dstAt.isSome then 3 else 0, home := t.dstAt, size := len - 1, ctx := c, flow := n % 8, addr := dst % 2 ^ 57,
                data := moveBytes o.t.addr dst len r.data } (.moverWrite n idx no pos len) s.reqTimeout
/-- MOVER_LINE_RESPONSE (R76, R77). -/
def execMoverLineResponse (tag : Nat) (s : State) : Answer :=
  let key := s.poolNode * 1048576 + tag
  match tfind s.reqs key with
  | none => .next s
  | some o =>
    match o.resp with
    | none => .next s
    | some r =>
      let st := (statusOf r.status).getD .aged
      let ring := match o.who with
        | .moverRead n _ _ _ _ => some n | .moverWrite n _ _ _ _ => some n | .atomicDesc n _ => some n | .signal n _ => some n | _ => none
      match ring with
      | none => .next s
      | some n =>
        if st == .retryLater && o.tries < s.mov.retryMax then
          .next (if s.staleLine o.who then (((s.endReq key).redoLine o.who).refill (n % 256)).afterEnd n else s.backoff key o)
        else
          let s1 := if st == .aged || st == .timeout then s.breakFlow n o.t { r with tnode := o.t.dest.getD 0xFFF } else s
          let s2 := s1.endReq key
          match o.who with
          | .moverRead n idx no pos len =>
            -- the write that follows is a later request than an acquire that the ring waits for, and is not made under a withdrawn translation
            if st == .ok && s.acquiring n then .next s
            else .next (((if st != .ok then s2.lineEnd n idx no st
              else if s.staleLine (.moverWrite n idx no pos len) then s2.redoLine o.who
              else s2.lineWrite n idx no pos len o r).refill (n % 256)).afterEnd n)
          | .moverWrite n idx no _ _ => .next (((s2.lineEnd n idx no st).refill (n % 256)).afterEnd n)
          | .atomicDesc n idx =>
            .next ((s2.modWork n idx (fun w =>
              if st == .ok then { w with tiles := w.tiles.map (fun t => { t with out := 0 }), next := w.d.len, bytesDone := w.d.len, result := leAt r.data 0 8,
                                         aux := if w.d.len == 16 then leAt r.data 8 8 else 0, status := if w.d.signal then none else some .ok }
              else { w with tiles := w.tiles.map (fun t => { t with out := 0 }), fails := [st], status := some st })).afterEnd n)
          | .signal n idx =>
            .next ((s2.modWork n idx (fun w =>
              if st == .ok then { w with sig := 2, status := some .ok, result := if w.d.sigAdd && w.d.opcode != 0x10 && w.d.opcode != 3 then leAt r.data 0 8 else w.result }
              else { w with fails := w.fails ++ [st], status := some st })).afterEnd n)
          | _ => .next s
/-- The ring that a request other than its descriptor fetch was issued for. -/
def Purpose.ring? (p : Purpose) : Option Nat :=
  match p with
  | .snapWrite n _ => some n | .moverRead n _ _ _ _ => some n | .moverWrite n _ _ _ _ => some n | .atomicDesc n _ => some n | .signal n _ => some n
  | .complWrite n _ => some n | _ => none
/-- A retry of an atomic or a signal takes the translation that its operand has now (R109). -/
def State.retarget (s : State) (key : Nat) (o : OutReq) (n idx kind a need : Nat) : State :=
  let c := (s.ring n).cfg.ctx
  let fail := ((s.endReq key).modWork n idx (fun w => { w with tiles := w.tiles.map (fun t => { t with out := 0 }) })).faultDesc n idx a
  if kind == 0 then s.reissue key o
  else match s.operand n c kind a need with
    | some ⟨fa, _, true, at_⟩ => s.reissue key { o with t := { o.t with akind := if at_.isSome then 3 else 0, home := at_, addr := fa % 2 ^ 57 } }
    | some _ => fail
    | none => if s.xlateFaulted n idx a || (s.bind c).mode == 0 || !s.inScope (s.bind c) then fail else s.wantXlate n idx c a need
/-- Issues a request again after its wait: a line under a withdrawn translation is moved anew, an atomic and a signal are translated again (R76, R109); a
ring that waits for an acquire issues nothing (R159). -/
def State.retryReq (s : State) (key : Nat) (o : OutReq) : State :=
  if o.who.ring?.any s.acquiring then s
  else if s.staleLine o.who then (s.endReq key).redoLine o.who
  else match o.who with
    | .atomicDesc n idx => (match s.work n idx with | some w => s.retarget key o n idx w.d.dstKind w.d.dst 2 | none => s.reissue key o)
    | .signal n idx => (match s.work n idx with | some w => s.retarget key o n idx w.d.dstKind w.d.sigAddr (if w.d.sigAdd then 2 else 1) | none => s.reissue key o)
    | _ => s.reissue key o
/-- MOVER_RETRY (R76): after its wait, the request is issued again. -/
def execMoverRetry (tag : Nat) (s : State) : Answer :=
  let key := s.poolNode * 1048576 + tag
  match tfind s.reqs key with
  | none => .next s
  | some o => match o.waitUntil with
    | none => .next s
    | some w => .next (if w ≤ s.clk then s.retryReq key o else s)
/-- DESCRIPTOR_SIGNAL (R74, R157, R158, R167): the release to SIG_ADDR, a store or an int64 fetch-add, once the data is performed OK and no request of the ring is
outstanding; where the ring has lost a write of a snapshot the fence fails, and the descriptor with it. -/
def execDescriptorSignal (n : Nat) (s : State) : Answer :=
  let r := s.ring n
  match r.work.find? (fun w => w.d.signal && w.sig == 0 && w.dataDone && mayRun r.work w.idx && r.goesOn w) with
  | none => .next s
  | some w =>
    if s.ringOut n then .next s else
    match r.work.findSome? (fun x => x.snapBad) with
    | some st => .next (s.modWork n w.idx (fun w => Work.failEnd { w with fails := w.fails ++ [st] }))
    | none =>
    let c := r.cfg.ctx
    match s.operand n c w.d.dstKind w.d.sigAddr (if w.d.sigAdd then 2 else 1) with
    | some ⟨fa, _, true, at_⟩ =>
      let base := storeTxn c fa w.d.sigValue 8 (n % 8)
      let t := { base with akind := if at_.isSome then 3 else 0, home := at_ }
      .next (((s.countHits n w.idx w.d.dstKind).modWork n w.idx (fun w => { w with sig := 1 })).issue (if w.d.sigAdd then { t with ty := .atom, size := 0x10 } else t) (.signal n w.idx) s.reqTimeout)
    | some _ => .next (s.faultDesc n w.idx w.d.sigAddr)
    | none =>
      if s.xlateFaulted n w.idx w.d.sigAddr || (s.bind c).mode == 0 || !s.inScope (s.bind c) then .next (s.faultDesc n w.idx w.d.sigAddr)
      else .next (s.wantXlate n w.idx c w.d.sigAddr (if w.d.sigAdd then 2 else 1))
/-- Whether the ring's last completion record is still being written. -/
def State.recording (s : State) (n : Nat) : Bool := s.reqs.any (fun x => match x.2.who with | .complWrite m _ => m == n | _ => false)
/-- COMPLETION_RECORD (R74, R75, R77): the record of the next descriptor in ring order, once the one before it is written and its slot is free. -/
def execCompletionRecord (n : Nat) (s : State) : Answer :=
  let r := s.ring n
  if r.st != .running || s.recording n || s.acquiring n then .next s else
  match r.nextRecord with
  | none => .next s
  | some w =>
    let st := w.status.getD .ok
    if r.depth ≤ idxSub w.idx r.cmplHead then .next s
    else .next (s.issue { ty := .wr, size := 31, ctx := r.cfg.ctx, flow := n % 8, addr := r.cfg.cmplBase + 32 * (w.idx % r.depth), data := recordBytes r w st }
      (.complWrite n w.idx) s.reqTimeout)
/-- NOTIFICATION_VECTOR (R74, R311): the vector of the oldest descriptor whose record has been written. -/
def execNotificationVector (n : Nat) (s : State) : Answer :=
  let r := s.ring n
  match r.notifies with
  | [] => .next s
  | _ :: rest =>
    let h := field r.cfg.notifyVec 11 3
    let e := field r.cfg.notifyVec 0 11
    .next ((((s.modRing n (fun x => ({ x with notifies := rest } : Ring).prune)).fetchNext n).modHost h (fun p => { p with msix := tmod 0 p.msix e (· + 1) })).emit (.msix h e))
/-- The requests that a ring leaves behind end without a further effect of the ring. -/
def State.orphan (s : State) (n : Nat) : State := { s with reqs := tmap s.reqs (fun _ o => if o.who.ofRing n then { o with who := .resync } else o) }
/-- RING_DRAIN_END (R64): every started descriptor has finished, or `MOV.TIMEOUT` has elapsed since the drain began. -/
def execRingDrainEnd (n : Nat) (s : State) : Answer :=
  let r := s.ring n
  let done := !s.ringOut n && r.work.all (fun w => w.tiles.isEmpty || w.status.isSome)
  if r.st == .draining && (done || decide (r.drainSince + s.mov.timeout * 1000 ≤ s.clk)) then
    .next (((s.orphan n).cmdChange (.ring n) (fun t => t.modRing n (fun x => { x with st := .disabled, fetched := [], work := [], notifies := [], resuming := false }))).clearWaits n)
  else .next s

end Sys2Proof.Machine
end

