-- ==== Sys2Proof/Machine/Home.lean ====
section
/-! DEFINITION. The home checks and the performance of a request at the pool end-point (R12, R46, R47, R55, R56, R83, R149, R277, R284, R293,
R298, R324, R346), and the coherence directory (R320 to R325). -/

namespace Sys2Proof.Machine
open Sys2Proof

-- The coherence directory (R324)
/-- Hosts to be back-invalidated before a fabric access (R324): all for a write or an atomic, an owner in EXCL for a read. -/
def State.holdersFor (s : State) (line : Nat) (ty : TType) : List Nat :=
  match s.dirOf line with
  | none => []
  | some d => if ty == .rd && !d.excl then [] else d.hosts

-- Home checks
def wholeLine (t : Txn) : Bool := t.ty == .wr && t.size == 63 && t.addr % 64 == 0
/-- The checks that are left at the head of its line queue for a request that `State.homeGate` has let in, in the order of R13; none: it is performed. -/
def State.homeStatus (s : State) (t : Txn) (off : Nat) : Option Status :=
  match extOfOff s off with
  | none => some .ctxDenied
  | some (_, x) =>
    if s.holeFor t off then some .ctxDenied
    else if !s.sealOk x t then some .ctxDenied
    else if s.linePoison x off == 0 then none
    else if wholeLine t then
      (if s.lostCause x off != 0 && decide (16777216 ≤ (s.die (granAt x (granIdx x off)).die).sparesUsed) then some .retryLater else none)
    else some .poisoned
/-- The data of a read: the covered bytes, the other bytes of its slots free (R137). -/
def State.readData (s : State) (t : Txn) (off : Nat) : Bytes × State :=
  let r := s.freshBytes (8 * ((t.addr % 8 + t.len + 7) / 8))
  (splice r.1 (t.addr % 8) (s.poolRead off t.len), r.2)
/-- Writes a line whole: it clears the poison, into a lost-line spare where the line was lost (R12, R293). -/
def State.healLine (s : State) (x : Ext) (off : Nat) : State :=
  let s1 := if s.lostCause x off != 0 then
      (s.modPool (fun p => { p with spares := p.spares ++ [off / 64] })).modDie (granAt x (granIdx x off)).die (fun d => { d with sparesUsed := d.sparesUsed + 1 })
    else s
  s1.modPool (fun p => { p with poison := terase p.poison (off / 64) })
/-- Whether drift makes an access, which does not count (R298): this package's by its tag, another's by the form of its writes. -/
def State.byDrift (s : State) (t : Txn) : Bool :=
  s.landing t || (t.snode == s.poolNode && (s.ownReq t.tag).any (fun o =>
    match o.who with | .driftScan _ => true | .driftRead _ _ => true | .driftWrite _ _ => true | .driftEntry _ => true | _ => false))
/-- Counts a request performed on a line of the pool (R298). -/
def State.countReq (s : State) (t : Txn) (off : Nat) (read : Bool) : State := if s.byDrift t then s else s.countAccess off read
/-- A page lands in a zeroed hole, which is none from then on (R306). -/
def State.land (s : State) (t : Txn) (off : Nat) : State :=
  if s.landing t && (tget {} s.pool.counters (off / 2 ^ 21)).hole then
    s.modPool (fun p => { p with counters := tmod {} p.counters (off / 2 ^ 21) (fun c => { c with hole := false, zeroed := false }) })
  else s
/-- Performs a request that has passed its checks: what it returns, and the state after it (R129, R149, R298). -/
def State.performPool (s : State) (t : Txn) (off : Nat) : Bytes × State :=
  match t.ty with
  | .rd =>
    let r := s.readData t off
    (r.1, { r.2.countReq t off true with tel := { s.tel with poolReads := s.tel.poolReads + 1 } })
  | .wr =>
    let s1 := match extOfOff s off with | some (_, x) => if wholeLine t then (s.land t off).healLine x off else s | none => s
    let s2 := s1.poolWrite off (slice t.data (t.addr % 8) t.len)
    ([], { s2.countReq t off false with tel := { s.tel with poolWrites := s.tel.poolWrites + 1 } })
  | .atom =>
    let old := leNat (s.poolRead off t.len)
    let ops := atomOperands t
    let new := atomNew t.size old ops.1 ops.2
    let s2 := s.poolWrite off (leBytes t.len new)
    (atomData t.size old, { s2.countReq t off false with tel := { s.tel with poolWrites := s.tel.poolWrites + 1 } })
  | _ => ([], s)
/-- Sends the home's response from admission point 256 (Table 7-2). -/
def State.homeReply (s : State) (e : QEntry) (st : Nat) (data : Bytes) : State :=
  let rsp := e.t.reply st (e.t.dest.getD s.poolNode) data
  let s1 := (s.release e).charge 256 2 rsp.cells
  s1.sendRsp (s1.entry rsp 256 2)
/-- Serves a native request at the head of its line queue: the exchange with hosts that hold the line, the checks, the access. None: it waits
for the end of a back-invalidate (R324). -/
def State.servePool (s : State) (e : QEntry) (t : Txn) : Option State :=
  let off := s.poolOff t.addr
  let line := off / 64
  let s0 := if wholeLine t then s.dirClean line else (s.dirClean line).macCheck off
  match s0.homeStatus t off with
  | some .poisoned =>
    match s0.holdersFor line t.ty with
    | [] =>
      if t.ty == .rd then
        let r := s0.freshBytes (8 * ((t.addr % 8 + t.len + 7) / 8))
        some ((r.2.countReq t off true).homeReply e 1 r.1)
      else some (s0.homeReply e 1 [])
    | _ => none
  | some st => some (s0.homeReply e st.code [])
  | none =>
    match s0.holdersFor line t.ty with
    | [] => let r := s0.performPool t off; some (r.2.homeReply e 0 r.1)
    | _ => none
/-- An uncorrectable error met by the access's read of the line (R284). -/
def State.meetUe (s : State) (t : Txn) : State :=
  let off := s.poolOff t.addr
  match extOfOff s off with
  | some (_, x) => if s.lostCause x off == 0 then (s.countUe (lineStack x off)).lineUe off else s
  | none => s
/-- What is left to do with an accepted request whose back-invalidates have not ended within 1 ms of its acceptance (R126). -/
def State.pastBound (s : State) (e : QEntry) : Bool := e.accepted.any (fun a => decide (a + 1000000 ≤ s.clk))
/-- What the request at the head of a pool line queue comes to (R126, R127, R149, R188, R199): it is discarded, refused, held or performed. It is accepted
once the response's cells fit at point 256; a RESYNC, which has no RETRY_LATER, waits for them. -/
def State.lineHead (tile : Nat) (ue : Bool) (s : State) : Answer :=
  match s.lineQ tile with
  | [] => .next s
  | e :: rest =>
    if s.accHeld e || s.cxlBefore tile e.turn then .next s else
    let s1 := s.setLineQ tile rest
    if e.accepted.isNone && s.trims e then .next (s1.trim e (fun x t => t.setLineQ tile (x :: t.lineQ tile))) else
    match (if e.accepted.isSome then none else s1.headCheck e none) with
    | some t => .next t
    | none =>
      if !s1.canReserve 256 2 (rspCells e.t) then
        .next (if e.t.ty == .resync then s else let l := s1.leave e; l.2.failEntry l.1 10 false)
      else if s.pastBound e then (let l := s1.leave e; .next (l.2.homeReply l.1 10 []))
      else
      let l := s1.leave e
      let e1 := l.1
      let s2 := if ue && e1.gate.isNone && (e1.t.ty == .rd || e1.t.ty == .atom || (e1.t.ty == .wr && !wholeLine e1.homeTxn)) then l.2.meetUe e1.homeTxn else l.2
      if e1.t.ty == .resync then .next (s2.homeReply e1 0 [])
      else match e1.gate with
        | some st => .next (s2.homeReply e1 st.code [])
        | none =>
          let t := e1.homeTxn
          if inDoorbell t.off && e1.t.dest == some s.poolNode then
            let r := s2.serveDoorbell t
            .next (r.2.2.homeReply e1 r.1 r.2.1)
          else match s2.servePool e1 t with
            | some s3 => .next s3
            | none =>
              -- the access stays at the head while the holders are back-invalidated
              let line := s2.poolOff t.addr / 64
              let s3 := (if ue then s.meetUe t else s).dirClean line
              let wait := s3.setLineQ tile ({ e with accepted := e.accepted.or (some s.clk) } :: rest)
              .next ((wait.holdersFor line t.ty).foldl (fun u h => u.startBackInv line h false none) wait)

/-- Whether the five entries at the front of a line queue write the five data lines of one P1 stripe whole (R282). -/
def State.gathers (s : State) (q : List QEntry) : Bool :=
  let offs := (q.take 5).map (fun e => s.poolOff e.homeTxn.addr)
  let base := fun (o : Nat) => match extOfOff s o with | some (_, x) => if x.pclass == 1 then some (stripeBase x o) else none | none => none
  offs.length == 5 && (q.take 5).all (fun e => wholeLine e.homeTxn && e.gate.isNone) && (base (offs.headD 0)).isSome &&
  offs.all (fun o => base o == base (offs.headD 0)) && decide ((offs.foldl addNew []).length = 5)
/-- Serves the head of a line queue up to `n` times, as long as each serving takes a request off it. -/
def lineRun (tile : Nat) : Nat → State → Answer
  | 0, s => .next s
  | n + 1, s =>
    match s.lineHead tile false with
    | .next t => if (t.lineQ tile).length < (s.lineQ tile).length then lineRun tile n t else .next t
    | r => r
/-- LINE_QUEUE_HEAD: the head of a pool line queue is served, and five gathered writes of a stripe together (R282); `ue`: its read meets an uncorrectable error. -/
def execLineQueueHead (tile : Nat) (ue : Bool) (s : State) : Answer :=
  if s.gathers (s.lineQ tile) then lineRun tile 5 s else s.lineHead tile ue

end Sys2Proof.Machine
end

