-- ==== Sys2Proof/Machine/HostPort.lean ====
section
/-! DEFINITION. Host ports: the commands of the host link, of CXL.mem and of the confidential-computing protocols (R308 to R331). -/

namespace Sys2Proof.Machine
open Sys2Proof

def hpCtlObj (h : Nat) : Nat × Nat := (0xA000 + 16 * h, 6)
/-- Issues a request of a host-port end-point from its own node and admission point (R36, R124, R312). -/
def State.issueHost (s : State) (h : Nat) (t : Txn) (who : Purpose) : State := s.issueAs (s.hpNode h) t who s.reqTimeout

-- CXL.mem (R317 to R325)
/-- Each failure writes a record to the CXL Event Log and raises entry 0 (R319). -/
def State.cxlFail (s : State) (h dpa st : Nat) : State :=
  (s.modHost h (fun p => { p with cxlLog := p.cxlLog ++ [(dpa, st)], msix := tmod 0 p.msix 0 (· + 1) })).emit (.msix h 0)
/-- The pool's check of a CXL.mem access under the port's identity (R318, R319, R346). -/
def State.cxlStatus (s : State) (h off : Nat) (ty : TType) : Option Status :=
  if inDoorbell off then some .ctxDenied else
  match extOfOff s off with
  | none => some .ctxDenied
  | some (_, x) =>
    if x.st != .active || (tget {} s.pool.counters (off / 2 ^ 21)).hole then some .ctxDenied
    else if (s.key x.keySlot).sealed && ty == .rd && !((s.host h).linkIde == some true || (s.host h).ideSel.any (fun y => y.2)) then some .ctxDenied
    else extCheck x ty none (some h)
/-- The other holders that a request back-invalidates first (Table 11-6): kinds 4 MemRd Any, 5 Shared, 6 Invalid, 7 write Invalid, 8 write Any. -/
def othersFor (d : Option DirEnt) (h kind : Nat) : List Nat :=
  match d with
  | none => []
  | some d =>
    if kind == 4 || kind == 7 then d.hosts.filter (· != h)
    else if kind == 5 || kind == 6 then (if d.excl && d.owner != h then [d.owner] else [])
    else []
/-- The entry after a request (Table 11-6). -/
def dirAfter (d : Option DirEnt) (h kind slot : Nat) : Option DirEnt :=
  if kind == 4 then some { excl := true, sharers := [], owner := h, granted := slot }
  else if kind == 5 then
    match d with
    | some x => if x.excl then some { excl := false, sharers := [h], owner := 0, granted := slot } else some { x with sharers := addNew x.sharers h, granted := slot }
    | none => some { excl := false, sharers := [h], owner := 0, granted := slot }
  else if kind == 6 || kind == 7 then d.bind (fun x => x.drop h)
  else d
/-- The way of a full set that is evicted: the one with the oldest GRANTED (R322). -/
def State.dirVictim (s : State) (line : Nat) : Option (Nat × DirEnt) :=
  let set := s.pool.dir.filter (fun d => d.1 % 2 ^ 20 == line % 2 ^ 20)
  if set.length < 16 then none
  else
    let age := fun (d : Nat × DirEnt) => (s.slot % 2 ^ 32 + 2 ^ 32 - d.2.granted) % 2 ^ 32
    set.foldl (fun a d => match a with | none => some d | some x => if age x < age d then some d else a) none
/-- Performs a CXL.mem write under a byte mask. -/
def State.cxlStore (s : State) (off mask : Nat) (data : Bytes) : State :=
  let old := s.poolRead off 64
  let new := (List.range 64).map (fun i => if mask.testBit i then (data.getD i 0) else (old.getD i 0))
  s.poolWrite off new
def State.backInvOf (s : State) (line h : Nat) : Option BackInv := s.pool.backInvs.find? (fun b => b.line == line && b.host == h)
/-- Whether a CXL.mem access stands at the head of its line's queue (R281). -/
def State.cxlTurn (s : State) (a : HostAcc) : Bool :=
  (s.lineQ (s.tileOf a.off)).all (fun e => decide (a.turn < e.turn)) && !s.cxlBefore (s.tileOf a.off) a.turn
/-- A CXL.mem request of a host (R321 to R323): answered, or held (`none`) until its turn in its line's queue (R281) and behind back-invalidates, which it starts;
one that has passed the pool's checks before it was held is performed whatever changes (R278). -/
def State.cxlTry (s : State) (h : Nat) (a : HostAcc) : State × Bool :=
  let off := a.off
  let line := off / 64
  let s1 := ((s.pool.dir.filter (fun d => d.1 % 2 ^ 20 == line % 2 ^ 20)).map Prod.fst).foldl State.dirClean s
  let s0 := if (a.kind == 7 || a.kind == 8) && a.atop == 2 ^ 64 - 1 then s1 else s1.macCheck off
  let isRd := a.kind != 7 && a.kind != 8
  if !s.cxlTurn a then (s, false) else
  match (if a.passed then none else s0.cxlStatus h off (if isRd then .rd else .wr)) with
  | some st =>
    let s1 := s0.cxlFail h off st.code
    if isRd then let r := s1.freshBytes 64; (r.2.emit (.cxlDrs h off true r.1), true) else (s1.emit (.cxlNdr h off), true)
  | none =>
    match extOfOff s0 off with
    | none => (s0, true)
    | some (_, x) =>
      let others := othersFor (s0.dirOf line) h a.kind
      if !others.isEmpty then (others.foldl (fun t o => t.startBackInv line o false none) s0, false)
      else
        match (if (a.kind == 4 || a.kind == 5) && (s0.dirOf line).isNone then s0.dirVictim line else none) with
        | some (vl, vd) =>
          let new := vd.hosts.filter (fun o => (s0.backInvOf vl o).isNone)
          (new.foldl (fun t o => t.startBackInv vl o false none) (s0.modPool (fun p => { p with dirEvictions := p.dirEvictions + new.length })), false)
        | none =>
          let setDir := fun (t : State) => t.modPool (fun p => { p with dir := match dirAfter (s0.dirOf line) h a.kind (s.slot % 2 ^ 32) with | some d => tset p.dir line d | none => terase p.dir line })
          let poisoned := s0.linePoison x off != 0
          if isRd then
            if poisoned then
              let r := (s0.cxlFail h off 1).freshBytes 64
              ((setDir (r.2.countAccess off true)).emit (.cxlDrs h off true r.1), true)
            else ((setDir (s0.countAccess off true)).emit (.cxlDrs h off false (s0.poolRead off 64)), true)
          else
            let full := a.atop == 2 ^ 64 - 1
            if poisoned && !full then ((s0.cxlFail h off 1).emit (.cxlNdr h off), true)
            else if poisoned && s0.lostCause x off != 0 && decide (16777216 ≤ (s0.die (granAt x (granIdx x off)).die).sparesUsed) then ((s0.cxlFail h off 10).emit (.cxlNdr h off), true)
            else
              let s1 := if full then s0.healLine x off else s0
              ((setDir ((s1.cxlStore off a.atop a.data).countAccess off false)).emit (.cxlNdr h off), true)
def cxlAcc (id kind off mask since : Nat) (data : Bytes) : HostAcc :=
  { id := id, rid := 0, htag := none, ctx := 0, kind := kind, off := off, len := 64, ro := true, atop := mask, data := data, since := since }
/-- Whether a held access has passed the checks: its turn has come and they let it through. -/
def State.cxlPassed (s : State) (h : Nat) (a : HostAcc) : Bool :=
  a.passed || (s.cxlTurn a && (s.cxlStatus h a.off (if a.kind != 7 && a.kind != 8 then .rd else .wr)).isNone)
/-- A CXL.mem request arrives: it takes its turn in the queue of its line (R281). -/
def State.cxlReq (s : State) (h kind dpa mask : Nat) (data : Bytes) : State :=
  if (s.host h).st != .active || (s.host h).modeActive != 2 then s else
  let a := { cxlAcc (s.host h).nextAcc kind (dpa / 64 * 64) mask s.clk data with turn := s.sw.nextTurn }
  let s1 := s.takeTurn.modHost h (fun p => { p with nextAcc := p.nextAcc + 1 })
  let r := s1.cxlTry h a
  if r.2 then r.1 else r.1.modHost h (fun p => { p with accs := p.accs ++ [{ a with passed := s1.cxlPassed h a }] })
/-- Goes on with one held CXL.mem access; a line of an extent that is being released is recalled from the host that it was granted to (R278). -/
def State.cxlGoOn (s : State) (h : Nat) (a : HostAcc) : State :=
  let r := s.cxlTry h a
  if r.2 then
    let t := r.1.modHost h (fun p => { p with accs := p.accs.filter (fun b => b.id != a.id) })
    if (extOfOff t a.off).any (fun x => x.2.st == .releasing) then
      (match t.dirOf (a.off / 64) with | some d => d.hosts.foldl (fun u o => u.startBackInv (a.off / 64) o true none) t | none => t)
    else t
  else r.1.modHost h (fun p => { p with accs := p.accs.map (fun b => if b.id == a.id then { b with passed := s.cxlPassed h a } else b) })
/-- Held CXL.mem requests go on when their turns have come and when a back-invalidate has ended. -/
def State.cxlResume (s : State) : State :=
  (s.hp.flatMap (fun q => (q.2.accs.filter (fun a => 4 ≤ a.kind)).map (fun a => (q.1, a)))).foldl (fun t x => t.cxlGoOn x.1 x.2) s
/-- MEMRD (R321). -/
def execMemRd (h dpa : Nat) (m : Meta) (s : State) : Answer :=
  .next (s.cxlReq h (match m with | .any => 4 | .shared => 5 | .invalid => 6) dpa 0 [])
/-- MEMWR (R321): MemWr, or MemWrPtl with a byte mask. -/
def execMemWr (h dpa : Nat) (m : Meta) (mask : Nat) (data : Bytes) (s : State) : Answer :=
  .next (s.cxlReq h (match m with | .invalid => 7 | _ => 8) dpa (mask % 2 ^ 64) (slice data 0 64))
/-- RWD (R323): a write-back in answer to a back-invalidate is performed into the reserved space, or discarded on RELEASE (R278);
without one it is an ordinary write of the owner. -/
def execRwd (h dpa : Nat) (data : Bytes) (s : State) : Answer :=
  match s.backInvOf (dpa / 64) h with
  | none => .next (s.cxlReq h 8 dpa (2 ^ 64 - 1) (slice data 0 64))
  | some b =>
    let s1 := s.modPool (fun p => { p with backInvs := p.backInvs.map (fun x => if x.line == b.line && x.host == h then { x with cleared := true } else x) })
    if b.discard then .next s1
    else match extOfOff s (64 * b.line) with
      | some (_, x) => .next (((s1.healLine x (64 * b.line)).cxlStore (64 * b.line) (2 ^ 64 - 1) (slice data 0 64)).countAccess (64 * b.line) false)
      | none => .next s1
/-- The end of a back-invalidate: the host leaves the entry, and what waited goes on. -/
def State.endBackInv (s : State) (line h : Nat) : State :=
  let s1 := { s with reqs := s.reqs.filter (fun r => match r.2.who with | .backInv l x => !(l == line && x == h) | _ => true) }
  ((s1.modPool (fun p => { p with backInvs := p.backInvs.filter (fun b => !(b.line == line && b.host == h)) })).dirDrop line h).cxlResume

/-- Sends the BIRSP of a BISNP from the cell that its acceptance reserved at the end-point's point (R123, R199). -/
def State.sendBirsp (s : State) (h st : Nat) (t : Txn) : State := s.sendRsp (s.entry (t.fail st (s.hpNode h)) (257 + h) 2)
-- Death and life (R326, R327)
/-- Contexts bound in HOST mode to a host port. -/
def State.boundTo (s : State) (h : Nat) : List Nat :=
  (s.xl.binds.filter (fun b => b.2.mode == 2 && b.2.hostNode == s.hpNode h)).map Prod.fst
/-- Whole-context withdrawals for the contexts bound to a host port, which are unbound until software binds them again (R96); their bindings read as UNBOUND
from the loss on (DESIGN CHOICE, log 48). -/
def State.unbindHost (s : State) (h : Nat) : State :=
  (s.boundTo h).foldl (fun t c => (t.startCtxWd c (.hostLost h)).modXl (fun x => { x with binds := tmod {} x.binds c Bind.unbound })) s
/-- Entry into DEAD (R327): outstanding back-invalidates end without a write-back, the port's own CXL.mem requests that wait are
gone, the scan begins, withdrawals run; what waited for the port goes on. -/
def State.hostDead (s : State) (h : Nat) (self : Bool) : State :=
  if (s.host h).st != .active then s else
  let s1 := State.noteChange s (s.modHost h (fun p => { p with st := .dead, scanning := true })) (.host h) self false
  -- a write-back that has been performed stays (R328)
  let s1b := (s1.pool.backInvs.filter (fun b => b.host == h && b.cleared)).foldl (fun t b => t.dirDrop b.line h) s1
  let s2 := s1b.modPool (fun p => { p with backInvs := p.backInvs.filter (fun b => b.host != h) })
  let s3 := { s2 with reqs := s2.reqs.filter (fun r => match r.2.who with | .backInv _ x => x != h | _ => true) }
  let s4 := (s.host h).snoops.foldl (fun t r => t.sendBirsp h 2 r.2) (s3.modHost h (fun p => { p with snoops := [] }))
  ((s4.modHost h (fun p => { p with accs := p.accs.filter (fun a => a.kind ≤ 3) })).unbindHost h).cxlResume
/-- HOST_LINK_UP (R308, R326). -/
def execHostLinkUp (h : Nat) (s : State) : Answer :=
  let s1 := s.modHost h (fun p => { p with trained := true, modeActive := p.mode })
  .next (if (s.host h).st == .linkDown && (s.host h).mode != 0 then s1.selfChange (.host h) (fun t => t.modHost h (fun p => { p with st := .active })) else s1)
/-- The host link of port h goes down: its IDE streams end, a TDI in RUN enters ERROR, an ACTIVE port dies (R326, R329, R330). -/
def State.hostLinkDown (s : State) (h : Nat) : State :=
  (s.modHost h (fun p => { p with trained := false, linkIde := none, ideSel := [], tdi := if p.tdi == .run then .error else p.tdi })).hostDead h true
/-- HOST_LINK_DOWN (R326, R330): an ACTIVE port dies; a TDI in RUN enters ERROR. -/
def execHostLinkDown (h : Nat) (s : State) : Answer := .next (s.hostLinkDown h)
/-- The end of the directory scan of a dead port (R327): every entry that names it is handled, the lines of an extent as one event; the lines lost are
counted and reported. -/
def State.scanEnd (s : State) (h : Nat) : State :=
  let lost := (s.pool.dir.filter (fun d => d.2.excl && d.2.owner == h)).map Prod.fst
  let s1 := ((s.pool.dir.filter (fun d => d.2.hosts.contains h)).map Prod.fst).foldl (fun t l => t.dirDrop l h) s
  let s2 := s.pool.exts.foldl (fun t x =>
    let l := lost.filter (fun n => x.2.st != .unused && inExt x.2 (64 * n))
    if l.isEmpty then t else (t.poison x.1 x.2 5 31 l).noteLost x.1 h) s1
  (s2.modHost h (fun p => { p with linesLost := p.linesLost + lost.length, scanning := false })).event 4 0x04 2 h lost.length 0
/-- DEAD_SCAN_DONE (R327). -/
def execDeadScanDone (h : Nat) (s : State) : Answer :=
  .next (if (s.host h).st == .dead && (s.host h).scanning then s.scanEnd h else s)

/-- The effect of an `HP.CTL` write (R314, R326). -/
def hpCtlWrite (h value : Nat) (s : State) : Except Nat State :=
  let c := value % 256
  if c == 0 || 3 < c then .error abortRange
  else if field value 8 8 != 0 || field value 32 32 != 0 || (c != 3 && field value 16 16 != 0) then .error abortRefused
  else if c == 1 then check ((s.host h).st == .active) abortRefused (.ok ((s.setMg (.host h) (some 2)).hostDead h false))
  else if c == 2 then
    -- a scan still under way ends first (R327)
    check ((s.host h).st == .dead && (s.host h).trained) abortRefused
      (.ok (((if (s.host h).scanning then s.scanEnd h else s).setMg (.host h) none).cmdChange (.host h) (fun t => t.modHost h (fun p => { p with st := .active }))))
  else .ok (s.modHost h (fun p => { p with stalled := p.stalled.filter (· != field value 16 16) }))
/-- DECLARE_DEAD (R326). -/
def execDeclareDead (v : VCtx) (h : Nat) (s : State) : Answer := s.vaneWrite v (hpCtlObj h) (leBytes 8 1) (some (.host h)) (hpCtlWrite h 1)
/-- REVIVE (R326). -/
def execRevive (v : VCtx) (h : Nat) (s : State) : Answer := s.vaneWrite v (hpCtlObj h) (leBytes 8 2) (some (.host h)) (hpCtlWrite h 2)
/-- CLEAR_RID (R314). -/
def execClearRid (v : VCtx) (h rid : Nat) (s : State) : Answer :=
  s.vaneWrite v (hpCtlObj h) (leBytes 8 (3 + 65536 * (rid % 65536))) (some (.host h)) (hpCtlWrite h (3 + 65536 * (rid % 65536)))
-- Back-invalidates at the end-point (R323, R325)
/-- A BISNP reaches the end-point of host port h, which issues the BISnpInv and keeps the request until the host answers (R123, R323); a port that is not
ACTIVE answers NODE_ABSENT (R327). Without room for its BIRSP it stays in its queue (Table 7-10). -/
def State.serveBisnp (s : State) (h : Nat) (e : QEntry) : State :=
  if !s.canReserve (257 + h) 2 1 then s.setQueue (257 + h) e.queueVc (e :: s.queue (257 + h) e.queueVc) else
  let s1 := (s.release e).charge (257 + h) 2 1
  if (s.host h).st != .active then s1.sendBirsp h 2 e.t
  else (s1.modHost h (fun p => { p with snoops := p.snoops ++ [(s.poolOff e.t.addr / 64 * 64, e.t)] })).emit (.cxlBisnp h (s.poolOff e.t.addr / 64 * 64))
/-- M2S_BIRSP (R123, R323): the end-point returns BIRSP to the pool home, also when the pool no longer waits for it; a write-back that came before it has
been performed. -/
def execM2sBirsp (h dpa : Nat) (s : State) : Answer :=
  match (s.host h).snoops.find? (fun r => r.1 == dpa / 64 * 64) with
  | none => .next s
  | some r => .next ((s.modHost h (fun p => { p with snoops := p.snoops.erase r })).sendBirsp h 0 r.2)
/-- BI_TIMEOUT (R325): during a revocation from the port the line is poisoned where the port held it EXCL; otherwise the port dies. -/
def execBiTimeout (h line : Nat) (s : State) : Answer :=
  match s.backInvOf line h with
  | none => .next s
  | some b =>
    if s.clk < b.since + (s.host h).biTimeout * 1000 then .next s
    else match b.revoke with
      | some (e, g) =>
        let excl := match s.dirOf line with | some d => d.excl && d.owner == h | none => false
        let s1 := if excl && !b.cleared then (s.poison e (s.ext e) 6 31 [line]).modExt e (fun x => { x with grants := tmod {} x.grants g (fun y => { y with poisonedAny := true }) }) else s
        .next (s1.endBackInv line h)
      | none => .next (s.hostDead h true)

-- Host accesses into the aperture (R312 to R314)
/-- The context of a host access: bound to (node, PASID), or `HP.NOPASID_CTX`. -/
def State.hostCtx (s : State) (h : Nat) (pasid : Option Nat) : Option Nat :=
  match pasid with
  | some p => ((s.xl.binds.find? (fun b => b.2.mode == 2 && b.2.hostNode == s.hpNode h && b.2.pasid == p)).map Prod.fst)
  | none => if (s.host h).nopasidCtx == 0xFFFF then none else some (s.host h).nopasidCtx
/-- Host completion code of a final status (Table 11-4): 0 Successful, 1 Unsupported Request, 2 Completer Abort. -/
def hostCode (read : Bool) (st : Status) : Nat :=
  match st with
  | .ok => 0 | .poisoned => if read then 0 else 2
  | .ctxDenied => 1 | .extRevoked => 1 | .xlateFault => 1 | .nodeAbsent => 1 | .malformed => 1
  | _ => 2
def State.modAcc (s : State) (h id : Nat) (f : HostAcc → HostAcc) : State :=
  s.modHost h (fun p => { p with accs := p.accs.map (fun a => if a.id == id then f a else a) })
/-- The data of a host read, from the lines that its parts returned. -/
def accData (a : HostAcc) : Bytes :=
  let first := a.off / 64
  let all := (List.range ((a.off + a.len + 63) / 64 - first)).flatMap (fun i => slice (tget [] a.parts i) 0 64)
  slice all (a.off % 64) a.len
/-- A failed posted write stalls its requester ID, is logged and signalled (R314). -/
def State.stallRid (s : State) (h rid fa st : Nat) : State :=
  (s.modHost h (fun p => { p with stalled := addNew p.stalled rid, errLog := lastN 64 (p.errLog ++ [{ rid := rid, fa := fa, status := st, slot := s.slot }]) })).emit (.aer h)
/-- The answer of an access whose requests have ended (R313, Table 11-4). -/
def State.accAnswer (s : State) (h : Nat) (a : HostAcc) (st : Status) : State :=
  let s1 := s.modHost h (fun p => { p with accs := p.accs.filter (fun x => x.id != a.id) })
  match a.htag with
  | some tg => s1.emit (.hostCpl h tg (hostCode (a.kind == 0) st) (st == .poisoned && a.kind == 0)
      (if st == .ok || st == .poisoned then (if a.kind == 0 then accData a else slice (tget [] a.parts 0) 0 a.len) else []))
  | none => if st == .ok then s1 else s1.stallRid h a.rid ((a.frame.map (fun v => (nEntry v).fa + a.off % 2 ^ 21)).getD 0) st.code
/-- Whether an access waits for earlier posted writes of its requester ID (Table 6-5). -/
def accWaits (l : List HostAcc) (a : HostAcc) : Bool :=
  !(a.kind == 1 && a.ro) && (l.takeWhile (fun x => x.id != a.id)).any (fun x => x.kind == 1 && x.rid == a.rid)
/-- An access of a stalled requester ID: a posted write is discarded, anything else answered Completer Abort (R169, R314). -/
def State.stallAcc (s : State) (h : Nat) (a : HostAcc) : State :=
  if a.kind == 1 then s.modHost h (fun p => { p with accs := p.accs.filter (fun x => x.id != a.id) }) else s.accAnswer h a .aged
/-- Starts the accesses that no longer wait: the end-point reads the aperture frame entry of each (R312). -/
def hostKickOne (h : Nat) (s : State) (a : HostAcc) : State :=
  if a.kind ≤ 2 && !a.issued && !accWaits (s.host h).accs a then
    if (s.host h).stalled.contains a.rid then s.stallAcc h a
    else (s.modAcc h a.id (fun x => { x with issued := true })).issueHost h (readTxn 0 (s.xl.aptBase + 16 * (a.off / 2 ^ 21)) 16 (a.rid % 8) false) (.frame h a.id)
  else s
def State.hostKick (s : State) (h : Nat) : State := (s.host h).accs.foldl (hostKickOne h) s
/-- A host access to BAR4 arrives (R310, R312, R314, R330): Unsupported Request where no context applies, out of the aperture, or in TDI ERROR. -/
def State.hostAccess (s : State) (h rid : Nat) (htag : Option Nat) (pasid : Option Nat) (kind off len : Nat) (ro : Bool) (atop : Nat) (data : Bytes) : State :=
  if (s.host h).st != .active then s else
  let deny := fun (c : Nat) => match htag with | some t => s.emit (.hostCpl h t c false []) | none => s
  if s.xl.aptLog2 == 0 || 2 ^ (s.xl.aptLog2 + 21) < off + len || (s.host h).tdi == .error then deny 1
  else match s.hostCtx h pasid with
    | none => deny 1
    | some c =>
      if (s.host h).stalled.contains rid then (if kind == 0 then deny 2 else if kind == 1 then s else deny 2)
      else
        let a : HostAcc := { id := (s.host h).nextAcc, rid := rid, htag := htag, ctx := c, kind := kind, off := off, len := len, ro := ro, atop := atop, data := data, since := s.clk }
        (s.modHost h (fun p => { p with nextAcc := p.nextAcc + 1, accs := p.accs ++ [a] })).hostKick h
/-- HOST_MEM_READ (R312). -/
def execHostMemRead (h rid htag : Nat) (pasid : Option Nat) (off len : Nat) (s : State) : Answer :=
  .next (s.hostAccess h rid (some htag) pasid 0 off len false 0 [])
/-- HOST_MEM_WRITE (R312, R169). -/
def execHostMemWrite (h rid : Nat) (pasid : Option Nat) (ro : Bool) (off : Nat) (data : Bytes) (s : State) : Answer :=
  .next (s.hostAccess h rid none pasid 1 off data.length ro 0 data)
/-- ATOP of a host AtomicOp: 64-bit FetchAdd, Swap, CAS, and 128-bit CAS (Table 11-1). -/
def hostAtop (op : HostAtomic) (width : Nat) : Option Nat :=
  match op with
  | .fetchAdd => if width == 8 then some 0x10 else none
  | .swap => if width == 8 then some 0x13 else none
  | .cas => if width == 8 then some 0x14 else if width == 16 then some 0x24 else none
/-- HOST_ATOMICOP (R312): an AtomicOp of a width that the completer does not support is an Unsupported Request. -/
def execHostAtomicop (h rid htag : Nat) (pasid : Option Nat) (off : Nat) (op : HostAtomic) (width : Nat) (data : Bytes) (s : State) : Answer :=
  match hostAtop op width with
  | none => .next (if (s.host h).st == .active then s.emit (.hostCpl h htag 1 false []) else s)
  | some a => .next (s.hostAccess h rid (some htag) pasid 2 off width false a data)
/-- The line requests of an access whose frame entry permits it (R312). -/
def accLine (h : Nat) (a : HostAcc) (fa : Nat) (s : State) (i : Nat) : State :=
  let lo := if i == 0 then a.off else (a.off / 64 + i) * 64
  let hi := min (a.off + a.len) ((a.off / 64 + i + 1) * 64)
  let n := hi - lo
  let addr := fa + (lo - a.off)
  if a.kind == 0 then s.issueHost h { readTxn a.ctx addr n (a.rid % 8) false with addr := addr % 2 ^ 57 } (.host h a.id i)
  else
    let d := List.replicate (addr % 8) 0 ++ slice a.data (lo - a.off) n ++ List.replicate ((8 - (addr + n) % 8) % 8) 0
    s.issueHost h { ty := .wr, size := n - 1, ctx := a.ctx, flow := a.rid % 8, addr := addr % 2 ^ 57, data := d } (.host h a.id i)
/-- Whether a request of a host access that completed RETRY_LATER is retried: after R76's waits, until 1 ms after the access arrived (R313). -/
def State.hostRetries (s : State) (h id : Nat) (o : OutReq) : Bool :=
  decide (o.tries < s.mov.retryMax) && (s.host h).accs.any (fun a => a.id == id && decide (s.clk < a.since + 1000000))
/-- The frame entry of an access has been read (R312, R313). -/
def State.frameRsp (s : State) (h id : Nat) (r : Txn) : State :=
  match (s.host h).accs.find? (fun a => a.id == id) with
  | none => s
  | some a =>
    let e := nEntry (rspWord r)
    if (s.host h).stalled.contains a.rid then (s.stallAcc h a).hostKick h
    else if r.status == 10 then (s.accAnswer h a .retryLater).hostKick h
    else if r.status != 0 then (s.accAnswer h a .xlateFault).hostKick h
    else if !e.valid || nMalformed (rspWord r) 3 || !(if a.kind == 0 then e.rd else if a.kind == 1 then e.wr else e.wr && e.at_) then (s.accAnswer h a .xlateFault).hostKick h
    else if e.moving then s.modAcc h id (fun x => { x with movingAt := some s.clk })
    else
      let fa := e.fa + a.off % 2 ^ 21
      let n := if a.kind == 2 then 1 else (a.off + a.len + 63) / 64 - a.off / 64
      let s1 := s.modAcc h id (fun x => { x with frame := some (rspWord r), left := n })
      if a.kind == 2 then s1.issueHost h { ty := .atom, size := a.atop, ctx := a.ctx, flow := a.rid % 8, addr := fa % 2 ^ 57, data := a.data } (.host h id 0)
      else (List.range n).foldl (accLine h a fa) s1
/-- The response to a line request of a host access; RETRY_LATER is retried after R76's waits until 1 ms after the access arrived (R76, R313; log 18). The last
line answers the access. -/
def State.hostLineRsp (s : State) (key h id part : Nat) (o : OutReq) (r : Txn) : State :=
  match (s.host h).accs.find? (fun a => a.id == id) with
  | none => s.endReq key
  | some a =>
    let st := (statusOf r.status).getD .aged
    if st == .retryLater && s.hostRetries h id o then s.backoff key o
    else
      let d := slice (List.replicate (o.t.addr % 64 / 8 * 8) 0 ++ r.data) 0 64
      let a1 := { a with left := a.left - 1, parts := tset a.parts part (if a.kind == 2 then r.data else d), fails := if st == .ok then a.fails else a.fails ++ [st] }
      let s1 := (s.endReq key).modAcc h id (fun _ => a1)
      if a1.left == 0 then (s1.accAnswer h a1 (worst a1.fails)).hostKick h else s1
/-- The response to a request of a host access: a line of it, or the frame entry that it reads first (R312, R313). -/
def State.hostRsp (s : State) (key : Nat) (o : OutReq) (r : Txn) : State :=
  match o.who with
  | .host h id part => s.hostLineRsp key h id part o r
  | .frame h id => if r.status == 10 && s.hostRetries h id o then s.backoff key o else (s.endReq key).frameRsp h id r
  | _ => s
/-- The requests of a host access that wait to be retried. -/
def State.accBackoffs (s : State) (h id : Nat) : Tab OutReq :=
  s.reqs.filter (fun r => r.2.waitUntil.isSome && (match r.2.who with | .host x i _ => x == h && i == id | .frame x i => x == h && i == id | _ => false))
/-- HOST_RETRY_DEADLINE (R312, R313): an access held for MOVING ends RETRY_LATER after `XL.HOLD_MAX`; 1 ms after an access arrived its requests that wait for a retry
are not issued again, and end RETRY_LATER. -/
def execHostRetryDeadline (h id : Nat) (s : State) : Answer :=
  match (s.host h).accs.find? (fun a => a.id == id) with
  | none => .next s
  | some a =>
    if a.movingAt.any (fun t => decide (t + s.xl.holdMax * 1000 ≤ s.clk)) then .next ((s.accAnswer h a .retryLater).hostKick h)
    else if s.clk < a.since + 1000000 then .next s
    else .next ((s.accBackoffs h id).foldl (fun t r => t.hostRsp r.1 r.2 { r.2.t.fail 10 (s.hpNode h) with tnode := r.2.t.dest.getD 0xFFF }) s)
/-- What host accesses retry is issued again once its wait is over (R76, R313). -/
def State.hostRetry (s : State) : State :=
  let due := s.reqs.filter (fun r => (r.2.waitUntil.any (fun w => decide (w ≤ s.clk))) && (match r.2.who with | .host h i _ => s.hostRetries h i r.2 | .frame h i => s.hostRetries h i r.2 | _ => false))
  due.foldl (fun t r => t.reissue r.1 r.2) s

-- Fabric accesses into host memory (R315, R316, R170)
def byteEnables (t : Txn) : Nat := 2 ^ (t.addr % 64 + t.len) - 2 ^ (t.addr % 64)
/-- The AtomicOps that the end-point can request (Table 11-1). -/
def hostAtomOk (a : Nat) : Bool := [0x00, 0x10, 0x03, 0x13, 0x14, 0x24].contains a
/-- Answers a request that the end-point has accepted, from the cells that its acceptance reserved (R199). -/
def State.hostReply (s : State) (h : Nat) (e : QEntry) (st : Nat) (data : Bytes) : State :=
  let rsp := e.t.reply st (s.hpNode h) data
  let s1 := (s.release e).freeCells (257 + h) 2 (rspCells e.t - rsp.cells)
  s1.sendRsp (s1.entry rsp (257 + h) 2)
/-- Sends the flush read that covers every write issued before it (R170). -/
def State.flush (s : State) (h : Nat) : State :=
  let p := s.host h
  if p.unflushed.isEmpty || p.fabs.any (fun f => f.kind == 2) then s else
  let f : HostFab := { htag := p.nextHtag, t := {}, adm := 0, vc := 0, cells := 0, kind := 2, covered := p.unflushed, since := s.clk }
  (s.modHost h (fun p => { p with nextHtag := (p.nextHtag + 1) % 16384, unflushed := [], fabs := p.fabs ++ [f] })).emit
    (.hostReq h p.nextHtag 3 none 0 0 [])
/-- A request of the fabric reaches a host-port end-point (R315). -/
def State.serveHost (s : State) (h : Nat) (e : QEntry) (t : Txn) : State :=
  let p := s.host h
  let b := s.bind t.ctx
  let pas := if t.ctx == 0 then some none else if b.mode == 2 && b.hostNode == s.hpNode h then some (some b.pasid) else none
  if t.ty == .resync then s.hostReply h e 0 []
  else if t.ty == .atom && (!hostAtomOk t.size || !p.atomicEn || !atomSlotOk t) then s.hostReply h e 9 []
  else if p.st != .active then s.hostReply h e 2 []
  else if p.tdi == .error then s.hostReply h e 3 []
  else match pas with
    | none => s.hostReply h e 3 []
    | some pasid =>
      if 4096 ≤ p.fabs.length then s.hostReply h e 10 []
      else match t.ty with
        | .wr => (((s.modHost h (fun p => { p with unflushed := p.unflushed ++ [e] })).emit (.hostReq h p.nextHtag 1 pasid t.off (byteEnables t) t.data))).flush h
        | .rd =>
          (s.modHost h (fun p => { p with nextHtag := (p.nextHtag + 1) % 16384, fabs := p.fabs ++ [{ htag := p.nextHtag, t := e.t, adm := e.adm, vc := e.vc, cells := e.cells, kind := 0, since := s.clk }] })).emit
            (.hostReq h p.nextHtag 0 pasid t.off (byteEnables t) [])
        | _ =>
          (s.modHost h (fun p => { p with nextHtag := (p.nextHtag + 1) % 16384, fabs := p.fabs ++ [{ htag := p.nextHtag, t := e.t, adm := e.adm, vc := e.vc, cells := e.cells, kind := 1, since := s.clk }] })).emit
            (.hostReq h p.nextHtag 2 pasid t.off (byteEnables t) t.data)
def fabEntry (f : HostFab) : QEntry := { t := f.t, adm := f.adm, vc := f.vc, cells := f.cells, since := f.since, hlim := 0 }
/-- Answers the request that a host tag stands for. -/
def State.endFab (s : State) (h : Nat) (f : HostFab) (st : Nat) (data : Bytes) : State :=
  let s1 := s.modHost h (fun p => { p with fabs := p.fabs.filter (fun x => x.htag != f.htag) })
  if f.kind == 2 then
    let s2 := f.covered.foldl (fun t e => (if st == 7 then t.markFlow e.t e.adm else t).hostReply h e st []) s1
    s2.flush h
  else (if st == 7 then s1.markFlow f.t f.adm else s1).hostReply h (fabEntry f) st data
/-- HOST_COMPLETION (R316). -/
def execHostCompletion (h htag : Nat) (c : HostCpl) (s : State) : Answer :=
  match (s.host h).fabs.find? (fun f => f.htag == htag) with
  | none => .next s
  | some f =>
    match c with
    | .success d =>
      if f.kind == 0 then
        let n := 8 * ceilDiv (f.t.addr % 8 + f.t.len) 8
        let r := s.freshBytes n
        .next (r.2.endFab h f 0 (splice r.1 (f.t.addr % 8) (slice d 0 f.t.len)))
      else .next (s.endFab h f 0 (slice d 0 (if f.t.len == 16 then 16 else 8)))
    | .poisoned =>
      let r := s.freshBytes (8 * ceilDiv (f.t.addr % 8 + f.t.len) 8)
      .next (r.2.endFab h f 1 r.1)
    | .unsupported => .next (s.endFab h f 3 [])
    | .abort => .next (s.endFab h f 3 [])
/-- HOST_COMPLETION_TIMEOUT (R316): after 500 µs a read ends RETRY_LATER, a flush read its writes AGED with their flows marked. -/
def execHostCompletionTimeout (h htag : Nat) (s : State) : Answer :=
  match (s.host h).fabs.find? (fun f => f.htag == htag) with
  | none => .next s
  | some f => .next (if f.since + 500000 ≤ s.clk then s.endFab h f (if f.kind == 2 then 7 else if f.kind == 1 then 7 else 10) [] else s)

-- TDISP, IDE (R329, R330)
/-- A TDISP message is answered in the state that allows it; otherwise with TDISP_ERROR, message 0x7F (log 19). -/
def State.tdispStep (s : State) (h msg : Nat) (from_ : List TdiState) (to_ : TdiState) : State :=
  if from_.contains (s.host h).tdi then (s.modHost h (fun p => { p with tdi := to_ })).emit (.tdisp h msg [])
  else s.emit (.tdisp h 0x7F [msg])
/-- LOCK_INTERFACE_REQUEST. -/
def execLockInterfaceRequest (h : Nat) (s : State) : Answer := .next (s.tdispStep h 0x83 [.unlocked] .locked)
/-- START_INTERFACE_REQUEST. -/
def execStartInterfaceRequest (h : Nat) (s : State) : Answer := .next (s.tdispStep h 0x86 [.locked] .run)
/-- STOP_INTERFACE_REQUEST: to CONFIG_UNLOCKED from any state. -/
def execStopInterfaceRequest (h : Nat) (s : State) : Answer := .next (s.tdispStep h 0x87 [.unlocked, .locked, .run, .error] .unlocked)
/-- GET_DEVICE_INTERFACE_REPORT: the report lists BAR0, BAR2 and BAR4. -/
def execGetDeviceInterfaceReport (h : Nat) (s : State) : Answer :=
  .next (if (s.host h).tdi == .locked || (s.host h).tdi == .run then s.emit (.tdisp h 0x84 [0, 2, 4]) else s.emit (.tdisp h 0x7F [0x84]))
def TdiState.code : TdiState → Nat
  | .unlocked => 0 | .locked => 1 | .run => 2 | .error => 3
/-- GET_DEVICE_INTERFACE_STATE. -/
def execGetDeviceInterfaceState (h : Nat) (s : State) : Answer := .next (s.emit (.tdisp h 0x85 [(s.host h).tdi.code]))
/-- IDE_INTEGRITY_FAIL (R329): the TLP is dropped, its stream in force (0 link IDE, 1 to 4 selective) becomes insecure, a TDI in RUN enters ERROR. -/
def execIdeIntegrityFail (h stream : Nat) (s : State) : Answer :=
  if !(if stream == 0 then (s.host h).linkIde.isSome else (s.host h).ideSel.any (fun x => x.1 == stream)) then .next s
  else .next (s.modHost h (fun p =>
    { p with linkIde := if stream == 0 then p.linkIde.map (fun _ => false) else p.linkIde,
             ideSel := if stream == 0 then p.ideSel else tmap p.ideSel (fun k b => if k == stream then false else b),
             tdi := if p.tdi == .run then .error else p.tdi }))
/-- HP_REFCLK_LOST (R26's companion for host links, R495): the link cannot run without its reference clock; it goes down (R326). -/
def State.hostRefclkLost (s : State) (h : Nat) : State :=
  (s.modHost h (fun p => { p with refclk := false })).hostLinkDown h
/-- PRI_RESET (R95): the host resets PRI; page requests may be made again. -/
def execPriReset (h : Nat) (s : State) : Answer := .next (s.modHost h (fun p => { p with pri := true, pageReqs := [], pageWait := [] }))

end Sys2Proof.Machine
end

