-- ==== Sys2Proof/Machine/Contexts.lean ====
section
/-! DEFINITION. Contexts, pool keys, bundles and thaw (R334 to R363). The abort of operator runs, which R355 asks for, is the argument `ab`;
the commands stand in `CtxCmds.lean`. -/

namespace Sys2Proof.Machine
open Sys2Proof

def State.modSec (s : State) (f : Sec → Sec) : State := { s with sec := f s.sec }
def ctxCtlObj : Nat × Nat := (0x6000, 1)
def keyCtlObj : Nat × Nat := (0x6000, 2)
def bundleObj : Nat × Nat := (0x6000, 3)
/-- Rings of a context that are enabled or not yet DISABLED. -/
def State.ringsOf (s : State) (c : Nat) : List Nat := (s.mov.rings.filter (fun r => r.2.cfg.ctx == c && r.2.st != .disabled)).map Prod.fst
def State.instsOf (s : State) (c : Nat) : List Nat := (s.ops.insts.filter (fun x => x.2.entry.ctx == c && x.2.st != .idle)).map Prod.fst
def State.extsOf (s : State) (c : Nat) : List Nat := (s.pool.exts.filter (fun x => x.2.owner == c && x.2.st != .unused)).map Prod.fst
def State.keysOf (s : State) (c : Nat) : List Nat := (s.sec.keys.filter (fun k => k.2.loaded && !k.2.host && k.2.owner == c)).map Prod.fst
/-- Sets a context's state: the slot of the change, and the change of its unit. -/
def State.setCtx (s : State) (c : Nat) (st : CtxState) : State :=
  s.cmdChange (.ctx c) (fun t => t.modCtx c (fun x => { x with st := st, slot := s.slot, freeAt := if st == .free then some s.clk else x.freeAt }))
/-- Erases the bundle keys of a context that leaves ACTIVE (R351). -/
def State.eraseBkeys (s : State) (c : Nat) : State :=
  s.modSec (fun x => { x with bkeys := tmap x.bkeys (fun _ b => if b.used && b.ctx == c then {} else b) })
/-- Requests of an ended load keep no purpose. -/
def State.orphanLoad (s : State) : State :=
  { s with reqs := tmap s.reqs (fun _ r => match r.who with | .bundleRead _ => { r with who := .resync } | .bundleWrite _ => { r with who := .resync } | _ => r) }
/-- Ends the bundle load FAILED or DONE; its key is erased (R351, R354). -/
def State.endBundle (s : State) (st : BundlePhase) (cause : Nat) : State :=
  let b := s.sec.bundle
  let s1 := s.orphanLoad.modSec (fun x => { x with bundle := { b with st := st, cause := cause, left := 0, buf := [] }, bkeys := tset x.bkeys b.bslot {} })
  if b.nfa == 0 then s1 else s1.issue (storeTxn 0 b.nfa b.nval 8 0) (.notify 2 0) s.reqTimeout
/-- R355 at this package: submissions stop, runs abort, loads and drift moves of the context end. -/
def State.enterStopping (s : State) (c : Nat) (ab : Nat → State → State) : State :=
  let s1 := (s.ringsOf c).foldl (fun t n => (t.setMg (.ring n) (some 0)).ringDrain n) s
  let s2 := (s.instsOf c).foldl (fun t i => ab i t) s1
  let s3 := s2.eraseBkeys c
  let s4 := if s3.sec.bundle.st == .running && (tget {} s.sec.bkeys s.sec.bundle.bslot).ctx == c then s3.endBundle .failed 5 else s3
  let hit := fun (m : Move) => (s.extsOf c).any (fun e => inExt (s.ext e) m.page)
  let s5 := s4.modPool (fun p => { p with movesNow := p.movesNow.map (fun m => if hit m then { m with aborting := true } else m) })
  (s5.pool.movesNow.filter hit).foldl (fun t m => t.abortCheck m.id) s5
/-- The fence of R355 at this package. -/
def State.fenceDone (s : State) (c : Nat) : Bool :=
  (s.ringsOf c).isEmpty && (s.instsOf c).isEmpty && (s.extsOf c).all (fun e => (movesOf s (s.ext e)).isEmpty) &&
  !(s.xl.wds.any (fun w => match w.cause with | .stop d => d == c && !w.finished | _ => false))
/-- Splits a queue into the entries that pass `p` and those that do not. -/
def State.sweepQueue (s : State) (c egress : Nat) : State :=
  let hit := fun (e : QEntry) => e.t.ctx == c && s.retired e.t
  let gone := (tget [] s.sw.queues egress).filter hit
  gone.foldl (fun t e => t.retire e) { s with sw := { s.sw with queues := tset s.sw.queues egress ((tget [] s.sw.queues egress).filter (fun e => !hit e)) } }
def State.sweepLine (s : State) (c tile : Nat) : State :=
  let hit := fun (e : QEntry) => e.t.ctx == c && s.retired e.t
  let gone := (s.lineQ tile).filter hit
  gone.foldl (fun t e => t.retire e) (s.setLineQ tile ((s.lineQ tile).filter (fun e => !hit e)))
def State.sweepHolds (s : State) (c tile : Nat) : State :=
  let hit := fun (h : Held) => h.e.t.ctx == c && s.retired h.e.t
  let gone := (s.holdsOf tile).filter hit
  (gone.foldl (fun t h => t.countRevoked.edgeFail h.e 4) (s.setHolds tile ((s.holdsOf tile).filter (fun h => !hit h)))).resumeTile tile
/-- The sweep of every queue for a retired generation (R356), transmitted accretion entries included (Table 12-2). -/
def State.sweep (s : State) (c : Nat) : State :=
  let s1 := (s.sw.queues.map Prod.fst).foldl (fun t k => t.sweepQueue c k) s
  let s2 := (s.sw.lines.map Prod.fst).foldl (fun t k => t.sweepLine c k) s1
  (s.xl.holds.map Prod.fst).foldl (fun t k => t.sweepHolds c k) s2
/-- Starts the revocation of a grant (R296): requests of the grantee are refused from now on; lines a host holds are recalled. -/
def State.revokeGrant (s : State) (e g : Nat) : State :=
  let x := s.ext e
  let gr := tget {} x.grants g
  let s1 := s.modExt e (fun y => { y with grants := tmod {} y.grants g (fun z => { z with revoked := true, rstate := 1, poisonedAny := false, revokedAt := s.clk }) })
  if gr.host then s1.backInvExt x (some (gr.id % 8)) false (some (e, g)) else s1
/-- Destroys the key slots of a context that no extent out of UNUSED and ZEROING names (R343, R356). -/
def State.keyInUse (s : State) (k : Nat) : Bool := s.pool.exts.any (fun x => x.2.keySlot == k && (x.2.st == .active || x.2.st == .releasing))
def State.destroyKey (s : State) (k : Nat) : State := s.cmdChange (.key k) (fun t => t.modKey k (fun _ => {}))
def State.destroyKeys (s : State) (c : Nat) : State :=
  (s.keysOf c).foldl (fun t k => if t.keyInUse k then t else (t.setMg (.key k) (some 0)).destroyKey k) s
/-- The key slots of contexts in REVOKING go as soon as the last extent that names them has left RELEASING (R356). -/
def State.destroyRevoked (s : State) : State := ((s.sec.ctxs.filter (fun c => c.2.st == .revoking)).map Prod.fst).foldl State.destroyKeys s
/-- R356 at this package after the retirement: sweep, RELEASE, revocation of grants, marks dropped, keys destroyed. -/
def State.enterRevoking (s : State) (c : Nat) : State :=
  let s1 := s.sweep c
  let s2 := (s.extsOf c).foldl (fun t e => if (t.ext e).st == .active then (t.setMg (.ext e) (some 0)).cmdChange (.ext e) (fun u => u.extRelease e) else t) s1
  let named := s2.pool.exts.flatMap (fun x => (x.2.grants.filter (fun g => g.2.valid && !g.2.host && g.2.id == c && !g.2.revoked)).map (fun g => (x.1, g.1)))
  let s3 := named.foldl (fun t eg => t.revokeGrant eg.1 eg.2) s2
  ((s3.dropMarks (fun m => m.ctx == c)).destroyKeys c)
/-- Whether REVOKING is done at this package. -/
def State.revokeDone (s : State) (c : Nat) : Bool :=
  (s.extsOf c).all (fun e => (s.ext e).st == .zeroing) && (s.keysOf c).all (fun k => (s.key k).host)
/-- Thaw of a context at all tiles (R358, R359, Table 12-11), counted in `THAW.COUNT`. -/
def State.thaw (s : State) (c : Nat) : State :=
  { s with
    xl := { s.xl with cache := tmap s.xl.cache (fun _ l => l.filter (fun e => e.ctx != c)),
                      wcache := tmap s.xl.wcache (fun _ l => l.filter (fun e => match e with | .ptr d _ _ _ => d != c | .ats d _ _ _ _ _ _ => d != c)) },
    ops := { s.ops with insts := tmap s.ops.insts (fun _ x => if x.entry.ctx == c then { x with rows := [], aux := [], words := [], side := [], cands := [] } else x) },
    mov := { s.mov with rings := tmap s.mov.rings (fun _ r => if r.cfg.ctx == c && r.st == .disabled then { r with fetched := [], work := [] } else r) },
    sec := { s.sec with thawCount := s.sec.thawCount + 256, thawCtx := c, thawSlot := s.slot } }
/-- The scope of every context: the packages of the rack, or of the pod (R335), absent ones apart. -/
def State.ctxScope (s : State) : List Nat := (s.scopeNodes s.inPod).filter (fun n => n != s.poolNode && !s.absent.contains n)
/-- Sends a change of state to the scope (R335); message kind 2 of log 16. An ACTIVATE with CLEAN says so (R337). -/
def State.sendCtx (s : State) (c : Nat) (clean : Bool) : State :=
  s.ctxScope.foldl (fun t n => t.sendMgt (t.mgt n 2 (c + 65536 * (s.ctx c).st.code + 2 ^ 24 * (s.ctx c).kgen + 2 ^ 28 * boolNat clean))) s
def State.modChange (s : State) (c : Nat) (f : CtxChange → CtxChange) : State :=
  s.modSec (fun x => { x with changes := x.changes.map (fun y => if y.c == c then f y else y) })
/-- Moves a context that this package is home of to its next state, with what that state asks of this package. -/
def State.ctxStep (s : State) (ch : CtxChange) (to_ : CtxState) : State :=
  let s1 := s.setCtx ch.c to_
  let s2 := s1.modChange ch.c (fun y => { y with to_ := to_, waiting := s.poolNode :: s.ctxScope })
  let s3 := match to_ with
    | .revoking => s2.enterRevoking ch.c
    | .thawing => s2.thaw ch.c
    | _ => s2
  s3.sendCtx ch.c false
/-- Whether this package has done its part of a state (R335). -/
def State.ownPartDone (s : State) (ch : CtxChange) : Bool :=
  match ch.to_ with
  | .stopping => s.fenceDone ch.c
  | .revoking => s.revokeDone ch.c
  | _ => true
/-- A change has been acknowledged by every package of the scope: the next state, or the end of the command. -/
def State.ctxAdvance (s : State) (ch : CtxChange) : State :=
  let finish := fun (t : State) =>
    let t1 := t.modSec (fun x => { x with changes := x.changes.filter (fun y => y.c != ch.c) })
    if ch.nfa == 0 then t1 else t1.issue (storeTxn 0 ch.nfa ch.nval 8 0) (.notify 1 ch.c) s.reqTimeout
  match ch.to_ with
  | .stopping => s.ctxStep ch .revoking
  | .revoking => s.ctxStep ch .thawing
  | .thawing => finish ((s.setCtx ch.c .free).sendCtx ch.c false)
  | _ => finish s
/-- An acknowledgement of package `n`: its own counts only when its part is done. -/
def State.ctxAck (s : State) (n c : Nat) : State :=
  match s.sec.changes.find? (fun y => y.c == c) with
  | none => s
  | some ch =>
    if !ch.waiting.contains n || (n == s.poolNode && !s.ownPartDone ch) then s
    else
      let w := ch.waiting.filter (· != n)
      let s1 := s.modChange c (fun y => { y with waiting := w })
      if w.isEmpty then s1.ctxAdvance { ch with waiting := w } else s1
/-- A package that answers NODE_ABSENT counts as done in every withdrawal and change (R108, R335). -/
def State.ctxAbsent (s : State) (n : Nat) : State := (s.sec.changes.map (fun c => c.c)).foldl (fun t c => t.ctxAck n c) s
/-- The record of `CTX.CTL`. -/
def ctxCtlBytes (cmd c : Nat) (clean : Bool) (nfa nval : Nat) : Bytes := leBytes 24 (pack [(8, cmd), (16, c), (1, boolNat clean), (39, 0), (64, nfa), (64, nval)])
/-- ACTIVATE (R336, R337). -/
def ctxActivateWrite (c : Nat) (clean : Bool) (nfa nval : Nat) (s : State) : Except Nat State :=
  let x := s.ctx c
  let k := (x.kgen + 1) % 16
  let waited := match x.freeAt with | some t => decide (t + s.ageLimit 0 + s.ageLimit 2 ≤ s.clk) | none => true
  check (nfa % 8 == 0 && isFa nfa) abortRefused <|
  check (c != 0 && x.st == .free && waited && decide (s.sec.changes.length < 64) && (!x.mask.testBit k || clean)) abortRefused <|
    let s1 := s.modCtx c (fun y => { y with kgen := k, mask := (if clean then 0 else y.mask) ||| 2 ^ k, home := s.poolNode })
    let s2 := (s1.setMg (.ctx c) (some 1)).setCtx c .active
    let ch : CtxChange := { c := c, to_ := .active, waiting := s.ctxScope, nfa := nfa, nval := nval }
    let s3 := (s2.modSec (fun y => { y with changes := y.changes ++ [ch] })).sendCtx c clean
    .ok (if ch.waiting.isEmpty then s3.ctxAdvance ch else s3)
/-- STOP (R335, R336, R355): at the home, or at any package for STOPPING or REVOKING while the home is absent. -/
def ctxStopWrite (ab : Nat → State → State) (c nfa nval : Nat) (s : State) : Except Nat State :=
  let x := s.ctx c
  let takeOver := (x.st == .stopping || x.st == .revoking) && x.home != s.poolNode && s.absent.contains x.home
  check (nfa % 8 == 0 && isFa nfa) abortRefused <|
  check (c != 0 && ((x.st == .active && x.home == s.poolNode) || takeOver)) abortRefused <|
    let st := if takeOver then x.st else CtxState.stopping
    let s1 := (s.modCtx c (fun y => { y with home := s.poolNode })).setMg (.ctx c) (some 0)
    let s2 := s1.setCtx c st
    let ch : CtxChange := { c := c, to_ := st, waiting := s.poolNode :: s.ctxScope, nfa := nfa, nval := nval }
    let s3 := s2.modSec (fun y => { y with changes := (y.changes.filter (fun z => z.c != c)) ++ [ch] })
    let s4 := if st == .stopping then
        let t := s3.enterStopping c ab
        if (s.bind c).mode != 0 && (s.bind c).homeNode == s.poolNode then t.startCtxWd c (.stop c) else t
      else s3.enterRevoking c
    .ok (s4.sendCtx c false)
/-- A state change arrives from a context's home (R335): this package takes the state and does its part. -/
def State.ctxNotice (s : State) (ab : Nat → State → State) (home c st kgen : Nat) (clean : Bool) : State :=
  let s1 := s.modCtx c (fun y => { y with home := home, kgen := kgen, mask := if st == 1 then (if clean then 0 else y.mask) ||| 2 ^ kgen else y.mask })
  match st with
  | 1 => (s1.setMg (.ctx c) (some 1)).setCtx c .active
  | 2 =>
    let t := ((s1.setMg (.ctx c) (some 0)).setCtx c .stopping).enterStopping c ab
    if (s.bind c).mode != 0 && (s.bind c).homeNode == s.poolNode then t.startCtxWd c (.stop c) else t
  | 3 => (s1.setCtx c .revoking).enterRevoking c
  | 4 => (s1.setCtx c .thawing).thaw c
  | 0 => s1.setCtx c .free
  | _ => s

-- Keys (R342, R343)
def keyCtlBytes (cmd slot : Nat) (host : Bool) (owner : Nat) : Bytes := leBytes 8 (pack [(8, cmd), (12, slot), (1, boolNat host), (3, 0), (16, owner), (24, 0)])
/-- GENERATE: the key material is a free value (R342; log 3). -/
def keyGenerateWrite (slot : Nat) (host : Bool) (owner : Nat) (s : State) : Except Nat State :=
  check (!(s.key slot).loaded && (if host then (s.host (owner % 8)).mode != 0 else (s.ctx owner).st == .active)) abortRefused <|
    let k := s.freshBytes 96
    .ok ((k.2.setMg (.key slot) (some 1)).cmdChange (.key slot) (fun t => t.modKey slot (fun _ =>
      { loaded := true, host := host, kgen := if host then 0 else (s.ctx owner).kgen, owner := if host then owner % 8 else owner,
        k1 := leAt k.1 0 32, k2 := leAt k.1 32 32, k3 := leAt k.1 64 32 })))
/-- DESTROY: refused while an extent that is not UNUSED or ZEROING names the slot (R343). -/
def keyDestroyWrite (slot : Nat) (s : State) : Except Nat State :=
  check (!s.keyInUse slot) abortRefused (.ok ((s.setMg (.key slot) (some 0)).destroyKey slot))

-- Bundles (R351 to R354)
/-- BKEY_DELIVER: the response byte, and the state after it (R351). -/
def State.bkeyDeliver (s : State) (sess payload len : Nat) : Nat × State :=
  let slot := field payload 8 8
  let ctx := field payload 16 16
  let kg := field payload 32 4
  if len != 56 || field payload 0 8 != 1 || 64 ≤ slot || field payload 36 28 != 0 then (3, s)
  else if (tget {} s.sec.bkeys slot).used then (1, s)
  else if (s.ctx ctx).st != .active || (s.ctx ctx).kgen != kg then (2, s)
  else
    let k : BKey := { used := true, ctx := ctx, kgen := kg, bundle := field payload 64 64, key := field payload 128 256, expiry := field payload 384 64 }
    (0, s.modSec (fun x => { x with bkeys := tset x.bkeys slot k }))
/-- Whether a session may deliver bundle keys: mutual authentication with a broker's key. -/
def State.brokerSession (s : State) (sess : Nat) : Bool :=
  (s.session sess).isOpen && (s.session sess).established && (s.session sess).mutAuth && (s.session sess).leafKey != 0 &&
  s.sec.brokers.any (fun b => b.2 == (s.session sess).leafKey)
/-- The reads of the lines of a bundle from FA `a` on (under context 0). -/
def bundleReads (a : Nat) : Nat → State → State
  | 0, s => s
  | n + 1, s => bundleReads (a + 64) n (s.issue (readTxn 0 a 64 0 false) (.bundleRead a) s.reqTimeout)
/-- The lines that cover `n` bytes from FA `a`: the number of the first, and how many. -/
def coverOf (a n : Nat) : Nat × Nat := (a / 64, (a + n + 63) / 64 - a / 64)
/-- The bytes from FA `a` on, of the lines that have been read. -/
def Bundle.bytes (b : Bundle) (a n : Nat) : Bytes :=
  slice ((List.range (coverOf a n).2).flatMap (fun i => slice (tget [] b.buf ((coverOf a n).1 + i)) 0 64)) (a % 64) n
/-- Begins to read `n` bytes from FA `a`. -/
def State.readBundle (s : State) (a n : Nat) : State :=
  bundleReads (64 * (coverOf a n).1) (coverOf a n).2 (s.modSec (fun x => { x with bundle := { x.bundle with buf := [], left := (coverOf a n).2 } }))
/-- A write of `KEY.BUNDLE_LOAD` (R353): the load begins with the read of the header. -/
def bundleLoadWrite (rec_ : Nat) (s : State) : Except Nat State :=
  let b := tget {} s.sec.bkeys (field rec_ 0 6)
  check (isFa (field rec_ 64 64) && isFa (field rec_ 192 64) && field rec_ 192 64 % 8 == 0 && field rec_ 128 64 % 64 == 0) abortRefused <|
  check (s.sec.bundle.st != .running && b.used && (s.ctx b.ctx).st == .active && (s.ctx b.ctx).kgen == b.kgen && field rec_ 6 58 == 0) abortRefused <|
    let b1 : Bundle := { st := .running, bslot := field rec_ 0 6, src := field rec_ 64 64, dst := field rec_ 128 64, nfa := field rec_ 192 64, nval := field rec_ 256 64 }
    .ok ((s.modSec (fun x => { x with bundle := b1 })).readBundle b1.src 64)
/-- Plaintext bytes of chunk i, and the bytes of the bundle that hold it with its tag. -/
def chunkLen (plain i : Nat) : Nat := min 1048576 (plain - i * 1048576)
def chunkAt (i : Nat) : Nat := 64 + i * (1048576 + 16)
/-- Begins to read the chunk of the load that is next, with its tag. -/
def State.readChunk (s : State) : State :=
  let b := s.sec.bundle
  s.readBundle (b.src + chunkAt b.chunk) (chunkLen b.plainLen b.chunk + 16)
/-- The load is DONE: the slot that keys the extent is SEALED (R346, R354). -/
def State.loadDone (s : State) : State :=
  (match extOfOff s s.sec.bundle.dst with | some (_, x) => s.modKey x.keySlot (fun y => { y with sealed := true }) | none => s).endBundle .done 0
/-- The header has been read: its checks, then the first chunk (R354). -/
def State.bundleHdr (s : State) : State :=
    let b := s.sec.bundle
    let k := tget {} s.sec.bkeys b.bslot
    let v := leNat (b.bytes b.src 64)
    let plain := field v 128 64
    let okHdr := field v 0 32 == 0x314E4257 && field v 32 16 == 1 && field v 48 16 == 0 && field v 64 64 == k.bundle && plain % 64 == 0 &&
      decide (plain ≤ 2 ^ 40) && field v 192 32 == ceilDiv plain 1048576 && field v 224 288 == 0
    let okExt := match extOfOff s b.dst with
      | some (_, x) => x.st == .active && x.owner == k.ctx && decide (b.dst + plain ≤ x.base + x.len)
      | none => false
    if !okHdr || !okExt then s.endBundle .failed 1
    else
      let s1 := s.modSec (fun x => { x with bundle := { b with hdr := b.bytes b.src 64, plainLen := plain, nchunks := field v 192 32 } })
      if field v 192 32 == 0 then s1.loadDone else s1.readChunk
/-- The whole-line writes of a chunk's plaintext, under the context to the extent (R354). -/
def bundleWrites (ctx kgen off : Nat) (d : Bytes) : Nat → State → State
  | 0, s => s
  | n + 1, s =>
    bundleWrites ctx kgen (off + 64) (d.drop 64) n
      (s.issue { ty := .wr, size := 63, ctx := ctx, kgen := kgen, addr := s.poolFa off, data := slice d 0 64 } (.bundleWrite off) s.reqTimeout)
/-- BUNDLE_CHUNK (R352, R354): a chunk that has been read is verified, decrypted and written; a chunk that has been written gives way to the next. -/
def State.bundleChunk (s : State) : State :=
  let b := s.sec.bundle
  let k := tget {} s.sec.bkeys b.bslot
  if b.st != .running || b.left != 0 || b.hdr.isEmpty then s
  else if (s.ctx k.ctx).st != .active then s.endBundle .failed 5
  else if b.buf.isEmpty then
    if b.chunk + 1 < b.nchunks then (s.modSec (fun x => { x with bundle := { b with chunk := b.chunk + 1 } })).readChunk
    else s.loadDone
  else
    let n := chunkLen b.plainLen b.chunk
    match Config.bundleOpen k.key k.bundle b.chunk b.hdr (b.bytes (b.src + chunkAt b.chunk) (n + 16)) with
    | none => s.endBundle .failed 2
    | some d =>
      let s1 := s.modSec (fun x => { x with bundle := { b with buf := [], left := n / 64, written := b.written + n } })
      bundleWrites k.ctx k.kgen (b.dst + b.chunk * 1048576) (slice d 0 n) (n / 64) s1
/-- A response to a read or a write of the load: a failure is reissued once (R167), then ends the load with cause 3 or 4. -/
def State.bundleRsp (s : State) (key : Nat) (o : OutReq) (r : Txn) (pos : Option Nat) : State :=
  let b := s.sec.bundle
  if b.st != .running then s.endReq key
  else if r.status != 0 then
    if o.tries == 0 then (s.breakFor o r).reissue key o
    else (s.endReq key).endBundle .failed (if pos.isSome then 3 else 4)
  else
    let s1 := (s.endReq key).modSec (fun x => { x with bundle := { b with left := b.left - 1, buf := match pos with | some p => tset b.buf (p / 64) (slice r.data 0 64) | none => b.buf } })
    if b.hdr.isEmpty && b.left == 1 then s1.bundleHdr else s1

end Sys2Proof.Machine
end

