-- ==== Sys2Proof/Machine/Farun.lean ====
section
/-! DEFINITION. The Farun end-points attached to the package, as the end-point statements require them to behave (R2): their ports and number (R186, R447),
flows, hints, fences and releases (R87, R133, R134, R157 to R159, R167, R194), their memory as a home (R46, R341), departures (R465), and the state of
their contribution to collectives and of their rack time (R224, R251, R258). -/

namespace Sys2Proof.Machine
open Sys2Proof

/-- The present node of the end-point that uses node n, or has requests outstanding under it (R447). -/
def State.farunNode (s : State) (n : Nat) : Nat :=
  if (tfind s.farun n).isSome then n
  else match s.farun.find? (fun x => x.2.oldNode == some n) with | some x => x.1 | none => n
def State.farunOf (s : State) (n : Nat) : Farun := tget {} s.farun (s.farunNode n)
def State.modFarun (s : State) (n : Nat) (f : Farun → Farun) : State := { s with farun := tmod {} s.farun (s.farunNode n) f }
def State.isFarun (s : State) (n : Nat) : Bool := (tfind s.farun (s.farunNode n)).isSome
/-- Whether the key of an outstanding request is of the end-point at n. -/
def State.ofFarun (s : State) (n key : Nat) : Bool := s.farunNode (key / 1048576) == s.farunNode n

-- Ports (R133, R186, R447)
/-- Ports of an end-point whose partner gives the node that it uses (R447). -/
def State.farunOwn (s : State) (n : Nat) : List Nat :=
  let f := s.farunOf n
  f.ports.filter (fun p => tget (s.farunNode n) f.gives p == s.farunNode n)
/-- Ports of an end-point from which a node is reachable (Table 7-6). -/
def State.farunPorts (s : State) (n : Nat) (dest : Option Nat) : List Nat :=
  let f := s.farunOf n
  let own := s.farunOwn n
  match dest with
  | none => own
  | some d =>
    if d < 0xC00 then own
    else
      let direct := own.filter (fun p => (tget [] f.pools p).contains d)
      if !direct.isEmpty then direct
      else if 0xD20 ≤ d && (nodeEnt s.tbl.active d).kind != 0 then
        let k := if s.tbl.active.k == 0 then 1 else s.tbl.active.k
        own.filter (fun p => tget 0 f.leaf p == ((nodeEnt s.tbl.active d).pkg - 288) / k)
      else []
/-- The port of a flow: a function of its CTX, FLOW and, where it has one, its destination (R133; which function is the model's, log 22). -/
def farunPick (l : List Nat) (t : Txn) (dest : Option Nat) : Option Nat :=
  if l.isEmpty then none else l[(t.ctx + t.flow + dest.getD 0) % l.length]?
/-- The destination that an end-point knows of a request: its FA's node, or the plane hint of its 2 MiB (R87). -/
def State.farunDest (s : State) (n : Nat) (t : Txn) : Option Nat :=
  match t.dest with
  | some d => some d
  | none => ((s.farunOf n).hints.find? (fun h => h.1 == t.ctx && h.2.1 == t.addr / 2 ^ 21)).map (fun h => h.2.2)
/-- The port that a flow keeps while it has requests outstanding (R133). -/
def State.farunPinned (s : State) (n : Nat) (t : Txn) (dest : Option Nat) : Option Nat :=
  ((s.reqs.find? (fun r => s.ofFarun n r.1 && r.2.t.ctx == t.ctx && r.2.t.flow == t.flow && (tfind (s.farunOf n).pins r.1).any (fun x => x.2 == dest))).bind
    (fun r => tfind (s.farunOf n).pins r.1)).map Prod.fst
/-- The port for a request towards `dest` out of `l`: the flow's, while it has requests outstanding, else by the function. -/
def State.farunPort (s : State) (n : Nat) (l : List Nat) (t : Txn) (dest : Option Nat) : Option Nat :=
  match s.farunPinned n t dest with
  | some p => if l.contains p then some p else none
  | none => farunPick l t dest

-- Issue
/-- Whether the flow of a request waits for a RESYNC: its own key is broken, or one of which no response has named the destination (R134, R194; log 48). -/
def State.farunBroken (s : State) (n : Nat) (t : Txn) (dest : Option Nat) : Bool :=
  (s.farunOf n).broken.any (fun b => b.1 == t.ctx && b.2.1 == t.flow && (dest.isNone || b.2.2 == 0xFFF || dest == some b.2.2))
/-- Whether a request must wait at the end-point: a RESYNC comes first, its flow's port is gone, or requests under the old number are outstanding (R133, R194, R447). -/
def State.farunWaits (s : State) (n : Nat) (t : Txn) : Bool :=
  let dest := s.farunDest n t
  s.farunBroken n t dest || (s.farunOwn n).isEmpty ||
  (s.farunOf n).oldNode.any (fun m => s.reqs.any (fun r => r.1 / 1048576 == m && s.ofFarun n r.1)) ||
  (s.farunPinned n t dest).any (fun p => !(s.farunPorts n dest).contains p)
/-- The request of an engine leaves on a port, recorded under a tag of the node with its response space reserved (R124, R125, R133). -/
def State.farunOut (s : State) (n engine p : Nat) (t : Txn) (dest : Option Nat) : State :=
  let tag := freeTag s.reqs n s.reqs.length (s.farunOf n).nextTag
  let t1 := { t with snode := n, tag := tag, home := none }
  let s1 := s.modFarun n (fun f => { f with
    nextTag := tag + 1, reserved := f.reserved + reserveSlots t1, fenced := f.fenced.filter (· != engine), pins := tset f.pins (n * 1048576 + tag) (p, dest),
    acquiring := if t1.acq then addNew f.acquiring engine else f.acquiring })
  let o : OutReq := { t := t1, who := if t1.ty == .resync then .farunSync engine else .farun engine, issuedAt := s.clk, timeout := s.ageLimit 0 + s.ageLimit 2 + 1000000 }
  { s1 with reqs := tset s1.reqs (n * 1048576 + tag) o }.emit (.farun n p t1)

-- Its memory as a home (R46, R341)
/-- An entry of the access table (Table 12-3). -/
def farunEnt (f : Farun) (i : Nat) : Nat := leNat (memRead f.mem (f.atblBase + 16 * i) 16)
def inAtbl (f : Farun) (a : Nat) : Bool := decide (f.atblBase ≤ a) && decide (a < f.atblBase + 16 * f.atblEntries)
/-- Whether an entry lets a request through: generation, every byte, the right; AT needs WR (Table 12-3). -/
def atblAllows (t : Txn) (v : Nat) : Bool :=
  bitOf v 0 && field v 4 4 == t.kgen && field v 8 16 == t.ctx && decide (field v 32 25 * 65536 ≤ t.off) &&
  decide (t.off + t.len ≤ (field v 32 25 + field v 64 25 + 1) * 65536) &&
  (match t.ty with | .rd => bitOf v 1 | .wr => bitOf v 2 | .atom => bitOf v 2 && bitOf v 3 | _ => false)
/-- Entries of the table that may be VALID: those whose first byte is not zero. -/
def atblUsed (f : Farun) : List Nat :=
  (f.mem.filter (fun c => inAtbl f c.1 && (c.1 - f.atblBase) % 16 == 0)).map (fun c => (c.1 - f.atblBase) / 16)
/-- Whether an entry grants a range that overlaps the table itself. -/
def atblSelf (f : Farun) (i : Nat) : Bool :=
  let v := farunEnt f i
  bitOf v 0 && decide (field v 32 25 * 65536 < f.atblBase + 16 * f.atblEntries) && decide (f.atblBase < (field v 32 25 + field v 64 25 + 1) * 65536)
/-- The status of a request at an end-point's memory, and the end-point after it (R46, R129, R341). The table's entries are checked as a write leaves them. -/
def farunAccess (f : Farun) (t : Txn) : Nat × Farun :=
  if t.ty == .resync then (0, f)
  else if !reqShapeOk t || (t.ty == .atom && !atomSlotOk t) then (9, f)
  else if f.memBytes < t.off + t.len then (3, f)
  else if t.ctx != 0 && !(atblUsed f).any (fun i => atblAllows t (farunEnt f i)) then (3, f)
  else
    let f1 := match t.ty with
      | .wr => { f with mem := memWrite f.mem t.off (slice t.data (t.addr % 8) t.len) }
      | .atom => { f with mem := memWrite f.mem t.off (leBytes t.len (atomNew t.size (leNat (memRead f.mem t.off t.len)) (atomOperands t).1 (atomOperands t).2)) }
      | _ => f
    if (inAtbl f t.off || inAtbl f (t.off + t.len - 1)) && (atblUsed f1).any (atblSelf f1) then (3, f) else (0, f1)
/-- What the access returns: the covered bytes of a read, the other bytes of its slots free (R137), an atomic's old value. -/
def State.farunData (s : State) (f : Farun) (t : Txn) (st : Nat) : Bytes × State :=
  if st != 0 then ([], s)
  else match t.ty with
    | .rd => let r := s.freshBytes (8 * ((t.addr % 8 + t.len + 7) / 8)); (splice r.1 (t.addr % 8) (memRead f.mem t.off t.len), r.2)
    | .atom => (atomData t.size (leNat (memRead f.mem t.off t.len)), s)
    | _ => ([], s)
/-- A request that reaches an end-point's memory through port p: its response leaves there (R186). -/
def State.farunServe (s : State) (n p : Nat) (t : Txn) : State :=
  let r := farunAccess (s.farunOf n) t
  let d := s.farunData (s.farunOf n) t r.1
  (d.2.modFarun n (fun _ => r.2)).emit (.farun n p (t.reply r.1 n d.1))

/-- Sends a request of an engine that need not wait, as its destination asks: an access to the own node is local (R37), to an absent or unreachable node
ends NODE_ABSENT (R465), any other leaves on a port. -/
def State.farunSend (s : State) (n engine : Nat) (t0 : Txn) : State :=
  let t := { ownFa n t0 with snode := n }
  let dest := s.farunDest n t
  let tag := freeTag s.reqs n s.reqs.length (s.farunOf n).nextTag
  let used := fun (u : State) => u.modFarun n (fun f => { f with nextTag := tag + 1, fenced := f.fenced.filter (· != engine) })
  if dest == some n then
    let r := farunAccess (s.farunOf n) t
    (used (s.modFarun n (fun _ => r.2))).emit (.report n tag ((statusOf r.1).getD .aged))
  else match (if dest.any (fun d => (s.farunOf n).absent.contains d) then none else s.farunPort n (s.farunPorts n dest) t dest) with
    | none => (used s).emit (.report n tag .nodeAbsent)
    | some p => s.farunOut n engine p t dest

-- Fences and releases (R157, R158, R167)
/-- Whether an engine of an end-point has a request outstanding, a RESYNC among them. -/
def State.farunOutstanding (s : State) (n engine : Nat) : Bool :=
  s.reqs.any (fun r => s.ofFarun n r.1 && (r.2.who == .farun engine || r.2.who == .farunSync engine))
/-- The release of an engine goes directly after its fence has succeeded (R158). -/
def State.farunKick (s : State) (n : Nat) : State :=
  (s.farunOf n).releases.foldl (fun u r =>
    if (u.farunOf n).fenced.contains r.1 && !u.farunWaits (u.farunNode n) r.2 then
      (u.modFarun n (fun f => { f with releases := f.releases.filter (fun x => x.1 != r.1) })).farunSend (u.farunNode n) r.1 r.2
    else u) s
/-- Ends a fence whose engine has no request outstanding (R157): it succeeds when every earlier write and atomic completed OK and no flow that lost one awaits
the RESYNC of R167. A release that waited for a fence that fails is not issued. -/
def State.fenceEnd (s : State) (n engine : Nat) : State :=
  if (s.farunOf n).fencing.contains engine && !s.farunOutstanding n engine then
    let ok := !(s.farunOf n).failedW.contains engine && !(s.farunOf n).unsync.any (fun u => u.1 == engine)
    ((s.modFarun n (fun f => { f with
      fencing := f.fencing.filter (· != engine), failedW := f.failedW.filter (· != engine), fenced := if ok then addNew f.fenced engine else f.fenced,
      releases := if ok then f.releases else f.releases.filter (fun r => r.1 != engine) })).emit (.fence n engine ok)).farunKick n
  else s

-- Responses and ends (R14, R87, R134, R167, R194)
/-- A flow key of an end-point waits for a RESYNC. -/
def Farun.break (f : Farun) (k : Nat × Nat × Nat) : Farun := { f with broken := if f.broken.contains k then f.broken else f.broken ++ [k] }
/-- A request of an end-point ends with a status. A lost write or atomic holds its engine's releases back until the flow's RESYNC (R167). -/
def State.farunEnd (s : State) (key engine : Nat) (o : OutReq) (st : Status) (tnode : Nat) : State :=
  let n := key / 1048576
  let bad := st == .aged || st == .timeout
  let lost := (o.t.ty == .wr || o.t.ty == .atom) && st != .ok
  let k := (o.t.ctx, o.t.flow, tnode)
  let s1 := (s.endReq key).modFarun n (fun f => { (if bad then f.break k else f) with
    reserved := f.reserved - reserveSlots o.t, pins := terase f.pins key,
    failedW := if lost then addNew f.failedW engine else f.failedW,
    unsync := if lost && !f.unsync.contains (engine, k) then f.unsync ++ [(engine, k)] else f.unsync,
    acquiring := if o.t.acq then f.acquiring.filter (· != engine) else f.acquiring })
  (s1.emit (.report n o.t.tag st)).fenceEnd n engine
/-- A RESYNC of an end-point ends: the flow stays broken when it ended AGED or TIMEOUT (R134, R135). -/
def State.farunSyncEnd (s : State) (key engine : Nat) (o : OutReq) (st : Status) : State :=
  let n := key / 1048576
  let k := (o.t.ctx, o.t.flow, o.t.dest.getD 0xFFF)
  let s1 := (s.endReq key).modFarun n (fun f => { (if st == .aged || st == .timeout then f.break k else f) with
    reserved := f.reserved - reserveSlots o.t, pins := terase f.pins key })
  (s1.emit (.report n o.t.tag st)).fenceEnd n engine
/-- Sends an outstanding request of an end-point again, on port q towards `dest` (R87). -/
def State.farunAgain (s : State) (n key q dest : Nat) (o : OutReq) : State :=
  { s.modFarun n (fun f => { f with pins := tset f.pins key (q, some dest) }) with
      reqs := tset s.reqs key { o with waitUntil := none, issuedAt := s.clk, tries := o.tries + 1 } }.emit (.farun n q o.t)
/-- A response at a Farun end-point, with the plane hints of R87: the request goes again through another port that leads to TNODE, a write or an atomic after its RESYNC. -/
def State.farunRsp (s : State) (key engine : Nat) (o : OutReq) (r : Txn) : State :=
  let n := key / 1048576
  let st := (statusOf r.status).getD .aged
  let tn := r.tnode
  let here := ((tfind (s.farunOf n).pins key).map Prod.fst).getD 0xFFFF
  if st == .nodeAbsent && o.t.akind == 1 then
    match s.farunPort n (if tn < 0xC00 then [] else (s.farunPorts n (some tn)).filter (· != here)) o.t (some tn) with
    | some q =>
      let s1 := s.modFarun n (fun f => { f with hints := (f.hints.filter (fun h => !(h.1 == o.t.ctx && h.2.1 == o.t.addr / 2 ^ 21))) ++ [(o.t.ctx, o.t.addr / 2 ^ 21, tn)] })
      if o.t.ty == .wr || o.t.ty == .atom then
        { s1.modFarun n (fun f => f.break (o.t.ctx, o.t.flow, tn)) with reqs := tset s1.reqs key { o with waitUntil := some s.clk } }
      else s1.farunAgain n key q tn o
    | none => (s.modFarun n (fun f => { f with absent := addNew f.absent tn })).farunEnd key engine o st tn
  else s.farunEnd key engine o (if st == .timeout then .aged else st) (if tn == 0xFFF then ((s.farunDest n o.t).getD 0xFFF) else tn)
/-- Reports TIMEOUT for the outstanding requests of an end-point that `p` picks (R465). -/
def State.farunTimeout (s : State) (n : Nat) (p : OutReq → Bool) : State :=
  (s.reqs.filter (fun r => s.ofFarun n r.1 && p r.2)).foldl (fun t r =>
    match r.2.who with
    | .farun e => t.farunEnd r.1 e r.2 .timeout ((s.farunDest n r.2.t).getD 0xFFF)
    | .farunSync e => t.farunSyncEnd r.1 e r.2 .timeout
    | _ => t) s
/-- A departure or a return at a Farun end-point (R465). -/
def State.farunLeave (s : State) (n lnode kind : Nat) : State :=
  if kind == 8 then s.modFarun n (fun f => { f with absent := f.absent.filter (· != lnode) })
  else (s.modFarun n (fun f => { f with absent := addNew f.absent lnode })).farunTimeout n (fun o => s.farunDest n o.t == some lnode)
/-- An end-point's port has gone down: what it carried is over, and requests to nodes that no port reaches any more report TIMEOUT (R195, R465). -/
def State.farunPortDown (s : State) (p : Nat) : State :=
  (s.farun.filter (fun x => x.2.ports.contains p)).foldl (fun t x =>
    let t1 := t.modFarun x.1 (fun f => { f with ports := f.ports.filter (· != p), flying := terase f.flying p, timeOn := terase f.timeOn p })
    t1.farunTimeout x.1 (fun o => match t1.farunDest x.1 o.t with | some d => (t1.farunPorts x.1 (some d)).isEmpty | none => t1.farunOwn x.1 == [])) s

-- Contribution to collectives (R224, R258) and rack time (R251)
def planEnt (l : List Nat) : PlanEnt :=
  let g := fun i => l.getD i 0
  { dnode := g 0, inst := g 1, phase := g 2, contrib := g 3, first := g 4, count := g 5, sides := g 6, port := g 7, anchor := g 8, period := g 9,
    start := g 10, len := g 11, cells := g 12 }
/-- The instance of a plan entry: its number at the package that runs it. -/
def runKey (dnode inst : Nat) : Nat := dnode * 4096 + inst
/-- The end-point's rack time, ns: from the last record that it took time from. -/
def State.farunNow (s : State) (f : Farun) : Nat := f.timeIs + (s.clk - f.timeAt)
/-- Whether a port has delivered a usable record within the last three epochs. -/
def State.farunHears (s : State) (f : Farun) (p : Nat) : Bool := (tfind f.timeOn p).any (fun t => decide (s.clk < t + 3 * 1048576))
/-- Whether any port has: otherwise collective traffic goes under credits alone (R251). -/
def State.farunTimed (s : State) (f : Farun) : Bool := f.ports.any (fun p => s.farunHears f p)
/-- A time record reaches an end-point on port p: it takes rack time from the port that its plan names, or while that one is silent for three epochs from any other. -/
def State.farunTime (s : State) (n p : Nat) (usable : Bool) (r : TimeRec) : State :=
  s.modFarun n (fun f =>
    let f1 := { f with timePorts := tmod {} f.timePorts p (fun t => { t with lastRxTx := r.txTime, lastRxAt := s.farunNow f * 16 }) }
    if !usable then f1
    else
      let f2 := { f1 with timeOn := tset f1.timeOn p s.clk }
      if p == f.planPort || !s.farunHears f f.planPort then { f2 with timeAt := s.clk, timeIs := r.txTime / 16, timeQ := r.quality, timeStratum := r.stratum + 1 } else f2)
/-- The end-point's own record of an epoch on each of its ports (R249, R251). -/
def State.farunRecs (s : State) (n : Nat) : State :=
  (s.farunOf n).ports.foldl (fun u p =>
    let f := u.farunOf n
    let tp := tget {} f.timePorts p
    let now := u.farunNow f * 16
    let r : TimeRec := { txTime := now % 2 ^ 64, echo := tp.lastRxTx, turn := if tp.lastRxTx == 0 then 0 else min (now - tp.lastRxAt) (2 ^ 32 - 1),
                         quality := if u.farunTimed f then f.timeQ else 0, stratum := if u.farunTimed f then f.timeStratum else 15 }
    (u.modFarun n (fun f => { f with timePorts := tmod {} f.timePorts p (fun t => { t with lastTx := now }) })).emit (.farunTime n p r)) s
/-- COL_CTL at an end-point: after an ABORT it sends nothing more for the run, after a CREDIT the rest of the run goes under credits alone (R224, R258). -/
def State.farunCtl (s : State) (t : Txn) : State :=
  s.modFarun t.dnode (fun f => { f with runs := tmod {} f.runs (runKey t.snode t.inst) (fun r =>
    if t.xb == 1 then { r with stopped := true } else if t.xb == 2 then { r with credit := true } else r) })

/-- What leaves a port towards an attached end-point reaches it: requests for its memory, responses, notices, COL_CTL; other messages it discards
(R120, R186, R224, R341, R465). It has no host port for a BISNP. -/
def State.toFarun (s : State) (p : Nat) (t : Txn) : State :=
  if !s.isFarun t.routeNode then s
  else if t.isReq then s.farunServe t.routeNode p t
  else if t.ty == .bisnp then s.emit (.farun t.dnode p (t.fail 2 t.dnode))
  else if t.isRsp then s.toInbox t
  else if t.ty == .nodeLeave then s.farunLeave t.dnode t.lnode t.mkind
  else if t.ty == .colCtl then s.farunCtl t
  else if t.ty == .mgtMsg then s.modFarun t.dnode (fun f => { f with mgtDiscarded := f.mgtDiscarded + 1 })
  else s

end Sys2Proof.Machine
end

