-- ==== Sys2Proof/Machine/Arrive.lean ====
section
/-! DEFINITION. Transactions arriving at a hop (R116, R182, R335, R339, R340), the heads of queues (R188, R192), REPIN's and accretion's ends, and responses
at their requesters (R14, R15, R124, R134, R143, R144). -/

namespace Sys2Proof.Machine
open Sys2Proof

/-- Whether transactions can arrive through an admission point: a fabric port in service, or an internal point. -/
def State.canArrive (s : State) (a : Nat) : Bool := decide (256 ≤ a) || s.portUp a
/-- The VC that a class takes at an admission point (R176). -/
def State.vcAt (s : State) (a cls : Nat) : Nat := cls + 5 * (if a < 256 then (s.portPool a).getD 0 else 0)
/-- Whether this package is the first Kolfy for requests of an admission point. -/
def State.firstHop (s : State) (a : Nat) : Bool := decide (256 ≤ a) || (s.isLeaf && s.portPool a == some 0)
/-- Whether the context filter applies to a port: its partner is a Farun end-point or a Utgeod one (R339). -/
def State.filtered (s : State) (a : Nat) : Bool :=
  decide (a < 256) && s.isLeaf && (match (s.port a).partnerCap with | some f => f.kind == 0 && !f.hostep | none => true)
/-- Charges an arriving transaction and counts its cells (R178, Table 16-4). -/
def State.takeIn (s : State) (a : Nat) (t : Txn) : State :=
  let s0 := s.charge a (s.vcAt a t.ty.cls) t.cells
  -- a packet of an attached end-point's contribution is no longer on its way
  let s1 := if t.ty.cls == 3 && s.isFarun t.snode then s0.modFarun t.snode (fun f => { f with flying := tmod 0 f.flying a (· - t.cells) }) else s0
  if a < 256 then s1.modPort a (fun p => { p with cellsAdmitted := p.cellsAdmitted + t.cells }) else s1
/-- The first checks of a request that the first Kolfy makes (R339, R116, R117); none on a fabric port names node 0xFFF (R36). -/
def State.malformedAt (s : State) (a : Nat) (t : Txn) : Bool :=
  if s.firstHop a then (s.filtered a && !(s.port a).allow.contains t.ctx) || !reqShapeOk t || !reqAddrOk t || (decide (a < 256) && t.akind == 3)
  else t.akind == 1 || (decide (a < 256) && t.dest == some 0xFFF)
/-- RETRY_LATER for a request that this hop cannot take now; a RESYNC, which never has that status, is discarded and leaves its flow broken (R135, R137). -/
def State.deferReq (s : State) (e : QEntry) (retry : QEntry → State) : State :=
  if e.t.ty == .resync then (s.markFlow e.t e.adm).failEntry e 7 true else retry e
/-- Holds a request behind one of its flow that waits for its translation (R84). -/
def State.holdBehind (s : State) (e : QEntry) : State :=
  if 256 ≤ (s.holdsOf e.adm).length then s.deferReq e s.edgeRetry
  else s.setHolds e.adm (s.holdsOf e.adm ++ [{ e := e, since := s.clk, leader := false }])
/-- A request arrives: the checks in the order of R13 that this hop makes. A package that is still obtaining the context table admits none (R335; log 21). -/
def State.arriveReq (s : State) (a : Nat) (t : Txn) : State :=
  if !s.canArrive a then s else
  let s1 := s.takeIn a t
  let e := s1.entry t a (s.vcAt a 0)
  if s.malformedAt a t then s1.failEntry e 9 false
  else if !s.sec.tableReady then s1.deferReq e (fun e => s1.failEntry e 10 false)
  else if s1.retired t then s1.retire e
  else if flowHeld (s1.holdsOf a) t then s1.holdBehind e
  else if t.akind == 1 then s1.translateDirect e s1.clk true
  else s1.forward e
/-- Sends a transaction of class FWD, RSP, COL or MGT that has been admitted on by its route (R181, R182): the pool end-point takes responses and has no host
port for a BISNP nor a use for messages to its secondary node (R146), host end-points have queues of their own, a D-pool arrival never goes up. -/
def State.routeOn (s : State) (e : QEntry) : State :=
  let node := e.t.routeNode
  if 5 ≤ e.vc && (routeEnt s.tbl.active node).kind == 3 then
    let s1 := { s with sw := { s.sw with updownViol := s.sw.updownViol + 1 } }
    if e.t.ty == .bisnp then s1.failEntry e 2 false else s1.release e
  else if s.absent.contains node then { s.release e with sw := { (s.release e).sw with noRoute := s.sw.noRoute + 1 } }
  else match s.egress e.adm node e.t.key with
    | none => { s.release e with sw := { (s.release e).sw with noRoute := s.sw.noRoute + 1 } }
    | some 256 =>
      if e.t.isRsp then (s.release e).toInbox e.t
      else if e.t.ty == .bisnp then s.failEntry e 2 false
      else if e.t.ty.cls == 4 then { s.release e with xact := { (s.release e).xact with mgtDiscarded := s.xact.mgtDiscarded + 1 } }
      else s.release e
    | some eg => s.enqueue eg e.queueVc e
/-- A response arrives (R181, Table 12-2). -/
def State.arriveRsp (s : State) (a : Nat) (t : Txn) : State :=
  if !s.canArrive a then s else
  let s1 := s.takeIn a t
  let e := s1.entry t a (s.vcAt a 2)
  if s1.retired t then s1.retire e else s1.routeOn e
/-- RD (R115 to R117, R127, R339, R340). -/
def execRd (adm : Nat) (t : Txn) (s : State) : Answer := .next (s.arriveReq adm { t with ty := .rd })
/-- WR. -/
def execWr (adm : Nat) (t : Txn) (s : State) : Answer := .next (s.arriveReq adm { t with ty := .wr })
/-- ATOM (R128). -/
def execAtom (adm : Nat) (t : Txn) (s : State) : Answer := .next (s.arriveReq adm { t with ty := .atom })
/-- RESYNC (R134, R135): it clears its flow's marks on its way and is answered OK by the home. -/
def execResync (adm : Nat) (t : Txn) (s : State) : Answer := .next (s.arriveReq adm { t with ty := .resync })
/-- BISNP (R131, R323): forwarded in FWD to the host port that it is for; there it becomes a BISnpInv. -/
def execBisnp (adm : Nat) (t : Txn) (s : State) : Answer :=
  let t1 := { t with ty := .bisnp }
  if !s.canArrive adm then .next s else
  let s1 := s.takeIn adm t1
  let e := s1.entry t1 adm (s.vcAt adm 1)
  if !reqShapeOk t1 then .next (s1.failEntry e 9 false)
  else if s.absent.contains t1.dnode || (s1.egress adm t1.dnode t1.key).isNone then .next (s1.failEntry e 2 false)
  else .next (s1.routeOn e)
/-- RSP_DATA. -/
def execRspData (adm : Nat) (t : Txn) (s : State) : Answer := .next (s.arriveRsp adm { t with ty := .rspData })
/-- RSP_ATOM. -/
def execRspAtom (adm : Nat) (t : Txn) (s : State) : Answer := .next (s.arriveRsp adm { t with ty := .rspAtom })
/-- RSP_DONE. -/
def execRspDone (adm : Nat) (t : Txn) (s : State) : Answer := .next (s.arriveRsp adm { t with ty := .rspDone })
/-- A received status that R11 reserves, or TIMEOUT, becomes AGED, and event 7/0x04 records it; a Farun end-point logs it itself (R15). -/
def State.cleanStatus (s : State) (r : Txn) : Txn × State :=
  if r.status == 8 || 10 < r.status then
    ({ r with status := 7 }, if s.isFarun r.dnode then s.modFarun r.dnode (fun f => { f with log := lastN 64 (f.log ++ [(r.hnode, r.status)]) }) else s.event 7 0x04 0 r.hnode r.status 0)
  else (r, s)
/-- A BIRSP at the pool home ends its back-invalidate when it reports OK; otherwise `HP.BI_TIMEOUT` bounds it (R323, R325). -/
def State.birspAtHome (s : State) (key line h st : Nat) : State :=
  if st == 0 then (s.endReq key).endBackInv line h else s.endReq key
/-- BIRSP (R323): at the pool home it ends the back-invalidate; elsewhere it is a response like any other. -/
def execBirsp (adm : Nat) (t : Txn) (s : State) : Answer :=
  let t1 := { t with ty := .birsp }
  if s.canArrive adm && t1.dnode == s.poolNode then
    match tfind s.reqs (t1.dnode * 1048576 + t1.tag) with
    | some o => (match o.who with
      | .backInv line h => .next ((s.cleanStatus t1).2.birspAtHome (t1.dnode * 1048576 + t1.tag) line h (s.cleanStatus t1).1.status)
      | _ => .next (s.arriveRsp adm t1))
    | none => .next (s.arriveRsp adm t1)
  else .next (s.arriveRsp adm t1)

-- Heads of queues
/-- What an internal host-port end-point does with the head of its queue (R142's place, R55, R124, R199, R315, R323): a request is accepted once its
response's cells are reserved, otherwise it completes RETRY_LATER; a RESYNC waits for them. -/
def State.enterHost (s : State) (h : Nat) (e : QEntry) : State :=
  match e.t.ty.cls with
  | 0 =>
    if !s.canReserve (257 + h) 2 (rspCells e.t) then
      (if e.t.ty == .resync then s.setQueue (257 + h) e.queueVc (e :: s.queue (257 + h) e.queueVc) else s.failEntry e 10 false)
    else
      let s1 := s.charge (257 + h) 2 (rspCells e.t)
      (match (if e.t.ty == .atom && !atomSlotOk e.t then .error .malformed else s.window (h + 1) e.t) with
        | .error st => (if st == .ctxDenied then s1.winDeny (h + 1) else s1).hostReply h e st.code []
        | .ok t => s1.serveHost h e t)
  | 1 => s.serveBisnp h e
  | 2 => (s.release e).toInbox e.t
  | 4 => { s.release e with xact := { (s.release e).xact with mgtDiscarded := s.xact.mgtDiscarded + 1 } }
  | _ => s.release e
/-- Whether a RESYNC at the head of a queue goes on another egress: its flow is in REPIN and the flow's egress is no longer this one (R196). -/
def State.resyncMoves (s : State) (egress : Nat) (e : QEntry) : Option Nat :=
  if e.t.ty == .resync && s.inRepin e.t e.adm then (s.egress e.adm e.t.routeNode e.t.key).filter (· != egress) else none
/-- The transaction at the head of a queue is checked (R188, R192, R196): discarded, readied, sent on by a new egress, or handed to the host-port end-point;
one that is ready and waits for credit is discarded once its residence exceeds its limit. -/
def State.headOf (s : State) (egress vc : Nat) : Answer :=
  match s.queue egress vc with
  | [] => .next s
  | e :: rest =>
    if (e.ready && !s.tooOld e) || s.accHeld e then .next s else
    let s1 := s.setQueue egress vc rest
    if s.trims e then .next (s1.trim e (fun x t => t.setQueue egress vc (x :: t.queue egress vc))) else
    match s1.headCheck e (some egress) with
    | some t => .next t
    | none =>
      match s.resyncMoves egress e with
      | some eg => .next (s1.agedOrPut e eg)
      | none =>
      if egress < 256 then .next (s.setQueue egress vc ({ e with ready := true } :: rest))
      else .next (s1.enterHost (egress - 257) e)
/-- QUEUE_HEAD. -/
def execQueueHead (egress vc : Nat) (s : State) : Answer := s.headOf egress vc

/-- Sweeps one queue: everything past its limit is melted (R188). -/
def sweepOld (s : State) (k : Nat) : State :=
  let q := tget [] s.sw.queues k
  (q.filter s.tooOld).foldl (fun t e => t.melt e (some (k / 10)))
    { s with sw := { s.sw with queues := tset s.sw.queues k (q.filter (fun e => !s.tooOld e)) } }
def sweepOldLine (s : State) (tile : Nat) : State :=
  let q := s.lineQ tile
  (q.filter s.tooOld).foldl (fun t e => t.melt e none) (s.setLineQ tile (q.filter (fun e => !s.tooOld e)))
/-- MELT_SWEEP (R188). -/
def execMeltSweep (s : State) : Answer :=
  .next ((s.sw.lines.map Prod.fst).foldl sweepOldLine ((s.sw.queues.map Prod.fst).foldl sweepOld s))
/-- A request of a mark's flow, to ask whether its flow is in REPIN. -/
def Mark.asTxn (m : Mark) : Txn := { ty := .rd, snode := m.snode, ctx := m.ctx, flow := m.flow, addr := m.dest.getD 0xFFF * 2 ^ 41 }
/-- REPIN_WINDOW_END (R196): windows that have ended close; PASS records of flows no longer in REPIN lapse; the previous image's substitutions are dropped. -/
def execRepinWindowEnd (s : State) : Answer :=
  let ends := s.sw.repins.filter (fun r => decide (r.until_ ≤ s.clk))
  if ends.isEmpty then .next s
  else
    let sw1 := if ends.any (fun r => r.cause == RepinCause.switchOver) then { s.sw with oldAlt := [], oldUp := [], oldImg := none } else s.sw
    let s1 := { s with sw := { sw1 with repins := s.sw.repins.filter (fun r => decide (s.clk < r.until_)) } }
    .next (s1.dropMarks (fun m => m.pass && !s1.inRepin m.asTxn m.tile))
/-- An entry whose hold has run out: its leader leaves as if it had none (R141). -/
def dropHold (clk : Nat) (e : QEntry) : QEntry :=
  match e.acc with
  | some a => (match a.hold with
    | some h => if a.openedAt + h ≤ clk then { e with acc := some { a with hold := none } } else e
    | none => e)
  | none => e
/-- ACC_HOLD_EXPIRED (R141): for the pool end-point (egress 256) `vc` is the tile of its line queue. The entry goes on as QUEUE_HEAD and LINE_QUEUE_HEAD treat it. -/
def execAccHoldExpired (egress vc : Nat) (s : State) : Answer :=
  if egress == 256 then
    match s.lineQ vc with
    | [] => .next s
    | e :: rest => .next (s.setLineQ vc (dropHold s.clk e :: rest))
  else
    match s.queue egress vc with
    | [] => .next s
    | e :: rest => (s.setQueue egress vc (dropHold s.clk e :: rest)).headOf egress vc
/-- ACCRETION_TIMEOUT (R144): no response within A_REQ + A_RSP. -/
def execAccretionTimeout (tag : Nat) (s : State) : Answer :=
  match s.ownReq tag with
  | none => .next s
  | some o =>
    match o.who with
    | .accretion a =>
      .next (if o.issuedAt + s.ageLimit 0 + s.ageLimit 2 ≤ s.clk then failContribs 7 .atomics a.contribs (s.endReq (s.poolNode * 1048576 + tag)) else s)
    | _ => .next s
/-- Closes an entry (R146). -/
def closeEntry (e : QEntry) : QEntry := match e.acc with | some a => { e with acc := some { a with closed := true } } | none => e
/-- The effect of a write of `XACT.ACC_ENABLE` (R146). -/
def accEnableWrite (on : Bool) (s : State) : Except Nat State :=
  let s1 := { s with xact := { s.xact with accEnable := on } }
  .ok (if on then s1 else { s1 with sw := { s1.sw with queues := tmap s1.sw.queues (fun _ q => q.map closeEntry), lines := tmap s1.sw.lines (fun _ q => q.map closeEntry) } })
/-- ACC_ENABLE. -/
def execAccEnable (v : VCtx) (on : Bool) (s : State) : Answer := s.vaneWrite v (0x1100, 1) (leBytes 1 (boolNat on)) none (accEnableWrite on)

-- Responses at the package's own requesters
/-- Splits the response of a combined request (R143): the contributors' responses leave from the reservations at (265, RSP). -/
def splitOne (t : Txn) (st : Nat) (s : State) (x : Contrib × Bytes) : State :=
  let rsp := { x.1.t.reply st s.poolNode x.2 with acc := true, hnode := t.hnode }
  let s1 := s.freeCells x.1.adm x.1.vc x.1.cells
  s1.sendRsp { s1.entry rsp 265 2 with cells := x.1.reserved }
def State.splitAcc (s : State) (a : AccEntry) (o : Txn) (r : Txn) : State :=
  if r.status == 7 || s.retired r then failContribs 7 .atomics a.contribs s
  else
    let datas := if o.ty == .atom && r.status == 0 then
        (splitResults o.size (leAt r.data 0 (atopWidth o.size)) (a.contribs.map (fun c => (atomOperands c.t).1))).map (atomData o.size)
      else a.contribs.map (fun _ => r.data)
    (a.contribs.zip datas).foldl (splitOne r r.status) s
/-- The two halves of a descriptor (R69). -/
def FetchBuf.put (f : FetchBuf) (part : Nat) (b : Bytes) : FetchBuf := if part == 0 then { f with lo := some b } else { f with hi := some b }
/-- A half of a descriptor has been read: the second half is read next; with both it is worked on, its snapshot is taken, and the next is fetched
(R69, R72, R159). -/
def State.fetchRsp (s : State) (n idx part : Nat) (b : Bytes) : State :=
  let s1 := s.modRing n (fun x => { x with fetched := x.fetched.map (fun f => if f.idx == idx then f.put part b else f) })
  match (s1.ring n).fetched.find? (fun f => f.idx == idx) with
  | some f => (match f.lo, f.hi with
    | some l, some h => (((s1.fetchedDesc n idx (slice l 0 64 ++ slice h 0 64)).snapshot n idx).refill (n % 256)).fetchNext n
    | some _, none =>
      s1.issue (readTxn (s1.ring n).cfg.ctx ((s1.ring n).cfg.descBase + 128 * (idx % (s1.ring n).depth) + 64) 64 (n % 8) true) (.descFetch n idx 1) s1.reqTimeout
    | _, _ => s1)
  | none => s1
/-- A request of a ring has ended AGED or TIMEOUT: its flow is one that RESTART resynchronises (R78). -/
def State.noteBroken (s : State) (n : Nat) (o : OutReq) (r : Txn) : State :=
  if r.status == 7 || r.status == 8 then s.breakFlow n o.t { r with tnode := o.t.dest.getD 0xFFF } else s
/-- The write of a snapshot has ended; a failure fails the descriptor, and no later signal of the ring is released (R77, R167). -/
def State.snapEnd (s : State) (n idx : Nat) (st : Status) : State :=
  s.modWork n idx (fun w =>
    if st == .ok then { w with snapOut := false }
    else if w.status.isSome then { w with snapOut := false, snapBad := some st }
    else Work.failEnd { w with snapOut := false, snapBad := some st, fails := w.fails ++ [st] })
/-- Acts on the response of an outstanding request, its status in R11's codes with 8 for the requester's own TIMEOUT. Requests whose ends have commands of
their own keep it for them. -/
def State.act (s : State) (key : Nat) (o : OutReq) (r : Txn) : State :=
  match o.who with
  | .descFetch n idx part =>
    if r.status == 10 && o.tries < s.mov.retryMax then s.backoff key o
    else if r.status != 0 then (((s.endReq key).noteBroken n o r).ringFault n r.status).afterEnd n
    else ((s.endReq key).fetchRsp n idx part r.data).afterEnd n
  | .snapWrite n idx =>
    if r.status == 10 && o.tries < s.mov.retryMax then s.backoff key o
    else (((s.endReq key).noteBroken n o r).snapEnd n idx ((statusOf r.status).getD .timeout)).afterEnd n
  | .complWrite n idx =>
    if r.status == 10 && o.tries < s.mov.retryMax then s.backoff key o
    else if r.status != 0 then (((s.endReq key).noteBroken n o r).ringFault n r.status).afterEnd n
    else match s.work n idx with
      | some w => (((s.endReq key).recorded n w).modRing n Ring.prune).fetchNext n
      | none => (s.endReq key).afterEnd n
  | .resync => s.endReq key
  | .driftScan page => (s.endReq key).driftScanRsp page r
  | .driftRead mv pos => s.driftCopyRsp key mv pos o r true
  | .driftWrite mv pos => s.driftCopyRsp key mv pos o r false
  | .driftEntry mv =>
    if r.status == 0 then (s.endReq key).driftEntryRsp mv
    else if o.tries == 0 then (s.breakFor o r).reissue key o
    else if mv < 2 ^ 32 then (s.endReq key).abortMove mv else s.endReq key
  | .accretion a => (s.endReq key).splitAcc a o.t r
  | .host _ _ _ => s.hostRsp key o r
  | .frame _ _ => s.hostRsp key o r
  | .bundleRead pos => s.bundleRsp key o r (some pos)
  | .bundleWrite _ => s.bundleRsp key o r none
  | .backInv line h => s.birspAtHome key line h r.status
  | .farun e => if r.status == 8 then s.farunEnd key e o .timeout ((s.farunDest (key / 1048576) o.t).getD 0xFFF) else s.farunRsp key e o r
  | .farunSync e => s.farunSyncEnd key e o (if r.status == 8 then .timeout else (statusOf r.status).getD .aged)
  | _ => { s with reqs := tset s.reqs key { o with resp := some r } }
/-- The end of a request as its requester sees it: a flow that it broke gets a RESYNC before its next request (R134), then what the requester does. An
end-point's own TIMEOUT of a CVA request whose home it does not know breaks the flow for every destination, which 0xFFF stands for (log 48). -/
def State.consume (s : State) (key : Nat) (o : OutReq) (r : Txn) : State :=
  (if s.isFarun (key / 1048576) then s else s.breakKey o.t r).act key o r
/-- A response that no outstanding request awaits is discarded and counted (R14, R124). -/
def State.strayed (s : State) (r : Txn) : State :=
  if s.isFarun r.dnode then s.modFarun r.dnode (fun f => { f with stray := f.stray + 1 }) else { s with xact := { s.xact with strayRsp := s.xact.strayRsp + 1 } }
/-- Whether nothing of the package waits for room or for a RESYNC. -/
def State.settled (s : State) : Bool :=
  s.xact.held.isEmpty && s.xact.toSync.isEmpty && s.xact.waits.isEmpty && s.pool.backInvs.all (fun b => b.sent) && s.mov.rings.all (fun r => !r.2.resuming)
/-- What waits in the package goes on as far as it may: RESYNCs, requests, messages and packets (R134, R178), BISNPs, and rings that resume (R78). -/
def State.goOn (s : State) : State :=
  if s.settled then s
  else ((s.mov.rings.filter (fun r => r.2.resuming)).map Prod.fst).foldl State.fetchNext s.pump.pumpBisnps
/-- RESPONSE_AT_REQUESTER (R14, R15, R124): the oldest response that has reached a requester; what waits at the package's requesters then goes on. -/
def execResponseAtRequester (s : State) : Answer :=
  match s.xact.inbox with
  | [] => .next s
  | r :: rest =>
    let s1 := { s with xact := { s.xact with inbox := rest } }
    let key := r.dnode * 1048576 + r.tag
    match tfind s.reqs key with
    | none => .next (s1.strayed r)
    | some o => .next (if s.inFlight (key, o) then ((s1.cleanStatus r).2.consume key o (s1.cleanStatus r).1).goOn else s1.strayed r)
/-- REQUEST_TIMEOUT (R14, R80, R126): a request without a response when its requester's timeout has passed. -/
def execRequestTimeout (node tag : Nat) (s : State) : Answer :=
  match tfind s.reqs (node * 1048576 + tag) with
  | none => .next s
  | some o =>
    if !s.inFlight (node * 1048576 + tag, o) || s.clk < o.issuedAt + o.timeout then .next s
    else match o.who with
      | .accretion _ => .next s
      | .backInv _ _ => .next s
      | _ => .next (s.consume (node * 1048576 + tag) o { o.t.fail 8 node with tnode := o.t.dest.getD 0xFFF }).goOn

end Sys2Proof.Machine
end

