-- ==== Sys2Proof/Machine/Arith.lean ====
section
/-! DEFINITION. Element formats (R205, R206), exact rows (R207 to R209), rounding (R210 to R212), the order of values (R236) and operator programs
(R213 to R217). Values are exact: a magnitude in units of 2^-149, with a power-of-two scale where a result is not yet rounded. -/

namespace Sys2Proof.Machine
open Sys2Proof

-- Formats (Table 8-1)
def fmtMx (f : Nat) : Bool := decide (5 ≤ f) && decide (f ≤ 10)
def fmtBits (f : Nat) : Nat := match f with | 0 => 32 | 1 => 16 | 2 => 16 | 3 => 8 | 4 => 8 | 5 => 8 | 6 => 8 | 7 => 6 | 8 => 6 | 9 => 4 | 10 => 8 | 11 => 32 | _ => 0
/-- Fraction bits and exponent bias of a floating-point format. -/
def fmtMan (f : Nat) : Nat := match f with | 0 => 23 | 1 => 7 | 2 => 10 | 3 => 3 | 4 => 2 | 5 => 3 | 6 => 2 | 7 => 2 | 8 => 3 | 9 => 1 | _ => 0
def fmtBias (f : Nat) : Nat := match f with | 0 => 127 | 1 => 127 | 2 => 15 | 3 => 7 | 4 => 15 | 5 => 7 | 6 => 15 | 7 => 3 | 8 => 1 | 9 => 1 | _ => 0
/-- Exponent of the smallest step of a format, in units of 2^-149; that of MXINT8 is 2^-6. -/
def fmtStep (f : Nat) : Nat := if f == 10 then 143 else 150 - fmtBias f - fmtMan f
/-- Largest finite magnitude, in units of 2^-149. -/
def fmtMax (f : Nat) : Nat :=
  match f with
  | 0 => (2 ^ 24 - 1) * 2 ^ 253 | 1 => 255 * 2 ^ 269 | 2 => 65504 * 2 ^ 149 | 3 => 448 * 2 ^ 149 | 4 => 57344 * 2 ^ 149 | 5 => 448 * 2 ^ 149
  | 6 => 57344 * 2 ^ 149 | 7 => 28 * 2 ^ 149 | 8 => 15 * 2 ^ 148 | 9 => 6 * 2 ^ 149 | 10 => 127 * 2 ^ 143 | _ => 0
/-- Formats that encode infinity. -/
def fmtInf (f : Nat) : Bool := f == 0 || f == 1 || f == 2 || f == 4
/-- e_max of R212. -/
def fmtEmax (f : Nat) : Nat := match f with | 5 => 8 | 6 => 15 | 7 => 4 | 8 => 2 | 9 => 2 | _ => 0
def fmtNan (f : Nat) : Nat := match f with | 0 => 0x7FC00000 | 1 => 0x7FC0 | 2 => 0x7E00 | 3 => 0x7F | 4 => 0x7E | _ => 0

/-- The exact value of an element without a scale; an MXFP8 E5M2 element follows E5M2's infinities and NaNs (log 25). -/
def elemVal (f b : Nat) : XVal :=
  if f == 10 then
    let i := toSigned 8 b
    .fin (decide (i < 0)) (i.natAbs * 2 ^ 143)
  else
    let mb := fmtMan f
    let eb := fmtBits f - 1 - mb
    let s := b.testBit (fmtBits f - 1)
    let e := field b mb eb
    let m := field b 0 mb
    if (f == 3 || f == 5) && e == 15 && m == 7 then .nan
    else if (fmtInf f || f == 6) && e == 2 ^ eb - 1 then (if m == 0 then .inf s else .nan)
    else .fin s ((if e == 0 then m else (2 ^ mb + m) * 2 ^ (e - 1)) * 2 ^ fmtStep f)
/-- A value times 2^k. -/
structure Scaled where
  v : XVal
  k : Int
  deriving DecidableEq, Repr
/-- Numerator and denominator of the magnitude of a scaled value, in units of 2^-149. -/
def Scaled.num (x : Scaled) : Nat := match x.v with | .fin _ m => m * 2 ^ x.k.toNat | _ => 0
def Scaled.den (x : Scaled) : Nat := 2 ^ (-x.k).toNat
/-- An element under its block's scale X (R206): exact; X = 0xFF gives NaN; 2^140 and more is an infinity. -/
def mxVal (f b x : Nat) : XVal :=
  if x == 255 then .nan
  else match elemVal f b with
    | .fin s m => let v := m * 2 ^ x / 2 ^ 127; if 2 ^ 289 ≤ v then .inf s else .fin s v
    | v => v
/-- Element i of a packed payload (R220). -/
def packed (f : Nat) (d : Nat) (i : Nat) : Nat := field d (fmtBits f * i) (fmtBits f)

-- Rounding (R210, R211)
def rndOf (r : Nat) : Rnd := match r with | 0 => .rne | 1 => .rz | 2 => .rup | _ => .rdn
/-- Table 8-3 with R211's replacements, as a value: an infinity, the largest finite value, or NaN. -/
def overflowVal (f : Nat) (neg : Bool) (rnd : Rnd) (sat inf : Bool) : XVal :=
  let big : XVal := .fin neg (fmtMax f)
  let toInf := inf || (match rnd with | .rne => true | .rz => false | .rup => !neg | .rdn => neg)
  if !toInf then big
  else if fmtInf f then .inf neg
  else if f == 3 && !sat then .nan else big
/-- A scaled value rounded once into a format: the value, and whether R211 gave it as overflow or it is NaN. -/
def narrow (f : Nat) (rnd : Rnd) (sat : Bool) (x : Scaled) : XVal × Bool :=
  match x.v with
  | .nan => (.nan, true)
  | .inf s => (overflowVal f s rnd sat true, true)
  | .fin s _ =>
    let r := roundMag rnd (if f == 10 then 64 else fmtMan f + 1) (fmtStep f) s x.num x.den
    if fmtMax f < r then (overflowVal f s rnd sat false, true) else (.fin s r, false)
/-- The bits of a value that the format holds. -/
def fmtEnc (f : Nat) (v : XVal) : Nat :=
  match v with
  | .nan => fmtNan f
  | .inf s => boolNat s * 2 ^ (fmtBits f - 1) + (2 ^ (fmtBits f - 1 - fmtMan f) - 1) * 2 ^ fmtMan f
  | .fin s m =>
    if f == 10 then ofSigned 8 (signedMag s (m / 2 ^ 143))
    else
      let k := max (fmtStep f) (Nat.log2 m - fmtMan f)
      boolNat s * 2 ^ (fmtBits f - 1) + (k - fmtStep f) * 2 ^ fmtMan f + m / 2 ^ k
/-- Whether a row's result is no number: its block is then NaN (R212). -/
def notFinite (x : Scaled) : Bool := match x.v with | .fin _ _ => false | _ => true
/-- The block scale of R212. -/
def blockScale (f : Nat) (l : List Scaled) : Nat :=
  let e := fun (x : Scaled) => (Nat.log2 x.num : Int) - (Nat.log2 x.den : Int) - 149
  let ms := l.filter (fun x => x.num != 0)
  match ms with
  | [] => 0
  | x :: r => ((r.foldl (fun a y => max a (e y)) (e x)) - fmtEmax f + 127).toNat.min 254
/-- A block of 32 values rounded as R212 states: scale and element codes, with the count of elements that are no number. -/
def roundBlock (f : Nat) (rnd : Rnd) (l : List Scaled) : Nat × List Nat × Nat :=
  if l.any notFinite then (255, l.map (fun _ => 0), (l.filter notFinite).length)
  else
    let x := blockScale f l
    (x, l.map (fun v => fmtEnc f (narrow f rnd true { v with k := v.k + 127 - x }).1), 0)
/-- Packs element codes of w bits, the first lowest. -/
def packElems (w : Nat) : List Nat → Nat
  | [] => 0
  | x :: r => x % 2 ^ w + 2 ^ w * packElems w r

-- Order (R236)
def xRank : XVal → Nat
  | .nan => 0 | .inf true => 1 | .fin _ _ => 2 | .inf false => 3
/-- Whether `a` is above `b`. -/
def xAbove (a b : XVal) : Bool :=
  match a, b with
  | .fin s x, .fin t y => decide (signedMag t y < signedMag s x) || (x == 0 && y == 0 && !s && t)
  | _, _ => decide (xRank b < xRank a)
/-- Greatest and least of two; NaN if either is NaN (R236's rule for MAX and MIN). -/
def xMax (a b : XVal) : XVal := if a == .nan || b == .nan then .nan else if xAbove b a then b else a
def xMin (a b : XVal) : XVal := if a == .nan || b == .nan then .nan else if xAbove a b then b else a

/-- Greater and lesser of two in the order of R236, NaN below all: the instructions MAX and MIN (Table 8-6), and M of R238. -/
def xGreater (a b : XVal) : XVal := if xAbove b a then b else a
def xLesser (a b : XVal) : XVal := if xAbove a b then b else a

-- Rows (R209)
def isNegZero (v : XVal) : Bool := v == .fin true 0
def isZero (v : XVal) : Bool := match v with | .fin _ m => m == 0 | _ => false
/-- Adds a value exactly; `kind` is 2 for MAX, 3 for MIN. ARRIVED is counted apart. -/
def Row.add (r : Row) (kind : Nat) (v : XVal) : Row :=
  { r with
    val := match v with | .fin s m => r.val + signedMag s m | _ => r.val,
    nan := r.nan || v == .nan, pinf := r.pinf || v == .inf false, ninf := r.ninf || v == .inf true,
    onlynz := r.onlynz && isNegZero v, nonz := r.nonz || !isZero v,
    best := if kind == 2 then some (match r.best with | some b => xMax b v | none => v)
            else if kind == 3 then some (match r.best with | some b => xMin b v | none => v) else r.best }
/-- A contribution has entered the row. -/
def Row.arrive (r : Row) (psn : Bool) : Row := { r with arrived := r.arrived + 1, psn := r.psn || psn }
/-- The value of a complete row before rounding, with the signs of zero of R210; a MAX or MIN row gives the value chosen, with its own sign where that is zero
(DESIGN CHOICE, log 48: R210 derives a zero's sign from a sum's flags). -/
def Row.value (r : Row) (kind rnd : Nat) : XVal :=
  if kind == 2 || kind == 3 then (if r.nan then .nan else r.best.getD .nan)
  else if r.nan || (r.pinf && r.ninf) then .nan
  else if r.pinf then .inf false
  else if r.ninf then .inf true
  else if r.val = 0 then .fin ((r.onlynz && decide (0 < r.arrived)) || (r.nonz && rnd == 3)) 0
  else .fin (decide (r.val < 0)) r.val.natAbs
/-- An exact partial of R221. -/
structure Partial where
  neg : Bool
  mag : Nat
  nan : Bool
  pinf : Bool
  ninf : Bool
  onlynz : Bool
  psn : Bool
  nonz : Bool
  deriving DecidableEq, Repr
def flagsOf (b : Nat) : Partial :=
  { neg := bitOf b 0, mag := 0, nan := bitOf b 1, pinf := bitOf b 2, ninf := bitOf b 3, onlynz := bitOf b 4, psn := bitOf b 5, nonz := bitOf b 6 }
def Partial.flags (p : Partial) : Nat :=
  pack [(1, boolNat p.neg), (1, boolNat p.nan), (1, boolNat p.pinf), (1, boolNat p.ninf), (1, boolNat p.onlynz), (1, boolNat p.psn), (1, boolNat p.nonz)]
/-- Compact (Table 8-8) and wide forms. -/
def partialOf (wide : Bool) (v : Nat) : Partial :=
  if wide then { flagsOf (field v 320 7) with mag := field v 0 320 } else { flagsOf (field v 57 7) with mag := field v 0 48 * 2 ^ field v 48 9 }
/-- Position of the lowest set bit among bits 0 to n - 1. -/
def lowBit (n m : Nat) : Nat := ((List.range n).find? (fun i => m.testBit i)).getD 0
def Partial.isWide (p : Partial) : Bool := decide (2 ^ 48 ≤ p.mag / 2 ^ lowBit 320 p.mag)
def Partial.bytes (p : Partial) : Bytes :=
  if p.isWide then leBytes 48 (p.mag % 2 ^ 320 + 2 ^ 320 * p.flags)
  else
    let e := lowBit 320 p.mag
    leBytes 8 (p.mag / 2 ^ e + 2 ^ 48 * e + 2 ^ 57 * p.flags)
def Partial.value (p : Partial) : XVal := .fin p.neg p.mag
/-- Adds a partial of a lower stage (R209). -/
def Row.addPartial (r : Row) (kind : Nat) (p : Partial) : Row :=
  let b := if p.nan then XVal.nan else if p.pinf then .inf false else if p.ninf then .inf true else p.value
  { r with
    val := r.val + signedMag p.neg p.mag, nan := r.nan || p.nan, pinf := r.pinf || p.pinf, ninf := r.ninf || p.ninf, psn := r.psn || p.psn,
    nonz := r.nonz || p.nonz, onlynz := r.onlynz && p.onlynz, arrived := r.arrived + 1,
    best := if kind == 2 then some (match r.best with | some x => xMax x b | none => b)
            else if kind == 3 then some (match r.best with | some x => xMin x b | none => b) else r.best }
/-- The partial that a lower stage sends of a row; MAX and MIN send their value (R237). -/
def Row.toPartial (r : Row) (kind : Nat) : Partial :=
  if kind == 2 || kind == 3 then
    match r.best.getD .nan with
    | .fin s m => { neg := s, mag := m, nan := r.nan, pinf := false, ninf := false, onlynz := r.onlynz, psn := r.psn, nonz := r.nonz }
    | .inf s => { neg := false, mag := 0, nan := r.nan, pinf := !s, ninf := s, onlynz := false, psn := r.psn, nonz := true }
    | .nan => { neg := false, mag := 0, nan := true, pinf := false, ninf := false, onlynz := false, psn := r.psn, nonz := true }
  else { neg := decide (r.val < 0), mag := r.val.natAbs, nan := r.nan, pinf := r.pinf, ninf := r.ninf, onlynz := r.onlynz, psn := r.psn, nonz := r.nonz }

-- Programs (R215 to R217)
/-- Exact operations on finite values, as numerator, denominator and sign. -/
def xMulAdd (a b c : XVal) : Scaled :=
  match a, b with
  | .nan, _ => { v := .nan, k := 0 }
  | _, .nan => { v := .nan, k := 0 }
  | .inf s, .inf t => { v := xAdd (.inf (s != t)) c, k := 0 }
  | .inf s, .fin t m => { v := if m == 0 then .nan else xAdd (.inf (s != t)) c, k := 0 }
  | .fin s m, .inf t => { v := if m == 0 then .nan else xAdd (.inf (s != t)) c, k := 0 }
  | .fin s x, .fin t y =>
    match c with
    | .fin u z => { v := xAdd (.fin (s != t) (x * y)) (.fin u (z * 2 ^ 149)), k := -149 }
    | v => { v := v, k := 0 }
/-- The sign of a value; NaN has none. -/
def xSign : XVal → Bool
  | .nan => false | .inf s => s | .fin s _ => s
/-- A product, an exact zero with the sign of its factors. -/
def xMul (a b : XVal) : Scaled := xMulAdd a b (.fin (xSign a != xSign b) 0)
def xNeg : XVal → XVal
  | .nan => .nan | .inf s => .inf (!s) | .fin s m => .fin (!s) m
/-- The sign of an exact zero sum under rounding towards minus infinity is minus unless both are plus. -/
def rdnZero (rnd : Rnd) (a b : XVal) (x : Scaled) : Scaled :=
  match x.v with
  | .fin _ 0 => if rnd == .rdn && !(a == .fin false 0 && b == .fin false 0) then { x with v := .fin true 0 } else x
  | _ => x
/-- A quotient as a rounded magnitude. -/
def xDiv (f : Nat) (rnd : Rnd) (sat : Bool) (a b : XVal) : XVal :=
  match a, b with
  | .nan, _ => .nan
  | _, .nan => .nan
  | .inf _, .inf _ => .nan
  | .inf s, .fin t _ => overflowVal f (s != t) rnd sat true
  | .fin s _, .inf t => .fin (s != t) 0
  | .fin s x, .fin t y =>
    if y == 0 then (if x == 0 then .nan else overflowVal f (s != t) rnd sat true)
    else
      let r := roundMag rnd (if f == 10 then 64 else fmtMan f + 1) (fmtStep f) (s != t) (x * 2 ^ 149) y
      if fmtMax f < r then overflowVal f (s != t) rnd sat false else .fin (s != t) r
/-- 2^(fr / 2^n) in units of 2^-320, rounded down: the factors 2^(2^-i) of the set bits of `fr`, `root` being 2^(2^-(i-1)). -/
def exp2Fix (fr : Nat) : Nat → Nat → Nat → Nat
  | 0, _, acc => acc
  | n + 1, root, acc =>
    let r := Nat.sqrt (root * 2 ^ 320)
    exp2Fix fr n r (if fr.testBit n then acc * r / 2 ^ 320 else acc)
/-- The first `n` binary digits of log2 of `y`, 1 ≤ y < 2 in units of 2^-320. -/
def log2Fix : Nat → Nat → Nat → Nat
  | 0, _, acc => acc
  | n + 1, y, acc =>
    let z := y * y / 2 ^ 320
    if 2 ^ 321 ≤ z then log2Fix n (z / 2) (2 * acc + 1) else log2Fix n z (2 * acc)
/-- A value of a format within 1 ulp of a magnitude num/den (R217), `pick` naming which; of an inexact magnitude num/den lies in the same step. -/
def nearUlp (f : Nat) (rnd : Rnd) (sat neg exact : Bool) (pick : Fin 3) (num den : Nat) : XVal :=
  let at_ := fun (m : Rnd) (a b : Nat) => roundMag m (if f == 10 then 64 else fmtMan f + 1) (fmtStep f) false a b
  let r := if pick == 1 then at_ .rup (num * 2 ^ 700 + boolNat exact) (den * 2 ^ 700)
           else if pick == 2 && exact then at_ .rz (num * 2 ^ 700 - 1) (den * 2 ^ 700) else at_ .rz num den
  if fmtMax f < r then overflowVal f neg rnd sat false else .fin neg r
def clampInt (lo hi x : Int) : Int := if x < lo then lo else if hi < x then hi else x
/-- EXP2: 2^v within 1 ulp of the format (R216, R217); 2^+∞ is +∞ and 2^−∞ is 0. -/
def xExp2 (f : Nat) (r : Nat) (sat : Bool) (v : XVal) : XVal :=
  match v with
  | .nan => .nan
  | .inf s => if s then .fin false 0 else overflowVal f false (rndOf r) sat true
  | .fin s m =>
    let x := signedMag s m
    let e := (clampInt (-400) 300 (x / 2 ^ 149) + 400).toNat
    let fr := (x % 2 ^ 149).toNat
    nearUlp f (rndOf r) sat false (fr == 0) (Config.exp2Ulp f r sat (BitVec.ofNat 32 (f32Bits v)))
      ((2 * exp2Fix fr 149 (2 ^ 321) (2 ^ 320) + boolNat (fr != 0)) * 2 ^ (149 + e)) (2 ^ 721)
/-- LOG2: log2 v within 1 ulp of the format (R216, R217); of +∞ it is +∞, and of a zero or a negative operand it is open (DESIGN CHOICE, log 48). -/
def xLog2 (f : Nat) (r : Nat) (sat : Bool) (v : XVal) : XVal :=
  let b := BitVec.ofNat 32 (f32Bits v)
  match v with
  | .nan => .nan
  | .inf false => overflowVal f false (rndOf r) sat true
  | .inf true => f32Val (Config.log2Open f r sat b).toNat
  | .fin s m =>
    if s || m == 0 then f32Val (Config.log2Open f r sat b).toNat
    else
      let e := Nat.log2 m
      let exact := m == 2 ^ e
      let x : Int := 2 * (((e : Int) - 149) * 2 ^ 96 + log2Fix 96 (m * 2 ^ 320 / 2 ^ e) 0) + boolNat (!exact)
      nearUlp f (rndOf r) sat (decide (x < 0)) exact (Config.log2Ulp f r sat b) (x.natAbs * 2 ^ 149) (2 ^ 97)
/-- Costs of Table 8-4: multiply-add and add. -/
def costM (f : Nat) : Nat := match f with | 9 => 1 | 3 => 2 | 4 => 2 | 5 => 2 | 6 => 2 | 7 => 2 | 8 => 2 | 10 => 4 | 1 => 4 | 2 => 9 | 0 => 36 | _ => 0
def costA (f : Nat) : Nat := match f with | 1 => 2 | 2 => 3 | 0 => 6 | _ => 1
def opCost (op f : Nat) : Nat :=
  match op with
  | 0x06 => costA f | 0x07 => costA f | 0x08 => costM f | 0x09 => costM f | 0x0A => costA f | 0x0B => costA f | 0x0C => costA f | 0x0D => 1
  | 0x0E => 5 * costM f | 0x0F => 5 * costM f | 0x10 => 4 * costM f | 0x13 => 8 * costA f | _ => 0
/-- What a program of one element works on. -/
structure PEnv where
  elem : Nat
  tile : Nat
  isEntry : Bool
  arriving : XVal
  words : List Nat         -- side words of the element's contributor
  psn : Bool := false      -- the contribution derives from poisoned data
  deriving DecidableEq, Repr
structure PRun where
  regs : List Nat := List.replicate 16 0
  x : Inst
  acced : Bool := false
  emitted : Option XVal := none
  deriving DecidableEq, Repr
/-- Inserts a candidate into a list of the k greatest (R236): equal values by the smaller index, NaN last. -/
def topInsert (k : Nat) (l : List (Nat × Nat)) (v i : Nat) : List (Nat × Nat) :=
  let before := fun (y : Nat × Nat) => xAbove (f32Val y.1) (f32Val v) || (!xAbove (f32Val v) (f32Val y.1) && decide (toSigned 32 y.2 ≤ toSigned 32 i))
  (l.takeWhile before ++ (v, i) :: l.dropWhile before).take k
/-- A row of an instance as it is after its reset (Table 8-2). -/
def Inst.blank (x : Inst) : Row := { inst := x.entry.inst, ctx := x.entry.ctx, kgen := x.kgen }
def Inst.row (x : Inst) (e : Nat) : Row := tget x.blank x.rows e
def Inst.auxRow (x : Inst) (g a : Nat) : Row := tget x.blank x.aux (8 * g + a)
/-- One instruction word (Table 8-6). LDE of an arriving MX element of 2^128 or more puts the infinity of its sign into the register, by RNE (DESIGN CHOICE,
log 48: registers hold FP32 and no rule says what of a value beyond it). -/
def opWord (consts : Tab Nat) (env : PEnv) (p : PRun) (w : Nat) : PRun :=
  let f := field w 6 4
  let rnd := rndOf (field w 26 2)
  let sat := bitOf w 28
  let imm := field w 32 16
  let raw := fun (i : Nat) => p.regs.getD i 0
  let cv := fun (i : Nat) => (narrow f rnd sat { v := f32Val (raw i), k := 0 }).1
  let sa := field w 14 4
  let sb := field w 18 4
  let sc := field w 22 4
  let put := fun (b : Nat) => { p with regs := p.regs.set (field w 10 4) (b % 2 ^ 32) }
  let res := fun (x : Scaled) => put (f32Bits (narrow f rnd sat x).1)
  let g := env.elem / 64
  let kind := p.x.entry.opkind
  match field w 0 6 with
  | 0x01 => put (f32Bits (if env.isEntry then env.arriving else if imm == 0 then (p.x.row env.elem).value kind 0 else (p.x.auxRow g (imm - 1)).value 1 0))
  | 0x02 => put (env.words.getD imm 0)
  | 0x03 => put (tget 0 consts imm)
  | 0x04 => put (tget 0 p.x.words (65536 * env.tile + imm))
  | 0x05 => { p with x := { p.x with words := tset p.x.words (65536 * env.tile + imm) (raw sa) } }
  | 0x06 => res (rdnZero rnd (cv sa) (cv sb) { v := xAdd (cv sa) (cv sb), k := 0 })
  | 0x07 => res (rdnZero rnd (cv sa) (xNeg (cv sb)) { v := xAdd (cv sa) (xNeg (cv sb)), k := 0 })
  | 0x08 => res (xMul (cv sa) (cv sb))
  | 0x09 =>
    res (rdnZero rnd (xMul (cv sa) (cv sb)).v (cv sc) (xMulAdd (cv sa) (cv sb) (cv sc)))
  | 0x0A => put (f32Bits (xGreater (cv sa) (cv sb)))
  | 0x0B => put (f32Bits (xLesser (cv sa) (cv sb)))
  | 0x0C => put (f32Bits (cv sa))
  | 0x0D => res { v := cv sa, k := clampInt (-2000) 2000 (toSigned 32 (raw sb)) }
  | 0x0E => put (f32Bits (xExp2 f (field w 26 2) sat (cv sa)))
  | 0x0F => put (f32Bits (xLog2 f (field w 26 2) sat (cv sa)))
  | 0x10 => put (f32Bits (xDiv f rnd sat (cv sa) (cv sb)))
  | 0x11 => { p with acced := true, x := { p.x with rows := tset p.x.rows env.elem ((p.x.row env.elem).add kind (f32Val (raw sa))) } }
  | 0x12 => { p with x := { p.x with aux := tset p.x.aux (8 * g + imm) (let r := (p.x.auxRow g imm).add 1 (f32Val (raw sa)); { r with psn := r.psn || env.psn }) } }
  | 0x13 => { p with x := { p.x with cands := tset p.x.cands imm (topInsert p.x.entry.topkK (tget [] p.x.cands imm) (f32Bits (cv sa)) (raw sb)) } }
  | 0x14 => { p with emitted := some (f32Val (raw sa)) }
  | _ => p
/-- The words of a program from word `at_` to its END (R217: at most 64). -/
def progWords (prog : Tab Nat) : Nat → Nat → List Nat
  | 0, _ => []
  | n + 1, at_ => let w := tget 0 prog at_; if field w 0 6 == 0x3F then [] else w :: progWords prog n (at_ + 1)
def runProg (prog consts : Tab Nat) (at_ : Nat) (env : PEnv) (x : Inst) : PRun :=
  (progWords prog 64 at_).foldl (opWord consts env) { x := x }
/-- Whether a program holds a word of an operation. -/
def usesOp (prog : Tab Nat) (at_ op : Nat) : Bool := (progWords prog 64 at_).any (fun w => field w 0 6 == op)
def progCost (prog : Tab Nat) (at_ : Nat) : Nat := ((progWords prog 64 at_).map (fun w => opCost (field w 0 6) (field w 6 4))).sum

end Sys2Proof.Machine
end

