-- ==== Sys2Proof/Machine/Ops.lean ====
section
/-! DEFINITION. Operator instances (R202 to R243): collective packets, rows, rounding and results, launch, runs, deadlines and failures. -/

namespace Sys2Proof
open Machine

def OpsEntry.tile (e : OpsEntry) (g : Nat) : Nat := (e.tileFirst + g % max 1 e.tileCount) % 256
/-- Stripe groups of an instance (R225); the elements of a TOPK are its lists. -/
def OpsEntry.groups (e : OpsEntry) : Nat := (e.nelem + 63) / 64
/-- Contributions that complete a row: of TOPK, k candidates of each contributor (log 23). -/
def OpsEntry.full (e : OpsEntry) : Nat := if e.opkind == 6 then e.ncontrib * e.topkK else e.ncontrib
def OpsEntry.elems (e : OpsEntry) (g : Nat) : List Nat :=
  ((List.range 64).map (64 * g + ·)).filter (fun k => decide (k < e.nelem))
/-- Query rows of an LSE_MERGE, and the stripe groups of one. -/
def OpsEntry.queries (e : OpsEntry) : Nat := e.nelem / (64 * max 1 e.qgroups)
def OpsEntry.groupsOf (e : OpsEntry) (q : Nat) : List Nat := (List.range e.qgroups).map (q * e.qgroups + ·)
/-- Bytes that one list of a TOPK takes in the result, and `n` elements of any other operator. -/
def OpsEntry.listSize (en : OpsEntry) : Nat := en.topkK * ((fmtBits en.outFmt + 7) / 8 + 4)
def OpsEntry.elemsSize (en : OpsEntry) (n : Nat) : Nat :=
  if en.opkind == 6 then n * en.listSize else if fmtMx en.outFmt then n / 32 * (1 + 4 * fmtBits en.outFmt) else n * fmtBits en.outFmt / 8
/-- Bytes that a whole stripe group takes in the result. -/
def OpsEntry.groupSize (en : OpsEntry) : Nat := en.elemsSize 64
/-- Where the bytes of a stripe group lie in the result, from the offset to one past the last: R228's layout, the query rows of LSE_MERGE each with M and L. -/
def OpsEntry.extent (en : OpsEntry) (g : Nat) : Nat × Nat :=
  let q := max 1 en.qgroups
  let o := en.resOff + g * en.groupSize + (if en.opkind == 5 then 8 * (g / q) else 0)
  (o, o + en.elemsSize (en.elems g).length + (if en.opkind == 5 && g % q == q - 1 then 8 else 0))

end Sys2Proof

namespace Sys2Proof.Machine
open Sys2Proof

def State.modOps (s : State) (f : Ops → Ops) : State := { s with ops := f s.ops }
/-- Flake-cycles used on a tile, in all and over the last 1,024 slots (`OPS.FLAKE_LOAD`). -/
def State.useFlakes (s : State) (tile n : Nat) : State :=
  { s with tel := { s.tel with tileFlake := tmod 0 s.tel.tileFlake tile (· + n), flakeAt := tmod [] s.tel.flakeAt tile (fun l =>
      (l.filter (fun x => decide (s.slot < x.1 + 1024))) ++ [(s.slot, n)]) } }
/-- The image in force for new runs; the built-in default's instance 0 and node set come from `OPS.SLUSH_ENTRY` and `OPS.SLUSH_NODES` (R235). -/
def State.opsActive (s : State) : Image :=
  if s.builtIn then { s.tbl.active with ops := [(0, s.ops.slushEntry)], nodeSets := [s.ops.slushNodes.getD []] } else s.tbl.active
/-- The image under which an instance runs (R230). -/
def State.opsImg (s : State) (x : Inst) : Image := if x.retiring then s.tbl.retiring.getD s.opsActive else s.opsActive
def opsEntryAt (img : Image) (i : Nat) : OpsEntry := tget {} img.ops i
/-- An entry of Table 8-9 as its 64 bytes' number, and back. -/
def opsWidths : List Nat := [12, 4, 16, 4, 4, 2, 1, 1, 4, 12, 12, 7, 1, 32, 12, 4, 8, 9, 17, 6, 12, 12, 41, 23, 41, 23, 16, 4, 12, 12, 148]
def opsEntryOf (v : Nat) : OpsEntry :=
  let f := unpack opsWidths v
  let g := fun i => f.getD i 0
  { inst := g 0, opkind := g 1, ctx := g 2, inFmt := g 3, outFmt := g 4, rnd := g 5, sat := g 6 == 1, flagEn := g 7 == 1, entryProg := g 9,
    exitProg := g 10, topkK := g 11, nelem := g 13, ncontrib := g 14, tileFirst := g 16, tileCount := g 17, rowBase := g 18, rset := g 20,
    upnode := g 21, resOff := g 22, flagOff := g 24, phaseFirst := g 26, naux := g 27, qgroups := g 29,
    rsvd := g 8 + g 12 + g 15 + g 19 + g 23 + g 25 + g 28 + g 30 }
def opsEntryWord (e : OpsEntry) : Nat :=
  pack (opsWidths.zip [e.inst, e.opkind, e.ctx, e.inFmt, e.outFmt, e.rnd, boolNat e.sat, boolNat e.flagEn, 0, e.entryProg, e.exitProg, e.topkK, 0,
    e.nelem, e.ncontrib, 0, e.tileFirst, e.tileCount, e.rowBase, 0, e.rset, e.upnode, e.resOff, 0, e.flagOff, 0, e.phaseFirst, e.naux, 0, e.qgroups, e.rsvd])
/-- The phase entries of a run in order (R263: at most 16); none under the built-in default. -/
def phaseChain (img : Image) : Nat → Nat → List PhaseEnt
  | 0, _ => []
  | n + 1, at_ =>
    match tfind img.phases at_ with
    | none => []
    | some p => p :: (if p.next == 0xFFFF then [] else phaseChain img n p.next)
def State.phasesOf (s : State) (x : Inst) : List PhaseEnt := phaseChain (s.opsImg x) 16 x.entry.phaseFirst
/-- Whether an instance runs under the built-in default. -/
def State.onDefault (s : State) (x : Inst) : Bool := (s.opsImg x).version == 0
/-- A stripe group is complete with its rows, that of an LSE_MERGE with the sum of the weights in auxiliary row 0 too (R225, R232). -/
def Inst.groupFull (x : Inst) (g : Nat) : Bool :=
  (x.entry.elems g).all (fun e => (x.row e).arrived == x.entry.full) &&
  (x.entry.opkind != 5 || (x.auxRow g 0).arrived == x.entry.ncontrib)
/-- The context that an instance belongs to: of an IDLE one by the image in force (R243). -/
def State.instOwner (s : State) (i : Nat) : Nat := if (s.inst i).st == .idle then (opsEntryAt s.opsActive i).ctx else (s.inst i).entry.ctx
/-- A product rounded to FP32 by RNE (R237). -/
def fmul32 (a b : XVal) : XVal :=
  (narrow 0 .rne false (xMul a b)).1
/-- Moves an instance to a state and records the slot (`OPS.INST_STATE`). -/
def State.setInst (s : State) (i : Nat) (st : InstState) : State := s.modInst i (fun x => { x with st := st, slot := s.slot })

-- Sending collective packets
/-- Sends a collective packet of this package from admission point 265 (R222). -/
def State.sendCol (s : State) (t : Txn) : State := s.sendOut t
def State.colHead (s : State) (i : Nat) (x : Inst) (ty : TType) (dnode : Nat) : Txn :=
  { ty := ty, snode := s.poolNode, kgen := (s.ctx x.entry.ctx).kgen, ctx := x.entry.ctx, inst := i, phase := x.phase, dnode := dnode }
/-- The contributors of a phase by Obier's plan; under the built-in default none is named (R223, R235). -/
def State.contribs (s : State) (x : Inst) (phase : Nat) : List (Nat × Nat × Nat × Nat) :=
  if s.onDefault x then [] else Config.contributors (s.opsImg x).version x.entry.inst phase
/-- The nodes that contribute in some phase of a run. -/
def State.contributors (s : State) (x : Inst) : List Nat :=
  (List.range (s.phasesOf x).length).foldl (fun l p => (s.contribs x p).foldl (fun l c => addNew l c.1) l) []
/-- The other stages of a run: UPNODE, the lower stages of the plan, and those that have sent partials. -/
def State.stages (s : State) (x : Inst) : List Nat :=
  let lower := (s.contributors x).filter (fun n => (nodeEnt (s.opsImg x) n).kind == 2 || (nodeEnt (s.opsImg x) n).kind == 3)
  (if x.entry.upnode == 0xFFF then [] else [x.entry.upnode]) ++ lower.foldl addNew x.peers
/-- Those that COL_CTL of a run goes to (R229, R258): the contributors of the current phase and the other stages, and whoever has contributed. -/
def State.parties (s : State) (x : Inst) : List Nat :=
  ((s.contribs x x.phase).map Prod.fst ++ s.stages x).foldl addNew x.senders
/-- COL_CTL to the run's contributors and other stages: 1 ABORT with a status, 2 CREDIT; `phase` in its PHASE. -/
def State.sendCtl (s : State) (i kind phase st : Nat) : State :=
  let x := s.inst i
  (s.parties x).foldl (fun t n => t.sendCol { s.colHead i x .colCtl n with xb := kind, phase := phase, eoff := st }) s

-- Ends of runs
/-- Requests of an ended run keep no purpose. -/
def State.orphanRun (s : State) (i : Nat) : State :=
  { s with reqs := tmap s.reqs (fun _ r => if r.who == .result i || r.who == .flag i then { r with who := .resync } else r) }
/-- Stripe groups of an instance in a tile. -/
def OpsGroupsIn (e : OpsEntry) (t : Nat) : Nat :=
  let j := (t + 256 - e.tileFirst % 256) % 256
  if e.tileCount ≤ j then 0 else (e.groups + (max 1 e.tileCount) - 1 - j) / max 1 e.tileCount
/-- Rows of an instance in a tile: the first, and one past the last (R225). -/
def opsRows (e : OpsEntry) (t : Nat) : Nat × Nat := (e.rowBase, e.rowBase + (64 + e.naux) * OpsGroupsIn e t)
/-- Whether rows `a` to `b` of a tile all belong to instances of context `c`. -/
def rowsKept (c t : Nat) (es : List OpsEntry) : Nat → Nat → Nat → Bool
  | 0, a, b => decide (b ≤ a)
  | n + 1, a, b =>
    if b ≤ a then true
    else match es.find? (fun e => e.opkind != 0 && e.ctx == c && decide ((opsRows e t).1 ≤ a) && decide (a < (opsRows e t).2)) with
      | some e => rowsKept c t es n (opsRows e t).2 b
      | none => false
/-- The tiles of an instance's stripe thaw its context where the image in force gives rows of it to another context or to none (R359). -/
def State.thawStripe (s : State) (e : OpsEntry) : State :=
  let tiles := (List.range 256).filter (fun t => decide (0 < OpsGroupsIn e t))
  let es := s.opsActive.ops.map Prod.snd
  if e.opkind == 0 || tiles.all (fun t => rowsKept e.ctx t es es.length (opsRows e t).1 (opsRows e t).2) then s
  else
    { s with
      xl := { s.xl with cache := tmap s.xl.cache (fun t l => if tiles.contains t then l.filter (fun y => y.ctx != e.ctx) else l) },
      sec := { s.sec with thawCount := s.sec.thawCount + tiles.length, thawCtx := e.ctx, thawSlot := s.slot } }
/-- Ends an OP_LAUNCH: the completion record's fields (R229), and the instance to IDLE with its rows released. -/
def State.endLaunch (s : State) (i : Nat) (st : Status) : State :=
  let x := s.inst i
  let s1 := s.modWork x.ring x.descIdx (fun w =>
    let w1 := { w with result := x.done + 2 ^ 32 * (x.overflow % 2 ^ 32), aux := x.endSlot, next := if st == .ok then 1 else w.next }
    if st == .ok && w.d.signal then w1 else { w1 with status := some st })
  let s2 := s1.modInst i (fun y => { st := .idle, status := st.code, run := y.run, slot := s.slot, phase := y.phase })
  if x.retiring then s2.thawStripe x.entry else s2
/-- The status of a run that fails with `st`: the first in the order of R500 of those that met in it (R229), a packet of a retired generation among them (R223). -/
def Inst.failStatus (x : Inst) (st : Status) : Status := worst (st :: x.fails ++ (if x.revokedSeen then [.ctxRevoked] else []))
/-- A status as the wire carries it: never TIMEOUT (R15). -/
def Status.wire (st : Status) : Nat := if st == .timeout then Status.aged.code else st.code
/-- A run fails (R229): ABORT, its status the first of those that met, and the launch completes with it. -/
def State.runFail (s : State) (i : Nat) (st : Status) : State :=
  let x := s.inst i
  let w := x.failStatus st
  let s1 := s.sendCtl i 1 x.phase (Status.wire w)
  let s2 := s1.modOps (fun o => { o with runsFailed := o.runsFailed + 1 })
  ((s2.modInst i (fun y => { y with st := .failed, endSlot := s.slot })).orphanRun i).endLaunch i w
/-- Aborts an instance's run, or its launch where no run is under way (R335). -/
def instAbort (i : Nat) (s : State) : State :=
  match (s.inst i).st with
  | .idle => s
  | .running => s.runFail i .ctxRevoked
  | .delivering => s.runFail i .ctxRevoked
  | _ => (s.modInst i (fun y => { y with endSlot := s.slot })).endLaunch i .ctxRevoked
/-- The first run-start slot at or after a slot, by PERIOD and ANCHOR (R259). -/
def runSlot (t : Nat × Nat) (b : Nat) : Nat := b + (t.2 + t.1 - b % t.1) % t.1
/-- An instance whose next run has not begun at a switch-over takes the new image's entry; one that the image leaves unused or gives to another context
returns to IDLE, its launch MALFORMED (R230). -/
def State.rearm (s : State) (i : Nat) : State :=
  let x := s.inst i
  let e := opsEntryAt s.opsActive i
  let s1 := s.thawStripe x.entry
  if e.opkind == 0 || e.ctx != x.entry.ctx then (s1.modInst i (fun y => { y with endSlot := s.slot })).endLaunch i .malformed
  else s1.modInst i (fun y => { y with entry := e, startSlot := runSlot (tget (0, 0) s.opsActive.timing i) y.startSlot })
/-- Whether the new image drops an instance that ran under the old one (R230). -/
def State.dropped (s : State) (i : Nat) (x : Inst) : Bool :=
  x.retiring && ((opsEntryAt s.opsActive i).opkind == 0 || (opsEntryAt s.opsActive i).ctx != x.entry.ctx)
/-- Whether an instance's run has to do with a node (R464). -/
def State.instTouches (s : State) (x : Inst) (n : Nat) : Bool :=
  x.entry.upnode == n || ((s.opsImg x).nodeSets.getD x.entry.rset []).contains n || (s.contributors x).contains n || (s.parties x).contains n
/-- A run begins: RUNNING in phase 0, in the mode now in force (R228, R258); a run that includes a departed node fails at once (R464). -/
def State.startRun (s : State) (i : Nat) : State :=
  let s1 := (s.modInst i (fun y => { y with credit := s.onDefault y || !s.rt.scheduled, phaseSince := s.clk, phase := 0 })).setInst i .running
  if s.absent.any (s1.instTouches (s1.inst i)) then s1.runFail i .nodeAbsent else s1
/-- An instance ARMED for its next run: its rows, state words, side words and lists reset (R228). -/
def Inst.rearmed (y : Inst) (e : OpsEntry) (kgen start slot : Nat) : Inst :=
  { st := .armed, status := y.status, run := (y.runBase + y.done) % 2 ^ 32, slot := slot, entry := e, kgen := kgen, ring := y.ring, descIdx := y.descIdx,
    nruns := y.nruns, done := y.done, runBase := y.runBase, startSlot := start, endSlot := y.endSlot }
/-- A run ended OK (R228, R230); in credit-only operation its end is announced (R233, R259), and under the built-in default the next run begins (R235). -/
def State.runOk (s : State) (i : Nat) : State :=
  let s0 := if (s.inst i).credit then s.sendCtl i 2 ((s.phasesOf (s.inst i)).length % 16) 0 else s
  let s1 := (s0.modOps (fun o => { o with runsOk := o.runsOk + 1 })).modInst i (fun y =>
    { y with st := .done, slot := s.slot, status := 0, done := y.done + 1, endSlot := s.slot })
  let x := s1.inst i
  if x.nruns ≤ x.done then s1.endLaunch i .ok
  else if s.dropped i x then s1.endLaunch i .malformed
  else if s.onDefault x && !x.retiring then (s1.modInst i (fun y => y.rearmed y.entry y.kgen s.slot s.slot)).startRun i
  else s1
/-- The flag word of the run goes to every node of RSET (R228). -/
def State.releaseFlag (s : State) (i : Nat) : State :=
  let x := s.inst i
  let rset := (s.opsImg x).nodeSets.getD x.entry.rset []
  let s1 := s.modInst i (fun y => { y with flagSent := true, flags := rset.length })
  rset.foldl (fun t n => t.issue (storeTxn x.entry.ctx (n * 2 ^ 41 + x.entry.flagOff) x.run 8 (i % 8)) (.flag i) s.reqTimeout) s1
/-- Whether the result of an element derives from poisoned data (R240): its row, or an auxiliary row that its exit takes. -/
def Inst.elemPsn (img : Image) (x : Inst) (e : Nat) : Bool :=
  (x.row e).psn ||
  (if x.entry.exitProg != 0xFFF then
     (progWords img.prog 64 x.entry.exitProg).any (fun w => field w 0 6 == 1 && field w 32 16 != 0 && (x.auxRow (e / 64) (field w 32 16 - 1)).psn)
   else x.entry.opkind == 5 && (x.auxRow (e / 64) 0).psn)
/-- Poisoned elements of an instance's results. -/
def Inst.poisoned (img : Image) (x : Inst) : Nat :=
  ((List.range x.entry.groups).map (fun g => ((x.entry.elems g).filter (x.elemPsn img)).length)).sum
/-- All results are in: the run fails POISONED, or its flag goes, or it has ended (R228, R240). -/
def State.delivered (s : State) (i : Nat) : State :=
  let x := s.inst i
  if x.st != .delivering || x.out != 0 then s
  else if x.poisoned (s.opsImg x) != 0 then (s.modInst i (fun y => { y with overflow := y.poisoned (s.opsImg x) })).runFail i .poisoned
  else if x.entry.flagEn && !x.flagSent then
    let s1 := s.releaseFlag i
    if (s1.inst i).flags == 0 then s1.runOk i else s1
  else if x.flags == 0 then s.runOk i else s
/-- Every stripe group has gone: DELIVERING at the top stage, the end of the run below (R228). -/
def State.runCheck (s : State) (i : Nat) : State :=
  let x := s.inst i
  if x.st == .running && x.emitted.length == x.entry.groups then
    if x.entry.upnode == 0xFFF then (s.setInst i .delivering).delivered i else s.runOk i
  else s

-- Results (R210, R212, R228, R237, R238, R240)
/-- The value of a result element before its rounding, with the instance as an exit program leaves it: the program's where there is one (R217), else the
library operator's. -/
def resultValue (img : Image) (x : Inst) (e : Nat) : Scaled × Inst :=
  let en := x.entry
  let r := x.row e
  if en.exitProg != 0xFFF then
    let p := runProg img.prog img.consts en.exitProg { elem := e, tile := en.tile (e / 64), isEntry := false, arriving := .nan, words := [] } x
    ({ v := p.emitted.getD (.fin false 0), k := 0 }, p.x)
  else if en.opkind == 5 then ({ v := xDiv 0 .rne false (r.value 1 0) ((x.auxRow (e / 64) 0).value 1 0), k := 0 }, x)
  else if en.opkind == 7 then ({ v := r.value 1 en.rnd, k := toSigned 32 (tget 0 img.consts en.entryProg) }, x)
  else ({ v := r.value en.opkind en.rnd, k := 0 }, x)
def resultValues (img : Image) : Inst → List Nat → List Scaled × Inst
  | x, [] => ([], x)
  | x, e :: r =>
    let a := if x.elemPsn img e then (({ v := .fin false 0, k := 0 } : Scaled), x) else resultValue img x e
    let b := resultValues img a.2 r
    (a.1 :: b.1, b.2)
/-- Bytes with a mark on those of a poisoned element. -/
def marked (psn : Bool) (b : Bytes) : List (Byte × Bool) := b.map (fun y => (y, psn))
def blocksOf {α : Type} : Nat → List α → List (List α)
  | 0, _ => []
  | n + 1, l => if l.isEmpty then [] else l.take 32 :: blocksOf n (l.drop 32)
/-- The bytes of a stripe group's elements, and how many of them R211 made an overflow or NaN. -/
def groupBytes (en : OpsEntry) (vals : List (Scaled × Bool)) : List (Byte × Bool) × Nat :=
  let w := fmtBits en.outFmt
  let rnd := rndOf en.rnd
  if fmtMx en.outFmt then
    let bs := (blocksOf 2 vals).map (fun b =>
      let psn := b.any Prod.snd
      let r := roundBlock en.outFmt rnd (b.map Prod.fst)
      (marked psn (leBytes 1 r.1 ++ leBytes (4 * w) (packElems w r.2.1)), if psn then 0 else r.2.2))
    ((bs.map Prod.fst).flatten, (bs.map Prod.snd).sum)
  else
    let bs := vals.map (fun v =>
      let r := narrow en.outFmt rnd en.sat v.1
      (marked v.2 (leBytes (w / 8) (fmtEnc en.outFmt r.1)), if r.2 && !v.2 then 1 else 0))
    ((bs.map Prod.fst).flatten, (bs.map Prod.snd).sum)
/-- The result bytes of a group: its offset, the bytes, the count for RESULT, and the instance. LSE_MERGE appends M and L to each query row;
TOPK writes value and index of each candidate (layouts of log 23). -/
def groupResult (img : Image) (x : Inst) (g : Nat) : Nat × List (Byte × Bool) × Nat × Inst :=
  let en := x.entry
  let es := en.elems g
  if en.opkind == 6 then
    let one := fun (c : Nat × Nat) => (narrow en.outFmt (rndOf en.rnd) en.sat { v := f32Val c.1, k := 0 }, c.2)
    let w := (fmtBits en.outFmt + 7) / 8
    let ls := es.map (fun e => ((x.row e).psn, ((tget [] x.cands e).map one)))
    ((en.extent g).1,
     (ls.map (fun l => (l.2.map (fun c => marked l.1 (leBytes w (fmtEnc en.outFmt c.1.1) ++ leBytes 4 c.2))).flatten)).flatten,
     (ls.map (fun l => if l.1 then 0 else (l.2.filter (fun c => c.1.2)).length)).sum, x)
  else
    let v := resultValues img x es
    let b := groupBytes en (v.1.zip (es.map (fun e => x.elemPsn img e)))
    if en.opkind == 5 then
      let a := x.auxRow g 0
      let tail := marked a.psn (leBytes 4 (f32Bits (a.opst.getD .nan)) ++ leBytes 4 (fmtEnc 0 (narrow 0 .rne false { v := a.value 1 0, k := 0 }).1))
      ((en.extent g).1, b.1 ++ (if g % max 1 en.qgroups == en.qgroups - 1 then tail else []), b.2, v.2)
    else ((en.extent g).1, b.1, b.2, v.2)
/-- Cuts result bytes at 64-byte lines. -/
def linesOf : Nat → Nat → List (Byte × Bool) → List (Nat × List (Byte × Bool))
  | 0, _, _ => []
  | n + 1, o, l =>
    if l.isEmpty then [] else
    let k := 64 - o % 64
    (o, l.take k) :: linesOf n (o + k) (l.drop k)
/-- Whether every stripe group with bytes in the line of a result byte has been rounded; of the groups about `g` only a few can reach it. -/
def lineWhole (en : OpsEntry) (emitted : List Nat) (g o : Nat) : Bool :=
  ((List.range 9).map (fun d => g + d - 4)).all (fun h =>
    en.groups ≤ h || emitted.contains h || decide ((en.extent h).2 ≤ o / 64 * 64) || decide (o / 64 * 64 + 64 ≤ (en.extent h).1))
/-- Puts a piece among pieces in the order of their offsets. -/
def putPiece (p : Nat × List (Byte × Bool)) : List (Nat × List (Byte × Bool)) → List (Nat × List (Byte × Bool))
  | [] => [p]
  | q :: r => if p.1 ≤ q.1 then p :: q :: r else q :: putPiece p r
/-- Joins a piece to the one after it where they meet within a line. -/
def gluePiece (p : Nat × List (Byte × Bool)) : List (Nat × List (Byte × Bool)) → List (Nat × List (Byte × Bool))
  | [] => [p]
  | q :: r => if p.1 + p.2.length == q.1 && p.1 / 64 == q.1 / 64 then (p.1, p.2 ++ q.2) :: r else p :: q :: r
/-- Pieces of result bytes joined within their lines. -/
def joinPieces (l : List (Nat × List (Byte × Bool))) : List (Nat × List (Byte × Bool)) := (l.foldr putPiece []).foldr gluePiece []
def State.writeLine (s : State) (i : Nat) (x : Inst) (node : Nat) (l : Nat × List (Byte × Bool)) : State :=
    let b := l.2.map Prod.fst
    (s.modInst i (fun y => { y with out := y.out + 1 })).issue
      (storeTxn x.entry.ctx (node * 2 ^ 41 + l.1) (leNat b) b.length (i % 8)) (.result i) s.reqTimeout
/-- Partials of consecutive elements in packets of at most 8 partials and 8 slots (R221). -/
def packParts : Nat → Nat → List Partial → List (Nat × List Partial)
  | 0, _, _ => []
  | n + 1, e, l =>
    if l.isEmpty then [] else
    let k := if (l.take 1).any Partial.isWide then 1 + (((l.drop 1).take 2).takeWhile (fun p => !p.isWide)).length
             else 1 + (((l.drop 1).take 7).takeWhile (fun p => !p.isWide)).length
    (e, l.take k) :: packParts n (e + k) (l.drop k)
def wideMask : Nat → List Partial → Nat
  | _, [] => 0
  | k, p :: r => (if p.isWide then 2 ^ k else 0) + wideMask (k + 1) r
def candPackets : Nat → List (Nat × Nat) → List (List (Nat × Nat))
  | 0, _ => []
  | n + 1, l => if l.isEmpty then [] else l.take 8 :: candPackets n (l.drop 8)
/-- A lower stage sends a complete group to UPNODE (R228, R237). -/
def State.sendGroup (s : State) (i g : Nat) : State :=
  let x := s.inst i
  let h := { s.colHead i x .colPart x.entry.upnode with contrib := (Config.upContrib i).toNat }
  let es := x.entry.elems g
  if x.entry.opkind == 6 then
    es.foldl (fun u e => (candPackets 8 (tget [] x.cands e)).foldl (fun t c =>
      t.sendCol { h with ty := .colSide, fmt := 0, dslots := c.length, xb := 3, eoff := e, psn := (x.row e).psn,
                         data := (c.map (fun y => leBytes 4 y.1 ++ leBytes 4 y.2)).flatten }) u) s
  else
    (packParts 64 (64 * g) (es.map (fun e => (x.row e).toPartial x.entry.opkind))).foldl (fun t p =>
      let d := (p.2.map Partial.bytes).flatten
      t.sendCol { h with fmt := 12, dslots := d.length / 8, xb := wideMask 0 p.2, eoff := p.1, psn := p.2.any (fun y => y.psn), data := d }) s
/-- A stripe group is complete: it is rounded and written, or forwarded (R228, R232). A result line goes once every group in it is rounded, and not at all
with a poisoned element in it (R240). -/
def State.emitGroup (s : State) (i g : Nat) : State :=
  let x := s.inst i
  if x.emitted.contains g || !x.groupFull g then s
  else if x.entry.upnode != 0xFFF then (s.sendGroup i g).modInst i (fun y => { y with emitted := y.emitted ++ [g] })
  else
    let img := s.opsImg x
    let r := groupResult img x g
    let cost := if x.entry.exitProg == 0xFFF || x.entry.opkind == 6 then 0 else progCost img.prog x.entry.exitProg * (x.entry.elems g).length
    let emitted := x.emitted ++ [g]
    let held := x.lines ++ linesOf 600 r.1 r.2.1
    let ready := joinPieces (held.filter (fun l => lineWhole x.entry emitted g l.1))
    let bad := (ready.filter (fun l => l.2.any Prod.snd)).map (fun l => l.1 / 64)
    let s1 := s.modInst i (fun _ => { r.2.2.2 with
      emitted := emitted, overflow := x.overflow + r.2.2.1, lines := held.filter (fun l => !lineWhole x.entry emitted g l.1),
      fails := if bad.isEmpty then x.fails else x.fails ++ [.poisoned] })
    let s2 := s1.useFlakes (x.entry.tile g) (cost)
    (img.nodeSets.getD x.entry.rset []).foldl (fun t n =>
      (ready.filter (fun l => !bad.contains (l.1 / 64))).foldl (fun u l => u.writeLine i x n l) t) s2

-- Phases (R231, R233, R258)
/-- The contributions that an element has received by the end of the current phase, by Obier's plan; all of them at most. -/
def State.dueBy (s : State) (x : Inst) (e : Nat) : Nat :=
  min x.entry.full (((List.range (x.phase + 1)).map (fun p =>
    ((s.contribs x p).filter (fun c => decide (c.2.2.1 ≤ e) && decide (e < c.2.2.1 + c.2.2.2))).length)).sum)
/-- Whether the current phase of a run is complete (R231): of LSE_MERGE's phase 0 the pairs, of a last phase every group, of another the contributions that
the plan names up to it. -/
def State.phaseDone (s : State) (x : Inst) : Bool :=
  if x.entry.opkind == 5 && x.phase == 0 then
    (List.range x.entry.queries).all (fun q => (x.auxRow (q * x.entry.qgroups) 0).arrived == x.entry.ncontrib)
  else if x.phase + 1 < (s.phasesOf x).length then
    (List.range x.entry.groups).all (fun g => (x.entry.elems g).all (fun e => decide (s.dueBy x e ≤ (x.row e).arrived)))
  else x.emitted.length == x.entry.groups
/-- Announces the end of a phase before the last in credit-only operation, once (R233): a CREDIT whose PHASE is the next one (DESIGN CHOICE, log 48). -/
def State.announce (s : State) (i : Nat) : State :=
  let x := s.inst i
  let mine := (s.poolNode, x.phase + 1)
  if x.credit && x.st == .running && decide (x.phase + 1 < (s.phasesOf x).length) && s.phaseDone x && !x.credits.contains mine then
    (s.sendCtl i 2 (x.phase + 1) 0).modInst i (fun y => { y with credits := mine :: y.credits })
  else s
/-- Whether every other stage has announced the end of the phases before `phase`. -/
def State.credited (s : State) (x : Inst) (phase : Nat) : Bool :=
  (s.stages x).all (fun n => x.credits.any (fun c => c.1 == n && decide (phase ≤ c.2)))
/-- Auxiliary row 0 starts anew for the sums of LSE_MERGE's phase 1, M kept (R238). -/
def Inst.nextPhase (x : Inst) (clk : Nat) : Inst :=
  { x with phase := x.phase + 1, phaseSince := clk,
           aux := if x.entry.opkind == 5 && x.phase == 0 then tmap x.aux (fun _ r => { x.blank with opst := r.opst, psn := r.psn }) else x.aux }
/-- The next phase begins: at its first slot, where a predecessor still incomplete fails the run AGED; in credit-only operation when its
predecessor has ended at every package involved. -/
def State.advance (s : State) (i : Nat) : State :=
  let x := s.inst i
  if x.st != .running then s
  else match (s.phasesOf x)[x.phase + 1]? with
    | none => s
    | some p =>
      if x.credit then
        (if s.phaseDone x && s.credited x (x.phase + 1) then s.modInst i (fun y => y.nextPhase s.clk) else s)
      else if x.startSlot + p.start ≤ s.slot then
        (if s.phaseDone x then s.modInst i (fun y => y.nextPhase s.clk) else s.runFail i .aged)
      else s
/-- After contributions have entered: the groups they completed, the end of the phase and of the run. -/
def State.settleRun (s : State) (i : Nat) (gs : List Nat) : State :=
  (((gs.foldl (fun t g => t.emitGroup i g) s).announce i).advance i).runCheck i
/-- Scheduled operation ends: every RUNNING instance goes on under credits (R258). -/
def State.creditAll (s : State) : State :=
  s.ops.insts.foldl (fun t k => if (t.inst k.1).st == .running && !(t.inst k.1).credit then
      (t.sendCtl k.1 2 (t.inst k.1).phase 0).modInst k.1 (fun y => { y with credit := true, phaseSince := s.clk }) else t) s

-- Arrival of collective packets (R220 to R223)
def State.colDiscard (s : State) : State := s.modOps (fun o => { o with discarded := o.discarded + 1 })
/-- The header checks of R223's first row; a COL_CTL, to which Table 8-7 gives no FMT, carries 0 (DESIGN CHOICE, log 48). -/
def colHeaderOk (t : Txn) : Bool :=
  t.rsvd == 0 && t.dslots * 8 == t.data.length &&
  match t.ty with
  | .colData => decide (t.fmt ≤ 10) && decide (1 ≤ t.dslots) && decide (t.dslots ≤ 8) && (fmtMx t.fmt || t.xb == 0)
  | .colSide => t.fmt == 0 && decide (1 ≤ t.dslots) && decide (t.dslots ≤ 8) && decide (1 ≤ t.xb) && decide (t.xb ≤ 3)
  | .colPart => t.fmt == 12 && decide (1 ≤ t.dslots) && decide (t.dslots ≤ 8)
  | .colCtl => t.dslots == 0 && t.fmt == 0 && (t.xb == 2 || (t.xb == 1 && t.eoff / 16 == 0))
  | _ => false
/-- Whether (SNODE, CONTRIB) of a packet is a contributor of its PHASE (R223), and of a COL_CTL whether its sender takes part in the run. Under the built-in
default any sender is, with PHASE 0 and CONTRIB below NCONTRIB (R235). -/
def State.contributes (s : State) (x : Inst) (t : Txn) : Bool :=
  if t.ty == .colCtl then s.onDefault x || (s.contributors x).contains t.snode || (s.stages x).contains t.snode
  else if s.onDefault x then t.phase == 0 && decide (t.contrib < x.entry.ncontrib)
  else (s.contribs x t.phase).any (fun c => c.1 == t.snode && c.2.1 == t.contrib)
/-- Whether a packet's PHASE can be served now (log 23): in scheduled operation the phase in progress; under credits any, of LSE_MERGE the one in progress. -/
def phaseServed (x : Inst) (t : Txn) : Bool := t.ty == .colCtl || t.phase == x.phase || (x.credit && x.entry.opkind != 5)
/-- The states in which an instance takes a packet (R223): RUNNING; an ABORT until the run has ended, and a CREDIT, which may announce another package's end,
until the next run (R259). -/
def instTakes (x : Inst) (t : Txn) : Bool :=
  x.st == .running || (t.ty == .colCtl && (x.st == .delivering || (t.xb == 2 && x.st == .done)))
/-- A packet of the next phase under credits shows that the phase in progress has ended at every package: this one goes on to it. -/
def State.catchUp (s : State) (t : Txn) : State :=
  let x := s.inst t.inst
  if x.credit && x.st == .running && t.ty != .colCtl && t.phase == x.phase + 1 && s.phaseDone x then s.modInst t.inst (fun y => y.nextPhase s.clk) else s
/-- What this package does with a collective packet that has arrived: filtered (R339), routed on (R222), or checked as R223 orders; `k` acts on
a packet of a RUNNING instance that passes the first three checks. -/
def State.arriveCol (s : State) (a : Nat) (t : Txn) (k : State → State) : State :=
  if !s.canArrive a then s else
  let s1 := s.takeIn a t
  let e := s1.entry t a (s.vcAt a 3)
  if s.filtered a && !(s.port a).allow.contains t.ctx then (s1.release e).colDiscard
  else if t.dnode != s.poolNode then s1.routeOn e
  else
    let s2 := (s1.release e).advance t.inst
    let x := s2.inst t.inst
    if !colHeaderOk t then s2.colDiscard
    else if !s.kgenCurrent t.ctx t.kgen then
      s2.colDiscard.modInst t.inst (fun y => if y.st != .idle && y.entry.ctx == t.ctx then { y with revokedSeen := true } else y)
    else if !instTakes x t || x.entry.ctx != t.ctx || !s2.contributes x t then s2.colDiscard
    else if !phaseServed ((s2.catchUp t).inst t.inst) t then s2.colDiscard
    else k (s2.catchUp t)
/-- Elements of a COL_DATA: their number by its format (R220). -/
def colCount (t : Txn) : Nat := if fmtMx t.fmt then 32 else t.dslots * 64 / fmtBits t.fmt
def colPackingOk (t : Txn) : Bool :=
  let n := colCount t
  (t.eoff / 64 == (t.eoff + n - 1) / 64) &&
  (!fmtMx t.fmt || (t.eoff % 32 == 0 && t.dslots * 64 == 32 * fmtBits t.fmt))
/-- Where the side words of a contributor for a token are kept. -/
def sideKey (token contrib : Nat) : Nat := token * 4096 + contrib
/-- Whether an instance has an entry program: ENTRY_PROG of REQUANT names a constant (Table 8-11b). -/
def hasEntry (en : OpsEntry) : Bool := en.entryProg != 0xFFF && en.opkind != 7
/-- Whether elements enter with side words: the library operator's, or a program's. -/
def needsSide (img : Image) (en : OpsEntry) : Bool :=
  en.opkind == 4 || en.opkind == 5 || (hasEntry en && usesOp img.prog en.entryProg 0x02)
/-- One element enters its row (R206, R209, R217, R237, R238), through the entry program where there is one. An element whose side words never came does not
enter: its row stays incomplete (R232, R241). -/
def enterElem (img : Image) (contrib : Nat) (psn : Bool) (x : Inst) (ev : Nat × XVal) : Inst :=
  let e := ev.1
  let en := x.entry
  let token := if en.opkind == 5 then e / (64 * max 1 en.qgroups) else Config.tokenOf en.inst e
  let words := tget [] x.side (sideKey token contrib)
  if needsSide img en && words.isEmpty then x
  else
    let bad := psn || (needsSide img en && words.getD 3 0 != 0)
    let v := if en.opkind == 4 || en.opkind == 5 then fmul32 (f32Val (words.getD (if en.opkind == 4 then 0 else 2) 0)) ev.2 else ev.2
    if hasEntry en then
      let p := runProg img.prog img.consts en.entryProg { elem := e, tile := en.tile (e / 64), isEntry := true, arriving := ev.2, words := words, psn := bad } x
      let y := if p.acced then p.x else { p.x with rows := tset p.x.rows e ((p.x.row e).add en.opkind v) }
      { y with rows := tset y.rows e ((y.row e).arrive bad) }
    else { x with rows := tset x.rows e (((x.row e).add en.opkind v).arrive bad) }
/-- Flake-cycles of an element at its entry (Table 8-11b). -/
def entryCost (img : Image) (en : OpsEntry) : Nat :=
  (if en.opkind == 4 || en.opkind == 5 then costM 0 else 0) + (if hasEntry en then progCost img.prog en.entryProg else 0)
/-- The last check of R223 and the entry of a COL_DATA. One to a TOPK enters only through an entry program, and one in phase 0 of an LSE_MERGE, which takes
pairs there, fails the run MALFORMED (DESIGN CHOICE, log 48). -/
def State.colDataIn (t : Txn) (s : State) : State :=
  let x := s.inst t.inst
  let n := colCount t
  let d := leNat t.data
  let es := (List.range n).map (t.eoff + ·)
  if t.fmt != x.entry.inFmt || (x.entry.opkind == 6 && !hasEntry x.entry) || !colPackingOk t || decide (x.entry.nelem < t.eoff + n) ||
      es.any (fun e => decide (x.entry.full ≤ (x.row e).arrived)) || (x.entry.opkind == 5 && x.phase == 0) then s.runFail t.inst .malformed
  else
    let vals := es.map (fun e =>
      let b := packed t.fmt d (e - t.eoff)
      (e, if fmtMx t.fmt then mxVal t.fmt b t.xb else elemVal t.fmt b))
    let img := s.opsImg x
    let s1 := s.modInst t.inst (fun y => { vals.foldl (enterElem img t.contrib t.psn) y with senders := addNew y.senders t.snode })
    let s2 := s1.useFlakes (x.entry.tile (t.eoff / 64)) (n * entryCost img x.entry)
    s2.settleRun t.inst [t.eoff / 64]
/-- COL_DATA (R206, R209, R219 to R223). -/
def execColData (adm : Nat) (t : Txn) (s : State) : Answer :=
  .next (s.arriveCol adm { t with ty := .colData } (State.colDataIn { t with ty := .colData }))
/-- A pair (m, l) of query row q: phase 0 keeps the maximum in OPST, phase 1 the weight w and the sum L (R238). The difference m − M is rounded to FP32 by
RNE before EXP2 (DESIGN CHOICE, log 48: R238 puts fl32 about EXP2 and the product alone). -/
def enterPair (contrib : Nat) (psn : Bool) (x : Inst) (q m l : Nat) : Inst :=
  let gs := x.entry.groupsOf q
  if x.phase == 0 then
    { x with aux := gs.foldl (fun a g => tmod x.blank a (8 * g) (fun r =>
        { r with arrived := r.arrived + 1, psn := r.psn || psn, opst := some (match r.opst with | some y => xGreater y (f32Val m) | none => f32Val m) })) x.aux }
  else
    let big := ((x.auxRow (q * x.entry.qgroups) 0).opst).getD .nan
    let diff := (narrow 0 .rne false { v := xAdd (f32Val m) (xNeg big), k := 0 }).1
    let w := fmul32 (f32Val l) (xExp2 0 0 false diff)
    { x with side := tset x.side (sideKey q contrib) [m, l, f32Bits w, boolNat psn],
             aux := gs.foldl (fun a g => tmod x.blank a (8 * g) (fun r => (r.add 1 w).arrive psn)) x.aux }
/-- One side value of a COL_SIDE: place `j` of its payload. -/
def enterSide (t : Txn) (x : Inst) (j : Nat) : Inst :=
  match t.xb with
  | 1 => { x with side := tset x.side (sideKey (t.eoff + j) t.contrib) [leAt t.data (4 * j) 4, 0, 0, boolNat t.psn] }
  | 2 =>
    if x.entry.opkind == 5 then enterPair t.contrib t.psn x (t.eoff + j) (leAt t.data (8 * j) 4) (leAt t.data (8 * j + 4) 4)
    else { x with side := tset x.side (sideKey (t.eoff + j) t.contrib) [leAt t.data (8 * j) 4, leAt t.data (8 * j + 4) 4, 0, boolNat t.psn] }
  | _ =>
    { x with cands := tset x.cands t.eoff (topInsert x.entry.topkK (tget [] x.cands t.eoff) (leAt t.data (8 * j) 4) (leAt t.data (8 * j + 4) 4)),
             rows := tset x.rows t.eoff ((x.row t.eoff).arrive t.psn) }
/-- The last check of R223 and the entry of a COL_SIDE (R227). -/
def State.colSideIn (t : Txn) (s : State) : State :=
  let x := s.inst t.inst
  let n := if t.xb == 1 then 2 * t.dslots else t.dslots
  let bad := match t.xb with
    | 1 => decide (x.entry.nelem < t.eoff + n)
    | 2 => if x.entry.opkind == 5 then decide (x.entry.queries < t.eoff + n) ||
             (List.range n).any (fun j => decide (x.entry.ncontrib ≤ (x.auxRow ((t.eoff + j) * x.entry.qgroups) 0).arrived))
           else decide (x.entry.nelem < t.eoff + n)
    | _ => x.entry.opkind != 6 || decide (x.entry.nelem ≤ t.eoff) || decide (x.entry.full < (x.row t.eoff).arrived + n)
  if bad then s.runFail t.inst .malformed
  else
    let s1 := s.modInst t.inst (fun y => { (List.range n).foldl (enterSide t) y with senders := addNew y.senders t.snode })
    let cost := if t.xb == 3 then n * (8 * costA 0) else if t.xb == 2 && x.entry.opkind == 5 && x.phase == 1 then n * (5 * costM 0 + costM 0) else 0
    let g := if t.xb == 3 then t.eoff / 64 else t.eoff * x.entry.qgroups
    let s2 := s1.useFlakes (x.entry.tile g) (cost)
    s2.settleRun t.inst (if t.xb == 3 then [g] else if t.xb == 2 && x.entry.opkind == 5 then ((List.range n).map (fun j => x.entry.groupsOf (t.eoff + j))).flatten else [])
/-- COL_SIDE (R219, R223, R227, R238). -/
def execColSide (adm : Nat) (t : Txn) (s : State) : Answer :=
  .next (s.arriveCol adm { t with ty := .colSide } (State.colSideIn { t with ty := .colSide }))
/-- The partials of a COL_PART payload: none where a slot is left over or a form is not canonical (R221). -/
def partsOf (mask : Nat) : Nat → Nat → Bytes → Option (List Partial)
  | 0, _, b => if b.isEmpty then some [] else none
  | n + 1, k, b =>
    if b.isEmpty then (if mask / 2 ^ k == 0 then some [] else none) else
    let len := if mask.testBit k then 48 else 8
    let p := partialOf (mask.testBit k) (leNat (b.take len))
    if b.length < len || p.bytes != b.take len then none
    else (partsOf mask n (k + 1) (b.drop len)).map (p :: ·)
/-- The last check of R223 and the entry of a COL_PART. Partials of two stripe groups fail the run MALFORMED as elements would (DESIGN CHOICE, log 48:
R220's rule speaks of COL_DATA). IN_FMT names the contributions of elements, and a partial is EXACT (log 23). -/
def State.colPartIn (t : Txn) (s : State) : State :=
  let x := s.inst t.inst
  match partsOf t.xb 8 0 t.data with
  | none => s.runFail t.inst .malformed
  | some ps =>
    let es := (List.range ps.length).map (t.eoff + ·)
    if x.entry.opkind == 6 || decide (x.entry.nelem < t.eoff + ps.length) || (t.eoff / 64 != (t.eoff + ps.length - 1) / 64) ||
        es.any (fun e => decide (x.entry.full ≤ (x.row e).arrived)) then s.runFail t.inst .malformed
    else
      let s1 := s.modInst t.inst (fun y =>
        { y with rows := (es.zip ps).foldl (fun r ep => tmod y.blank r ep.1 (fun w => { w.addPartial y.entry.opkind ep.2 with psn := w.psn || ep.2.psn || t.psn })) y.rows,
                 peers := addNew y.peers t.snode })
      s1.settleRun t.inst [t.eoff / 64]
/-- COL_PART (R209, R221, R224). -/
def execColPart (adm : Nat) (t : Txn) (s : State) : Answer :=
  .next (s.arriveCol adm { t with ty := .colPart } (State.colPartIn { t with ty := .colPart }))
/-- An ABORT fails its run with the status it carries; a reserved one, or TIMEOUT, is AGED and logged (R15, R229). -/
def State.abortIn (t : Txn) (s : State) : State :=
  let c := s.cleanStatus { t with status := t.eoff % 16, hnode := t.snode }
  c.2.runFail t.inst ((statusOf c.1.status).getD .aged)
/-- A CREDIT makes the rest of the run credit-only (R258), and says that its sender has ended every phase before its PHASE (R233). -/
def State.creditIn (t : Txn) (s : State) : State :=
  ((s.modInst t.inst (fun y => { y with
    phaseSince := if y.credit then y.phaseSince else s.clk, credit := true, credits := (t.snode, t.phase) :: y.credits })).announce t.inst).advance t.inst
/-- COL_CTL ABORT (R229). -/
def execColCtlAbort (adm : Nat) (t : Txn) (s : State) : Answer :=
  .next (s.arriveCol adm { t with ty := .colCtl, xb := 1 } (State.abortIn { t with ty := .colCtl, xb := 1 }))
/-- COL_CTL CREDIT (R233, R258). -/
def execColCtlCredit (adm : Nat) (t : Txn) (s : State) : Answer :=
  .next (s.arriveCol adm { t with ty := .colCtl, xb := 2 } (State.creditIn { t with ty := .colCtl, xb := 2 }))

-- OP_LAUNCH, runs
/-- The slot at which run 0 begins (R259): none where START_SLOT is not a run-start slot. -/
def State.runStartSlot (s : State) (img : Image) (i start : Nat) : Option Nat :=
  let t := tget (0, 0) img.timing i
  if t.1 == 0 then none
  else if start == 0 then
    let b := s.slot + 2
    some (runSlot t b)
  else
    let b := s.slot + (start + 2 ^ 40 - s.slot % 2 ^ 40) % 2 ^ 40
    if b % t.1 == t.2 then some b else none
/-- OP_LAUNCH (R226, R228, R235, Table 8-10). -/
def execOpLaunch (n : Nat) (s : State) : Answer :=
  match s.picked n 0x10 with
  | none => .next s
  | some (w, s1) =>
    let a := w.d.oparg
    let i := field a 0 12
    let img := s.opsActive
    let en := opsEntryAt img i
    let start := if img.version == 0 then some s.slot else s.runStartSlot img i (field a 32 40)
    if field a 12 4 != 0 || field a 72 24 != 0 || field a 128 128 != 0 || field a 16 16 == 0 || en.opkind == 0 || en.opkind ≥ 9 || start.isNone then
      .next (s1.finish n w.idx .malformed)
    else if (s.ring n).cfg.ctx != en.ctx && (s.ring n).cfg.ctx != 0 then .next (s1.finish n w.idx .ctxDenied)
    else if !s.ops.enable || s.dev.phase == .drain || (s.inst i).st != .idle then .next (s1.finish n w.idx .retryLater)
    else
      let x : Inst := { st := .armed, status := (s.inst i).status, entry := en, kgen := (s.ctx en.ctx).kgen, slot := s.slot, ring := n, descIdx := w.idx, nruns := field a 16 16, runBase := field a 96 32,
                        run := field a 96 32, startSlot := start.getD 0 }
      let s2 := s1.modWork n w.idx (fun y => { y with tiles := [{ no := 0, start := 0, len := 0, src := 0, dst := 0, ended := true }] })
      let s3 := s2.modInst i (fun _ => x)
      .next (if s3.onDefault x then s3.startRun i else s3)
/-- Whether an ARMED instance's run begins now: in scheduled operation at the first nanosecond of its first phase slot, or within that slot for an instance
ARMED in it (R256, R259), and not after a step has passed that slot (R255); under credits from its run-start slot on; under the built-in default at once. -/
def State.runDue (s : State) (x : Inst) : Bool :=
  let at_ := x.startSlot + ((s.phasesOf x).headD {}).start
  s.onDefault x ||
  (!(s.rt.quality == .unset || s.rt.quality == .acquiring) &&
   (if s.rt.scheduled then s.slot == at_ && (s.rt.now % 1024 == 0 || x.slot == at_) else decide (x.startSlot ≤ s.slot)))
/-- RUN_START (R228, R256, R257): the first phase slot of an ARMED instance's run has come. -/
def execRunStart (i : Nat) (s : State) : Answer :=
  .next (if (s.inst i).st == .armed && s.runDue (s.inst i) then s.startRun i else s)
/-- Whether a DONE instance's next run period has come (R259): by its run-start slots, under credits once run k − 1 has ended at every package, and under a new
image at once, on that image's run-start slots (R230). -/
def State.periodDue (s : State) (i : Nat) (x : Inst) : Bool :=
  (x.retiring || s.onDefault x || decide (x.startSlot + (tget (0, 0) s.opsActive.timing i).1 ≤ s.slot)) &&
  (!x.credit || s.onDefault x || s.credited x (s.phasesOf x).length)
/-- RUN_PERIOD (R228, R230, R259): a DONE instance with runs left is ARMED again, its rows reset, under the image now in force. State words read 0 before a
run's first STST, and no other instance sees them (DESIGN CHOICE, log 48). -/
def execRunPeriod (i : Nat) (s : State) : Answer :=
  let x := s.inst i
  let img := s.opsActive
  let t := tget (0, 0) img.timing i
  if x.st != .done || !s.periodDue i x then .next s
  else if s.dropped i x then .next (s.endLaunch i .malformed)
  else .next ((if x.retiring then s.thawStripe x.entry else s).modInst i (fun y =>
    y.rearmed (opsEntryAt img i) (s.ctx (opsEntryAt img i).ctx).kgen
      (if img.version == 0 then s.slot else if x.retiring then runSlot t (max (y.startSlot + 1) s.slot) else y.startSlot + t.1) s.slot))
/-- PHASE_DEADLINE (R231): a phase whose deadline has passed with rows incomplete fails the run AGED, CTX_REVOKED after a packet of a retired generation. A
scheduled run whose first slot a step has passed has all of them incomplete (R255). -/
def execPhaseDeadline (i : Nat) (s : State) : Answer :=
  let x := s.inst i
  let p := ((s.phasesOf x)[x.phase]?).getD {}
  let due := if x.credit then decide (x.phaseSince + s.ops.creditDeadline * 1000 ≤ s.clk) else decide (x.startSlot + p.start + p.len + s.ops.grace ≤ s.slot)
  if !due then .next s
  else if x.st == .armed then .next (if s.onDefault x || !s.rt.scheduled then s else s.runFail i .aged)
  else if x.st != .running then .next s
  else if x.revokedSeen then .next (s.runFail i .ctxRevoked)
  else if s.phaseDone x then .next (s.advance i)
  else .next (s.runFail i .aged)
/-- RESULT_WRITE_RESPONSE (R228): a failed result or flag write is reissued once after a RESYNC; the last response ends the delivery. -/
def execResultWriteResponse (tag : Nat) (s : State) : Answer :=
  match s.ownReq tag with
  | none => .next s
  | some o =>
    match o.resp with
    | none => .next s
    | some r =>
      let key := s.poolNode * 1048576 + tag
      let st := (statusOf r.status).getD .malformed
      let act := fun (i : Nat) (flag : Bool) =>
        if st == .ok then
          ((s.endReq key).modInst i (fun y => if flag then { y with flags := y.flags - 1 } else { y with out := y.out - 1 })).delivered i
        else if o.tries == 0 then
          (s.breakFor o r).reissue key o
        else (s.endReq key).runFail i st
      match o.who with
      | .result i => .next (act i false)
      | .flag i => .next (act i true)
      | _ => .next s

-- OPS.SLUSH_ENTRY (R235)
/-- The entry rules of R203 and R225 that a single SUM instance can break. -/
def slushEntryOk (e : OpsEntry) : Bool :=
  e.rsvd == 0 && e.inst == 0 && e.opkind == 1 && e.inFmt == 0 && e.outFmt == 0 && e.upnode == 0xFFF && e.entryProg == 0xFFF && e.exitProg == 0xFFF &&
  e.naux == 0 && e.qgroups == 0 && e.rset == 0 && e.topkK == 0 && e.flagOff % 8 == 0 && decide (1 ≤ e.ncontrib) && decide (e.ncontrib ≤ 4095) &&
  decide (1 ≤ e.tileCount) && decide (e.tileCount ≤ 256) && decide (e.rowBase + 64 * ceilDiv (ceilDiv e.nelem 64) e.tileCount ≤ 131072)
def opsSlushEntryWrite (e : OpsEntry) (s : State) : Except Nat State :=
  check (s.dev.phase == .slush && (s.inst 0).st == .idle && slushEntryOk e) abortRefused (.ok (s.modOps (fun o => { o with slushEntry := e })))
/-- OPS_SLUSH_ENTRY. -/
def execOpsSlushEntry (v : VCtx) (e : OpsEntry) (s : State) : Answer :=
  s.vaneWrite v (0x8000, 5) (leBytes 64 (opsEntryWord e)) none (opsSlushEntryWrite e)

end Sys2Proof.Machine
end

