-- ==== Sys2Proof/Machine/Image.lean ====
section
/-! DEFINITION. Table images: their layout (R177, R181, R184, R202, R225, R260 to R262, R301) and the checks of Table 9-15 (R266). -/

namespace Sys2Proof.Machine
open Sys2Proof

/-- The first `n` pieces of `k` bytes, each as a number. -/
def pieces (k : Nat) : Nat → Bytes → List Nat
  | 0, _ => []
  | n + 1, b => leNat (b.take k) :: pieces k n (b.drop k)
/-- The pieces as a table without the entries that equal `d`. -/
def pieceTab (d k n : Nat) (b : Bytes) : Tab Nat := (((List.range n).zip (pieces k n b))).filter (fun x => x.2 != d)
def tabOf {α : Type} (f : Nat → α) (t : Tab Nat) : Tab α := t.map (fun x => (x.1, f x.2))

-- Entries
def nodeEntOf (v : Nat) : NodeEnt := { kind := field v 0 3, pkg := field v 4 9, hport := field v 13 3, rsvd := field v 3 1 + field v 16 16 }
def routeEntOf (v : Nat) : RouteEnt := { kind := field v 0 3, target := field v 4 8, wmode := v.testBit 12, rsvd := field v 3 1 + field v 13 19 }
def eventEntOf (v : Nat) : EventEnt :=
  { kind := field v 0 4, rsvd := field v 4 12, period := field v 16 32, offset := field v 48 32, len := field v 80 16, target := field v 96 32 }
def phaseEntOf (v : Nat) : PhaseEnt :=
  { inst := field v 0 12, phase := field v 12 4, next := field v 16 16, start := field v 32 16, len := field v 48 16, cells := field v 64 16,
    flakes := field v 80 24, rsvd := field v 104 24 }
def driftRuleOf (v : Nat) : DriftRule :=
  { ctx := field v 0 16, anyCtx := v.testBit 16, when_ := field v 17 1, landFirst := field v 32 12, landCount := field v 44 13,
    rsvd := field v 18 14 + field v 57 71 }
def driftOf (b : Bytes) : DriftCfg :=
  let h := leAt b 0 64
  let rules := (pieces 16 256 (b.drop 64)).map driftRuleOf
  let lands := (pieces 16 4096 (b.drop 4160)).map (fun v => (field v 0 64, field v 64 32, field v 96 32))
  { nrules := field h 0 16, nland := field h 16 16, hotThr := field h 32 16, coldThr := field h 48 16, coldAge := field h 64 24,
    maxMoves := field h 88 16,
    rsvd := field h 104 408 + (rules.map (fun r => r.rsvd)).sum + (lands.map (fun l => l.2.2)).sum,
    rules := rules.take (field h 0 16), lands := lands.take (field h 16 16) }
/-- The node sets of the OPS section, in order. -/
def nodeSetsOf : Nat → Bytes → List (List Nat)
  | 0, _ => []
  | fuel + 1, b =>
    if b.length < 2 then [] else
    let n := leAt b 0 2
    if b.length < 2 + 2 * n then [] else pieces 2 n (b.drop 2) :: nodeSetsOf fuel (b.drop (2 + 2 * n))

/-- The fields of Table 9-5, from bit 0. -/
def headerWidths : List Nat := [32, 16, 8, 8, 32, 32, 64, 64, 64, 2, 2, 4, 8, 5, 3, 8, 5, 27, 64, 64]
def dirOf (b : Bytes) : List (Nat × Nat × Nat × Nat) :=
  (pieces 16 16 (b.drop 64)).map (fun v => (field v 0 8, field v 8 24 + field v 96 32, field v 32 32, field v 64 32))
def sectOf (dir : List (Nat × Nat × Nat × Nat)) (ty : Nat) : Option (Nat × Nat) :=
  (dir.find? (fun d => d.1 == ty)).map (fun d => (d.2.2.1, d.2.2.2))
/-- The bytes of a section; none of an absent one. -/
def sectBytes (b : Bytes) (dir : List (Nat × Nat × Nat × Nat)) (ty : Nat) : Bytes :=
  match sectOf dir ty with
  | some (o, l) => slice b o l
  | none => []
/-- An image decoded from its bytes. -/
def decodeImage (b : Bytes) : Image :=
  let h := unpack headerWidths (leAt b 0 64)
  let g := fun i => h.getD i 0
  let dir := dirOf b
  let nodes := sectBytes b dir 1
  let route := sectBytes b dir 2
  let path := sectBytes b dir 3
  let admTab := sectBytes b dir 4
  let ops := sectBytes b dir 6
  let prog := sectBytes b dir 7
  let sched := sectBytes b dir 8
  { imgLen := g 4, magic := g 0, format := g 1, signer := g 2, version := g 6, setId := g 7, devUid := g 8, role := g 9, rack := g 11, pos := g 12,
    nracks := g 13, k := g 14, guardSlots := g 15, hyperLog2 := g 16, build := g 18,
    rsvd := g 3 + g 5 + g 10 + g 17 + g 19 + leAt b 320 192 + (dir.map (fun d => d.2.1)).sum,
    dir := dir,
    nodes := tabOf nodeEntOf (pieceTab 0 4 4096 nodes),
    routes := tabOf routeEntOf (pieceTab 0 4 4096 route),
    uplink := pieceTab 0xFFFF 2 64 path,
    bucket := pieceTab 0 1 256 (path.drop 128),
    alt := pieceTab 0xFFFF 2 256 (path.drop 384),
    seed := leAt path 896 4,
    admTab := tabOf (fun v => (field v 0 24, field v 32 24)) (pieceTab 0 8 2660 admTab),
    admitRsvd := ((pieces 8 2660 admTab).map (fun v => field v 24 8 + field v 56 8)).sum,
    accr := pieceTab 0 1 4096 (sectBytes b dir 5),
    ops := tabOf opsEntryOf (pieceTab 0 64 4096 ops),
    nodeSets := nodeSetsOf 65536 (ops.drop 262144),
    prog := pieceTab 0 8 4096 prog,
    consts := pieceTab 0 4 8192 (prog.drop 32768),
    timing := tabOf (fun v => (field v 0 32, field v 32 32)) (pieceTab 0 16 4096 sched),
    colRes := pieceTab 0 4 532 (sched.drop 65536),
    events := tabOf eventEntOf (pieceTab 0 16 256 (sched.drop 67664)),
    phases := ((List.range 65536).zip (pieces 16 ((sched.drop 71760).length / 16) (sched.drop 71760))).map (fun x => (x.1, phaseEntOf x.2)),
    drift := if (sectOf dir 9).isSome then some (driftOf (sectBytes b dir 9)) else none,
    hash := (Config.sha384 b).toNat }

-- Header and directory (codes 0x01, 0x02, 0x07)
/-- The SPINE packages per plane that R31 gives for a number of racks. -/
def spinesFor (nracks : Nat) : Nat := if nracks ≤ 4 then 1 else if nracks ≤ 8 then 2 else 4
def headerOk (m : Image) : Bool :=
  m.magic == 0x314C4254 && m.format == 3 && decide (m.signer ≤ 3) && decide (m.role ≤ 2) && m.rsvd == 0 &&
  (if m.role == 0 then m.nracks == 1 && m.rack == 0 && m.k == 0
   else decide (2 ≤ m.nracks) && decide (m.nracks ≤ 16) && decide (m.rack < m.nracks) && m.k == spinesFor m.nracks) &&
  (if m.role == 2 then decide (m.pos < 18 * m.k) else decide (m.pos ≤ 17)) &&
  decide (2 ≤ m.guardSlots) && decide (m.guardSlots ≤ 64) && decide (10 ≤ m.hyperLog2) && decide (m.hyperLog2 ≤ 20)
def sectLenOk (ty len : Nat) : Bool :=
  match ty with
  | 1 => len == 16384 | 2 => len == 16384 | 3 => len == 900 | 4 => len == 21280 | 5 => len == 4096
  | 6 => decide (262144 ≤ len) && decide (len ≤ 327680) | 7 => len == 65536
  | 8 => decide (71760 ≤ len) && (len - 71760) % 16 == 0 && decide (len ≤ 71760 + 16 * 65536) | 9 => len == 69696
  | _ => false
def disjointFrom (o l : Nat) : List (Nat × Nat × Nat × Nat) → Bool
  | [] => true
  | d :: r => (decide (o + l ≤ d.2.2.1) || decide (d.2.2.1 + d.2.2.2 ≤ o)) && disjointFrom o l r
def dirOk (imgLen : Nat) : List (Nat × Nat × Nat × Nat) → Bool
  | [] => true
  | d :: r =>
    sectLenOk d.1 d.2.2.2 && decide (512 ≤ d.2.2.1) && d.2.2.1 % 64 == 0 && decide (d.2.2.1 + d.2.2.2 + 96 ≤ imgLen) &&
    !(r.any (fun e => e.1 == d.1)) && disjointFrom d.2.2.1 d.2.2.2 r && dirOk imgLen r
def directoryOk (m : Image) : Bool :=
  let used := m.dir.filter (fun d => d.1 != 0)
  dirOk m.imgLen used && [1, 2, 3, 4, 8].all (fun t => (sectOf used t).isSome) && ((sectOf used 6).isNone || (sectOf used 7).isSome)

-- NODES (code 0x08)
/-- The package number of an image (Table 9-8). -/
def Image.pkgNo (m : Image) : Nat := if m.role == 2 then 288 + m.pos else 18 * m.rack + m.pos
/-- A package of the set: LEAF j of a rack, or a SPINE. -/
def pkgOk (m : Image) (p : Nat) : Bool := decide (p < 18 * m.nracks) || (decide (288 ≤ p) && decide (p < 288 + 18 * m.k))
def nodeEntOk (m : Image) (n : Nat) (e : NodeEnt) : Bool :=
  e.rsvd == 0 && decide (n < 0xFFF) &&
  match e.kind with
  | 0 => e.pkg == 0 && e.hport == 0
  | 1 => e.pkg == 0 && e.hport == 0 && decide (n < 192 * m.nracks)
  | 2 => e.hport == 0 && decide (e.pkg < 18 * m.nracks) && n == 0xC00 + e.pkg
  | 3 => e.hport == 0 && decide (288 ≤ e.pkg) && decide (e.pkg < 288 + 18 * m.k) && n == 0xD20 + (e.pkg - 288)
  | 4 => decide (0xD68 ≤ n) && pkgOk m e.pkg
  | 5 => decide (0xD68 ≤ n) && e.hport == 0 && pkgOk m e.pkg
  | _ => false
/-- No end-point of kinds 2 to 5 holds two numbers (R40). -/
def nodesOnce : Tab NodeEnt → Bool
  | [] => true
  | x :: r => (x.2.kind ≤ 1 || !(r.any (fun y => y.2 == x.2))) && nodesOnce r
def nodesOk (m : Image) (lh : Bool) : Bool :=
  m.nodes.all (fun x => nodeEntOk m x.1 x.2) && nodesOnce m.nodes &&
  (nodeOf m (if m.role == 2 then 3 else 2) m.pkgNo 0).isSome && (!lh || (nodeOf m 5 m.pkgNo 0).isSome)

-- ROUTE and PATH (code 0x09)
/-- The buffer pool that Table 7-2 gives to an admission point under an image; none where it receives no VC. -/
def Image.pool (m : Image) (a : Nat) : Option Nat :=
  if 256 ≤ a then some 0
  else if m.role == 2 then some 0
  else if m.role == 1 && m.uplink.any (fun x => x.2 == a) then some 1
  else if a % 4 == 3 && !(m.routes.any (fun x => x.2.kind == 1 && x.2.target == a)) then none
  else some 0
/-- Whether a node stands in the LEAF's own rack (R182). -/
def Image.ownRack (m : Image) (n : Nat) : Bool :=
  let e := nodeEnt m n
  if e.kind == 1 then n / 192 == m.rack else if e.kind == 0 || e.kind == 3 then false else decide (e.pkg < 288) && e.pkg / 18 == m.rack
def routeOk (m : Image) (n : Nat) (r : RouteEnt) : Bool :=
  let e := nodeEnt m n
  r.rsvd == 0 && (r.kind == 0 || e.kind != 0) &&
  match r.kind with
  | 0 => r.target == 0
  | 1 => m.pool r.target != some 1
  | 2 => decide (r.target ≤ 8) && e.pkg == m.pkgNo &&
      (if r.target == 0 then e.kind == 2 || e.kind == 3 || e.kind == 5 else e.kind == 4 && e.hport + 1 == r.target)
  | 3 => r.target == 0 && m.role == 1 && !m.ownRack n
  | 4 => m.role == 2 && decide (r.target < m.nracks)
  | _ => false
/-- Steps of the ALT chain from a port, at most `fuel`. -/
def altSteps (m : Image) : Nat → Nat → Nat
  | 0, _ => 0
  | fuel + 1, p => if tget 0xFFFF m.alt p == 0xFFFF then 0 else 1 + altSteps m fuel (tget 0xFFFF m.alt p)
def pathOk (m : Image) : Bool :=
  let up := fun (p : Nat) => m.uplink.any (fun x => x.2 == p)
  m.uplink.all (fun x => decide (x.2 ≤ 255)) &&
  m.alt.all (fun x => decide (x.2 ≤ 255) && (!(up x.1) || up x.2) &&
    (m.role != 2 || x.1 / (64 / max 1 m.k) == x.2 / (64 / max 1 m.k))) &&
  m.bucket.all (fun x => decide (x.2 ≤ 63)) &&
  (List.range 256).all (fun b => tget 0xFFFF m.uplink (tget 0 m.bucket b) != 0xFFFF) &&
  (List.range 256).all (fun p => decide (altSteps m 5 p ≤ 4))
def routesOk (m : Image) : Bool := m.routes.all (fun x => routeOk m x.1 x.2) && pathOk m

-- ADMIT (code 0x0A)
def Image.floorCap (m : Image) (a v : Nat) : Nat × Nat := tget (0, 0) m.admTab (10 * a + v)
/-- The least FLOOR of a class at an admission point (R179). -/
def Image.leastFloor (m : Image) (a pool cls : Nat) : Nat :=
  match cls with
  | 0 => 2 | 1 => 1 | 2 => 2 | 3 => tget 0 m.colRes (2 * a + pool) | _ => 5
def admitOk (m : Image) : Bool :=
  m.admitRsvd == 0 &&
  (List.range 266).all (fun a => (List.range 10).all (fun v =>
    let fc := m.floorCap a v
    decide (fc.1 ≤ fc.2) && decide (fc.2 ≤ 6291456) &&
    (if m.pool a == some (v / 5) then decide (m.leastFloor a (v / 5) (v % 5) ≤ fc.1) else fc == (0, 0)))) &&
  decide ((m.admTab.map (fun x => x.2.1)).sum ≤ 5242880)

-- OPS and PROG (code 0x0B)
/-- The words of the program at `at_` up to its END; none where no END comes within 64 words (R217, R218). -/
def programOf (prog : Tab Nat) : Nat → Nat → Option (List Nat)
  | 0, _ => none
  | n + 1, at_ =>
    if 4096 ≤ at_ then none
    else if field (tget 0 prog at_) 0 6 == 0x3F then some [tget 0 prog at_]
    else (programOf prog n (at_ + 1)).map (fun r => tget 0 prog at_ :: r)
/-- Whether IMM of a TOPK word names a list of its instance (R218): one of a TOPK's, or one that fits the instance state of a tile (R202). -/
def listOk (e : OpsEntry) (imm : Nat) : Bool := if e.opkind == 6 then decide (imm < e.nelem) else decide (8 * e.topkK * (imm + 1) ≤ 196608)
/-- A word of a program of an instance (R218): `exit` for an exit program. IMM of an LDE in an entry program, to which Table 8-6 gives no meaning, is 0
(DESIGN CHOICE, log 48). -/
def wordOk (exit : Bool) (e : OpsEntry) (w : Nat) : Bool :=
  let op := field w 0 6
  let imm := field w 32 16
  decide (field w 6 4 ≤ 10) && field w 29 3 == 0 && field w 48 16 == 0 && (decide (op ≤ 0x14) || op == 0x3F) &&
  !(exit && (op == 0x11 || op == 0x12 || op == 0x13)) && !(!exit && op == 0x14) &&
  (match op with
   | 0x01 => if exit then decide (imm ≤ 8) else imm == 0
   | 0x02 => decide (imm < 2)
   | 0x03 => decide (imm < 8192)
   | 0x04 => decide (imm < 49152)
   | 0x05 => decide (imm < 49152)
   | 0x12 => decide (imm < 8)
   | 0x13 => listOk e imm
   | _ => true)
def programOk (m : Image) (exit : Bool) (e : OpsEntry) (at_ : Nat) : Bool :=
  match programOf m.prog 64 at_ with
  | none => false
  | some ws => ws.all (wordOk exit e) && (!exit || ((ws.filter (fun w => field w 0 6 == 0x14)).length == 1))
/-- The words of an instance's entry program and of its exit program. -/
def entryWords (m : Image) (e : OpsEntry) : List Nat := if hasEntry e then progWords m.prog 64 e.entryProg else []
def exitWords (m : Image) (e : OpsEntry) : List Nat := if e.exitProg == 0xFFF then [] else progWords m.prog 64 e.exitProg
/-- Greatest IMM + 1 among the words of some operations. -/
def immTop (ops : List Nat) (ws : List Nat) : Nat := (ws.filter (fun w => ops.contains (field w 0 6))).foldl (fun a w => max a (field w 32 16 + 1)) 0
/-- Stripe groups of an instance in a tile. -/
def groupsAt (e : OpsEntry) (t : Nat) : List Nat := (List.range e.groups).filter (fun g => e.tile g == t)
def countDistinct (l : List Nat) : Nat := (l.foldl addNew []).length
/-- Bytes of instance state that an instance needs in a tile (R227, log 26): 4 for each side word of a contributor's token, 8 for a pair (m, l) of a query row
and for each candidate of a list, 4 for each state word that a program names. -/
def opsStateBytes (m : Image) (e : OpsEntry) (t : Nat) : Nat :=
  let gs := groupsAt e t
  let es := (gs.map e.elems).flatten
  let side := if e.opkind == 4 then 1 else if e.opkind == 5 then 2 else immTop [0x02] (entryWords m e)
  let tokens := if e.opkind == 5 then countDistinct (gs.map (· / max 1 e.qgroups)) else countDistinct (es.map (Config.tokenOf e.inst))
  let lists := if e.opkind == 6 then es.length else immTop [0x13] (entryWords m e)
  (if side == 0 then 0 else 4 * side * e.ncontrib * tokens) + 8 * e.topkK * lists + 4 * immTop [0x04, 0x05] (entryWords m e ++ exitWords m e)
def opsEntryOk (m : Image) (i : Nat) (e : OpsEntry) : Bool :=
  e.opkind == 0 ||
  (e.rsvd == 0 && e.inst == i && decide (e.opkind ≤ 8) && decide (e.inFmt ≤ 12) && decide (e.outFmt ≤ 12) &&
   (!(fmtMx e.outFmt) || e.nelem % 32 == 0) &&
   decide (1 ≤ e.ncontrib) && decide (1 ≤ e.tileCount) && decide (e.tileCount ≤ 256) && decide (e.naux ≤ 8) && e.flagOff % 8 == 0 &&
   (if e.opkind == 6 || (entryWords m e).any (fun w => field w 0 6 == 0x13) then decide (1 ≤ e.topkK) && decide (e.topkK ≤ 64) else e.topkK == 0) &&
   decide (immTop [0x12] (entryWords m e) ≤ e.naux) && decide (immTop [0x01] (exitWords m e) ≤ e.naux + 1) &&
   (e.upnode == 0xFFF || (e.exitProg == 0xFFF && e.opkind != 5)) &&
   (if e.opkind == 5 then decide (1 ≤ e.naux) && decide (1 ≤ e.qgroups) && e.nelem % (64 * max 1 e.qgroups) == 0 else e.qgroups == 0))
/-- Whether a phase, widened by the guard, occupies a slot (R263). -/
def phaseCovers (period anchor guard : Nat) (p : PhaseEnt) (slot : Nat) : Bool :=
  decide ((slot + 2 * period - (anchor + p.start) % period + guard) % period < p.len + 2 * guard)
/-- CELLS and FLAKES that the schedule places on a tile in a slot, each phase widened by a guard on both sides. -/
def slotLoad (m : Image) (guard t slot : Nat) : Nat × Nat :=
  m.ops.foldl (fun (a : Nat × Nat) x =>
    if x.2.opkind == 0 || x.2.tileCount ≤ (t + 256 - x.2.tileFirst % 256) % 256 then a else
    let tm := tget (0, 0) m.timing x.1
    (phaseChain m 16 x.2.phaseFirst).foldl (fun (b : Nat × Nat) p =>
      if phaseCovers (max 1 tm.1) tm.2 guard p slot then (b.1 + p.cells, b.2 + p.flakes) else b) a) (0, 0)
/-- Whether the loads of every tile stay within R204 and R214 in every slot of the hyperperiod. -/
def loadsOk (m : Image) (guard : Nat) : Bool :=
  (List.range 256).all (fun t => (List.range (2 ^ m.hyperLog2)).all (fun sl =>
    decide ((slotLoad m guard t sl).1 ≤ 1600) && decide ((slotLoad m guard t sl).2 ≤ 6291456)))
/-- No two instances share a row of a tile (R225). -/
def rowsDisjoint (t : Nat) : List OpsEntry → Bool
  | [] => true
  | e :: r => r.all (fun f => decide ((opsRows e t).2 ≤ (opsRows f t).1) || decide ((opsRows f t).2 ≤ (opsRows e t).1)) && rowsDisjoint t r
/-- The programs that instances name (R218). -/
def progsOk (m : Image) : Bool :=
  m.ops.all (fun x => x.2.opkind == 0 ||
    ((!hasEntry x.2 || programOk m false x.2 x.2.entryProg) && (x.2.exitProg == 0xFFF || programOk m true x.2 x.2.exitProg)))
/-- The entries of the OPS section (R203, R204, R214, R225, R227). -/
def opsOk (m : Image) : Bool :=
  m.ops.all (fun x => opsEntryOk m x.1 x.2) &&
  (List.range 256).all (fun t =>
    let here := (m.ops.map Prod.snd).filter (fun e => e.opkind != 0 && decide (0 < OpsGroupsIn e t))
    decide (here.length ≤ 64) && here.all (fun e => decide ((opsRows e t).2 ≤ 131072)) && rowsDisjoint t here &&
    decide ((here.map (fun e => opsStateBytes m e t)).sum ≤ 196608)) && loadsOk m 0

-- SCHED (code 0x0C)
/-- A chain of phases: its own instance, numbered 0, 1, 2 …, at least the guard apart, and over by the guard before the period ends. -/
def chainOk (i guard period : Nat) : Nat → Nat → List PhaseEnt → Bool
  | _, _, [] => true
  | k, from_, p :: r =>
    p.inst == i && p.phase == k && decide (1 ≤ p.len) && p.rsvd == 0 && decide (from_ ≤ p.start) &&
    (if r.isEmpty then decide (p.start + p.len + guard ≤ period) else true) && chainOk i guard period (k + 1) (p.start + p.len + guard) r
def instSchedOk (m : Image) (i : Nat) (e : OpsEntry) : Bool :=
  e.opkind == 0 ||
  (let t := tget (0, 0) m.timing i
   let c := phaseChain m 16 e.phaseFirst
   decide (1 ≤ t.1) && !c.isEmpty && c.getLast?.any (fun p => p.next == 0xFFFF) && chainOk i m.guardSlots t.1 0 0 c)
def eventOk (m : Image) (e : EventEnt) : Bool :=
  decide (e.kind ≤ 4) && e.rsvd == 0 &&
  (e.kind == 0 || (2 ^ m.hyperLog2 % max 1 e.period == 0 && decide (1 ≤ e.period) && decide (e.offset < e.period) && decide (1 ≤ e.len) &&
    (match e.kind with
     | 1 => e.len == 1 && e.target == 0
     | 4 => decide (e.target < 2 ^ 24)
     | _ => decide (e.target < 65536) && decide (e.target % 256 + e.target / 256 ≤ 255))))
def schedOk (m : Image) (grace : Nat) : Bool :=
  decide (grace ≤ m.guardSlots) &&
  m.timing.all (fun x => x.2 == (0, 0) || (decide (1 ≤ x.2.1) && 2 ^ m.hyperLog2 % x.2.1 == 0 && decide (x.2.2 < x.2.1))) &&
  m.events.all (fun x => eventOk m x.2) &&
  m.ops.all (fun x => instSchedOk m x.1 x.2) &&
  m.colRes.all (fun x => decide (x.2 ≤ (m.floorCap (x.1 / 2) (3 + 5 * (x.1 % 2))).1)) &&
  loadsOk m m.guardSlots

-- DRIFT (code 0x0D)
def landEnd (l : Nat × Nat × Nat) : Nat := l.1 + l.2.1 * 2097152
def landOk (m : Image) (l : Nat × Nat × Nat) : Bool :=
  let n := l.1 / 2 ^ 41
  decide (l.1 < 2 ^ 53) && l.1 % 2097152 == 0 && decide (1 ≤ l.2.1) && decide (l.2.1 ≤ 2 ^ 20) &&
  (let k := (nodeEnt m n).kind; k == 1 || k == 2 || k == 3 || k == 5) &&
  !((nodeEnt m n).kind != 1 && (nodeEnt m n).pkg == m.pkgNo) && decide (l.1 % 2 ^ 41 + l.2.1 * 2097152 ≤ 2 ^ 41)
def landsDisjoint : List (Nat × Nat × Nat) → Bool
  | [] => true
  | l :: r => r.all (fun k => decide (landEnd l ≤ k.1) || decide (landEnd k ≤ l.1)) && landsDisjoint r
def driftOk (m : Image) : Bool :=
  match m.drift with
  | none => true
  | some d =>
    decide (d.nrules ≤ 256) && decide (d.nland ≤ 4096) && decide (d.coldAge ≤ 2 ^ 23) && d.rsvd == 0 &&
    d.rules.all (fun r => decide (1 ≤ r.landCount) && decide (r.landFirst + r.landCount ≤ d.nland) && (!r.anyCtx || r.ctx == 0)) &&
    d.lands.all (landOk m) && landsDisjoint d.lands

/-- The signature of an image (R264): ECDSA over P-384 with SHA-384, over all but the last 96 bytes, which are r and then s in big-endian order. -/
def imageSigOk (key : Nat) (b : Bytes) : Bool :=
  let n := b.length - 96
  Config.ecdsaP384 key (Config.sha384 (b.take n)) (leNat ((b.drop n).take 48).reverse) (leNat (b.drop (n + 48)).reverse)
/-- The checks of Table 9-15 in order: code, section TYPE and byte offset of the section of the first that fails; code 0 where none does. -/
def imageCheck (s : State) (b : Bytes) : Nat × Nat × Nat :=
  let m := decodeImage b
  let at_ := fun (code ty : Nat) => (code, ty, ((sectOf m.dir ty).map Prod.fst).getD 0)
  if m.imgLen != b.length || b.length < 1024 || 4194304 < b.length then (0x01, 0, 0)
  else if !headerOk m then (0x02, 0, 0)
  else if m.devUid != s.dev.uid then (0x03, 0, 0)
  else if (m.role == 2) != s.dev.spine then (0x04, 0, 0)
  else if tget 0 s.tbl.signers m.signer == 0 || !imageSigOk (tget 0 s.tbl.signers m.signer) b then (0x05, 0, 0)
  else if m.version ≤ s.tbl.active.version then (0x06, 0, 0)
  else if !directoryOk m then (0x07, 0, 64)
  else if !nodesOk m s.dev.variantLH then at_ 0x08 1
  else if !(m.routes.all (fun x => routeOk m x.1 x.2)) then at_ 0x09 2
  else if !pathOk m then at_ 0x09 3
  else if !admitOk m then at_ 0x0A 4
  else if !opsOk m then at_ 0x0B 6
  else if !progsOk m then at_ 0x0B 7
  else if !schedOk m s.ops.grace then at_ 0x0C 8
  else if !driftOk m then at_ 0x0D 9
  else (0, 0, 0)

end Sys2Proof.Machine
end

