-- ==== Sys2Proof/Machine/FarunCmds.lean ====
section
/-! DEFINITION. The commands of attached Farun end-points: requests and releases (R3, R125, R133, R157 to R159, R194, R447, R465), fences, RESYNCs, and
contributions to collectives by the contributor plan (R224, R251, R258). -/

namespace Sys2Proof.Machine
open Sys2Proof

-- Contributions (R224)
/-- The plan entries of the instance that a packet is for, with their places in the plan. -/
def Farun.planOf (f : Farun) (t : Txn) : List (Nat × PlanEnt) :=
  (f.plan.zipIdx.filter (fun e => e.1.dnode == t.dnode && e.1.inst == t.inst)).map (fun e => (e.2, e.1))
/-- Whether an entry of the plan has been sent wholly in a run. -/
def ColRun.sent (r : ColRun) (e : Nat × PlanEnt) : Bool := decide (e.2.sides ≤ tget 0 r.sides e.1) && decide (e.2.count ≤ tget 0 r.elems e.1)
/-- The run that is due for an instance (R259): by its run-start slots, or without time the next one once the whole plan has been sent or an ABORT has stopped it. -/
def State.colRun (s : State) (f : Farun) (t : Txn) : ColRun :=
  let es := f.planOf t
  let r := tget {} f.runs (runKey t.dnode t.inst)
  let p := (es.headD (0, {})).2
  if s.farunTimed f then
    let k := (s.farunNow f / 1024 - p.anchor) / max 1 p.period
    if k == r.run then r else { run := k }
  else if r.stopped || es.all r.sent then { run := r.run + 1, credit := true }
  else { r with credit := true }
/-- Credits of class COL that the partner of a port holds and has not used (R178). -/
def State.colCredits (s : State) (f : Farun) (p : Nat) : Nat := (s.admOf p 3).out - tget 0 f.flying p
/-- Whether a packet is the next of a plan entry: its COL_SIDE packets first, then its elements in order, each once. -/
def nextOf (r : ColRun) (t : Txn) (e : Nat × PlanEnt) : Bool :=
  e.2.phase == t.phase && e.2.contrib == t.contrib &&
  (if t.ty == .colSide then decide (tget 0 r.sides e.1 < e.2.sides)
   else decide (e.2.sides ≤ tget 0 r.sides e.1) && t.eoff == e.2.first + tget 0 r.elems e.1 && decide (tget 0 r.elems e.1 + colCount t ≤ e.2.count))
/-- Cells that an entry has sent in the present slot. -/
def ColRun.cellsIn (r : ColRun) (slot i : Nat) : Nat := if tget 0 r.slot i == slot then tget 0 r.used i else 0
/-- Whether the plan lets the packet go now: in its slots and within its cells, or in credit-only operation in plan order (R224, R233). -/
def State.planAllows (s : State) (f : Farun) (r : ColRun) (t : Txn) (e : Nat × PlanEnt) : Bool :=
  let slot := s.farunNow f / 1024
  let at_ := slot - (e.2.anchor + r.run * e.2.period)
  if r.credit then ((f.planOf t).takeWhile (fun x => x.1 != e.1)).all r.sent
  else decide (e.2.start ≤ at_) && decide (at_ < e.2.start + e.2.len) && decide (r.cellsIn slot e.1 + t.cells ≤ e.2.cells)
/-- A packet of the end-point's contribution: it goes by the plan and under credits, or not now. -/
def State.farunCol (s : State) (n : Nat) (t0 : Txn) : State :=
  let f := s.farunOf n
  let t := { t0 with snode := n }
  let r := s.colRun f t
  match (f.planOf t).find? (nextOf r t) with
  | none => s
  | some e =>
    if r.stopped || !f.ports.contains e.2.port || f.absent.contains t.dnode || s.colCredits f e.2.port < t.cells || !s.planAllows f r t e then s
    else
      let slot := s.farunNow f / 1024
      let r1 := { r with sides := if t.ty == .colSide then tmod 0 r.sides e.1 (· + 1) else r.sides,
                         elems := if t.ty == .colData then tmod 0 r.elems e.1 (· + colCount t) else r.elems,
                         slot := tset r.slot e.1 slot, used := tset r.used e.1 (r.cellsIn slot e.1 + t.cells) }
      (s.modFarun n (fun f => { f with runs := tset f.runs (runKey t.dnode t.inst) r1, flying := tmod 0 f.flying e.2.port (· + t.cells) })).emit (.farun n e.2.port t)

/-- FARUN_ISSUE (R3, R36, R37, R125, R133, R157 to R159, R194, R224, R447, R465): a request of one of the declared engines with a native address, its release
form, or a packet of the contribution. Nothing is issued while the engine fences, waits for an acquire or for a release, or on a broken flow. A release
without a fence just before it fences first (R158). -/
def execFarunIssue (node engine : Nat) (r : FarunReq) (s : State) : Answer :=
  let f := s.farunOf node
  let t := r.txn
  if !s.isFarun node || s.farunNode node != node then .next s
  else if t.ty == .colData || t.ty == .colSide then .next (s.farunCol node t)
  else if !(t.ty == .rd || t.ty == .wr || t.ty == .atom) || 2 ≤ t.akind || f.engines ≤ engine then .next s
  else if f.fencing.contains engine || f.acquiring.contains engine || f.releases.any (fun r => r.1 == engine) || s.farunWaits node { ownFa node t with snode := node } then .next s
  else if r.rel && t.ty != .rd && !f.fenced.contains engine then
    .next ((s.modFarun node (fun f => { f with fencing := addNew f.fencing engine, releases := f.releases ++ [(engine, t)] })).fenceEnd node engine)
  else .next (s.farunSend node engine t)
/-- FENCE (R157). -/
def execFence (node engine : Nat) (s : State) : Answer :=
  .next (if s.isFarun node && engine < (s.farunOf node).engines then (s.modFarun node (fun f => { f with fencing := addNew f.fencing engine })).fenceEnd node engine else s)
/-- RESYNC_ISSUE (R134, R157, R159, R167, R194): an engine that does not fence or wait for an acquire resynchronises a flow, once it has no outstanding request;
a request that R87 has reissued follows it. -/
def execResyncIssue (unit : FarunUnit) (ctx flow dest : Nat) (s : State) : Answer :=
  let node := unit.node
  let engine := unit.engine
  let f := s.farunOf node
  let same := fun (r : Nat × OutReq) => s.ofFarun node r.1 && r.2.t.ctx == ctx && r.2.t.flow == flow && (r.2.t.dest == some dest || r.2.t.dest.isNone)
  let due := f.broken.contains (ctx, flow, dest) || f.broken.contains (ctx, flow, 0xFFF) || f.unsync.contains (engine, (ctx, flow, dest)) ||
    f.unsync.contains (engine, (ctx, flow, 0xFFF))
  if !due || f.engines ≤ engine || f.fencing.contains engine || f.acquiring.contains engine || s.reqs.any (fun r => same r && r.2.waitUntil.isNone) ||
      f.absent.contains dest then .next s
  else
    let t := { resyncTxn ctx flow dest with kgen := (s.ctx ctx).kgen }
    match s.farunPort node (s.farunPorts node (some dest)) t (some dest) with
    | none => .next s
    | some p =>
      let s1 := s.modFarun node (fun f => { f with
        broken := f.broken.filter (fun b => !(b.1 == ctx && b.2.1 == flow && (b.2.2 == dest || b.2.2 == 0xFFF))),
        unsync := f.unsync.filter (fun u => !(u.1 == engine && u.2.1 == ctx && u.2.2.1 == flow && (u.2.2.2 == dest || u.2.2.2 == 0xFFF))) })
      .next (((s.reqs.filter same).foldl (fun u r => u.farunAgain node r.1 p dest r.2) (s1.farunOut node engine p t (some dest))).farunKick node)

end Sys2Proof.Machine
end

