-- ==== Sys2Proof/Machine/Depart.lean ====
section
/-! DEFINITION. Withdrawals coming to their ends (R108 to R112, R475), departures and returns of nodes (R461 to R466), and the messages between packages that
bring a package the context table (R90, R335; log 16). -/

namespace Sys2Proof.Machine
open Sys2Proof

-- Departures
/-- Drift restores a page that lies in a landing frame at a departed node: an FA-form withdrawal of the frame first (R466). -/
def State.restoreLanded (s : State) (n : Nat) : State :=
  (s.pool.landed.filter (fun l => l.1 / 2 ^ 41 % 4096 == n)).foldl (fun t l => t.startWd true 0 l.1 1 0 0 (.restore l.2.1 l.1)) s
def State.failTouching (s : State) (n : Nat) : State :=
  s.ops.insts.foldl (fun t k =>
    if ((t.inst k.1).st == .running || (t.inst k.1).st == .delivering) && t.instTouches (t.inst k.1) n then t.runFail k.1 .nodeAbsent else t) s
/-- The package of a node under the active image. -/
def State.nodePkg (s : State) (n : Nat) : Option Nat := let e := nodeEnt s.tbl.active n; if decide (2 ≤ e.kind) && decide (e.kind ≤ 5) then some e.pkg else none

-- Ends of withdrawals
/-- The frame of R466 for a page: its former offset while that is a free hole, else the first such hole of its extent. -/
def State.restoreFrame (s : State) (page : Nat) : Option Nat :=
  let free := fun (g : Nat) => (tget {} s.pool.counters g).hole && !(s.pool.landed.any (fun l => l.1 == s.poolFa (g * 2 ^ 21)))
  if free (page / 2 ^ 21) then some (page / 2 ^ 21)
  else match extOfOff s page with
    | some (_, x) => ((List.range (x.len / 2 ^ 21)).map (fun i => x.base / 2 ^ 21 + i)).find? free
    | none => none
/-- Steps 2 to 4 of R466. -/
def State.restorePage (s : State) (page fa : Nat) : State :=
  match s.pool.landed.find? (fun l => l.1 == fa) with
  | none => s
  | some (_, _, entry) =>
    match s.restoreFrame page, extOfOff s page with
    | some g, some (e, x) =>
      let s1 := s.poison e x 7 31 (rangeLines (g * 2 ^ 21) (2 ^ 21))
      let s2 := s1.modPool (fun p => { p with counters := tmod {} p.counters g (fun c => { c with hole := false }), landed := p.landed.filter (fun l => l.1 != fa) })
      s2.issue (readTxn 0 entry 16 0 true) (.notify 3 (entry + 2 ^ 64 * g)) s.reqTimeout
    | _, _ => s.event 4 0x03 2 (fa / 2 ^ 41 % 4096) 0 entry
/-- Sends a binding with its generation (message kind 5 of log 16). -/
def State.bindMsg (s : State) (n c : Nat) : Txn := s.mgt n 5 (c + 2 ^ 16 * tget 0 s.xl.xgen c + 2 ^ 48 * (s.bind c).rec_)
/-- Puts a new binding in force at its home and distributes it (R90). -/
def State.setBind (s : State) (c : Nat) (b : Bind) : State :=
  let s1 := s.modXl (fun x => { x with binds := tset x.binds c b, known := addNew x.known c, binding := x.binding.filter (· != c) })
  ((s.scopeNodes s.inPod).filter (fun n => n != s.poolNode && !s.absent.contains n)).foldl (fun t n => t.sendMgt (t.bindMsg n c)) s1
def State.dropWd (s : State) (id : Nat) : State := s.modXl (fun x => { x with wds := x.wds.filter (fun y => y.id != id) })
/-- A withdrawal has completed: what its cause asks for, then the next that waits (R90, R96, R110 to R112, R356, R466). -/
def State.wdComplete (s : State) (w : Withdrawal) : State :=
  let s1 := match w.cause with
    | .software =>
      if w.nfa == 0 then s.dropWd w.id
      else (s.modXl (fun x => { x with wds := x.wds.map (fun y => if y.id == w.id then { y with finished := true } else y) })).issue
             (storeTxn 0 w.nfa w.nval 8 0) (.notify 0 w.id) s.reqTimeout
    | .invalidate h itag => (s.dropWd w.id).emit (.atsInvDone h itag)
    | .bind c b => (s.dropWd w.id).setBind c b
    | .stop c => (s.dropWd w.id).setBind c (s.bind c).unbound
    | .hostLost _ => (s.dropWd w.id).setBind w.ctx (s.bind w.ctx).unbound
    | .drift mv =>
      let t := s.dropWd w.id
      (match t.move mv with
        | some m => if m.aborting then t.abortMove mv else (t.modMove mv (fun x => { x with stage := 2, doneAt := s.clk })).driftIssue mv 8
        | none => t)
    | .restore page fa => (s.dropWd w.id).restorePage page fa
  wdNext 256 s1
/-- A done notice of package `n` (R108 step 4). -/
def State.wdDone (s : State) (n id : Nat) : State :=
  match s.xl.wds.find? (fun w => w.id == id && w.running && !w.finished) with
  | none => s
  | some w =>
    let left := w.waiting.filter (· != n)
    let s1 := s.modXl (fun x => { x with wds := x.wds.map (fun y => if y.id == id then { y with waiting := left } else y) })
    if w.waiting.contains n && left.isEmpty then s1.wdComplete { w with waiting := left } else s1
/-- A package that answers NODE_ABSENT counts as done (R108). -/
def State.wdAbsent (s : State) (n : Nat) : State := (s.xl.wds.map (fun w => w.id)).foldl (fun t id => t.wdDone n id) s

/-- A home has finished its answer (or is absent): with none left the package admits requests (R335). -/
def State.tableDone (s : State) (n : Nat) : State :=
  if !s.sec.tableWait.contains n then s else
  let left := s.sec.tableWait.filter (· != n)
  s.modSec (fun x => { x with tableWait := left, tableReady := left.isEmpty })
/-- A departure of node `n` is applied (R464). -/
def State.applyLeave (s : State) (n kind uid slot : Nat) : State :=
  let s1 := { s with absent := addNew s.absent n, departures := s.departures + 1, noticeSlot := tset s.noticeSlot n slot }
  let s2 := s1.event 4 0x01 1 n kind uid
  let s3 := s2.dropMarks (fun m => m.snode == n)
  let s4 := (s3.failTouching n).restoreLanded n
  let s5 := ((s4.wdAbsent n).ctxAbsent n).tableDone n
  (if kind == 4 then (match s.nodePkg n with | some p => { s5 with excluded := addNew s5.excluded p } | none => s5) else s5).settlePhase
/-- A return that node `from_` reports (R464); an exclusion ends when the package itself sends it (R475). -/
def State.applyReturn (s : State) (from_ n uid slot : Nat) : State :=
  let s1 := { s with absent := s.absent.filter (· != n), noticeSlot := tset s.noticeSlot n slot,
                     excluded := match s.nodePkg n with | some p => if s.nodePkg from_ == some p then s.excluded.filter (· != p) else s.excluded | none => s.excluded }
  (s1.event 4 0x02 0 n 0 uid).settlePhase
/-- Notices to every accelerator and primary pool node with a route, except the departed nodes and the package's own (R463). -/
def State.sendLeave (s : State) (nodes : List Nat) (kind uid : Nat) : State :=
  let dests := (s.tbl.active.nodes.filter (fun x => decide (1 ≤ x.2.kind) && decide (x.2.kind ≤ 3) && (routeEnt s.tbl.active x.1).kind != 0 &&
      !nodes.contains x.1 && !s.ownNodes.contains x.1)).map Prod.fst
  nodes.foldl (fun t n => dests.foldl (fun u d =>
    u.sendMgt { ty := .nodeLeave, snode := s.poolNode, dnode := d, mkind := kind, lnode := n, slot := s.slot, mword := uid }) t) s
/-- The package declares nodes departed: notices, and the departure applied here unless the nodes are its own (R461, R463). -/
def State.declareLeave (s : State) (nodes : List Nat) (kind uid : Nat) : State :=
  (nodes.filter (fun n => !s.ownNodes.contains n)).foldl (fun t n => t.applyLeave n kind uid s.slot) (s.sendLeave nodes kind uid)
def State.declareReturn (s : State) (nodes : List Nat) (uid : Nat) : State :=
  (nodes.filter (fun n => !s.ownNodes.contains n && s.absent.contains n)).foldl (fun t n => t.applyReturn s.poolNode n uid s.slot) (s.sendLeave nodes 8 uid)
/-- Arrival of a message of class MGT: for another node it is routed on; `k` acts on one for this package. -/
def State.arriveMgt (s : State) (a : Nat) (t : Txn) (k : State → State) : State :=
  if !s.canArrive a then s else
  let s1 := s.takeIn a t
  let e := s1.entry t a (s.vcAt a 4)
  if t.dnode != s.poolNode then s1.routeOn e else k (s1.release e)
def State.mgtDiscard (s : State) : State := { s with xact := { s.xact with mgtDiscarded := s.xact.mgtDiscarded + 1 } }
/-- NODE_LEAVE (R462, R464). -/
def execNodeLeave (adm : Nat) (t : Txn) (s : State) : Answer :=
  .next (s.arriveMgt adm { t with ty := .nodeLeave } (fun u =>
    if t.rsvd != 0 || !(decide (t.mkind ≤ 4) || t.mkind == 8) then u.mgtDiscard
    else if u.ownNodes.contains t.lnode || t.slot < tget 0 u.noticeSlot t.lnode then u
    else if t.mkind == 8 then u.applyReturn t.snode t.lnode t.mword t.slot else u.applyLeave t.lnode t.mkind t.mword t.slot))

-- Messages of the context table
/-- The answer to a package that asks for the entries homed here: states (CTX_STATE_NOTICE), bindings, the end. -/
def State.answerTable (s : State) (n : Nat) : State :=
  let mine := (s.sec.ctxs.filter (fun c => c.2.home == s.poolNode && c.1 != 0)).map Prod.fst
  let s1 := mine.foldl (fun t c => t.sendMgt (t.mgt n 2 (c + 65536 * (s.ctx c).st.code + 2 ^ 24 * (s.ctx c).kgen))) s
  let s2 := ((s.xl.binds.filter (fun b => b.2.homeNode == s.poolNode)).map Prod.fst).foldl (fun t c => t.sendMgt (t.bindMsg n c)) s1
  s2.sendMgt (s2.mgt n 6 0)
/-- Asks the homes of the scope for the entries homed there (R335; message kind 4 of log 16). -/
def State.askTable (s : State) : State :=
  let l := (s.scopeNodes s.inPod).filter (fun n => n != s.poolNode && !s.absent.contains n && (routeEnt s.tbl.active n).kind != 0)
  l.foldl (fun t n => t.sendMgt (t.mgt n 4 0)) (s.modSec (fun x => { x with tableWait := l, tableReady := l.isEmpty }))
/-- A package that itself still waits for the asking one asks again, which was perhaps not there when first asked (log 28). -/
def State.askAgain (s : State) (n : Nat) : State := if s.sec.tableWait.contains n then s.sendMgt (s.mgt n 4 0) else s
/-- MGT_MSG (R120): kinds 4 and 8 ask, 5 and 6 answer, 9 to 12 carry ATS exchanges and page requests of other packages' walkers (log 16); 1, 2, 3 and 7 act
as the commands of their own; the rest is discarded and counted. -/
def execMgtMsg (adm : Nat) (t : Txn) (s : State) : Answer :=
  .next (s.arriveMgt adm { t with ty := .mgtMsg } (fun u =>
    if t.rsvd != 0 then u.mgtDiscard
    else match t.mkind with
      | 1 => u | 2 => u | 3 => u | 7 => u
      | 4 => (u.answerTable t.snode).askAgain t.snode
      | 5 =>
        let c := field t.mword 0 16
        u.modXl (fun x => { x with binds := tset x.binds c (bindOf (field t.mword 48 128)), xgen := tset x.xgen c (field t.mword 16 32), known := addNew x.known c })
      | 6 => u.tableDone t.snode
      | 8 => u.sendMgt (u.bindMsg t.snode (field t.mword 0 16))
      | 9 => u.remoteAts t.snode (field t.mword 0 7) (field t.mword 7 16) (field t.mword 23 57)
      | 10 =>
        let w := field t.mword 0 7
        let u1 := match u.walker w with
          | some k => u.modXl (fun x => { x with remoteApt := tset x.remoteApt (u.bind k.m.ctx).hostNode (field t.mword 208 64, field t.mword 272 8) })
          | none => u
        u1.atsDone w (field t.mword 16 64) (field t.mword 80 64) (bitOf t.mword 7) (bitOf t.mword 8) (bitOf t.mword 9)
      | 11 => u.remotePage t.snode (field t.mword 0 16) (field t.mword 17 57) (bitOf t.mword 16)
      | 12 => u.pageAnswer (field t.mword 0 16) (field t.mword 17 57) (bitOf t.mword 16)
      | _ => u.mgtDiscard))

-- Contexts, keys, bundles: the commands
/-- CTX_ACTIVATE (R336, R337). -/
def execCtxActivate (v : VCtx) (c : Nat) (clean : Bool) (nfa nval : Nat) (s : State) : Answer :=
  s.vaneWrite v ctxCtlObj (ctxCtlBytes 1 c clean nfa nval) (some (.ctx c)) (ctxActivateWrite c clean nfa nval)
/-- CTX_STOP (R335, R336, R355). -/
def execCtxStop (v : VCtx) (c nfa nval : Nat) (s : State) : Answer :=
  s.vaneWrite v ctxCtlObj (ctxCtlBytes 2 c false nfa nval) (some (.ctx c)) (ctxStopWrite instAbort c nfa nval)
/-- Whether this package has done its part of a context's state. -/
def State.ctxPartDone (s : State) (c : Nat) : Bool := s.ownPartDone { c := c, to_ := (s.ctx c).st, waiting := [], nfa := 0, nval := 0 }
def State.sendCtxAck (s : State) (c : Nat) : State := if s.ctxPartDone c then s.sendMgt (s.mgt (s.ctx c).home 7 c) else s
/-- CTX_STATE_NOTICE (R335): the state, this package's part of it, and the acknowledgement when the part is done. -/
def execCtxStateNotice (home c st kgen : Nat) (clean : Bool) (s : State) : Answer :=
  if home == s.poolNode || c == 0 then .next s else .next ((s.ctxNotice instAbort home c st kgen clean).sendCtxAck c)
/-- CTX_STATE_ACK (R335): at the home it counts; this package's own acknowledgement of another home's change goes out once its part is done. -/
def execCtxStateAck (from_ c : Nat) (s : State) : Answer :=
  if from_ == s.poolNode && (s.ctx c).home != s.poolNode then .next (s.sendCtxAck c) else .next (s.ctxAck from_ c)
/-- KEY_GENERATE (R342). -/
def execKeyGenerate (v : VCtx) (slot : Nat) (host : Bool) (owner : Nat) (s : State) : Answer :=
  s.vaneWrite v keyCtlObj (keyCtlBytes 1 slot host owner) (some (.key slot)) (keyGenerateWrite slot host owner)
/-- KEY_DESTROY (R343). -/
def execKeyDestroy (v : VCtx) (slot : Nat) (s : State) : Answer :=
  s.vaneWrite v keyCtlObj (keyCtlBytes 2 slot false 0) (some (.key slot)) (keyDestroyWrite slot)
/-- `KEY.BUNDLE_LOAD` is refused in DRAIN (R450) and until the pool is ONLINE (R438). -/
def bundleLoadChecked (rec_ : Nat) (s : State) : Except Nat State :=
  check (s.dev.phase != .drain && s.pool.st != 0) abortRefused (bundleLoadWrite rec_ s)
/-- BUNDLE_LOAD (R353). -/
def execBundleLoad (v : VCtx) (rec : Nat) (s : State) : Answer := s.vaneWrite v bundleObj (leBytes 40 rec) none (bundleLoadChecked rec)
/-- BUNDLE_CHUNK (R352, R354). -/
def execBundleChunk (s : State) : Answer := .next s.bundleChunk
/-- BUNDLE_KEY_EXPIRY (R351): the slot named in EXPIRY has passed; a load that runs with the key can verify no further tag. -/
def execBundleKeyExpiry (b : Nat) (s : State) : Answer :=
  let k := tget {} s.sec.bkeys b
  if k.used && decide (k.expiry < s.slot) && k.expiry != 0 then
    .next (if s.sec.bundle.st == .running && s.sec.bundle.bslot == b then s.endBundle .failed 2 else s.modSec (fun x => { x with bkeys := tset x.bkeys b {} })) else .next s

end Sys2Proof.Machine
end

