-- ==== Sys2Proof/Machine/Flits.lean ====
section
/-! DEFINITION. Transactions on the link: their headers as bits (R114 to R120, R219, R462), slots and flits (R121, R368), the check of R369
and the link-control bytes (Table 13-2). -/

namespace Sys2Proof
open Machine

def TType.code : TType → Nat
  | .null => 0 | .rd => 1 | .wr => 2 | .atom => 3 | .resync => 4 | .bisnp => 8 | .rspData => 0x10 | .rspAtom => 0x11 | .rspDone => 0x12
  | .birsp => 0x13 | .colData => 0x18 | .colSide => 0x19 | .colPart => 0x1A | .colCtl => 0x1B | .mgtMsg => 0x1C | .nodeLeave => 0x1D
/-- The type that a code stands for (Table 5-1); none of a reserved one. -/
def typeOf : Nat → Option TType
  | 0 => some .null | 1 => some .rd | 2 => some .wr | 3 => some .atom | 4 => some .resync | 8 => some .bisnp | 0x10 => some .rspData
  | 0x11 => some .rspAtom | 0x12 => some .rspDone | 0x13 => some .birsp | 0x18 => some .colData | 0x19 => some .colSide | 0x1A => some .colPart
  | 0x1B => some .colCtl | 0x1C => some .mgtMsg | 0x1D => some .nodeLeave | _ => none

def reqWidths : List Nat := [5, 2, 1, 8, 12, 4, 16, 20, 3, 57]
def rspWidths : List Nat := [5, 4, 4, 1, 2, 12, 4, 16, 20, 12, 12, 3, 33]
def colWidths : List Nat := [5, 4, 4, 1, 2, 12, 4, 16, 12, 4, 32, 12, 12, 8]
def leaveWidths : List Nat := [5, 3, 6, 2, 12, 12, 4, 12, 8, 64]
def mgtWidths : List Nat := [5, 3, 6, 2, 12, 12, 8, 80]

/-- Payload slots of an MGT_MSG (R120). -/
def Txn.mgtSlots (t : Txn) : Nat := t.data.length / 8
/-- The 128 bits of a header (Tables 5-2, 5-4, 8-7, 16-5; R120, log 16). -/
def Txn.header (t : Txn) : Nat :=
  match t.ty.cls with
  | 2 => pack (rspWidths.zip [t.ty.code, t.status, t.dslots, boolNat t.acc, 0, t.dnode, t.kgen, t.ctx, t.tag, t.hnode, t.tnode, t.flow, t.rsvd])
  | 3 => pack (colWidths.zip [t.ty.code, t.fmt, t.dslots, boolNat t.psn, t.rsvd, t.snode, t.kgen, t.ctx, t.inst, t.phase, t.eoff, t.dnode, t.contrib, t.xb])
  | 4 => if t.ty == .nodeLeave then pack (leaveWidths.zip [t.ty.code, 0, 1, 0, t.snode, t.dnode, t.mkind, t.lnode, t.rsvd, t.slot])
         else pack (mgtWidths.zip [t.ty.code, t.rsvd, t.mgtSlots, 0, t.snode, t.dnode, t.mkind, t.mword])
  | _ => pack (reqWidths.zip [t.ty.code, t.akind, boolNat t.acq, t.size, t.snode, t.kgen, t.ctx, t.tag, t.flow, t.addr])
/-- The payload bytes that follow the header and the home word. -/
def Txn.payload (t : Txn) : Bytes :=
  match t.ty with
  | .nodeLeave => leBytes 8 t.mword
  | .rd => []
  | .resync => []
  | .bisnp => []
  | .rspDone => []
  | .birsp => []
  | _ => t.data
/-- The slots of a transaction in order (R121). -/
def Txn.words (t : Txn) : List Nat :=
  [t.header % 2 ^ 64, t.header / 2 ^ 64] ++
  (match t.home with | some (pc, ks) => [pack [(2, pc), (12, ks)]] | none => []) ++
  (List.range (t.payload.length / 8)).map (fun i => leAt t.payload (8 * i) 8)
/-- Slots that a transaction takes, from the low half of its header (Table 5-1, R117, R118). -/
def slotsNeeded (ty : TType) (h : Nat) : Nat :=
  2 + (if ty.cls == 0 && field h 5 2 == 3 then 1 else 0) +
  match ty with
  | .wr => (field h 71 3 + field h 8 8 + 1 + 7) / 8
  | .atom => atopSlots (field h 8 8)
  | .rspData => field h 9 4
  | .rspAtom => field h 9 4
  | .colData => field h 9 4
  | .colSide => field h 9 4
  | .colPart => field h 9 4
  | .colCtl => field h 9 4
  | .mgtMsg => field h 8 6
  | .nodeLeave => field h 8 6
  | _ => 0
/-- A transaction read from its header and its further slots. -/
def txnOf (ty : TType) (h : Nat) (rest : List Nat) : Txn :=
  let bytes := rest.flatMap (leBytes 8)
  match ty.cls with
  | 2 =>
    let f := unpack rspWidths h
    let g := fun i => f.getD i 0
    { ty := ty, status := g 1, dslots := g 2, acc := g 3 == 1, dnode := g 5, kgen := g 6, ctx := g 7, tag := g 8, hnode := g 9, tnode := g 10,
      flow := g 11, rsvd := g 4 + g 12, data := bytes }
  | 3 =>
    let f := unpack colWidths h
    let g := fun i => f.getD i 0
    { ty := ty, fmt := g 1, dslots := g 2, psn := g 3 == 1, rsvd := g 4, snode := g 5, kgen := g 6, ctx := g 7, inst := g 8, phase := g 9, eoff := g 10,
      dnode := g 11, contrib := g 12, xb := g 13, data := bytes }
  | 4 =>
    if ty == .nodeLeave then
      let f := unpack leaveWidths h
      let g := fun i => f.getD i 0
      { ty := ty, snode := g 4, dnode := g 5, mkind := g 6, lnode := g 7, slot := g 9, rsvd := g 1 + g 3 + g 8 + (if g 2 == 1 then 0 else 1), mword := leNat (bytes.take 8) }
    else
      let f := unpack mgtWidths h
      let g := fun i => f.getD i 0
      { ty := ty, snode := g 4, dnode := g 5, mkind := g 6, mword := g 7 + 2 ^ 80 * leNat bytes, rsvd := g 1 + g 3, data := bytes }
  | _ =>
    let f := unpack reqWidths h
    let g := fun i => f.getD i 0
    let home := if g 1 == 3 && ty.cls == 0 then rest.head?.map (fun w => (field w 0 2, field w 2 12)) else none
    { ty := ty, akind := g 1, acq := g 2 == 1, size := g 3, snode := g 4, kgen := g 5, ctx := g 6, tag := g 7, flow := g 8, addr := g 9, home := home,
      dnode := if ty == .bisnp then g 9 / 2 ^ 41 % 4096 else 0,
      rsvd := (match home with | some _ => field (rest.headD 0) 14 50 | none => 0),
      data := if home.isSome then bytes.drop 8 else bytes }

end Sys2Proof

namespace Sys2Proof.Machine
open Sys2Proof

/-- What the slots of a flit complete: the transactions, the slots of one not yet complete, and whether a reserved TYPE was met (R114). -/
structure Parsed where
  txns : List Txn := []
  open_ : List Nat := []
  framing : Bool := false
  deriving DecidableEq, Repr
/-- The number of slots that a transaction begun with these slots takes; none while its header is not complete, 0 for a reserved TYPE. -/
def wanted : List Nat → Option Nat
  | a :: b :: _ => (match typeOf (a % 32) with | some ty => some (slotsNeeded ty (a % 2 ^ 64 + 2 ^ 64 * b)) | none => some 0)
  | _ => none
def finish (l : List Nat) : Txn :=
  match l with
  | a :: b :: r => txnOf ((typeOf (a % 32)).getD .null) (a % 2 ^ 64 + 2 ^ 64 * b) r
  | _ => {}
/-- Takes the slots of a flit one by one (R121). -/
def takeSlots : List Nat → Parsed → Parsed
  | [], p => p
  | w :: r, p =>
    if p.framing then p
    else if p.open_.isEmpty && (typeOf (w % 32)).isNone then { p with framing := true }
    else if p.open_.isEmpty && (w % 32 == 0 || r.isEmpty) then p
    else
      let o := p.open_ ++ [w]
      if wanted o == some o.length then takeSlots r { p with txns := p.txns ++ [finish o], open_ := [] }
      else takeSlots r { p with open_ := o }
/-- The seven slots of the 56 bytes. -/
def slotsOf (body : Bytes) : List Nat := (List.range 7).map (fun i => leAt body (8 * i) 8)

-- The check (R369) and the link-control bytes (Table 13-2)
def flitCheck (pre lcb : Nat) (body : Bytes) : Nat :=
  let b := leBytes 2 pre ++ leBytes 2 lcb ++ slice body 0 56
  crc32c 0xFFFFFFFF b + 2 ^ 32 * crc16 b
def flitPasses (f : Flit) (pre : Nat) : Bool := f.chk == flitCheck pre f.lcb f.body
/-- The first sequence number from `q` on under which a flit passes, among `n`. -/
def passesUnder (f : Flit) : Nat → Nat → Option Nat
  | 0, _ => none
  | n + 1, q => if flitPasses f (q % 2048) then some (q % 2048) else passesUnder f n (q + 1)
def lcbAck (ftype aseq : Nat) (nak : Bool) : Nat := pack [(2, ftype), (1, 0), (11, aseq), (1, boolNat nak), (1, 0)]
def lcbCredit (ftype vc count : Nat) : Nat := pack [(2, ftype), (1, 1), (4, vc), (9, count)]

end Sys2Proof.Machine
end

