-- ==== Sys2Proof/Machine/TimeCmds.lean ====
section
/-! DEFINITION. Rack time (R244 to R258): references, time records, time quality, corrections, epochs and the resumption of scheduled operation. -/

namespace Sys2Proof.Machine
open Sys2Proof

def State.modRt (s : State) (f : RackTime → RackTime) : State := { s with rt := f s.rt }
/-- `RT.ERR`: in HOLDOVER it grows by 0.095 ppm of the time spent there (R253). -/
def State.rtErr (s : State) : Nat :=
  if s.rt.quality == .holdover then s.rt.errAtLoss + (s.clk - s.rt.holdSince) * 95 / 1000000000 else s.rt.err
/-- Moves the time quality (R252); leaving LOCKED and HOLDOVER ends scheduled operation (R257, R258). -/
def State.setQuality (s : State) (q : Quality) : State :=
  if s.rt.quality == q then s else
  let s1 := s.selfChange .rackTime (fun t => t.modRt (fun r => { r with
    quality := q, plausible := 0,
    refLosses := r.refLosses + boolNat (q == .holdover || q == .unlocked),
    err := s.rtErr,
    lockedSince := if q == .locked then s.clk else r.lockedSince,
    lastMark := if q == .acquiring then none else r.lastMark,
    lastPulseAt := if q == .acquiring then none else r.lastPulseAt,
    refOkSince := if q == .acquiring then some s.clk else r.refOkSince }))
  let s2 := s1.event 6 0x01 1 0 q.code s1.rtErr
  if (q == .unset || q == .acquiring || q == .unlocked) && s2.rt.scheduled then
    (s2.modRt (fun r => { r with scheduled := false })).creditAll
  else s2
/-- The loss of the reference (Table 9-3). -/
def State.refLoss (s : State) : State :=
  match s.rt.quality with
  | .acquiring => s.setQuality .unset
  | .locked =>
    (s.modRt (fun r => { r with errAtLoss := r.err, holdSince := s.clk, lockedFor := s.clk - r.lockedSince })).setQuality .holdover
  | _ => s.modRt (fun r => { r with plausible := 0, lastMark := none })
/-- Corrects rack time to `target` (R254): a forward step at once, a backward one by holding the count. -/
def State.stepTo (s : State) (target : Nat) : State :=
  s.modRt (fun r => if r.now ≤ target then { r with now := target, hold := 0, slew := 0 } else { r with hold := r.now - target, slew := 0 })
/-- Removes an offset by slewing (R254): `off` is own time less the reference's. -/
def State.slewBy (s : State) (off : Int) : State := s.modRt (fun r => { r with slew := -off })
/-- Corrects a running clock by a plausible pulse or record: an offset of at most `bound` is slewed, a larger one corrected at once, so that a device LOCKED on
pins stays within ±20 ns of them (R247, R254). -/
def State.correct (s : State) (off : Int) (target bound : Nat) : State := if off.natAbs ≤ bound then s.slewBy off else s.stepTo target
/-- REFCLK present with `RT.SET` written takes UNSET to ACQUIRING (Table 9-3). -/
def State.refPresent (s : State) : State :=
  if s.rt.quality == .unset && s.rt.source == 0 && s.rt.refclk && s.rt.setWritten then s.setQuality .acquiring else s

/-- The rack time that the reference has reached: the count, less what is still held back (R254). -/
def State.refNow (s : State) : Nat := s.rt.now - s.rt.hold
/-- Own rack time less the nearest epoch boundary (Table 9-1). -/
def State.pulseOff (s : State) : Int :=
  if s.refNow % 1048576 < 524288 then (s.refNow % 1048576 : Nat) else (s.refNow % 1048576 : Nat) - (1048576 : Int)
def State.nearestEdge (s : State) : Nat := (s.refNow + 524288) / 1048576 * 1048576
/-- A plausible pulse or record: when it came, and what it counts to. -/
def State.marked4 (s : State) (n : Nat) : State :=
  s.modRt (fun r => { r with plausible := n, lastPulseAt := some s.clk, lastMark := some (s.clk, s.refNow) })
def State.rejectMark (s : State) : State := s.modRt (fun r => { r with pulseRejected := r.pulseRejected + 1 })
/-- Whether two marks lie apart by what their reference times say, within ±50 ns. -/
def consistent (c0 d0 c d : Nat) : Bool := decide (((c : Int) - c0 - ((d : Int) - d0)).natAbs ≤ 50)

def execRefclkLost (s : State) : Answer :=
  let s1 := s.modRt (fun r => { r with refclk := false })
  .next (if s.rt.source == 0 then s1.refLoss else s1)
def execRefclkPresent (s : State) : Answer := .next (s.modRt (fun r => { r with refclk := true })).refPresent

/-- The number of `RT.SET` applied by a pulse, without a plausibility check (R248). -/
def State.applySet (s : State) (e : Nat) : State :=
  ((s.stepTo (e * 1048576)).modRt (fun r => { r with setEpoch := none, stepBlocked := false })).marked4 (boolNat (s.rt.quality == .unlocked))
/-- A pulse while ACQUIRING: the first begins the count, four plausible ones after it lock (Table 9-3). -/
def State.pulseAcquiring (s : State) : State :=
  if decide (s.pulseOff.natAbs ≤ 50) then
    let n := if s.rt.lastPulseAt.isNone then 0 else s.rt.plausible + 1
    let s1 := (s.correct s.pulseOff s.nearestEdge 20).marked4 n
    if n == 4 then (s1.setQuality .locked).modRt (fun r => { r with err := 20, stratum := 0 }) else s1
  else (s.rejectMark).modRt (fun r => { r with plausible := 0 })
def State.pulseLocked (s : State) : State :=
  if decide (s.pulseOff.natAbs ≤ 50) then (s.correct s.pulseOff s.nearestEdge 20).marked4 0 else s.rejectMark
/-- The reference is back in HOLDOVER: the offset against ERR decides (Table 9-3); an implausible pulse is ignored and counted (R247). -/
def State.pulseHoldover (s : State) : State :=
  if !s.rt.refclk then s
  else if 50 < s.pulseOff.natAbs then s.rejectMark
  else if s.pulseOff.natAbs ≤ s.rtErr then
    (((s.correct s.pulseOff s.nearestEdge 20).marked4 0).setQuality .locked).modRt (fun r => { r with err := 20, stratum := 0 })
  else (s.setQuality .unlocked).marked4 1
/-- Four consecutive pulses an epoch apart step an UNLOCKED device to LOCKED (Table 9-3, R254). -/
def State.pulseUnlocked (s : State) : State :=
  if !s.rt.refclk then s else
  let n := match s.rt.lastMark with
    | some (c0, _) => if consistent c0 0 s.clk 1048576 then s.rt.plausible + 1 else 1
    | none => 1
  let s1 := s.marked4 n
  if n == 4 then ((s1.stepTo s1.nearestEdge).setQuality .locked).modRt (fun r => { r with err := 20, stratum := 0 }) else s1
/-- A rising edge of EPOCH, which finds an UNSET device ACQUIRING where REFCLK is present and `RT.SET` written (Table 9-3), and whose high level lasts `highNs` (R247, R248); one that comes while REFCLK is lost is only counted (R488). -/
def execEpochPulse (highNs : Nat) (s : State) : Answer :=
  if highNs < 20 then .next s else
  if !s.rt.refclk then .next s.rejectMark else
  if s.rt.source != 0 then .next s else
  let t := s.refPresent
  .next (match t.rt.setEpoch, t.rt.quality with
    | some e, .unset => t.applySet e
    | some e, .acquiring => t.applySet e
    | some e, .unlocked => t.applySet e
    | _, .unset => t
    | _, .acquiring => t.pulseAcquiring
    | _, .locked => t.pulseLocked
    | _, .holdover => t.pulseHoldover
    | _, .unlocked => t.pulseUnlocked)
/-- Whether three epochs have passed since the last plausible pulse or usable record (R247, R250). -/
def State.refSilent (s : State) : Bool :=
  match s.rt.lastPulseAt, s.rt.refOkSince with
  | some t, _ => decide (t + 3 * 1048576 + 50 < s.clk)
  | none, some t => decide (t + 3 * 1048576 + 50 < s.clk)
  | none, none => false
def execEpochPulseMissing (s : State) : Answer :=
  .next (if s.rt.source == 0 && s.refSilent then s.refLoss else s)
def execTimeRecordMissing (s : State) : Answer :=
  .next (if s.rt.source == 1 && s.refSilent then s.refLoss else s)

/-- The conditions of R248 while LOCKED or in HOLDOVER. -/
def State.setAllowed (s : State) (e : Nat) : Bool :=
  if s.rt.quality == .locked || s.rt.quality == .holdover then
    decide (100000 ≤ s.rt.now % 1048576) && decide (s.rt.now % 1048576 + 100000 ≤ 1048576) && e == s.epochNo + 1
  else true
/-- The effect of a write of `RT.SET`. -/
def rtSetWrite (e : Nat) (s : State) : Except Nat State :=
  check (decide (e < 2 ^ 44)) abortRange <|
  check (s.setAllowed e) abortRefused <|
  .ok (s.modRt (fun r => { r with setWritten := true, setEpoch := if r.quality == .locked || r.quality == .holdover then r.setEpoch else some e })).refPresent
def execRtSet (v : VCtx) (e : Nat) (s : State) : Answer := s.vaneWrite v (0x7000, 3) (leBytes 8 e) (some .rackTime) (rtSetWrite e)
/-- A change of source counts as a loss of the old reference (R246). -/
def rtSourceWrite (src : Nat) (s : State) : Except Nat State :=
  check (decide (src ≤ 1)) abortRange <|
  .ok ((s.refLoss).modRt (fun r => { r with source := src, partnerQuality := 0, lastPulseAt := none, refOkSince := none })).refPresent
def execRtSource (v : VCtx) (src : Nat) (s : State) : Answer := s.vaneWrite v (0x7000, 1) (leBytes 1 src) (some .rackTime) (rtSourceWrite src)
def rtSrcPortWrite (p : Nat) (s : State) : Except Nat State :=
  check (decide (p ≤ 255) || p == 0xFFFF) abortRange <|
  .ok ((s.refLoss).modRt (fun r => { r with srcPort := p, partnerQuality := 0, lastPulseAt := none, refOkSince := none })).refPresent
def execRtSrcPort (v : VCtx) (p : Nat) (s : State) : Answer := s.vaneWrite v (0x7000, 2) (leBytes 2 p) (some .rackTime) (rtSrcPortWrite p)

-- Time records (R249, R250)
def State.timePort (s : State) (p : Nat) : TimePort := tget {} s.rt.ports p
/-- D of R250 on a port in units of 2^-4 ns: measured by a record that echoes the last one sent, else as last measured there. -/
def State.linkD (s : State) (p : Nat) (r : TimeRec) : Option Nat :=
  if r.echo != 0 && r.echo == (s.timePort p).lastTx then some ((s.rt.now * 16 - r.echo - r.turn) / 2) else (s.timePort p).delay
def usable (r : TimeRec) : Bool := (r.quality == 2 || r.quality == 3) && decide (r.stratum ≤ 14)
/-- Follows the partner: STRATUM, and ERR while LOCKED (R250). -/
def State.follow (s : State) (r : TimeRec) : State :=
  s.modRt (fun x => { x with stratum := r.stratum + 1, err := if x.quality == .locked then r.err + 10 else x.err })
/-- A record at an UNLOCKED receiver; a backward offset above 1,000 ms waits for `RT.SET` (R254). -/
def State.recUnlocked (s : State) (r : TimeRec) (derived : Nat) : State :=
  if !usable r then s else
  let n := match s.rt.lastMark with
    | some (c0, d0) => if consistent c0 d0 s.clk derived then s.rt.plausible + 1 else 1
    | none => 1
  let s1 := s.modRt (fun x => { x with plausible := n, lastPulseAt := some s.clk, lastMark := some (s.clk, derived) })
  if n < 4 then s1
  else if derived + 1000000000 < s.refNow && s.rt.setEpoch.isNone then (s1.modRt (fun x => { x with stepBlocked := true })).noteRt 2
  else ((((s1.stepTo derived).setQuality .locked).modRt (fun x => { x with stepBlocked := false, setEpoch := none })).follow r)
/-- A record on the source port, with the partner's rack time derived from it (R250, Table 9-3). -/
def State.recSource (s : State) (r : TimeRec) (derived : Nat) : State :=
  let off : Int := (s.refNow : Int) - derived
  match s.rt.quality with
  | .unset => if usable r then (((s.setQuality .acquiring).stepTo derived).marked4 0).follow r else s
  | .acquiring =>
    if !usable r then s else
    let n := if s.rt.lastPulseAt.isNone then 0 else s.rt.plausible + 1
    let s1 := (s.stepTo derived).marked4 n
    if n == 4 then (s1.setQuality .locked).follow r else s1.follow r
  | .locked =>
    if r.quality == 3 then s.refLoss
    else if r.quality == 4 then s.setQuality .unlocked
    else if !usable r then s
    else if off.natAbs ≤ 50 then ((s.correct off derived s.rt.err).marked4 0).follow r
    else s.rejectMark
  | .holdover =>
    if r.quality == 4 then s.setQuality .unlocked
    else if usable r && 50 < off.natAbs then s.rejectMark
    else if r.quality == 2 && usable r then
      (if off.natAbs ≤ s.rtErr then (((s.slewBy off).marked4 0).setQuality .locked).follow r else s.setQuality .unlocked)
    else s
  | .unlocked => s.recUnlocked r derived
/-- What a record says where its partner's rack time is not known yet, no echo having measured D: its QUALITY alone (Table 9-3). -/
def State.recUntimed (s : State) (r : TimeRec) : State :=
  match s.rt.quality with
  | .locked => if r.quality == 3 then s.refLoss else if r.quality == 4 then s.setQuality .unlocked else s
  | .holdover => if r.quality == 4 then s.setQuality .unlocked else s
  | _ => s
/-- A time record that has arrived on port `p` (R249, R250); the source port's partner must be a Kolfy (R246). -/
def execTime (p : Nat) (r : TimeRec) (s : State) : Answer :=
  if r.rsvd != 0 || decide (4 < r.quality) then .next { s with link := { s.link with rxFiltered := s.link.rxFiltered + 1 } }
  else
    let d := s.linkD p r
    let s1 := s.modRt (fun x => { x with ports := tmod {} x.ports p (fun t => { t with lastRxTx := r.txTime, lastRxAt := x.now * 16, delay := d }) })
    if s.rt.source != 1 || s.rt.srcPort != p || !((s.port p).partner.role == 1 || (s.port p).partner.role == 2) then .next s1
    else
      let s2 := s1.modRt (fun x => { x with partnerQuality := r.quality })
      .next (match d with
        | some y => s2.recSource r ((r.txTime + y) / 16)
        | none => s2.recUntimed r)

/-- The record that the package sends on port `p` (Table 9-2); an ERR that its 24 bits cannot hold is sent as all ones. -/
def State.timeRec (s : State) (p : Nat) : TimeRec :=
  { txTime := s.rt.now * 16, echo := (s.timePort p).lastRxTx,
    turn := if (s.timePort p).lastRxTx == 0 then 0 else min (s.rt.now * 16 - (s.timePort p).lastRxAt) (2 ^ 32 - 1),
    quality := s.rt.quality.code, stratum := s.rt.stratum, err := min s.rtErr 0xFFFFFF }
def State.sendTime (s : State) (p : Nat) : State :=
  if ((s.port p).st == .linked || (s.port p).st == .inService) && (s.port p).partner.format != 0 && (s.port p).partner.role != 3 then
    let s1 := (s.emit (.time p (s.timeRec p))).modRt (fun x => { x with ports := tmod {} x.ports p (fun t => { t with lastTx := s.rt.now * 16 }) })
    -- an attached end-point hears it
    match s.farun.find? (fun x => x.2.ports.contains p) with
    | some x => s1.farunTime x.1 p (usable (s.timeRec p)) (s.timeRec p)
    | none => s1
  else s
/-- The first nanosecond of an epoch: a time record on every trained port (R249), those of the attached end-points (R251), and the decay of access
counters (R298). -/
def execEpochStart (s : State) : Answer :=
  if s.rt.now % 1048576 != 0 then .next s else
  let s1 := s.farun.foldl (fun u x => u.farunRecs x.1) ((List.range 256).foldl State.sendTime s)
  .next (if s.pool.st != 0 && s.epochNo % s.pool.decayEpochs == 0 then s1.decay else s1)
/-- The limit of R253, in ns. -/
def State.holdLimit (s : State) : Nat :=
  (if 60000000000 ≤ s.rt.lockedFor then s.rt.holdoverMax else min s.rt.holdoverMax 1000) * 1000000
def execHoldoverLimit (s : State) : Answer :=
  .next (if s.rt.quality == .holdover && decide (s.rt.holdSince + s.holdLimit ≤ s.clk) then s.setQuality .unlocked else s)

def rtResumeWrite (slot : Nat) (s : State) : Except Nat State :=
  check (s.rt.quality == .locked && (slot == 0 || decide (s.slot + s.tbl.minLead ≤ slot))) abortRefused <|
  .ok (s.modRt (fun r => { r with resumeSlot := slot }))
def execRtResumeSlot (v : VCtx) (slot : Nat) (s : State) : Answer :=
  s.vaneWrite v (0x7000, 9) (leBytes 8 slot) (some .rackTime) (rtResumeWrite slot)
/-- The slot of `RT.RESUME_SLOT` begins: a device still LOCKED resumes scheduled operation (R257). -/
def execScheduledResume (s : State) : Answer :=
  .next (if s.rt.resumeSlot != 0 && s.slot == s.rt.resumeSlot && s.rt.quality == .locked then s.modRt (fun r => { r with scheduled := true }) else s)

end Sys2Proof.Machine
end

