-- ==== Sys2Proof/Machine/XlateCmds.lean ====
section
/-! DEFINITION. The commands of translation (R84, R88 to R112, R499): one meaning for each. -/

namespace Sys2Proof.Machine
open Sys2Proof

def bindObj (c : Nat) : Nat × Nat := (0x5100 + c / 256, c % 256)
/-- The rules of R89 for a binding's fields. -/
def bindFieldsOk (rec_ : Nat) : Bool :=
  let b := bindOf rec_
  field rec_ 4 4 == 0 && field rec_ 52 12 == 0 && b.mode != 3 &&
  (if b.mode == 1 then !b.priEn && b.hostNode == 0 && b.pasid == 0 && isFa b.root && b.root % 2 ^ 20 == 0
   else if b.mode == 2 then b.root == 0
   else !b.priEn && b.hostNode == 0 && b.pasid == 0 && b.root == 0)
/-- The home's host port behind HOST_NODE, when it is enabled. -/
def State.bindHostOk (s : State) (b : Bind) : Bool := (List.range 8).any (fun h => s.hpNode h == b.hostNode && (s.host h).mode != 0)
/-- Whether a change of a context's binding has not completed: its withdrawal, for software, STOP or a lost host port, is not over (R90). -/
def State.bindBusy (s : State) (c : Nat) : Bool :=
  s.xl.binding.contains c || s.xl.wds.any (fun w => match w.cause with | .bind d _ => d == c | .stop d => d == c | .hostLost _ => w.ctx == c | _ => false)
/-- The effect of an `XL.CTX_BIND` write (R88 to R90). A first binding replaces none and takes effect at once (log 24). -/
def ctxBindWrite (c rec_ : Nat) (s : State) : Except Nat State :=
  let b := bindOf rec_
  let old := s.bind c
  check (b.mode != 3) abortRange <|
  check (bindFieldsOk rec_ && b.homeNode == s.poolNode && (old.mode == 0 || old.homeNode == s.poolNode)) abortRefused <|
  check (b.mode != 2 || (s.bindHostOk b && s.dev.phase != .slush && c != 0 &&
      !(s.xl.binds.any (fun x => x.1 != c && x.2.mode == 2 && x.2.hostNode == b.hostNode && x.2.pasid == b.pasid)))) abortRefused <|
  check (!s.bindBusy c && decide (s.wdActive < 256)) abortRefused <|
  if old == b then .ok s
  else if old.mode == 0 then .ok (s.setBind c b)
  else .ok ((s.modXl (fun x => { x with binding := addNew x.binding c })).startCtxWd c (.bind c b))
/-- CTX_BIND. -/
def execCtxBind (v : VCtx) (c : Nat) (rec : Nat) (s : State) : Answer := s.vaneWrite v (bindObj c) (leBytes 16 rec) none (ctxBindWrite c rec)
/-- The effect of an `XL.WITHDRAW` write (R112, Table 4-7). -/
def withdrawWrite (rec_ : Nat) (s : State) : Except Nat State :=
  let form := bitOf rec_ 0
  let c := field rec_ 8 16
  let len := field rec_ 64 64
  let base := field rec_ 128 64
  let nfa := field rec_ 192 64
  check (1 ≤ len && len ≤ 2 ^ 36) abortRange <|
  check (field rec_ 1 7 == 0 && field rec_ 24 40 == 0 && base % 2 ^ 21 == 0 && isFa nfa && nfa % 8 == 0 && decide (s.wdActive < 256)) abortRefused <|
  check (if form then c == 0 && isFa base else (s.bind c).mode != 0 && (s.bind c).homeNode == s.poolNode) abortRefused <|
  .ok (s.startWd form c base len nfa (field rec_ 256 64) .software)
def withdrawObj : Nat × Nat := (0x5000, 0x10)
/-- WITHDRAW_CONTEXT: FORM 0. -/
def execWithdrawContext (v : VCtx) (rec : Nat) (s : State) : Answer := s.vaneWrite v withdrawObj (leBytes 40 (rec / 2 * 2)) none (withdrawWrite (rec / 2 * 2))
/-- WITHDRAW_FA: FORM 1. -/
def execWithdrawFa (v : VCtx) (rec : Nat) (s : State) : Answer := s.vaneWrite v withdrawObj (leBytes 40 (rec / 2 * 2 + 1)) none (withdrawWrite (rec / 2 * 2 + 1))
/-- WITHDRAWAL_NOTICE (R109): `form` true is the FA form; the context form carries the new generation, and a new binding when one is distributed. -/
def execWithdrawalNotice (home : Nat) (id : Nat) (form : Bool) (ctx base len2m xgen : Nat) (bind : Option Nat) (s : State) : Answer :=
  if home == s.poolNode then .next s else
  let s1 := if form then s else s.modXl (fun x => { x with xgen := tset x.xgen ctx xgen })
  let s2 := s1.applyNotice home id form ctx base len2m
  .next (match bind with
    | some r => s2.modXl (fun x => { x with binds := tset x.binds ctx (bindOf r), known := addNew x.known ctx })
    | none => s2)
/-- DONE_NOTICE_SEND (R109(d)): at time D the notice goes to the home, this package itself among them. -/
def execDoneNoticeSend (home id : Nat) (s : State) : Answer :=
  match s.xl.notices.find? (fun n => n.home == home && n.id == id) with
  | none => .next s
  | some n =>
    if s.clk < n.d || n.lines.any (fun l => s.tileBusy l) then .next s
    else
      let s1 := s.modXl (fun x => { x with notices := x.notices.filter (fun y => !(y.home == home && y.id == id)) })
      .next (if home == s.poolNode then s1.wdDone home id else s1.sendMgt (s1.mgt home 3 id))
/-- DONE_NOTICE (R108). -/
def execDoneNotice (from_ id : Nat) (s : State) : Answer := .next (s.wdDone from_ id)
/-- The nodes of the package whose primary pool node is `n`. -/
def State.nodesOfPkg (s : State) (n : Nat) : List Nat :=
  match s.nodePkg n with
  | some p => (s.tbl.active.nodes.filter (fun x => decide (2 ≤ x.2.kind) && decide (x.2.kind ≤ 5) && x.2.pkg == p)).map Prod.fst
  | none => [n]
/-- One silent package of a failed withdrawal (R110, R475, R499). -/
def State.silent (s : State) (w : Withdrawal) (n : Nat) : State :=
  let s1 := s.logFault { kind := 2, status := 0, form := boolNat w.fa, node := n, ctx := if w.fa then 0 else w.ctx, fa := w.base, slot := s.slot }
  (s1.event 7 0x01 3 n 0 0).declareLeave (s.nodesOfPkg n) 4 0
/-- WITHDRAWAL_TIMEOUT (R110): FAILED, its completion actions withheld, the silent packages excluded. -/
def execWithdrawalTimeout (id : Nat) (s : State) : Answer :=
  match s.xl.wds.find? (fun w => w.id == id && w.running && !w.finished) with
  | none => .next s
  | some w =>
    if s.clk < w.since + s.xl.wdTimeout * 1000 then .next s
    else
      let s1 := (s.dropWd id).modXl (fun x => { x with wdFailed := x.wdFailed + 1, binding := match w.cause with | .bind c _ => x.binding.filter (· != c) | _ => x.binding })
      .next (wdNext 256 (w.waiting.foldl (fun t n => t.silent w n) s1))
/-- NOTIFY_STORE_RESPONSE (R112): a failed completion store is reissued once after RESYNC, then abandoned. A restored page's entry (kind 3) is
written with its frame once it has been read (R466). -/
def execNotifyStoreResponse (tag : Nat) (s : State) : Answer :=
  match s.ownReq tag with
  | none => .next s
  | some o =>
    match o.who, o.resp with
    | .notify kind id, some r =>
      let key := s.poolNode * 1048576 + tag
      let done := fun (t : State) => if kind == 0 then t.dropWd id else t
      if r.status == 0 then
        (if kind == 3 && o.t.ty == .rd then
          .next ((s.endReq key).issue (entryStore (id % 2 ^ 64) (rspWord r) (s.poolFa (id / 2 ^ 64 * 2 ^ 21)) false) (.notify 3 id) s.reqTimeout)
        else .next (done (s.endReq key)))
      else if o.tries == 0 then .next ((s.breakFor o r).reissue key o)
      else
        let t := done (s.endReq key)
        .next (match s.xl.wds.find? (fun w => kind == 0 && w.id == id) with
          | some w => t.logFault { kind := 4, status := r.status, form := boolNat w.fa, node := 0, ctx := if w.fa then 0 else w.ctx, fa := w.base, slot := s.slot }
          | none => t)
    | _, _ => .next s
/-- Whether a mover's translation waits for a miss. -/
def Miss.waits (k : Miss) (m : MWait) : Bool := k.waiters.contains (.mover m.n m.idx m.va m.need)
/-- Movers whose translation found the miss queue full go in, in issue order, while it has room (R103). -/
def State.admitWaits (s : State) (d : Nat) : State :=
  s.xl.mwaits.foldl (fun t m =>
    if m.n % 256 / 64 != d then t else
    match t.work m.n m.idx with
    | none => t
    | some _ =>
      let c := (t.ring m.n).cfg.ctx
      if (t.missQ d).any (fun k => k.waits m) || (List.range 32).any (fun i => match t.walker (32 * d + i) with | some k => k.m.waits m | none => false) then t
      else (t.addMiss d { ctx := c, va := m.va / 2 ^ 21 * 2 ^ 21, wr := m.need != 0, since := t.clk, waiters := [.mover m.n m.idx m.va m.need] }).getD t) s
/-- WALK_START (R103): a free walker takes the oldest miss of its die; a binding not yet held is obtained from its home first (R90). -/
def execWalkStart (w : Nat) (s : State) : Answer :=
  if 128 ≤ w || (s.walker w).isSome then .next s else
  let d := w / 32
  match s.missQ d with
  | [] => .next (s.admitWaits d)
  | m :: r =>
    let b := s.bind m.ctx
    if b.mode != 0 && b.homeNode != s.poolNode && !s.xl.known.contains m.ctx then .next (s.sendMgt (s.mgt b.homeNode 8 m.ctx))
    else
      let s1 := s.modXl (fun x => { x with misses_ := tset x.misses_ d r })
      .next ((s1.admitWaits d).walkBegin w { m := m, since := s.clk })
/-- WALK_ENTRY_READ (R97 to R100, R109(b), R111); a read that fails after its walk has ended is logged all the same (R99). -/
def execWalkEntryRead (tag : Nat) (s : State) : Answer :=
  match s.ownReq tag with
  | none => .next s
  | some o =>
    match o.who, o.resp with
    | .walk w c, some r =>
      let s1 := s.endReq (s.poolNode * 1048576 + tag)
      let late := if r.status == 0 then s1 else s1.logFault { kind := 3, status := r.status, form := 0, node := 0, ctx := c, fa := o.t.addr, slot := s.slot }
      (match s.walker w with
        | some k => if k.tag == some tag then .next (s1.walkEntry w k r) else .next late
        | none => .next late)
    | _, _ => .next s
/-- WALK_TIMEOUT (R113): a walk or ATS exchange that `XL.XLATE_TIMEOUT` ends. -/
def execWalkTimeout (w : Nat) (s : State) : Answer :=
  match s.walker w with
  | some k => if k.level ≤ 4 && k.rereadAt.isNone && decide (k.since + s.xl.xlateTimeout * 1000 ≤ s.clk) then .next (s.walkFault w k) else .next s
  | none => .next s
/-- HOLD_EXPIRED (R84): requests held at a tile for `XL.HOLD_MAX` complete RETRY_LATER; the rest of the tile goes on. -/
def execHoldExpired (tile : Nat) (s : State) : Answer :=
  let due := fun (h : Held) => decide (h.since + s.xl.holdMax * 1000 ≤ s.clk)
  let gone := (s.holdsOf tile).filter due
  if gone.isEmpty then .next s
  else .next ((gone.foldl (fun t h => t.edgeRetry h.e) (s.setHolds tile ((s.holdsOf tile).filter (fun h => !due h)))).resumeTile tile)
/-- ATS_COMPLETION (R93, R94): the walker's exchange ends; the result of another package's walker goes there, with the aperture by which it resolves it. -/
def execAtsCompletion (w : Nat) (addr size : Nat) (r wr u : Bool) (s : State) : Answer :=
  match tfind s.xl.exch w with
  | none => .next (s.atsDone w addr size r wr u)
  | some x => .next ((s.modXl (fun y => { y with exch := terase y.exch w })).sendMgt (s.mgt x.1 10
      (pack [(7, x.2), (1, boolNat r), (1, boolNat wr), (1, boolNat u), (6, 0), (64, addr), (64, size), (64, s.xl.aptBase), (8, s.xl.aptLog2)])))
/-- The page requests that waited for the host's allocation go out as far as it allows, none after a Response Failure (R91, R95). -/
def State.nextPage (s : State) (h : Nat) : State :=
  if !(s.host h).pri then s
  else (s.host h).pageWait.foldl (fun t q => t.askHost h q.1 q.2.1 q.2.2.1 q.2.2.2) (s.modHost h (fun p => { p with pageWait := [] }))
/-- PRG_RESPONSE (R95): 0 Success, 1 Invalid Request, 15 Response Failure, after which no page request is made until PRI is reset. -/
def execPrgResponse (h ctx va : Nat) (code : Nat) (s : State) : Answer :=
  let mine := fun (q : Nat × Nat × Nat) => q.1 == ctx && q.2.1 / 2 ^ 21 == va / 2 ^ 21
  let asked := (((s.host h).pageReqs.filter mine).map (fun q => q.2.2)).foldl addNew [s.poolNode]
  let s1 := s.modHost h (fun p => { p with pageReqs := p.pageReqs.filter (fun q => !mine q), pri := if code == 15 then false else p.pri })
  .next ((asked.foldl (State.tellPage ctx va (code == 0)) s1).nextPage h)
/-- Since when a mover's translation waits for a page request, for MOVING or for room in the miss queue; none while a walk serves it. -/
def State.slowSince (s : State) (m : MWait) : Option Nat :=
  match (List.range 128).findSome? (fun w => (s.walker w).bind (fun k => if k.m.waits m then some k else none)) with
  | some k => k.slowAt
  | none => if (s.missQ (m.n % 256 / 64)).any (fun k => k.waits m) then none else some m.since
/-- SLOW_WAIT_EXPIRED (R95, R103, R111): a mover's wait ends XLATE_FAULT after `XL.SLOW_WAIT`. -/
def execSlowWaitExpired (n idx : Nat) (s : State) : Answer :=
  let due := fun (m : MWait) => m.n == n && m.idx == idx && (match s.slowSince m with | some t => decide (t + s.xl.slowWait * 1000 ≤ s.clk) | none => false)
  let gone := s.xl.mwaits.filter due
  if gone.isEmpty then .next s
  else
    let mine := fun (x : Waiter) => gone.any (fun m => x == .mover m.n m.idx m.va m.need)
    let cut := fun (k : Walk) => { k with m := { k.m with waiters := k.m.waiters.filter (fun x => !mine x) } }
    .next (s.modXl (fun x => { x with
      mwaits := x.mwaits.filter (fun m => !due m), mfaults := x.mfaults ++ gone,
      walkers := tmap x.walkers (fun _ o => o.bind (fun k => if (k.level == 5 || k.rereadAt.isSome) && (cut k).m.waiters.isEmpty then none else some (cut k))) }))
/-- MOVING_REREAD (R111): an entry with MOVING = 1 is read again for a mover every 4 µs. -/
def execMovingReread (w : Nat) (s : State) : Answer :=
  match s.walker w with
  | some k => (match k.rereadAt with
    | some t => if t ≤ s.clk then .next (s.walkRead w { k with since := s.clk } k.level k.entryFa) else .next s
    | none => .next s)
  | none => .next s
/-- ATS_INVALIDATE (R96, R110): a context-form withdrawal for the context bound to the PASID; while 256 run the request waits, at
most 32 of a port (Table 4-2); one beyond that is not taken (log 34). With no context bound nothing is to be withdrawn. -/
def execAtsInvalidate (h pasid itag : Nat) (base len2m : Nat) (s : State) : Answer :=
  match s.xl.binds.find? (fun b => b.2.mode == 2 && b.2.hostNode == s.hpNode h && b.2.pasid == pasid) with
  | none => .next (s.emit (.atsInvDone h itag))
  | some b =>
    if 256 ≤ s.wdActive || s.xl.wds.any (fun w => !w.running) then
      .next (if 32 ≤ (s.xl.invQueue.filter (fun q => q.1 == h)).length then s else s.modXl (fun x => { x with invQueue := x.invQueue ++ [(h, itag, b.1, base, len2m)] }))
    else .next (s.startWd false b.1 base len2m 0 0 (.invalidate h itag))
/-- ATS_ENABLE_CLEARED (R96). -/
def execAtsEnableCleared (h : Nat) (s : State) : Answer := .next ((s.modHost h (fun p => { p with ats := false })).unbindHost h)

end Sys2Proof.Machine
end

