-- ==== Sys2Proof/Machine/Links.lean ====
section
/-! DEFINITION. The link layer of a fabric port: training states, capability frames, link sessions, going down (R195, R388, R461), narrowing,
bit-error tests, and the step-up of R441. Lanes of port p are 4p to 4p + 3 (R405). -/

namespace Sys2Proof.Machine
open Sys2Proof

def State.filterRx (s : State) : State := { s with link := { s.link with rxFiltered := s.link.rxFiltered + 1 } }
/-- A non-negative F32 pattern is above another. -/
def f32Above (a b : Nat) : Bool := decide (b < a)
/-- Moves a port to a training state. -/
def State.toPort (s : State) (p : Nat) (st : PortState) (self : Bool) (f : Port → Port) : State :=
  State.noteChange s (s.modPort p (fun x => { f x with st := st, stSince := s.clk })) (.port p) self false
/-- Applies `f` to each lane of a port, by its place in it. -/
def State.modLanes (s : State) (p : Nat) (f : Nat → Lane → Lane) : State :=
  (List.range 4).foldl (fun t i => t.modLane (4 * p + i) (f i)) s
/-- What a port going down or retraining clears (Table 15-8). -/
def Port.linkReset (x : Port) : Port :=
  { x with txSeq := 0, retry := [], rxSeq := 0, nak := false, txCredit := [], ccIn := [], ccOut := [], rxSlots := [], codewords := 0,
           cryptState := 0, group := [], txGroup := [], rxGroupNo := 0, txGroupNo := 0, rxFlits := 0, txFlits := 0, oldRx := none, tagFailAt := [],
           spdmRx := [], spdmTx := none, spdmOut := [], spdmStage := 0, narrowing := none, wideMask := 0, wideStage := 0, capSent := none,
           capTxAck := false, nextCseq := 0, rxCseq := 0xFFFF, lanesIn := 0, lanesOut := 0, locked := 0, signalled := 0, deskewed := false,
           sameTrain := 0, lastTrain := none, rate := 0, limited := false, eqTries := 0, equalised := false }
def State.lanesOff (s : State) (p : Nat) : State := s.modLanes p (fun _ l => { l with st := 0, alarm := false, scanning := none, lockOn := false })
/-- Returns a port to DETECT with `n` consecutive attempts; to FAILED once they reach `LINK.TRAIN_TRIES` (R380). -/
def State.toDetect (s : State) (p n : Nat) (self : Bool) : State :=
  (s.toPort p (if s.link.trainTries ≤ n then .failed else .detect) self (fun x => { x.linkReset with attempts := n })).lanesOff p
/-- A return to DETECT that counts as an attempt. -/
def State.attempt (s : State) (p : Nat) : State := s.toDetect p ((s.port p).attempts + 1) true
/-- Notes a cause in `PORT.DOWN_LOG`. -/
def State.logDown (s : State) (p cause : Nat) : State :=
  s.modPort p (fun x => { x with downCount := x.downCount + 1, downCause := cause, downSlot := s.slot })
/-- Whether the partner is of the Utgeod generation (R386). -/
def Port.utgeod (x : Port) : Bool := x.partner.role == 3 || x.partner.format == 0
/-- Whether this package is the end nearer the end-points (R347). -/
def State.leads (s : State) (p : Nat) : Bool := (s.port p).partner.role == 0 || (s.isLeaf && (s.port p).partner.role == 2)

-- Training (R382, R383)
/-- The highest rate a port may train to now: 0 in SLUSH and until its step-up group's turn, 2 in window mode (R383, R438, R441). -/
def State.target (s : State) (p : Nat) : Nat :=
  let r := match s.dev.phase, s.dev.stepGroup with
    | .slush, _ => 0
    | .tables, some g => if g < (p + s.tbl.active.pos) % 16 then 0 else (s.port p).maxRate
    | _, _ => (s.port p).maxRate
  if (s.port p).windowActive then min 2 r else r
/-- The agreed rate of R383. -/
def State.agreed (s : State) (p : Nat) (r : TrainRec) : Nat :=
  let m := min (min (s.target p) r.target) (if r.wmode then 2 else 3)
  ((List.range 4).filter (fun c => decide (c ≤ m) && r.rates.testBit c)).foldl max 0
/-- The next rate above `c` that both ends support, up to the agreed one. -/
def nextRate (partner : TrainRec) (agreed c : Nat) : Nat :=
  ((List.range 4).find? (fun r => decide (c < r) && decide (r ≤ agreed) && partner.rates.testBit r)).getD agreed
/-- The record that the port sends in this attempt (Table 13-7). -/
def State.ownTrain (s : State) (p : Nat) : TrainRec := 
  { (s.port p).sent with rates := 15, target := s.target p, lanes := (s.port p).locked,
                         role := if s.dev.spine then 2 else 1, format := 1, wmode := (s.port p).windowActive, enc := (s.port p).crypt != 0 && !(s.port p).windowActive }
def State.sendTrain (s : State) (p : Nat) : State := s.emit (.train p (s.ownTrain p))
/-- Every signalled lane is locked and deskewed: EXCHANGE, with a fresh NONCE (R382, R389). -/
def State.toExchange (s : State) (p : Nat) : State :=
  let n := s.fresh
  ((n.2.toPort p .exchange true (fun x => { x with
      windowActive := x.windowMode, sameTrain := 0, lastTrain := none, rate := 0, limited := false,
      sent := { x.sent with nonce := n.1.toNat % 65536, echo := 0 } })).sendTrain p)

-- Capability frames (R443 to R449)
/-- The accelerators that the table set in force routes to a port that faces no Kolfy (R446). -/
def State.nodesGiven (s : State) (p : Nat) : List Nat :=
  if (s.port p).partner.role == 1 || (s.port p).partner.role == 2 then []
  else (s.tbl.active.nodes.filter (fun x => x.2.kind == 1 && (routeEnt s.tbl.active x.1).kind == 1 && (routeEnt s.tbl.active x.1).target == p)).map Prod.fst
/-- The node that a port's partner is given: the one node that qualifies (R446). -/
def State.nodeGiven (s : State) (p : Nat) : Nat := match s.nodesGiven p with | [n] => n | _ => 0xFFF
/-- That several nodes qualify is logged (R446). -/
def State.noteGiven (s : State) (p : Nat) : State := if 1 < (s.nodesGiven p).length then s.noteRt 3 else s
def State.capStatus (s : State) (p : Nat) : Nat :=
  if s.dev.phase == .drain then 2 else if s.portHasVcs p && (s.port p).joinUntil ≤ s.clk then 1 else 0
/-- The content of the package's frame on a port (Table 15-6), CSEQ and ECHO apart. -/
def State.capContent (s : State) (p : Nat) : CapFrame :=
  { kind := if s.dev.spine then 2 else 1, status := s.capStatus p, phase := s.dev.phase.code, uid := s.dev.uid, node := s.nodeGiven p,
    rack := s.tbl.active.rack, pos := s.tbl.active.pos, poolNode := s.poolNode % 4096, poolNode2 := s.poolNode2 % 4096,
    hpMask := maskOf ((List.range 8).filter (fun h => s.hpNode h != 0xFFFF)),
    hpNode := pack ((List.range 8).map (fun h => (12, if s.hpNode h == 0xFFFF then 0 else s.hpNode h))),
    imgVersion := s.tbl.active.version, setOrPlan := s.tbl.active.setId, cseq := 0, echo := 0 }
/-- Sends the frame with the CSEQ in use and the current ECHO. -/
def State.emitCap (s : State) (p : Nat) : State :=
  match (s.port p).capSent with
  | some f => s.emit (.cap p { f with echo := (s.port p).rxCseq })
  | none => s
/-- Sends the frame where its content has changed, under the next CSEQ. -/
def State.sendCap (s : State) (p : Nat) : State :=
  let x := s.port p
  let f := s.capContent p
  if x.capSent.map (fun g => { g with cseq := 0, echo := 0 }) == some f then s
  else ((s.noteGiven p).modPort p (fun y => { y with capSent := some { f with cseq := y.nextCseq, echo := 0 }, capTxAck := false, nextCseq := (y.nextCseq + 1) % 65535 })).emitCap p
/-- The kind of partner that Table 7-2 expects on a port; none: any (R445). -/
def State.kindExpected (s : State) (p : Nat) : Option Nat :=
  if s.dev.spine then some 1
  else match s.portPool p with
    | some 0 => some 0
    | some _ => some 2
    | none => if s.dev.mode == 0 then none else some 2
/-- Whether a received frame is refused (R445). -/
def State.capBad (s : State) (p : Nat) (f : CapFrame) : Bool :=
  f.cfver != 1 || f.rsvd != 0 || decide (3 < f.status) || decide (2 < f.kind) || f.kind != (s.port p).partner.role ||
  (match s.kindExpected p with | some k => f.kind != k | none => false) || f.uid == 0 ||
  (f.kind == 0 && (f.cseq == 0xFFFF || f.memBytes % 65536 != 0 || decide (2 ^ 41 < f.memBytes) || f.engines == 0 || f.atblBase % 64 != 0 ||
    decide (f.atblEntries < 256) || decide (f.memBytes < f.atblBase + 16 * f.atblEntries)))

-- SPDM on the link (R347, R374)
/-- The fragments of a message, 48 bytes each. -/
def fragsOf (mseq : Nat) (b : Bytes) : List Frag :=
  let n := max 1 (ceilDiv b.length 48)
  (List.range n).map (fun i => { mseq := mseq, frag := i, last := i + 1 == n, body := (b.drop (48 * i)).take 48 })
def State.emitFrags (s : State) (p mseq : Nat) (b : Bytes) : State := (fragsOf mseq b).foldl (fun t f => t.emit (.spdmFrag p f)) s
/-- Sends an SPDM message under the next MSEQ. -/
def State.sendSpdm (s : State) (p : Nat) (b : Bytes) : State :=
  let m := ((s.port p).spdmMseq + 1) % 256
  (s.modPort p (fun x => { x with spdmMseq := m, spdmTx := some (m, 0, s.clk), spdmOut := b })).emitFrags p m b
/-- An SPDM 1.3 message of a request or response code (log 27). -/
def spdmMsg (code : Nat) : Bytes := leBytes 4 (0x13 + 256 * code)
/-- The requests of the requester of a link session in order, and the responses that answer them (log 27). -/
def spdmSteps : List (Nat × Nat) := [(0x84, 0x04), (0xE1, 0x61), (0xE3, 0x63), (0x82, 0x02), (0xE4, 0x64), (0xE5, 0x65)]
/-- The link session of a port that reaches LINKED (R347). -/
def State.startSession (s : State) (p : Nat) : State :=
  let x := s.port p
  if x.crypt == 0 || x.windowActive || x.utgeod || !x.partner.enc then
    let s1 := s.modPort p (fun y => { y with cryptState := 0 })
    if x.crypt == 1 && !x.windowActive then s1.event 7 0x03 1 p 0 0 else s1
  else
    let s1 := s.modPort p (fun y => { y with cryptState := 1, spdmStage := 0 })
    if s.leads p then s1.sendSpdm p (spdmMsg 0x84) else s1
def State.sessionFail (s : State) (p : Nat) : State :=
  (s.modPort p (fun y => { y with cryptState := 3, spdmTx := none })).event 7 0x03 1 p 0 0
/-- The key and fixed IV part of one direction of a session (R347). -/
def linkKey (secret : Nat) (fromRequester : Bool) : LinkKey := { key := Config.sessionKey secret fromRequester, iv := Config.sessionIv secret fromRequester }
/-- The 96-bit IV of a group: the fixed part, then the group counter (R348). -/
def LinkKey.groupIv (k : LinkKey) (n : Nat) : Nat := k.iv.toNat + 2 ^ 32 * (n % 2 ^ 64)
/-- The session is established: its secret, agreed with the partner, is a free value, and each direction takes its own key and IV from it. -/
def State.sessionUp (s0 : State) (p : Nat) : State :=
  let s := s0.fresh.2
  let k := s0.fresh.1.toNat
  s.modPort p (fun y => { y with cryptState := 2, secret := k, txKey := linkKey k (s0.leads p), rxKey := linkKey k (!s0.leads p), oldRx := none, group := [], txGroup := [], rxGroupNo := 0, txGroupNo := 0, rxFlits := 0, txFlits := 0 })
/-- Whether R384's condition on the session holds. -/
def Port.sessionSettled (x : Port) : Bool :=
  x.crypt == 0 || x.cryptState == 2 || (x.crypt == 1 && (x.windowActive || x.utgeod || !x.partner.enc || x.cryptState == 3))

-- Entering service (R384, R448)
def State.canServe (s : State) (p : Nat) : Bool :=
  let x := s.port p
  x.st == .linked && s.portHasVcs p && x.sessionSettled && x.test.all (fun t => t.ended) &&
  (x.utgeod || (x.capTxAck && x.capSent.any (fun f => f.status == 1) && x.rxCseq != 0xFFFF && x.partnerCap.any (fun f => f.status == 1) && s.capStatus p == 1))
/-- At training each VC is granted FLOOR less the cells it still holds (R178, R370). -/
def State.grantFloors (s : State) (p : Nat) : State :=
  (List.range 10).foldl (fun t v =>
    let held := (t.admOf p v).held
    let fl := (t.floorCap p v).1
    if held < fl then ((t.setAdm p v held 0).grant p v (fl - held)).emit (.lcb p (lcbCredit 1 v ((fl - held) % 512))) else t.setAdm p v held 0) s
/-- The nodes of the LEAF that a SPINE's port faces (R461). -/
def State.facedNodes (s : State) (p : Nat) : List Nat :=
  let k := max 1 s.tbl.active.k
  let pkg := 18 * (p / (64 / k)) + s.tbl.active.pos / k
  (s.tbl.active.nodes.filter (fun x => (x.2.kind == 2 || x.2.kind == 4 || x.2.kind == 5) && x.2.pkg == pkg)).map Prod.fst
def State.facedPorts (s : State) (p : Nat) : List Nat :=
  let w := 64 / max 1 s.tbl.active.k
  (List.range w).map (fun i => p / w * w + i)
/-- The node that most of an end-point's partners give, the lowest on a tie (R447). -/
def farunNumber (f : Farun) : Nat :=
  let votes := fun (n : Nat) => (f.ports.filter (fun p => tget 0xFFF f.gives p == n)).length
  (f.ports.map (fun p => tget 0xFFF f.gives p)).foldl (fun a n => if n < 0xFFF && (a == 0xFFF || votes a < votes n || (votes a == votes n && n < a)) then n else a) 0xFFF
/-- An end-point takes the number that its partners give; requests under an earlier one still end under it (R447). -/
def State.farunRenumber (s : State) (n : Nat) : State :=
  let f := s.farunOf n
  let m := farunNumber f
  if m == 0xFFF || m == n then s
  else { s with farun := tset (terase s.farun n) m { f with oldNode := if s.reqs.any (fun r => r.1 / 1048576 == n) then some n else none } }
/-- An end-point's attachment to the package by the frame that it sent, with what that frame declares (R46, R148, R186, R224, R341, R444, R447). -/
def State.attachFarun (s : State) (p node : Nat) (c : CapFrame) : State :=
  let at_ := match s.farun.find? (fun x => x.2.uid == c.uid && c.uid != 0) with | some x => x.1 | none => node
  { s with farun := tmod {} s.farun at_ (fun f => { f with
      uid := c.uid, engines := c.engines, memBytes := c.memBytes, atblBase := c.atblBase, atblEntries := c.atblEntries,
      planId := c.setOrPlan, plan := if c.setOrPlan == 0 then [] else (Config.plan c.setOrPlan).map planEnt, planPort := Config.planPort c.setOrPlan,
      ports := addNew f.ports p, gives := tset f.gives p node, leaf := tset f.leaf p s.tbl.active.pos, pools := tset f.pools p s.ownNodes, pod := s.inPod }) }.farunRenumber at_
/-- What the partners give has changed with the table set (R446, R447). -/
def State.farunRegive (s : State) : State :=
  s.farun.foldl (fun t x => (t.modFarun x.1 (fun f => { f with gives := f.ports.foldl (fun g p => tset g p (s.nodeGiven p)) f.gives, pools := f.ports.foldl (fun g p => tset g p s.ownNodes) f.pools })).farunRenumber x.1) s
/-- The partner is back (R463): RETURNED for the nodes that had departed with it. -/
def State.partnerBack (s : State) (p : Nat) : State :=
  match (s.port p).partnerCap with
  | none => s
  | some f =>
    if f.kind == 0 then
      let n := s.nodeGiven p
      let s1 := if n < 0xFFF then s.attachFarun p n f else s
      if f.node < 0xFFF && s.absent.contains f.node then s1.declareReturn [f.node] f.uid else s1
    else if s.dev.spine && (s.facedNodes p).any (fun n => s.absent.contains n) then s.declareReturn (s.facedNodes p) f.uid else s
def State.enterService (s : State) (p : Nat) : State :=
  let s1 := s.toPort p .inService true (fun x => { x with
      txSeq := 0, rxSeq := 0, retry := [], attempts := 0, leaving := false,
      attaches := x.attaches + 1, attachSlot := s.slot, ackAt := s.clk })
  let s2 := (s1.modEpoch (.port p) (fun r => { r with mg := none, disagree := false })).modLanes p (fun _ l => { l with winSince := s.clk })
  (s2.grantFloors p).partnerBack p
def State.tryService (s : State) (p : Nat) : State := if s.canServe p then s.enterService p else s

-- Bit-error tests: records (R400, R403, R404)
def State.emitResult (s : State) (p i : Nat) (c : Nat × Nat) : State :=
  s.emit (.ctrl p 8 [2 ^ i, 4, 1, 0, min c.1 (2 ^ 64 - 1), min c.2 (2 ^ 64 - 1)])
def State.recordTest (s : State) (p i res : Nat) (c : Nat × Nat) : State :=
  let s1 := s.modLane (4 * p + i) (fun l => { l with bertBits := c.1, bertErrs := c.2, bertSlot := s.slot, bertRes := res,
                                                     bertPass := if res == 1 then some s.slot else l.bertPass })
  if res == 2 then s1.event 2 0x04 1 (4 * p + i) 0 c.2 else s1
/-- Whether counts meet `LINK.BERT_LIMIT` (R400). -/
def State.bertMeets (s : State) (c : Nat × Nat) : Bool :=
  match f32Val s.link.bertLimit with
  | .fin _ mag => decide (c.2 * 2 ^ 149 ≤ mag * c.1) && c.1 != 0
  | _ => false
/-- A test ends ABORTED: each lane's record, its last pass kept. -/
def State.abortTest (s : State) (p : Nat) : State :=
  match (s.port p).test with
  | none => s
  | some t => (bitsOf 4 t.lanes).foldl (fun u i => u.recordTest p i 3 (tget (0, 0) t.results i)) (s.modPort p (fun x => { x with test := none }))
/-- A lane begins to run EQUALISE and VERIFY alone (R396). -/
def State.widen (s : State) (p mask : Nat) : State :=
  if mask == 0 then s else s.modPort p (fun x => { x with wideMask := x.wideMask ||| mask, wideStage := 1 })
/-- Both directions' counts of a lane are known: its verdict, by the direction with the higher ratio (R404). A lane of a window test that passed rejoins. -/
def State.judgeLane (s : State) (p i : Nat) : State :=
  match (s.port p).test with
  | none => s
  | some t =>
    match tfind t.results i, tfind t.peers i with
    | some a, some b =>
      let worse := if a.2 * b.1 < b.2 * a.1 then b else a
      let pass := s.bertMeets a && s.bertMeets b
      let left := t.lanes &&& (15 ^^^ 2 ^ i)
      let s1 := (s.recordTest p i (if pass then 1 else 2) worse).modPort p (fun x => { x with test := if left == 0 then none else some { t with lanes := left } })
      if t.window && (s.port p).st == .inService && pass then s1.widen p (2 ^ i) else s1
    | _, _ => s
/-- Each end sends its RESULT for each lane tested (R404). -/
def State.sendResults (s : State) (p : Nat) : State :=
  match (s.port p).test with
  | some t => if t.ended then
      ((bitsOf 4 t.lanes).filter (fun i => (tfind t.peers i).isNone)).foldl (fun u i => u.emitResult p i (tget (0, 0) t.results i)) s else s
  | none => s

/-- LINKED: lanes in and out of service, the frame, the session, the results of an ended test (R384, R404, R443). -/
def State.enterLinked (s : State) (p : Nat) (lim : Bool) : State :=
  let x := s.port p
  let s1 := s.toPort p .linked true (fun y => { y with
      limited := lim, lanesIn := y.locked, lanesOut := y.signalled &&& (15 ^^^ y.locked),
      attempts := if s.portHasVcs p then y.attempts else 0, nextCseq := 0, rxCseq := 0xFFFF, capSent := none, capTxAck := false,
      test := y.test.map (fun t => if t.ended then { t with endAt := s.clk } else t) })
  let s2 := s1.modLanes p (fun i l => { l with st := if x.locked.testBit i then 1 else if x.signalled.testBit i then 2 else 0, winSince := s.clk })
  let s3 := if x.utgeod then s2 else s2.sendCap p
  ((s3.startSession p).sendResults p).tryService p
/-- The rate agreed is reached, or the next is trained (R383). -/
def State.rateDone (s : State) (p : Nat) : State :=
  let x := s.port p
  if x.agreedRate ≤ x.rate then s.enterLinked p false
  else s.toPort p .equalise true (fun y => { y with eqTries := 0, equalised := false })
/-- EQUALISE or VERIFY has failed: once more, then the previous rate, or DETECT from rate 1 (R383). -/
def State.rateFailed (s : State) (p : Nat) : State :=
  let x := s.port p
  if x.eqTries == 0 then s.toPort p .equalise true (fun y => { y with eqTries := 1, equalised := false })
  else if nextRate x.partner x.agreedRate x.rate ≤ 1 then s.attempt p
  else s.enterLinked p true

-- Going down (R195, R388)
def State.countMelt (s : State) (cls : Nat) : State := { s with sw := { s.sw with melted := bumpAt s.sw.melted cls } }
/-- A transaction in the egress queue of a port that has gone down (Table 7-8). -/
def State.downEntry (p : Nat) (s : State) (e : QEntry) : State :=
  match e.t.ty.cls with
  | 0 =>
    (match e.acc with
     | some a => failContribs 7 .all a.contribs s
     | none => (s.markFlow e.t e.adm).failEntry e 7 true)
  | 1 => s.failEntry e 7 true
  | 2 => (match altChain s.tbl.active s.portUp 4 p with | some q => s.enqueue q e.queueVc { e with ready := false } | none => s.release e)
  | 3 => (s.release e).countMelt 3
  | _ => s.release e
/-- A transaction in its retry buffer. -/
def State.downFlit (s : State) (f : RetryFlit) : State :=
  match f.txn with
  | some t => if t.ty.cls == 0 then s.markFlow t 0 else if t.ty.cls == 3 then s.countMelt 3 else s
  | none => s
/-- The partner has departed with its port (R461): an end-point, or at a SPINE a LEAF with its last port. -/
def State.partnerGone (s : State) (p : Nat) : State :=
  let x := s.port p
  match x.partnerCap with
  | none => s
  | some f =>
    let s1 := s.modPort p (fun y => { y with announced := y.announced + boolNat x.leaving, unannounced := y.unannounced + boolNat (!x.leaving), attachSlot := s.slot })
    let s2 := s1.farunPortDown p
    if f.kind == 0 then (if f.node < 0xFFF then s2.declareLeave [f.node] (if x.leaving then 0 else 1) f.uid else s2)
    else if s.dev.spine && (s.facedPorts p).all (fun q => !s.portUp q) then s2.declareLeave (s.facedNodes p) 1 f.uid
    else s2
/-- A port in service goes down with a cause of Table 13-10, to DETECT, DISABLED, or the start of a test. -/
def State.portDown (s : State) (p cause : Nat) (self : Bool) (to_ : PortState) : State :=
  let x := s.port p
  let entries := (List.range 10).flatMap (fun v => s.queue p v)
  let s1 := s.toPort p to_ self (fun y => { y.linkReset with
      downCount := y.downCount + 1, downCause := cause, downSlot := s.slot, downAt := s.clk,
      idling := to_ == .detect, attempts := 0 })
  let s2 := (((s1.lanesOff p).abortTest p).event 2 0x01 1 p cause 0).modPort p (fun y =>
    { y with altOn := y.altOn || (altChain s.tbl.active s1.portUp 4 p).isSome })
  let s3 := (List.range 10).foldl (fun t v => (t.setAdm p v (t.admOf p v).held 0).setQueue p v []) s2
  let s4 := x.retry.foldl State.downFlit (entries.foldl (State.downEntry p) s3)
  let s5 := (s4.addRepin (.port p) (s.sw.repinHold * 1000)).partnerGone p
  if s.rt.source == 1 && s.rt.srcPort == p then s5.refLoss else s5
/-- Takes a port out of whatever it does by a command: down from IN_SERVICE, else back to DETECT without counting (R387). -/
def State.retrainPort (s : State) (p : Nat) (self : Bool) : State :=
  match (s.port p).st with
  | .inService => s.portDown p 7 self .detect
  | .disabled => s
  | .failed => s
  | _ => (s.abortTest p).toDetect p 0 self

-- Narrowing (R391 to R396)
/-- This end asks for a lane mask: fewer lanes than `PORT.MIN_WIDTH` take the port down (R394). -/
def State.askMask (s : State) (p mask : Nat) : State :=
  let x := s.port p
  if popc 4 mask < max 1 x.minWidth then s.portDown p 5 true .detect
  else
    let sw := (x.codewords + 16) % 65536
    (s.modPort p (fun y => { y with narrowing := some { mask := mask, sw := sw, acked := false, since := (y.narrowing.map (fun n => n.since)).getD s.clk, sentAt := s.clk } })).emit
      (.ctrl p 7 [mask, 0, sw])
/-- Both directions run at the new width: a window test whose lane is out begins with DIAG START (R402). -/
def State.maskSettled (s : State) (p : Nat) : State :=
  match (s.port p).narrowing with
  | some n =>
    if !(n.acked && n.switched) then s else
    let s1 := s.modPort p (fun x => { x with narrowing := none })
    match (s1.port p).test with
    | some t =>
      if t.window && t.leader && !t.sent && t.lanes &&& (s1.port p).lanesIn == 0 then
        (s1.modPort p (fun x => { x with test := some { t with sent := true, since := s.clk } })).emit (.ctrl p 8 [t.lanes, 1, 1, t.dur])
      else s1
    | none => s1
  | none => s
/-- The transmitter changes to a mask: lanes, their states, event 2/0x02 and the port's epoch (R392, R426). -/
def State.useMask (s : State) (p mask : Nat) : State :=
  let s1 := s.modPort p (fun x => { x with lanesIn := mask, lanesOut := (x.lanesIn ||| x.lanesOut) &&& (15 ^^^ mask) })
  let all := (s.port p).lanesIn ||| (s.port p).lanesOut
  let s2 := s1.modLanes p (fun i l =>
    if mask.testBit i then (if l.st == 1 then l else { l with st := 1, winSince := s.clk })
    else if all.testBit i then { l with st := if l.st == 3 then 3 else 2, scanning := none } else l)
  (State.noteChange s s2 (.port p) true ((s.port p).lanesIn != mask)).event 2 0x02 1 p mask 0
/-- A lane of a port in service has a fault (R391, R393, R403). -/
def State.laneFaulty (s : State) (l : Nat) : State :=
  let p := l / 4
  let x := s.port p
  let bit := 2 ^ (l % 4)
  if x.st != .inService || x.lanesIn &&& bit == 0 then s
  else
    let base := match x.narrowing with | some n => n.mask | none => x.lanesIn
    let testing := match x.test with | some t => if t.window then t.lanes else 0 | none => 0
    (s.abortTest p).askMask p ((base ||| testing) &&& (15 ^^^ bit))

-- Step-up (R441)
/-- Whether a port has finished its step-up. -/
def State.stepped (s : State) (p : Nat) : Bool :=
  match (s.port p).st with
  | .inService => true
  | .linked => !s.portHasVcs p
  | .failed => true
  | .disabled => true
  | _ => false
/-- The ports of a group that retrain: those that have a partner. -/
def State.groupPorts (s : State) (g : Nat) : List Nat :=
  (List.range 256).filter (fun p => (p + s.tbl.active.pos) % 16 == g && decide (2 ≤ (s.port p).st.code) && (s.port p).st != .failed)
def State.startGroup (s : State) (g : Nat) : State :=
  let l := s.groupPorts g
  l.foldl (fun t p => t.retrainPort p false) { s with dev := { s.dev with stepGroup := some g, stepWait := l } }
/-- TABLES ends when step-up and HBM training have (Table 15-3). -/
def State.fullCheck (s : State) : State :=
  if s.dev.phase == .tables && s.dev.stepGroup.isNone && s.dev.hbmTrained then
    (s.toPhase (if s.pool.stks.any (fun k => k.2.st == .failed) then .degraded else .full) true).settlePhase
  else s
/-- Goes on to the next group once every port of the group has finished; `fuel` groups at most. -/
def stepOn : Nat → State → State
  | 0, s => s
  | fuel + 1, s =>
    match s.dev.stepGroup with
    | none => s
    | some g =>
      if !(s.dev.stepWait.all s.stepped) then s
      else if g == 15 then { s with dev := { s.dev with stepGroup := none, stepWait := [] } }.fullCheck
      else stepOn fuel (s.startGroup (g + 1))
def State.stepCheck (s : State) : State := stepOn 17 s

-- Receiving and sending flits (R370, R371, R376 to R378)
/-- The sequence number that an ACK names: the flits of a group whose tag has not verified are not acknowledged, since a failed tag asks for them again
(R371, R377; log 39). -/
def Port.ackSeq (x : Port) : Nat := (x.rxSeq + 2048 * (x.group.length + 1) - 1 - x.group.length) % 2048
/-- Sends the whole retry buffer again, each flit with the link-control bytes that its group's tag covers (R348, R378). -/
def State.replay (s : State) (p : Nat) : State :=
  let x := s.port p
  if x.retry.isEmpty then s else
  x.retry.foldl (fun t f => t.emit (.flit p f.seq (x.codewords % max 1 (popc 4 x.lanesIn)) f.lcb f.body))
    (s.modPort p (fun y => { y with replays := y.replays + 1, flitsReplayed := y.flitsReplayed + y.retry.length, ackAt := s.clk }))
/-- The retry buffer without what an acknowledgement covers. -/
def ackDrop (aseq : Nat) (r : List RetryFlit) : List RetryFlit :=
  if r.any (fun f => f.seq == aseq) then (r.dropWhile (fun f => f.seq != aseq)).drop 1 else r
/-- Acts on link-control bytes (Table 13-2). -/
def State.lcbIn (s : State) (p lcb : Nat) : State :=
  if lcb.testBit 2 then
    let vc := field lcb 3 4
    let cc := field lcb 7 9
    if 10 ≤ vc then s
    else s.modPort p (fun x => { x with txCredit := tmod 0 x.txCredit vc (· + (cc + 512 - tget 0 x.ccIn vc % 512) % 512), ccIn := tset x.ccIn vc cc })
  else if lcb.testBit 15 then s
  else
    let r := ackDrop (field lcb 3 11) (s.port p).retry
    let s1 := s.modPort p (fun x => { x with retry := r, ackAt := if r.length == x.retry.length then x.ackAt else s.clk })
    if lcb.testBit 14 then s1.replay p else s1
/-- Acknowledges what has arrived in order (R371); a NAK names the last flit received in order (R377). -/
def State.sendAck (s : State) (p : Nat) (nak : Bool) : State :=
  s.emit (.lcb p (lcbAck 1 (if nak then ((s.port p).rxSeq + 2047) % 2048 else (s.port p).ackSeq) nak))
/-- A flit has failed or come out of sequence (R377). -/
def State.nakNow (s : State) (p : Nat) : State :=
  if (s.port p).nak then s
  else (s.modPort p (fun x => { x with nak := true, nakAt := s.clk, naksSent := x.naksSent + 1 })).sendAck p true
/-- A sequenced flit at a port in service: in order, `k` acts on it; under another number, only its link-control bytes count (R369, R377). -/
def State.sequenced (s : State) (p : Nat) (f : Flit) (k : State → State) : State :=
  let x := s.port p
  if x.st != .inService then s
  else if flitPasses f x.rxSeq then
    k ((s.modPort p (fun y => { y with rxSeq := (y.rxSeq + 1) % 2048, nak := false })).lcbIn p f.lcb)
  else match passesUnder f 2047 (x.rxSeq + 1) with
    | some _ => (s.lcbIn p f.lcb).nakNow p
    | none => s.nakNow p
def run (a : Answer) (s : State) : State := match a with | .next t => t | _ => s
/-- Delivers a transaction that has arrived whole on a port to the command of its type; messages of the kinds that have commands of their own go to those (log 16). -/
def State.deliver (p : Nat) (s : State) (t : Txn) : State :=
  match t.ty with
  | .null => s
  | .rd => run (execRd p t s) s
  | .wr => run (execWr p t s) s
  | .atom => run (execAtom p t s) s
  | .resync => run (execResync p t s) s
  | .bisnp => run (execBisnp p t s) s
  | .rspData => run (execRspData p t s) s
  | .rspAtom => run (execRspAtom p t s) s
  | .rspDone => run (execRspDone p t s) s
  | .birsp => run (execBirsp p t s) s
  | .colData => run (execColData p t s) s
  | .colSide => run (execColSide p t s) s
  | .colPart => run (execColPart p t s) s
  | .colCtl => if t.xb == 2 then run (execColCtlCredit p t s) s else run (execColCtlAbort p t s) s
  | .nodeLeave => run (execNodeLeave p t s) s
  | .mgtMsg =>
    let s1 := run (execMgtMsg p t s) s
    if t.dnode != s.poolNode || t.rsvd != 0 then s1
    else match t.mkind with
      | 1 => run (execWithdrawalNotice t.snode (field t.mword 0 32) (bitOf t.mword 32) (field t.mword 48 16) (field t.mword 160 64) (field t.mword 224 64)
               (field t.mword 64 32) none s1) s1
      | 2 => run (execCtxStateNotice t.snode (field t.mword 0 16) (field t.mword 16 8) (field t.mword 24 4) (bitOf t.mword 28) s1) s1
      | 3 => run (execDoneNotice t.snode (field t.mword 0 32) s1) s1
      | 7 => run (execCtxStateAck t.snode (field t.mword 0 16) s1) s1
      | _ => s1
/-- The slots of a received flit: whole transactions are delivered, a reserved TYPE takes the port down (R114, R121). -/
def State.takeFlit (p : Nat) (s : State) (body : Bytes) : State :=
  let r := takeSlots (slotsOf body) { open_ := (s.port p).rxSlots }
  let s1 := r.txns.foldl (State.deliver p) (s.modPort p (fun x => { x with rxSlots := r.open_ }))
  if r.framing then s1.portDown p 10 true .detect else s1

-- Transmission (R175, R375, R376)
/-- The VC that a transaction takes at the partner: its class, or the D pool of a LEAF below a SPINE (Table 7-2). -/
def State.partnerVc (s : State) (cls : Nat) : Nat := if s.dev.spine then cls + 5 else cls
/-- Sends one sequenced flit and keeps it for replay. -/
def State.sendFlit (s : State) (p : Nat) (tag : Bool) (body : Bytes) (t : Option Txn) : State :=
  let x := s.port p
  let wire := if x.cryptState == 2 && !tag then slice (Config.gcmBody x.txKey.key (x.txKey.groupIv x.txGroupNo) x.txGroup.length body) 0 56 else slice body 0 56
  let lcb := lcbAck (if tag then 3 else 0) x.ackSeq false
  (s.modPort p (fun y => { y with
      txSeq := (y.txSeq + 1) % 2048, retry := y.retry ++ [{ seq := y.txSeq, tag := tag, body := wire, txn := t, lcb := lcb, sentAt := s.clk }],
      ackAt := if y.retry.isEmpty then s.clk else y.ackAt,
      flitsTx := y.flitsTx + boolNat (!tag), txFlits := y.txFlits + boolNat (!tag),
      codewords := if (y.flitsTx + 1) % 10 == 0 then (y.codewords + 1) % 65536 else y.codewords,
      txGroup := if y.cryptState == 2 && !tag then y.txGroup ++ [(lcb, wire)] else y.txGroup })).emit
    (.flit p x.txSeq (x.codewords % max 1 (popc 4 x.lanesIn)) lcb wire)
/-- Closes the open group with its TAG flit (R375). -/
def State.closeGroup (s : State) (p : Nat) : State :=
  let x := s.port p
  if x.txGroup.isEmpty then s else
  let tag := (Config.gcmTag x.txKey.key (x.txKey.groupIv x.txGroupNo) x.txGroup).toNat
  (s.sendFlit p true (leBytes 16 tag ++ leBytes 1 x.txGroup.length) none).modPort p (fun y => { y with txGroup := [], txGroupNo := y.txGroupNo + 1 })
/-- Sends a transaction, its header at slot 0, seven slots to a flit (R121); the flit that completes it stands for it in the retry buffer (R195). -/
def sendWords : Nat → Nat → List Nat → Option Txn → State → State
  | 0, _, _, _, s => s
  | n + 1, p, ws, t, s =>
    if ws.isEmpty then s else
    let s1 := s.sendFlit p false ((ws.take 7).flatMap (leBytes 8)) (if (ws.drop 7).isEmpty then t else none)
    sendWords n p (ws.drop 7) t (if 16 ≤ (s1.port p).txGroup.length then s1.closeGroup p else s1)
/-- Whether the head of a queue can start: it has passed its checks, its residence is within its limit (R188), and the partner has granted its cells (R122);
MGT traffic to a Utgeod partner is discarded there without credit (R386). -/
def State.canStart (s : State) (p v : Nat) : Bool :=
  match s.queue p v with
  | e :: _ => e.ready && !s.tooOld e && ((s.port p).utgeod && v % 5 == 4 || decide (e.t.cells ≤ tget 0 (s.port p).txCredit (s.partnerVc (v % 5))))
  | [] => false
/-- The class and the queue that R175 chooses. -/
def State.chooseQueue (s : State) (p : Nat) : Option Nat :=
  let x := s.port p
  let able := [4, 3, 2, 1, 0].filter (fun c => s.canStart p c || s.canStart p (c + 5))
  match (able.find? (fun c => decide (32 ≤ tget 0 x.passed c))).or able.head? with
  | none => none
  | some c =>
    some (if s.canStart p c && s.canStart p (c + 5) then (if tget 1 x.lastPool c == 0 then c + 5 else c)
          else if s.canStart p c then c else c + 5)
/-- PORT_TRANSMIT: starts one transaction, or closes the open group where none can start. -/
def State.transmit (s : State) (p : Nat) : State :=
  let x := s.port p
  if x.st != .inService || 1024 ≤ x.retry.length then s
  else match s.chooseQueue p with
    | none => s.closeGroup p
    | some v =>
      match s.queue p v with
      | [] => s
      | e :: rest =>
        -- the retry buffer holds 1,024 flits (R376)
        if 1024 < x.retry.length + min 6 (ceilDiv e.t.words.length 7) + boolNat (x.cryptState == 2) then s else
        let able := [4, 3, 2, 1, 0].filter (fun c => s.canStart p c || s.canStart p (c + 5))
        let s1 := (s.setQueue p v rest).modPort p (fun y => { y with
          passed := (List.range 5).foldl (fun t c => tset t c (if c == v % 5 || !able.contains c then 0 else tget 0 t c + 1)) y.passed,
          lastPool := tset y.lastPool (v % 5) (v / 5),
          agedSent := y.agedSent + boolNat (e.repl && e.t.status == 7),
          txCredit := tmod 0 y.txCredit (s.partnerVc (v % 5)) (· - e.t.cells) })
        let l := s1.leave e
        let s2 := l.2.release e
        if x.utgeod && e.t.ty.cls == 4 then s2
        else (sendWords 6 p l.1.t.words (some l.1.t) s2).toFarun p l.1.t

end Sys2Proof.Machine
end

