-- ==== Sys2Proof/Machine/LinkCmds.lean ====
section
/-! DEFINITION. The commands and events of fabric ports and lanes (R364 to R405, R443 to R450). -/

namespace Sys2Proof.Machine
open Sys2Proof

def portObj (p : Nat) : Nat := 0x2000 + 16 * p
def laneObj (l : Nat) : Nat := 0xB000 + l
/-- Whether CTRL messages of an established link are used in the port's state (Table 13-5). -/
def State.linkUsed (s : State) (p : Nat) : Bool := (s.port p).st == .linked || (s.port p).st == .inService
/-- Whether DIAG messages are used in the port's state (Table 13-5). -/
def State.diagUsed (s : State) (p : Nat) : Bool := s.linkUsed p || (s.port p).st == .test

-- Writes
/-- The effect of a write of `PORT.ENABLE` (Table 13-6). -/
def portEnableWrite (p : Nat) (on : Bool) (s : State) : Except Nat State :=
  let s1 := s.modPort p (fun x => { x with enable := on })
  .ok (if on then
         (if (s.port p).st == .disabled then State.noteChange s (s1.modPort p (fun x => { x with st := .detect, stSince := s.clk, attempts := 0, idling := false })) (.port p) false false else s1)
       else match (s.port p).st with
         | .disabled => s1
         | .inService => s1.portDown p 7 false .disabled
         | _ => ((s1.abortTest p).toPort p .disabled false (fun x => { x.linkReset with attempts := 0, idling := false })).lanesOff p).stepCheck
def execPortEnable (v : VCtx) (p : Nat) (on : Bool) (s : State) : Answer :=
  s.vaneWrite v (portObj p, 1) (leBytes 1 (boolNat on)) (some (.port p)) (portEnableWrite p on)
/-- `PORT.CTL` RETRAIN (R387). -/
def retrainWrite (p : Nat) (s : State) : Except Nat State :=
  check ((s.port p).st != .disabled && (s.port p).st != .failed) abortRefused <| .ok (s.retrainPort p false)
def execPortCtlRetrain (v : VCtx) (p : Nat) (s : State) : Answer := s.vaneWrite v (portObj p, 8) (leBytes 1 1) (some (.port p)) (retrainWrite p)
/-- `PORT.CTL` TEST (R401): from IN_SERVICE the port first goes down; DIAG START names all trained lanes. A Utgeod partner gets no DIAG (R386), so no ACK comes. -/
def testWrite (p : Nat) (s : State) : Except Nat State :=
  let x := s.port p
  check (x.st == .linked || x.st == .inService) abortRefused <|
  let s1 := if x.st == .inService then
      (s.portDown p 7 false .linked).modPort p (fun y => { y with lanesIn := x.lanesIn, lanesOut := x.lanesOut, locked := x.locked, signalled := x.signalled, rate := x.rate })
    else s.abortTest p
  let t : Test := { lanes := x.lanesIn ||| x.lanesOut, dur := x.bertTime * 1000, leader := true, window := false, acked := false, sent := true, since := s.clk,
                    ended := false, endAt := 0, results := [], peers := [] }
  let s2 := s1.modPort p (fun y => { y with test := some t })
  .ok (if x.utgeod then s2 else s2.emit (.ctrl p 8 [t.lanes, 1, 1, t.dur]))
def execPortTest (v : VCtx) (p : Nat) (s : State) : Answer := s.vaneWrite v (portObj p, 8) (leBytes 1 2) (some (.port p)) (testWrite p)
/-- `PORT.CTL` REWIDEN (R387, R396). -/
def rewidenWrite (p : Nat) (s : State) : Except Nat State :=
  check ((s.port p).st == .inService) abortRefused <|
  .ok (s.widen p (maskOf ((bitsOf 4 (s.port p).lanesOut).filter (fun i => (s.lane (4 * p + i)).st != 3))))
def execRewiden (v : VCtx) (p : Nat) (s : State) : Answer := s.vaneWrite v (portObj p, 8) (leBytes 1 3) (some (.port p)) (rewidenWrite p)
/-- The write of `PORT.CTL` by its value. -/
def portCtlWrite (p value : Nat) (s : State) : Except Nat State :=
  match value with
  | 1 => retrainWrite p s
  | 2 => testWrite p s
  | 3 => rewidenWrite p s
  | _ => .error abortRange
/-- `LANE.SLIP` (R390): in LOCK, in TEST, and for a lane that narrowing has taken out. At its new boundary the lane is not locked. -/
def laneSlipWrite (l value : Nat) (s : State) : Except Nat State :=
  let st := (s.port (l / 4)).st
  check (value == 1) abortRange <|
  check (st == .lock || st == .test || (s.lane l).st == 2) abortRefused <|
  .ok ((s.modLane l (fun x => { x with slips := (x.slips + 1) % 8192, lockOn := false })).modPort (l / 4) (fun y =>
    if st == .lock then { y with locked := y.locked &&& (15 ^^^ 2 ^ (l % 4)) } else y))
def execLaneSlip (v : VCtx) (l : Nat) (s : State) : Answer := s.vaneWrite v (laneObj l, 3) (leBytes 1 1) none (laneSlipWrite l 1)
/-- `LANE.CTL` (R397, R399). A lane that is OFF has nothing to scan. -/
def laneCtlWrite (l value : Nat) (s : State) : Except Nat State :=
  match value with
  | 1 => .ok (if (s.lane l).st == 0 then s else s.modLane l (fun x => { x with scanning := some s.slot }))
  | 2 => .ok (s.modLane l (fun x => { x with bases := [] }))
  | _ => .error abortRange
def execLaneScan (v : VCtx) (l : Nat) (s : State) : Answer := s.vaneWrite v (laneObj l, 9) (leBytes 1 1) none (laneCtlWrite l 1)
def execRebase (v : VCtx) (l : Nat) (s : State) : Answer := s.vaneWrite v (laneObj l, 9) (leBytes 1 2) none (laneCtlWrite l 2)

-- Eye scans (R397 to R399)
def eyeBelow (margin value base : Nat) : Bool := decide (value * 100 < base * (100 - margin))
/-- A scan of one eye is complete. The scan of a PAM4 lane ends with its upper eye. -/
def execEyeScanComplete (l eye vstep width height : Nat) (errors : List Nat) (s : State) : Answer :=
  match (s.lane l).scanning with
  | none => .next s
  | some start =>
    let rate := (s.port (l / 4)).rate
    let base := tfind (s.lane l).bases eye
    let fresh := rate == 3 && base.isNone
    let deg := match base with
      | some b => rate == 3 && (eyeBelow s.link.eyeMargin width b.width || eyeBelow s.link.eyeMargin height b.height)
      | none => false
    let r : EyeRec := { lane := l, eye := eye, rate := rate, traffic := (s.lane l).st == 1, baseline := fresh, degraded := deg, dwell := s.link.eyeDwell,
                        vstep := vstep, width := width, height := height, startSlot := start, endSlot := s.slot,
                        baseWidth := (base.map (fun b => b.width)).getD 0, baseHeight := (base.map (fun b => b.height)).getD 0,
                        errors := errors.map (fun e => min e 65535) }
    let s1 := s.modLane l (fun x => { x with
      eyeRec := some r, degraded := x.degraded || deg, bases := if fresh then tset x.bases eye r else x.bases,
      scanning := if eye == 2 || rate == 0 then none else x.scanning })
    .next (if deg then s1.event 2 0x05 0 l eye 0 else s1)

-- Training
/-- Signal on lanes of a port in DETECT for 10 µs (Table 13-6). -/
def execSignalDetected (p lanes : Nat) (s : State) : Answer :=
  let x := s.port p
  if x.st != .detect || x.idling || lanes % 16 == 0 then .next s
  else .next ((s.toPort p .lock true (fun y => { y with signalled := lanes % 16, locked := 0, deskewed := false })).modLanes p
    (fun _ l => { l with lockOn := false, inverted := false, slips := 0 }))
/-- LOCK ends once every signalled lane is locked and the port deskewed (R389), at no less than `PORT.MIN_WIDTH` lanes (R381). -/
def State.lockCheck (s : State) (p : Nat) : State :=
  let x := s.port p
  if x.st == .lock && x.deskewed && x.locked == x.signalled && x.locked != 0 && decide (x.minWidth ≤ popc 4 x.locked) then s.toExchange p else s
/-- Eight consecutive codewords decode on a lane (R389, R390). -/
def execLaneLock (l codewords : Nat) (inverted : Bool) (s : State) : Answer :=
  let p := l / 4
  let st := (s.port p).st
  if codewords < 8 || !(st == .lock || st == .test || (s.lane l).st == 2) then .next s
  else
    let s1 := s.modLane l (fun x => { x with lockOn := true, inverted := inverted })
    .next (if st == .lock && (s.port p).signalled.testBit (l % 4) then (s1.modPort p (fun x => { x with locked := x.locked ||| 2 ^ (l % 4) })).lockCheck p else s1)
def risingList : List Nat → Bool
  | a :: b :: r => decide (a < b) && risingList (b :: r)
  | _ => true
/-- DESKEW messages: the partner's lane numbers in the order of the own lanes, and the skew in codewords (R389). -/
def execDeskew (p : Nat) (order : List Nat) (skew : Nat) (s : State) : Answer :=
  if (s.port p).st != .lock then .next s.filterRx
  else if !(risingList order) && !(risingList order.reverse) then .next (s.logDown p 9)
  else if 4 < skew then .next s
  else .next ((s.modPort p (fun x => { x with deskewed := true, sent := { x.sent with reversed := decide (1 < order.length) && !(risingList order) } })).lockCheck p)
/-- Whether FORMAT, ROLE and window mode are a mismatch (R386). -/
def trainMismatch (x : Port) (r : TrainRec) : Bool := (r.format == 0 || r.role == 3) != x.windowActive
/-- A TRAIN record (R382, R386). -/
def execTrain (p : Nat) (r : TrainRec) (s : State) : Answer :=
  let x := s.port p
  if x.st.code < 3 || x.st == .failed || r.rsvd != 0 || 1 < r.format || 3 < r.role || !r.rates.testBit 0 then .next s.filterRx
  else if x.st != .exchange then .next s
  else if trainMismatch x r then .next ((s.logDown p 8).attempt p).stepCheck
  else
    let n := if r.echo != x.sent.nonce then 0 else if x.lastTrain == some r then x.sameTrain + 1 else 1
    let s1 := s.modPort p (fun y => { y with sent := { y.sent with echo := r.nonce }, lastTrain := some r, sameTrain := n })
    if n < 8 then .next s1
    else
      let a := s.agreed p r
      let s2 := s1.modPort p (fun y => { y with partner := r, agreedRate := a })
      .next (if a == 0 then (s2.enterLinked p false).stepCheck else s2.toPort p .equalise true (fun y => { y with eqTries := 0, equalised := false }))
/-- The record is sent every 1 µs in EXCHANGE and later (Table 13-6). -/
def execTrainRepeat (p : Nat) (s : State) : Answer :=
  .next (if (s.port p).st == .exchange || s.linkUsed p then s.sendTrain p else s)
/-- Coefficients have converged, for a port in EQUALISE or for lanes that equalise alone (R383, R396). -/
def execEqualiseConverged (p coeff : Nat) (s : State) : Answer :=
  let x := s.port p
  if x.st == .equalise then
    let r := nextRate x.partner x.agreedRate x.rate
    .next ((s.toPort p .verify true (fun y => { y with equalised := true })).modLanes p (fun i l =>
      if x.locked.testBit i then { l with eq := coeff, conv := tset l.conv r coeff } else l))
  else if x.st == .inService && x.wideStage == 1 then
    .next ((s.modPort p (fun y => { y with wideStage := 2 })).modLanes p (fun i l =>
      if x.wideMask.testBit i then { l with eq := coeff, conv := tset l.conv x.rate coeff } else l))
  else .next s
/-- VERIFY passes when every lane's ratio is at most `LINK.VERIFY_BER` and no codeword was uncorrectable (R383). -/
def State.verified (s : State) (mask : Nat) (bers : List Nat) (unc : Bool) : Bool :=
  !unc && (bitsOf 4 mask).all (fun i => !f32Above (bers.getD i 0) s.link.verifyBer)
def execVerifyEnd (p : Nat) (bers : List Nat) (unc : Bool) (s : State) : Answer :=
  let x := s.port p
  if x.st == .verify then
    .next (if s.verified x.locked bers unc then (s.modPort p (fun y => { y with rate := nextRate x.partner x.agreedRate x.rate })).rateDone p
           else s.rateFailed p).stepCheck
  else if x.st == .inService && x.wideStage == 2 then
    let s1 := s.modPort p (fun y => { y with wideMask := 0, wideStage := 0 })
    .next (if s.verified x.wideMask bers unc then s1.askMask p (((x.narrowing.map (fun n => n.mask)).getD x.lanesIn) ||| x.wideMask) else s1)
  else .next s
/-- Whether the time limit of a training state has passed (Table 13-8). -/
def State.overdue (s : State) (p ns : Nat) : Bool := decide ((s.port p).stSince + ns ≤ s.clk)
/-- A timeout of Table 13-8. In LOCK, lanes that have not locked are left out where enough others have (R381). -/
def execTrainingTimeout (p : Nat) (s : State) : Answer :=
  let x := s.port p
  match x.st with
  | .lock =>
    .next (if x.alignMode == 1 || !s.overdue p 10000000 then s
           else if x.deskewed && decide (x.minWidth ≤ popc 4 x.locked) && x.locked != 0 then s.toExchange p else (s.attempt p).stepCheck)
  | .exchange => .next (if s.overdue p 10000000 then (s.attempt p).stepCheck else s)
  | .equalise => .next (if s.overdue p 40000000 then (s.rateFailed p).stepCheck else s)
  | .linked => .next (if s.overdue p 50000000 && s.portHasVcs p then (s.attempt p).stepCheck else s)
  | _ => .next s

-- Capability frames
/-- A partner with another identity than the last one since cold reset (R449). -/
def State.newPartner (s : State) (p : Nat) (f : CapFrame) : State :=
  let x := s.port p
  if x.lastUid == 0 || x.lastUid == f.uid then s.modPort p (fun y => { y with lastUid := f.uid })
  else (s.modPort p (fun y => { y with lastUid := f.uid, allow := [], joinUntil := y.downAt + s.ageLimit 0 + s.ageLimit 2 })).modLanes p
    (fun _ l => { l with conv := [], bases := [] })
/-- A frame with STATUS LEAVING announces a departure (R450). -/
def State.noteLeaving (s : State) (p : Nat) (f : CapFrame) : State :=
  if f.status == 3 then (s.modPort p (fun y => { y with leaving := true })).setMg (.port p) (some 1) else s
/-- A received capability frame (R443 to R450). -/
def execCap (p : Nat) (f : CapFrame) (s : State) : Answer :=
  let x := s.port p
  if !s.linkUsed p then .next s.filterRx
  else if s.capBad p f then .next (s.modPort p (fun y => { y with framesRefused := y.framesRefused + 1, attachSlot := s.slot }))
  else
    let s1 := (s.newPartner p f).noteLeaving p f
    let s2 := s1.modPort p (fun y => { y with
      partnerCap := some f, rxCseq := f.cseq, capTxAck := y.capTxAck || y.capSent.any (fun g => g.cseq == f.echo) })
    let s3 := s2.sendCap p
    .next ((if f.cseq == x.rxCseq then s3 else s3.emitCap p).tryService p).stepCheck
/-- Every 10 µs until the frame is echoed, and when its content changes (R443). -/
def execCapRepeat (p : Nat) (s : State) : Answer :=
  if !s.linkUsed p || (s.port p).utgeod then .next s
  else if (s.port p).capTxAck then .next (s.sendCap p)
  else .next ((s.sendCap p).emitCap p)
/-- The wait of R449 is over. -/
def execJoiningWaitEnd (p : Nat) (s : State) : Answer :=
  if (s.port p).joinUntil == 0 || s.clk < (s.port p).joinUntil || !s.linkUsed p then .next s
  else .next ((((s.modPort p (fun x => { x with joinUntil := 0 })).sendCap p).tryService p).stepCheck)

-- SPDM on the link
/-- The fragments of a message held in order; none while one is missing. -/
def wholeMessage (l : List Frag) (mseq : Nat) : Option Bytes :=
  let m := l.filter (fun f => f.mseq == mseq)
  match m.find? (fun f => f.last) with
  | none => none
  | some z => if (List.range (z.frag + 1)).all (fun i => m.any (fun f => f.frag == i)) then
      some ((List.range (z.frag + 1)).flatMap (fun i => ((m.find? (fun f => f.frag == i)).map (fun f => f.body)).getD [])) else none
/-- The next keys of a session take effect; the old ones are held until the update ends (R348). -/
def State.nextKeys (s : State) (p : Nat) : State :=
  s.modPort p (fun y =>
    let k := Config.updatedSecret y.secret
    { y with secret := k, txKey := linkKey k (s.leads p), rxKey := linkKey k (!s.leads p), oldRx := some y.rxKey, rxFlits := 0, txFlits := 0 })
/-- What the responder of the session does on a request: its answer, and the session with the last (R347, R348). -/
def State.linkAnswer (s : State) (p code : Nat) : State :=
  let x := s.port p
  if x.cryptState == 1 then
    match spdmSteps[x.spdmStage]? with
    | some (want, answer) =>
      if code != want then s
      else
        let s1 := (s.modPort p (fun y => { y with spdmStage := y.spdmStage + 1 })).sendSpdm p (spdmMsg answer)
        if x.spdmStage + 1 == spdmSteps.length then (s1.sessionUp p).tryService p else s1
    | none => s
  else if x.cryptState == 2 && code == 0xE9 then
    ((if x.oldRx.isSome then s else s.nextKeys p).modPort p (fun y => { y with oldRx := none })).sendSpdm p (spdmMsg 0x69)
  else s
/-- What the requester of the session does on a response (R347, R348). -/
def State.linkSpdm (s : State) (p : Nat) (msg : Bytes) : State :=
  let x := s.port p
  let code := leAt msg 1 1
  if !s.leads p then s.linkAnswer p code
  else if x.cryptState == 1 then
    (if code == 0x7F then (s.sessionFail p).tryService p
     else match spdmSteps[x.spdmStage]? with
      | some (_, want) =>
        if code != want then s
        else match spdmSteps[x.spdmStage + 1]? with
          | some (next, _) => (s.modPort p (fun y => { y with spdmStage := y.spdmStage + 1 })).sendSpdm p (spdmMsg next)
          | none => (s.sessionUp p).tryService p
      | none => s)
  else if x.cryptState == 2 && code == 0x69 then s.modPort p (fun y => { y with oldRx := none })
  else s
/-- A received fragment of a link SPDM message (R374). -/
def execSpdm (p : Nat) (f : Frag) (s : State) : Answer :=
  if !s.linkUsed p || 48 < f.body.length || 1023 < f.frag then .next s.filterRx
  else
    let l := ((s.port p).spdmRx.filter (fun g => g.mseq == f.mseq && g.frag != f.frag)) ++ [f]
    match wholeMessage l f.mseq with
    | none => .next (s.modPort p (fun x => { x with spdmRx := l }))
    | some msg => .next ((((s.modPort p (fun x => { x with spdmRx := [] })).emit (.ctrl p 6 [f.mseq])).linkSpdm p msg).stepCheck)
/-- SPDM_ACK. -/
def execSpdmAck (p mseq : Nat) (s : State) : Answer :=
  if !s.linkUsed p then .next s.filterRx
  else .next (match (s.port p).spdmTx with
    | some (m, _, _) => if m == mseq then s.modPort p (fun x => { x with spdmTx := none }) else s
    | none => s)
/-- A message without an acknowledgement for 10 µs is sent again, 8 times at most (R374). -/
def execSpdmRepeat (p : Nat) (s : State) : Answer :=
  match (s.port p).spdmTx with
  | none => .next s
  | some (m, tries, at_) =>
    if s.clk < at_ + 10000 then .next s
    else if 8 ≤ tries then .next ((s.sessionFail p).tryService p).stepCheck
    else .next ((s.modPort p (fun x => { x with spdmTx := some (m, tries + 1, s.clk) })).emitFrags p m (s.port p).spdmOut)
/-- After 2^40 flits in a direction both ends run KEY_UPDATE (R348). -/
def execKeyUpdate (p : Nat) (s : State) : Answer :=
  let x := s.port p
  if x.cryptState != 2 || (x.rxFlits < 2 ^ 40 && x.txFlits < 2 ^ 40) then .next s
  else
    let s1 := s.nextKeys p
    .next (if s.leads p then s1.sendSpdm p (spdmMsg 0xE9) else s1)

-- Flits
/-- A received DATA flit (R369, R371, R375, R377); while the port is ON its transactions wait for the group's tag (R348). -/
def execData (p : Nat) (f : Flit) (s : State) : Answer :=
  .next (s.sequenced p f (fun t =>
    let t1 := t.modPort p (fun x => { x with flitsRx := x.flitsRx + 1, rxFlits := x.rxFlits + 1 })
    if (t.port p).cryptState == 2 then t1.modPort p (fun x => { x with group := x.group ++ [(f.lcb, f.body)] })
    else ((t1.sendAck p false).takeFlit p f.body).stepCheck))
/-- A received IDLE flit (R368, R373). -/
def execIdle (p : Nat) (f : Flit) (s : State) : Answer :=
  .next (if (s.port p).st == .inService && flitPasses f 0xFFFF then s.lcbIn p f.lcb else s)
/-- Releases a verified group: each flit deciphered by its place in the group and taken (R348). -/
def takeGroup (p : Nat) (key : LinkKey) (iv : Nat) : Nat → List (Nat × Bytes) → State → State
  | _, [], s => s
  | pos, g :: r, s => takeGroup p key iv (pos + 1) r (s.takeFlit p (slice (Config.gcmBody key.key iv pos g.2) 0 56))
/-- A tag that fails: the group is discarded and asked for again; a third failure within 1 ms takes the port down (R348, R377). -/
def State.tagBad (s : State) (p n : Nat) : State :=
  let at1 := ((s.port p).tagFailAt.filter (fun t => decide (s.clk < t + 1000000))) ++ [s.clk]
  let s1 := s.modPort p (fun x => { x with tagFails := x.tagFails + 1, tagFailAt := at1, group := [], rxSeq := (x.rxSeq + 4095 - n) % 2048, nak := false })
  if 3 ≤ at1.length then s1.portDown p 4 true .detect else s1.nakNow p
/-- The group that a TAG flit in sequence closes: released where its tag verifies, under the new keys or, until an update ends, under the old; else
discarded and asked for again (R348, R375). -/
def State.tagServe (t : State) (p : Nat) (f : Flit) : State :=
  let x := t.port p
  let tagOk := fun (k : LinkKey) => leAt f.body 0 16 == (Config.gcmTag k.key (k.groupIv x.rxGroupNo) x.group).toNat
  let formed := x.group.length != 0 && decide (x.group.length ≤ 16) && leAt f.body 16 1 == x.group.length && leAt f.body 17 39 == 0
  let key := match x.oldRx with | some k => if tagOk x.rxKey then x.rxKey else k | none => x.rxKey
  if formed && tagOk key then
    let t1 := (t.modPort p (fun y => { y with group := [], rxGroupNo := y.rxGroupNo + 1 })).sendAck p false
    (takeGroup p key (key.groupIv x.rxGroupNo) 0 x.group t1).stepCheck
  else t.tagBad p x.group.length
/-- A received TAG flit (R375, R377). On a port that is OFF it closes no group. -/
def execTag (p : Nat) (f : Flit) (s : State) : Answer :=
  .next (s.sequenced p f (fun t => if (t.port p).cryptState == 2 then t.tagServe p f else t.sendAck p false))
/-- The NAK is repeated every 200 ns (R377). -/
def execNakRepeat (p : Nat) (s : State) : Answer :=
  let x := s.port p
  .next (if x.st == .inService && x.nak && decide (x.nakAt + 200 ≤ s.clk) then (s.modPort p (fun y => { y with nakAt := s.clk, naksSent := y.naksSent + 1 })).sendAck p true else s)
/-- No progress of the acknowledgement for 1 µs (R378). -/
def execReplayTimeout (p : Nat) (s : State) : Answer :=
  let x := s.port p
  .next (if x.st == .inService && !x.retry.isEmpty && decide (x.ackAt + 1000 ≤ s.clk) then s.replay p else s)
/-- A flit unacknowledged 4 µs after its first transmission (R379). -/
def execAckTimeout (p : Nat) (s : State) : Answer :=
  let x := s.port p
  .next (if x.st == .inService && x.retry.any (fun f => decide (f.sentAt + 4000 ≤ s.clk)) then s.portDown p 3 true .detect else s)
/-- The current count of a VC (R370). -/
def execCreditRefresh (p vc : Nat) (s : State) : Answer :=
  .next (if (s.port p).st == .inService && decide (vc < 10) then s.emit (.lcb p (lcbCredit 1 vc (tget 0 (s.port p).ccOut vc % 512))) else s)
/-- PORT_TRANSMIT (R175). -/
def execPortTransmit (p : Nat) (s : State) : Answer := .next (s.transmit p)

-- Lane faults and narrowing
/-- Loss of signal for 1 µs, or four consecutive uncorrectable codewords (R391). -/
def execLaneFault (l why : Nat) (s : State) : Answer :=
  .next ((if why == 1 then s.modLane l (fun x => { x with uncorrectable := x.uncorrectable + 4 }) else s).laneFaulty l)
/-- The end of a lane's 10 ms window (R391, Table 15-7). -/
def execSerWindow (l ber : Nat) (s : State) : Answer :=
  let x := s.lane l
  if x.st != 1 || (s.port (l / 4)).st != .inService || s.clk < x.winSince + 10000000 then .next s
  else
    let alarm := f32Above ber s.link.serAlarm
    let s1 := s.modLane l (fun y => { y with ser := ber, winSince := s.clk, alarm := y.alarm || alarm })
    let s2 := if alarm then s1.event 2 0x03 0 l 0 0 else s1
    .next (if f32Above ber s.link.serLimit then s2.laneFaulty l else s2)
/-- A received NARROW (R392, R393). -/
def execNarrow (p mask : Nat) (ack : Bool) (_sw : Nat) (s : State) : Answer :=
  let x := s.port p
  if x.st != .inService || 15 < mask then .next s.filterRx
  else if ack then
    .next (match x.narrowing with
      | some n => if n.mask == mask then (s.modPort p (fun y => { y with narrowing := some { n with acked := true } })).maskSettled p else s
      | none => s)
  else
    let m := match x.narrowing with | some n => n.mask &&& mask | none => mask
    if popc 4 m < max 1 x.minWidth then .next (s.portDown p 5 true .detect)
    else match x.narrowing with
      | some n =>
        if n.mask == mask then .next (s.emit (.ctrl p 7 [mask, 1, n.sw]))
        else .next (s.askMask p m)
      | none =>
        let sw := (x.codewords + 16) % 65536
        .next ((s.modPort p (fun y => { y with narrowing := some { mask := m, sw := sw, acked := true, since := s.clk, sentAt := s.clk } })).emit (.ctrl p 7 [m, 1, sw]))
/-- An unacknowledged NARROW is sent again every 200 ns (R392). -/
def execNarrowRepeat (p : Nat) (s : State) : Answer :=
  match (s.port p).narrowing with
  | none => .next s
  | some n =>
    .next (if !n.acked && decide (n.sentAt + 200 ≤ s.clk) then
        (s.modPort p (fun x => { x with narrowing := some { n with sentAt := s.clk } })).emit (.ctrl p 7 [n.mask, 0, n.sw]) else s)
/-- The transmitter's codeword counter has reached the switch counter (R392). -/
def execNarrowSwitch (p : Nat) (s : State) : Answer :=
  match (s.port p).narrowing with
  | none => .next s
  | some n =>
    .next (if n.switched then s
           else ((s.modPort p (fun x => { x with narrowing := some { n with switched := true } })).useMask p n.mask).maskSettled p)
/-- No narrowing completed within 2 µs of the first NARROW (R393). -/
def execNarrowTimeout (p : Nat) (s : State) : Answer :=
  match (s.port p).narrowing with
  | none => .next s
  | some n => .next (if n.since + 2000 ≤ s.clk then s.portDown p 6 true .detect else s)
/-- Loss of signal, or of decodable codewords, on every in-service lane for 1 µs (R388). -/
def execSignalLost (p : Nat) (decodable : Bool) (s : State) : Answer :=
  .next (if (s.port p).st == .inService then (s.portDown p (if decodable then 2 else 1) true .detect).stepCheck else s)
/-- The electrical idle after going down is over (R388). -/
def execDownIdleEnd (p : Nat) (s : State) : Answer :=
  .next (if (s.port p).idling && decide ((s.port p).downAt + 100000 ≤ s.clk) then s.modPort p (fun x => { x with idling := false }) else s)
/-- A received RETRAIN message, in any state after LOCK (R387). -/
def execRetrain (p : Nat) (s : State) : Answer :=
  if (s.port p).st.code < 3 || (s.port p).st == .failed then .next s.filterRx else .next (s.retrainPort p true)

-- Bit-error tests (R400 to R404)
/-- A received DIAG START: DIAG ACK, and PRBS31 on the lanes named. A port in service whose lanes in service are named leaves service; a test of a lane
that is out leaves the port in service. -/
def execDiagStart (p mask dur : Nat) (s : State) : Answer :=
  let x := s.port p
  let t : Test := { lanes := mask, dur := dur, leader := false, window := x.st == .inService && (mask &&& x.lanesIn) == 0, acked := true, sent := true, since := s.clk,
                    ended := false, endAt := 0, results := [], peers := [] }
  if !s.diagUsed p || 15 < mask then .next s.filterRx
  else if mask == 0 || (s.port p).st == .test then .next s
  else if t.window then
    .next (((s.modPort p (fun y => { y with test := some t })).modLanes p (fun i l => if mask.testBit i then { l with st := 3 } else l)).emit (.ctrl p 8 [mask, 3, 1, dur]))
  else
    let s1 := if x.st == .inService then s.portDown p 7 true .test else (s.abortTest p).toPort p .test true id
    .next (((s1.modPort p (fun y => { y with test := some t })).modLanes p (fun i l => if mask.testBit i then { l with st := 3 } else l)).emit (.ctrl p 8 [mask, 3, 1, dur]))
/-- A received DIAG ACK puts this end into the test too (R401). -/
def execDiagAck (p mask : Nat) (s : State) : Answer :=
  if !s.diagUsed p then .next s.filterRx else
  match (s.port p).test with
  | none => .next s
  | some t =>
    if !t.leader || !t.sent || t.acked || t.lanes != mask then .next s
    else
      let s1 := (s.modPort p (fun x => { x with test := some { t with acked := true, since := s.clk } })).modLanes p (fun i l => if mask.testBit i then { l with st := 3 } else l)
      .next (if t.window && (s.port p).st == .inService then s1 else s1.toPort p .test true id)
/-- Ends a test ABORTED: a lane of a window test rejoins, a port under test returns to DETECT (R401, R403). -/
def State.stopTest (s : State) (p : Nat) : State :=
  match (s.port p).test with
  | none => s
  | some t =>
    let s1 := s.abortTest p
    if (s.port p).st == .inService then
      (s1.modLanes p (fun i l => if t.lanes.testBit i && l.st == 3 then { l with st := 2 } else l)).widen p (t.lanes &&& (s.port p).lanesOut)
    else s1.toDetect p 0 true
/-- No DIAG ACK within 10 µs: ABORTED, and the port retrains (R401). -/
def execDiagAckTimeout (p : Nat) (s : State) : Answer :=
  match (s.port p).test with
  | none => .next s
  | some t => .next (if t.leader && t.sent && !t.acked && decide (t.since + 10000 ≤ s.clk) then s.stopTest p else s)
def execDiagStop (p : Nat) (s : State) : Answer :=
  if !s.diagUsed p then .next s.filterRx else
  match (s.port p).test with
  | none => .next s
  | some t => .next (if t.ended then s else s.stopTest p)
/-- A received DIAG RESULT (R404). -/
def execDiagResult (p l bits errs : Nat) (s : State) : Answer :=
  if !s.diagUsed p then .next s.filterRx else
  match (s.port p).test with
  | none => .next s
  | some t =>
    if !s.linkUsed p then .next s
    else if !t.lanes.testBit l then .next s
    else .next (((s.modPort p (fun x => { x with test := some { t with peers := tset t.peers l (bits, errs) } })).judgeLane p l).tryService p)
def execDiagResultRepeat (p : Nat) (s : State) : Answer := .next (if s.linkUsed p then s.sendResults p else s)
/-- The partner's RESULT has not come within 1 ms (R404). -/
def execDiagResultTimeout (p l : Nat) (s : State) : Answer :=
  match (s.port p).test with
  | none => .next s
  | some t =>
    if !t.ended || !s.linkUsed p || !t.lanes.testBit l || (tfind t.peers l).isSome || s.clk < t.endAt + 1000000 then .next s
    else
      let left := t.lanes &&& (15 ^^^ 2 ^ l)
      .next (((s.recordTest p l 3 (tget (0, 0) t.results l)).modPort p (fun x => { x with test := if left == 0 then none else some { t with lanes := left } })).tryService p)
/-- The end of the test duration: both ends leave TEST for DETECT (R401). -/
def execTestEnd (p : Nat) (counts : List (Nat × Nat)) (s : State) : Answer :=
  match (s.port p).test with
  | none => .next s
  | some t =>
    if (s.port p).st != .test || s.clk < t.since + t.dur * 1000 then .next s
    else
      let res := (bitsOf 4 t.lanes).foldl (fun r i => tset r i (counts.getD i (0, 0))) []
      .next ((s.toDetect p 0 true).modPort p (fun x => { x with test := some { t with ended := true, results := res } }))

-- Windows (R256, R286, R397, R402)
/-- Whether the event entry `k` of a kind begins now, at the first nanosecond of its slot, and its entry (R256, Tables 9-4, 9-13). -/
def State.eventNow (s : State) (k kind : Nat) : Option EventEnt :=
  let e := tget {} s.tbl.active.events k
  let timed := s.rt.quality == .locked || s.rt.quality == .holdover || (s.rt.quality == .unlocked && kind != 3)
  if e.kind == kind && timed && s.rt.now % 1024 == 0 && s.slot % max 1 e.period == e.offset then some e else none
/-- The ports of a window's range. -/
def EventEnt.ports (e : EventEnt) : List Nat := (List.range (e.target / 256 % 256 + 1)).map (fun i => e.target % 256 + i)
/-- EYE_SCAN_WINDOW: scans start or resume on the lanes in service of its ports; windows rest from thermal stage ALERT on (Table 16-8). -/
def execEyeScanWindow (k : Nat) (s : State) : Answer :=
  match s.eventNow k 2 with
  | none => .next s
  | some e =>
    if s.thm.stage != .normal then .next s
    else .next (e.ports.foldl (fun t p => t.modLanes p (fun _ l => if l.st == 1 && l.scanning.isNone then { l with scanning := some s.slot } else l)) s)
/-- Whether a lane is due (R402): out of service, never passed, or its last pass too old. -/
def State.laneDue (s : State) (p i : Nat) : Bool :=
  let l := s.lane (4 * p + i)
  l.st == 2 || (match l.bertPass with | none => true | some b => decide (s.link.bertInterval * 1000000000 < (s.slot - b) * 1024))
/-- What a bit-error window does on one port that this package leads (R402). A window test that would leave fewer lanes than `PORT.MIN_WIDTH` is not begun. -/
def State.windowTest (e : EventEnt) (s : State) (p : Nat) : State :=
  let x := s.port p
  let dur := (e.len * 1024 - 200000) / 1000
  let mk := fun (lanes : Nat) (sent : Bool) =>
    ({ lanes := lanes, dur := dur, leader := true, window := true, acked := false, sent := sent, since := s.clk, ended := false, endAt := 0, results := [], peers := [] } : Test)
  if !s.leads p || x.utgeod || x.test.isSome || x.narrowing.isSome then s
  else if x.st == .linked then
    (s.modPort p (fun y => { y with test := some (mk (x.lanesIn ||| x.lanesOut) true) })).emit (.ctrl p 8 [x.lanesIn ||| x.lanesOut, 1, 1, dur])
  else if x.st != .inService then s
  else match (bitsOf 4 (x.lanesIn ||| x.lanesOut)).find? (s.laneDue p) with
    | none => s
    | some i =>
      if x.lanesOut.testBit i then
        (s.modPort p (fun y => { y with test := some (mk (2 ^ i) true) })).emit (.ctrl p 8 [2 ^ i, 1, 1, dur])
      else if popc 4 x.lanesIn - 1 < max 1 x.minWidth then s
      else (s.modPort p (fun y => { y with test := some (mk (2 ^ i) false) })).askMask p (x.lanesIn &&& (15 ^^^ 2 ^ i))
def execBitErrorWindow (k : Nat) (s : State) : Answer :=
  match s.eventNow k 3 with
  | none => .next s
  | some e => .next (if s.thm.stage != .normal then s else e.ports.foldl (State.windowTest e) s)
/-- The end of a window's test of a lane: own counts, the RESULT, and the verdict once both are known; ABORTED where the time quality has left LOCKED and
HOLDOVER (R402 to R404). -/
def execBitErrorWindowEnd (p l bits errs : Nat) (s : State) : Answer :=
  match (s.port p).test with
  | none => .next s
  | some t =>
    if !t.window || !t.acked || !t.lanes.testBit l || t.ended || (s.port p).st != .inService then .next s
    else if !(s.rt.quality == .locked || s.rt.quality == .holdover) then .next (s.stopTest p)
    else
      let s1 := s.modPort p (fun x => { x with test := some { t with ended := true, endAt := s.clk, results := tset t.results l (bits, errs) } })
      let s2 := s1.modLane (4 * p + l) (fun x => { x with st := 2 })
      .next ((s2.emitResult p l (bits, errs)).judgeLane p l)
/-- One error that a scrub window meets (R284) on a stack ONLINE; the read of a line comes when no access waits for it in its queue (R281). -/
def scrubErr (mask : Nat) (s : State) (e : ScrubErr) : State :=
  let on := fun k => mask.testBit k && (s.stack k).st == .online
  match e with
  | .corrected k _ => if on k then s.modStack k (fun x => { x with ce := x.ce + 1 }) else s
  | .uncorrectable k line => if on k && s.rangeFree (64 * line) 64 then (s.countUe k).lineUe (64 * line) else s
  | .uncorrectableFree k => if on k then s.countUe k else s
/-- A stack's pass goes on by the lines that the window read; the slot of its end is recorded (R286). -/
def State.scrubOn (n : Nat) (s : State) (k : Nat) : State :=
  if (s.stack k).st != .online then s else
  let total := s.dieGranules * 32768
  s.modStack k (fun x => if total ≤ x.scrubPos + n then { x with scrubPos := 0, scrubPass := s.slot } else { x with scrubPos := x.scrubPos + n })
def execScrubWindow (k lines : Nat) (errs : List ScrubErr) (s : State) : Answer :=
  match s.eventNow k 4 with
  | none => .next s
  | some e =>
    if s.thm.stage != .normal then .next s
    else .next ((bitsOf 24 e.target).foldl (State.scrubOn lines) (errs.foldl (scrubErr e.target) s))

end Sys2Proof.Machine
end

