-- ==== Sys2Proof/Machine/Tables.lean ====
section
/-! DEFINITION. Loading, checking, arming and switching table images (R265 to R270, R43), the retiring bank, and the telemetry snapshot (R460). -/

namespace Sys2Proof.Machine
open Sys2Proof

def State.modTbl (s : State) (f : Tables → Tables) : State := { s with tbl := f s.tbl }
/-- Moves the standby bank; `mg` is the state that a command targets, if one does (Table 14-8). -/
def State.toBank (s : State) (st : BankState) (self : Bool) (f : Tables → Tables) : State :=
  State.noteChange s (s.modTbl (fun t => { f t with stdState := st })) .bank self false
def bankObj : Nat × Nat := (0x7100, 1)

-- DOMAIN transfers (R417)
def State.transferOn (s : State) (index sub : Nat) : Option Transfer :=
  s.vane.transfers.find? (fun x => x.index == index && x.sub == sub && !x.abandoned)
def State.modTransfers (s : State) (f : List Transfer → List Transfer) : State := { s with vane := { s.vane with transfers := f s.vane.transfers } }
/-- The transfer that a session holds on an object, abandoned or not. -/
def State.ownTransfer (s : State) (sess index sub : Nat) : Option Transfer :=
  s.vane.transfers.find? (fun x => x.sess == sess && x.index == index && x.sub == sub)
/-- The checks of R417 on a segment, with `have_` bytes accepted so far: BUSY, LENGTH, SEGMENT. -/
def State.segmentBad (s : State) (sess : Nat) (f : VFrame) (max have_ : Nat) : Option Nat :=
  if f.offset == 0 && (s.transferOn f.index f.sub).any (fun x => x.sess != sess) then some abortBusy
  else if max < f.offset + f.payload.length then some abortLength
  else if f.offset != 0 && !((s.ownTransfer sess f.index f.sub).any (fun x => !x.abandoned) && f.offset == have_) then some abortSegment
  else none
/-- Opens, continues or ends the session's transfer on the object of the frame. -/
def State.noteSegment (s : State) (sess : Nat) (f : VFrame) (bytes : Bytes) : State :=
  s.modTransfers (fun l =>
    let others := l.filter (fun x => !(x.index == f.index && x.sub == f.sub && (x.sess == sess || (x.abandoned && f.offset == 0))))
    if f.last then others else others ++ [{ sess := sess, index := f.index, sub := f.sub, bytes := bytes, at_ := s.clk, abandoned := false }])

/-- The bytes of a segment have reached the standby bank; with IMG_LEN bytes it is checked (Table 9-14). -/
def State.fillBank (s : State) (sess : Nat) (f : VFrame) : State :=
  let bytes := (if f.offset == 0 then [] else s.tbl.stdBytes) ++ f.payload
  let len := leAt bytes 8 4
  let full := decide (12 ≤ bytes.length) && decide (len ≤ bytes.length)
  let s1 := s.noteSegment sess (if full then { f with last := true } else f) []
  (s1.setMg .bank (some 1)).toBank (if full then .checking else .loading) false (fun t =>
    { t with stdBytes := bytes, stdLen := len, checkSince := s.clk, std := {} })
def State.bankBusy (s : State) : Bool := s.tbl.stdState == .armed || s.tbl.stdState == .checking || s.tbl.stdState == .retiring
/-- A write to `TBL.IMAGE` in the PRV view (R265, R417, R420, R427). -/
def State.imageWrite (s : State) (sess : Nat) (f : VFrame) : State :=
  match s.segmentBad sess f 4194304 s.tbl.stdBytes.length with
  | some a => s.refuse sess f a
  | none =>
    s.vaneJudge sess f (if f.offset == 0 then some .bank else none) (fun t => check (!t.bankBusy) abortRefused (.ok (t.fillBank sess f)))
/-- TBL_IMAGE: one segment. -/
def execTblImage (v : VCtx) (offset : Nat) (last : Bool) (data : Bytes) (s : State) : Answer :=
  let f := { writeFrame v 0x7100 1 data with offset := offset, last := last }
  .next (s.vaneServe v.sess f (fun t => t.imageWrite v.sess f))
/-- IMAGE_CHECK_DONE (R266, event 6/0x03). -/
def execImageCheckDone (s : State) : Answer :=
  if s.tbl.stdState != .checking then .next s else
  let r := imageCheck s s.tbl.stdBytes
  .next (if r.1 == 0 then (s.setMg .bank (some 3)).toBank .ready false (fun t => { t with std := decodeImage t.stdBytes, loadCode := 0, loadType := 0, loadOff := 0 })
    else (s.toBank .empty true (fun t => { t with loadCode := r.1, loadType := r.2.1, loadOff := r.2.2, std := {}, stdBytes := [], stdLen := 0 })).event
      6 0x03 1 0 r.1 (leAt s.tbl.stdBytes 16 8))

-- R43
/-- The NODES sections that were active at some time from rack time `from_` on. -/
def nodesSince (from_ : Nat) : List (Nat × Tab NodeEnt) → List (Tab NodeEnt)
  | [] => []
  | (t, n) :: r => n :: (if t ≤ from_ then [] else nodesSince from_ r)
/-- Whether R43 lets the standby image assign its nodes at rack time `at_`: a number newly assigned was free in every image active during the 4 ms before,
and a switch-over took place in them. -/
def State.assignOk (s : State) (at_ : Nat) : Bool :=
  s.tbl.std.nodes.all (fun x =>
    x.2.kind == 0 || nodeEnt s.tbl.active x.1 == x.2 ||
    ((nodesSince (at_ - 4000000) s.tbl.history).all (fun t => (tget {} t x.1).kind == 0) && s.tbl.history.any (fun h => decide (at_ ≤ h.1 + 4000000))))

/-- The new image takes effect (R269, R440, R441). -/
def State.doSwitch (s : State) (slot : Nat) : State :=
  let old := s.opsActive
  let wasDefault := s.builtIn
  let m := s.tbl.std
  let s1 := s.addRepin .switchOver (s.ageLimit 0)
  let s2 := (s1.setMg .bank (some 0)).toBank .retiring false (fun t =>
    { t with retiring := some old, retiringSince := s.clk, active := m, activeBank := 1 - t.activeBank, std := {}, stdBytes := [], stdLen := 0,
             armSlot := 0, activeSet := m.setId, switchSlot := slot, history := (s.rt.now, m.nodes) :: t.history.take 64 })
  let s3 : State :=
    { s2 with
      sw := { s2.sw with
        oldAlt := (s2.ports.filter (fun x => x.2.altOn)).map Prod.fst, oldUp := (List.range 256).filter s.portUp, oldImg := some s.tbl.active, hops := if m.role == 0 then 1 else 3 },
      ports := tmap s2.ports (fun _ x => { x with altOn := false }),
      dev := { s2.dev with mode := m.role },
      ops := { s2.ops with
        insts := tmap s2.ops.insts (fun _ x => if x.st == .idle || x.st == .armed then x else { x with retiring := true }),
        slushEntry := if wasDefault then {} else s2.ops.slushEntry, slushNodes := if wasDefault then none else s2.ops.slushNodes },
      rt := { s2.rt with scheduled := s2.rt.scheduled || s2.rt.quality == .locked } }
  let s3a := (s.ops.insts.filter (fun x => x.2.st == .idle)).foldl (fun t x => t.thawStripe (opsEntryAt old x.1)) s3
  let s3b := (s.ops.insts.filter (fun x => x.2.st == .armed)).foldl (fun t x => t.rearm x.1) s3a
  let s4 := (s3b.dropMarks (fun k => (nodeEnt m k.snode).kind == 0)).farunRegive
  let s5 := s4.event 6 0x02 0 0 0 m.version
  let s6 := if wasDefault then s5.askTable else s5
  let s7 := (List.range 256).foldl State.sendCap s6
  if wasDefault && s7.dev.phase == .slush && s7.dev.powerWarned.isNone then ((s7.toPhase .tables true).startGroup 0).stepCheck else s7

/-- The conditions of R267 and R270 on a write of `TBL.ARM`. -/
def State.armOk (s : State) (slot version : Nat) : Bool :=
  s.tbl.stdState == .ready && s.tbl.std.version == version &&
  (if slot == 0 then
     s.builtIn && !s.tbl.history.isEmpty && decide (s.tbl.defaultSince + 2 * max (s.ageLimit 0) (s.ageLimit 2) ≤ s.clk) &&
     s.tbl.std.nodes.all (fun x => x.2.kind == 0 || nodeEnt s.tbl.active x.1 == x.2 || (nodeEnt s.tbl.active x.1).kind == 0)
   else
     decide (s.slot + s.tbl.minLead ≤ slot) && decide (slot ≤ s.slot + 2 ^ 30) && s.rt.quality != .unset && s.rt.quality != .acquiring &&
     s.assignOk (slot * 1024))
def tblArmWrite (slot version : Nat) (s : State) : Except Nat State :=
  check (s.armOk slot version) abortRefused <|
  .ok (if slot == 0 then s.doSwitch s.slot else (s.setMg .bank (some 4)).toBank .armed false (fun t => { t with armSlot := slot }))
/-- TBL_ARM (R267, R270). -/
def execTblArm (v : VCtx) (slot version : Nat) (s : State) : Answer :=
  s.vaneWrite v (0x7100, 4) (leBytes 8 slot ++ leBytes 8 version) (some .bank) (tblArmWrite slot version)
/-- Table 9-14 and R268: ARMED to READY up to slot S − 16, LOADING and READY to EMPTY. -/
def tblCancelWrite (version : Nat) (s : State) : Except Nat State :=
  match s.tbl.stdState with
  | .armed =>
    check (s.tbl.std.version == version && decide (s.slot + 16 ≤ s.tbl.armSlot)) abortRefused <|
    .ok ((s.setMg .bank (some 3)).toBank .ready false (fun t => { t with armSlot := 0 }))
  | .ready =>
    check (s.tbl.std.version == version) abortRefused <|
    .ok ((s.setMg .bank (some 0)).toBank .empty false (fun t => { t with std := {}, stdBytes := [], stdLen := 0 }))
  | .loading => .ok (((s.setMg .bank (some 0)).toBank .empty false (fun t => { t with std := {}, stdBytes := [], stdLen := 0 })).modTransfers
      (fun l => l.filter (fun x => x.index != 0x7100)))
  | _ => .error abortRefused
/-- TBL_CANCEL. -/
def execTblCancel (v : VCtx) (version : Nat) (s : State) : Answer := s.vaneWrite v (0x7100, 5) (leBytes 8 version) (some .bank) (tblCancelWrite version)
/-- SWITCH_OVER: the armed slot, or the first slot after a step past it, begins (R255, R256, R267, R269; event 6/0x04). -/
def execSwitchOver (s : State) : Answer :=
  .next (if s.tbl.stdState != .armed || s.slot < s.tbl.armSlot || s.rt.now % 1024 != 0 || s.rt.quality == .unset || s.rt.quality == .acquiring then s
    else if s.assignOk (s.tbl.armSlot * 1024) then s.doSwitch s.tbl.armSlot
    else ((s.setMg .bank (some 3)).toBank .ready true (fun t => { t with armSlot := 0 })).event 6 0x04 1 0 0 s.tbl.std.version)
/-- BANK_RETIRED (Table 9-14): A_REQ has passed and no run of the retiring image goes on. -/
def execBankRetired (s : State) : Answer :=
  .next (if s.tbl.stdState == .retiring && decide (s.tbl.retiringSince + s.ageLimit 0 ≤ s.clk) &&
      s.ops.insts.all (fun x => !x.2.retiring || x.2.st == .idle || x.2.st == .done || x.2.st == .failed) then
    s.toBank .empty true (fun t => { t with retiring := none })
  else s)

end Sys2Proof.Machine
end

