-- ==== Sys2Proof/Machine/Bringup.lean ====
section
/-! DEFINITION. Straps, phases, the built-in default, HBM training, departure and resets (R26, R433 to R442, R450 to R452), power and
thermal stages (R468 to R471, R489, R494, R495), uncorrectable SRAM errors (R455) and the telemetry snapshot (R460). -/

namespace Sys2Proof.Machine
open Sys2Proof

def State.modDev (s : State) (f : Dev → Dev) : State := { s with dev := f s.dev }
def State.modThm (s : State) (f : Therm → Therm) : State := { s with thm := f s.thm }

-- The built-in default (R439)
def strapRack (w : Nat) : Nat := field w 1 4
def strapPos (w : Nat) : Nat := field w 5 7
/-- Whether POS lies in the range of the role (Table 15-1). -/
def strapPosOk (w : Nat) : Bool := if w % 2 == 1 then decide (strapPos w ≤ 71) else decide (strapPos w ≤ 17)
/-- Port of accelerator `a` of the rack. -/
def accPort (a : Nat) : Nat := 4 * (a / 3) + a % 3
def defaultNodes (w : Nat) : Tab NodeEnt :=
  if !strapPosOk w then []
  else if w % 2 == 1 then [(0xD20 + strapPos w, { kind := 3, pkg := 288 + strapPos w })]
  else (List.range 192).map (fun a => (192 * strapRack w + a, { kind := 1 })) ++
    [(0xC00 + 18 * strapRack w + strapPos w, { kind := 2, pkg := 18 * strapRack w + strapPos w })]
def defaultRoutes (w : Nat) : Tab RouteEnt :=
  if !strapPosOk w then []
  else if w % 2 == 1 then [(0xD20 + strapPos w, { kind := 2 })]
  else (List.range 192).map (fun a => (192 * strapRack w + a, { kind := 1, target := accPort a })) ++
    [(0xC00 + 18 * strapRack w + strapPos w, { kind := 2 })]
/-- FLOOR and CAP of the default: 16 cells and 24,576, no FLOOR for COL, for each VC that Table 7-2 gives. -/
def defaultAdmit (w : Nat) : Tab (Nat × Nat) :=
  (List.range 266).flatMap (fun a =>
    if 256 ≤ a || (w % 2 == 0 && a % 4 != 3) then (List.range 5).map (fun v => (10 * a + v, (if v == 3 then 0 else 16, 24576))) else [])
def defaultImage (w : Nat) : Image :=
  { version := 0, role := if w % 2 == 1 then 2 else 0, rack := if w % 2 == 1 then 0 else strapRack w, pos := strapPos w,
    nodes := defaultNodes w, routes := defaultRoutes w, admTab := defaultAdmit w }

-- Phases
/-- Entry into SLUSH (R435, R439, R440, R442): the default in force, MG_PHY_RST_N released, enabled ports in DETECT, HBM training begun. -/
def State.enterSlush (s : State) : State :=
  let w := s.dev.straps
  let img := defaultImage w
  let s1 := s.modTbl (fun t => { t with active := img, defaultSince := s.clk, history := [(s.rt.now, img.nodes)] })
  let s2 := s1.modDev (fun d => { d with mode := if d.spine then 2 else 0, bootStatus := if strapPosOk w then 0 else 3 })
  let s3 := (s2.toPhase .slush true).emit (.pin 1 1)
  if strapPosOk w then
    (List.range 256).foldl (fun t p => if (t.port p).enable && (t.port p).st == .disabled then t.toPort p .detect true (fun x => x) else t) s3
  else s3
/-- STRAP ends once the straps are stable and firmware runs (Table 15-3); after a power warning the phase changes no further (R468). -/
def State.leaveStrap (s : State) : State :=
  if s.dev.phase == .strap && s.dev.strapsSampled && s.dev.fwRunning && s.dev.powerWarned.isNone then s.enterSlush else s
/-- A fabric port in OFF: down, transmitter idle. -/
def State.offPort (s : State) (p : Nat) : State :=
  match (s.port p).st with
  | .disabled => s
  | .inService => s.portDown p 7 true .disabled
  | _ => ((s.abortTest p).toPort p .disabled true Port.linkReset).lanesOff p
/-- OFF (R450): every fabric port and every host link goes down. -/
def State.enterOff (s : State) : State :=
  let s1 := s.toPhase .off true
  let s2 := (List.range 256).foldl State.offPort s1
  (List.range 8).foldl State.hostLinkDown s2
/-- DRAIN (R450, R429): every ring as written with ENABLE = 0, DRAINING on every port. -/
def State.enterDrain (s : State) (self : Bool) : State :=
  let s1 := (s.toPhase .drain self).modDev (fun d => { d with drainSince := s.clk })
  let s2 := (s1.mov.rings.map Prod.fst).foldl (fun t n => (t.setMg (.ring n) (some 0)).ringDrain n) s1
  (List.range 256).foldl State.sendCap s2
/-- Notices for the package's own pool and host-port nodes (R461). -/
def State.leaveOwn (s : State) (kind : Nat) : State := s.declareLeave s.ownNodes kind s.dev.uid

-- Resets (R452)
/-- The requests of attached end-points, which a reset of the package does not end. -/
def State.farunReqs (s : State) : Tab OutReq := s.reqs.filter (fun r => match r.2.who with | .farun _ => true | .farunSync _ => true | _ => false)
def State.detached (s : State) : Tab Farun := tmap s.farun (fun _ f => { f with ports := [] })
/-- Cold reset: everything but the CONST objects; the levels of REFCLK and HP_REFCLK are inputs. -/
def State.coldReset (s : State) : State :=
  ({ State.reset with
      pending := s.pending, out := s.out, free := s.free, clk := s.clk, rt := { refclk := s.rt.refclk }, thm := { flowAt := s.clk },
      hp := tmap s.hp (fun _ h => { refclk := h.refclk }), reqs := s.farunReqs, farun := s.detached }.emit (.pin 1 0)).emit (.pin 0 1)
def Port.kept (x : Port) : Port :=
  { downCount := x.downCount, downCause := x.downCause, downSlot := x.downSlot, downAt := x.downAt, lastUid := x.lastUid }
def Lane.kept (x : Lane) : Lane :=
  { conv := x.conv, bases := x.bases, bertBits := x.bertBits, bertErrs := x.bertErrs, bertSlot := x.bertSlot, bertRes := x.bertRes, bertPass := x.bertPass }
/-- What a package reset leaves (Table 15-8). -/
def State.resetKept (s : State) : State :=
  { pending := s.pending, out := s.out, free := s.free, clk := s.clk,
    dev := { uid := s.dev.uid, variantLH := s.dev.variantLH, stepping := s.dev.stepping, mac := s.dev.mac, vendorId := s.dev.vendorId,
             fwVersion := s.dev.fwVersion, fwCopy := s.dev.fwCopy, phase := s.dev.phase, phaseSince := s.dev.phaseSince, spine := s.dev.spine, rolePin := s.dev.rolePin,
             label := s.dev.label, straps := s.dev.straps, strapsSampled := s.dev.strapsSampled, hbmTrained := s.dev.hbmTrained,
             fwRunning := s.dev.fwRunning, afterReset := true },
    thm := { flowAt := s.clk },
    vane := { s.vane with sessions := s.vane.sessions.filter (fun x => x.1 == 0), transfers := [], mctp := [],
                          epochs := s.vane.epochs.filter (fun e => decide (131072 ≤ e.1) || (decide (64 ≤ e.1) && decide (e.1 < 256)) || e.1 == 0) },
    evt := { s.evt with minSev := 0 },
    rt := { source := s.rt.source, srcPort := s.rt.srcPort, holdoverMax := s.rt.holdoverMax, refclk := s.rt.refclk },
    tbl := { signers := s.tbl.signers, signerLock := s.tbl.signerLock },
    ports := tmap s.ports (fun _ x => x.kept), lanes := tmap s.lanes (fun _ x => x.kept),
    xl := { binds := s.xl.binds, xgen := s.xl.xgen, faultLog := s.xl.faultLog },
    pool := { stks := tmap s.pool.stks (fun _ k => { st := k.st }),
              dies := tmap s.pool.dies (fun _ d => if d.st == .retired || !d.failed.isEmpty then { st := .retired, failed := d.failed } else {}),
              log := s.pool.log, head := s.pool.head },
    hp := tmap s.hp (fun _ h => { refclk := h.refclk, errLog := h.errLog }),
    sec := { ctxs := s.sec.ctxs, changes := s.sec.changes, brokers := s.sec.brokers, brokerLock := s.sec.brokerLock },
    reqs := s.farunReqs, farun := s.detached }
/-- The package still re-obtains the entries homed elsewhere before it admits a request (R335, R452). -/
def State.awaitTable (s : State) : State :=
  let l := ((s.sec.ctxs.filter (fun c => c.1 != 0 && c.2.st != .free && c.2.home != s.poolNode)).map (fun c => c.2.home)).foldl addNew []
  s.modSec (fun x => { x with tableWait := l, tableReady := l.isEmpty })
/-- Package reset (R452): notices only from DRAIN or OFF; SLUSH with the default in force. -/
def State.packageReset (s : State) : State :=
  if s.thm.stage == .trip then s
  else s.resetKept.enterSlush.awaitTable

def execColdReset (s : State) : Answer := .next s.coldReset
/-- RAILS_OUT_OF_TOLERANCE (Table 15-8). -/
def execRailsOutOfTolerance (_rail : Nat) (s : State) : Answer := .next s.coldReset
/-- COLD_RESET_RELEASE (Table 15-3). -/
def execColdResetRelease (railsGood : Bool) (s : State) : Answer :=
  .next (if s.dev.phase == .cold && railsGood then s.toPhase .strap true else s)
/-- Whether STRAP has found what keeps the device in it: no firmware copy that passes, or an unstable strap (R433, R436). -/
def State.strapStuck (s : State) : Bool := s.dev.phase != .strap || s.dev.bootStatus != 0
/-- STRAP_SAMPLE (R433, R434): the sixteenth sample lies 1,960 µs after COLD_RST_N rises. -/
def execStrapSample (samples : List Nat) (s : State) : Answer :=
  if s.strapStuck || s.dev.strapsSampled || s.clk < s.dev.phaseSince + 1960000 then .next s
  else
    let w := samples.headD 0 % 16384
    .next (if samples.all (fun x => x % 16384 == w) then
      (s.modDev (fun d => { d with straps := w, strapsSampled := true, spine := w % 2 == 1, rolePin := w % 2 == 1 })).leaveStrap
    else s.modDev (fun d => { d with bootStatus := 2 }))
/-- FIRMWARE_AUTHENTICATED (R436): the first copy that passes runs. -/
def execFirmwareAuthenticated (pass0 pass1 : Bool) (s : State) : Answer :=
  .next (if s.strapStuck || s.dev.fwRunning then s
    else if pass0 || pass1 then
      (s.modDev (fun d => { d with fwRunning := true, fwCopy := !pass0, fwVersion := (Config.fwVersion (!pass0)).toNat })).leaveStrap
    else s.modDev (fun d => { d with bootStatus := 1 }))
/-- WARM_RESET (R452, R486): a pulse of at least 1 µs that COLD_RST_N does not overtake. -/
def execWarmReset (lowNs : Nat) (coldLow : Bool) (s : State) : Answer :=
  .next (if lowNs < 1000 || coldLow || s.dev.phase == .cold then s else s.packageReset)
def devCtlObj : Nat × Nat := (0x1000, 0x0F)
/-- The effect of a `DEV.CTL` write (Table 15-9). -/
def devCtlWrite (value : Nat) (s : State) : Except Nat State :=
  if value == 1 then check (s.dev.phase == .tables || s.inService) abortRefused (.ok (s.enterDrain false))
  else if value == 2 then .ok s.packageReset
  else .error abortRange
def execPackageReset (v : VCtx) (s : State) : Answer := s.vaneWrite v devCtlObj [2] none (devCtlWrite 2)
def execDrain (v : VCtx) (s : State) : Answer := s.vaneWrite v devCtlObj [1] none (devCtlWrite 1)
/-- Whether the device is idle as R450 requires. -/
def State.drained (s : State) : Bool :=
  s.mov.rings.all (fun r => r.2.st == .disabled) && s.ops.insts.all (fun i => i.2.st == .idle) && s.pool.movesNow.isEmpty &&
  s.sw.adm.all (fun a => a.2.held == 0) && decide (max s.sw.busyAt s.dev.drainSince + 100000 ≤ s.clk)
/-- DRAIN_END (R450): the device is idle, or `DEV.DRAIN_MAX` has passed. -/
def execDrainEnd (s : State) : Answer :=
  .next (if s.dev.phase == .drain && (s.drained || decide (s.dev.drainSince + s.dev.drainMax * 1000000 ≤ s.clk)) then s.enterOff else s)
/-- ROLE_STRAP_CHANGED (R26). -/
def execRoleStrapChanged (level : Bool) (s : State) : Answer :=
  .next (s.modDev (fun d => { d with rolePin := level, roleStrapChanged := d.roleStrapChanged || (decide (2 ≤ d.phase.code) && level != d.rolePin) }))

-- HBM training and pool initialisation (R442)
/-- A stack fails training: its die retires at once, and no moraine record is written. -/
def State.trainFail (s : State) (k : Nat) : State :=
  let s1 := State.noteChange s (s.modStack k (fun x => { x with st := .failed })) (.stack k) true false
  ((s1.event 3 0x01 2 k 3 0).setDie (k / 6) .exposed).setDie (k / 6) .retired
def State.trainStack (failed : List Nat) (s : State) (k : Nat) : State :=
  if (s.stack k).st != .untrained then s
  else if failed.contains k then s.trainFail k
  else State.noteChange s (s.modStack k (fun x => { x with st := .online })) (.stack k) true false
def execHbmTrainingDone (failed : List Nat) (s : State) : Answer :=
  if s.dev.hbmTrained || s.dev.phase.code < 2 || s.dev.phase == .off then .next s
  else .next ((((List.range 24).foldl (State.trainStack failed) s).modDev (fun d => { d with hbmTrained := true })).fullCheck)
/-- POOL_INIT_DONE: every granule zero, the reserve clear but for the moraine log (R452), every extent UNUSED, `POOL.STATE` set; RETURNED for the own nodes after a package reset (R463). -/
def execPoolInitDone (s : State) : Answer :=
  if !s.dev.hbmTrained || s.pool.st != 0 || s.dev.phase.code < 2 || s.dev.phase == .off then .next s
  else
    let s1 := s.modPool (fun p => { p with
      st := if p.dies.all (fun d => d.2.st == .healthy) then 1 else 2, onlineEpoch := s.epochNo,
      exts := tmap p.exts (fun _ x => { x with st := .unused, granules := [] }), zeroing := [], mem := [], poison := [], spares := [], parity := [], macs := [],
      counters := [], backptr := [], landed := [], dir := [] })
    .next (if s.dev.afterReset then s1.sendLeave s1.ownNodes 8 s1.dev.uid else s1)

-- Power (R468)
/-- POWER_WARN_N has been low for `lowNs`. -/
def execPowerWarnNAsserted (lowNs : Nat) (s : State) : Answer :=
  if lowNs < 2000 || s.dev.phase == .cold || s.dev.phase == .off then .next s
  else
    let s1 := (s.modDev (fun d => { d with warnings := d.warnings + 1, powerWarned := some (d.powerWarned.getD (s.clk - 2000)) })).event 5 0x02 3 0 0 0
    if s.dev.powerWarned.isSome then .next s1
    else if s.dev.phase == .tables || s.inService then .next ((s1.enterDrain true).leaveOwn 2)
    else .next (s1.leaveOwn 2)
/-- POWER_OFF_AFTER_EXPIRED: `PWR.OFF_AFTER` has passed since POWER_WARN_N fell. -/
def execPowerOffAfterExpired (s : State) : Answer :=
  .next (match s.dev.powerWarned with
    | some t => if s.dev.phase == .drain && decide (t + s.dev.offAfter * 1000 ≤ s.clk) then s.enterOff else s
    | none => s)

-- Coolant and thermal stages (R470, R471)
/-- The reported flow is below `x` mL/min; a stale one counts as below 2,200, one unknown as neither below nor above (log 29). -/
def Therm.flowBelow (t : Therm) (x : Nat) : Bool := if t.flowStale then decide (2200 ≤ x) else t.flow != 0xFFFF && decide (t.flow < x)
def Therm.flowGood (t : Therm) : Bool := !t.flowStale && t.flow != 0xFFFF && decide (2200 ≤ t.flow)
/-- Whether the condition holds under which the stage is left after 10 s. -/
def Therm.leaveCond (t : Therm) : Bool :=
  match t.stage with
  | .alert => decide (t.tjMax ≤ 90000) && t.flowGood
  | .shed => decide (t.tjMax ≤ 95000) && t.flowGood
  | _ => false
/-- Since when each condition on flow and temperature has held. -/
def Therm.watch (t : Therm) (clk : Nat) : Therm :=
  { t with
    low2200 := if t.flowBelow 2200 then some (t.low2200.getD clk) else none,
    low1000 := if t.flowBelow 1000 then some (t.low1000.getD clk) else none,
    backSince := if t.leaveCond then some (t.backSince.getD clk) else none }
/-- The action of stage DRAIN in each phase (Tables 15-3 and 16-8). -/
def State.thermalDrain (s : State) : State :=
  match s.dev.phase with
  | .strap => s.enterOff
  | .slush => (s.leaveOwn 3).enterOff
  | .tables => (s.enterDrain true).leaveOwn 3
  | .full => (s.enterDrain true).leaveOwn 3
  | .degraded => (s.enterDrain true).leaveOwn 3
  | .drain => s.leaveOwn 3
  | _ => s
/-- Moves to a thermal stage, with event 5/0x01. -/
def State.toStage (s : State) (st : Thermal) : State :=
  if s.thm.stage == st then s else
  let s1 := (s.modThm (fun t => { t with stage := st, stageSlot := s.slot, backSince := none })).modThm (fun t => t.watch s.clk)
  let s2 := (s1.event 5 0x01 1 0 st.code (ofSigned 64 s1.thm.tjMax)).settlePhase
  if st == .drain then s2.thermalDrain else s2
/-- The highest stage whose entry condition on Tj holds. -/
def tjStage (tj : Int) : Thermal :=
  if 105000 ≤ tj then .drain else if 100000 ≤ tj then .shed else if 95000 ≤ tj then .alert else .normal
def State.raiseStage (s : State) (st : Thermal) : State := if s.thm.stage.code < st.code then s.toStage st else s
/-- THM_FLOW_WRITE: the effect of a write of `THM.FLOW`. -/
def thmFlowSet (flow : Nat) (s : State) : Except Nat State :=
  check (decide (flow ≤ 10000) || flow == 0xFFFF) abortRange <|
  .ok (s.modThm (fun t => { t with flow := flow, flowAt := s.clk, flowStale := false }.watch s.clk))
def execThmFlowWrite (v : VCtx) (flow : Nat) (s : State) : Answer := s.vaneWrite v (0x9000, 0x12) (leBytes 2 flow) none (thmFlowSet flow)
/-- FLOW_STALE: not rewritten for 1,000 ms. -/
def execFlowStale (s : State) : Answer :=
  .next (if !s.thm.flowStale && decide (s.thm.flowAt + 1000000000 ≤ s.clk) && s.dev.phase != .cold && s.thm.stage != .trip then
    (s.modThm (fun t => { t with flowStale := true }.watch s.clk)).event 5 0x03 1 0 0 0 else s)
/-- A sensor reading within −20 °C to 150 °C (R495), m°C. -/
def sensorOk (x : Int) : Bool := decide (-20000 ≤ x) && decide (x ≤ 150000)
/-- The readings that Table 16-8 uses: valid die sensors, 105 °C for a die without one, valid stack sensors plus 10 K (R494, R495). -/
def tjReadings (die stack : List Int) : List Int :=
  ((List.range 4).flatMap (fun d =>
    let l := ((die.drop (20 * d)).take 20).filter sensorOk
    if l.isEmpty then [105000] else l)) ++ (stack.filter sensorOk).map (· + 10000)
def maxInt (l : List Int) : Int := l.foldl max (l.headD 0)
/-- `THM.SENSORS`: 0x8000_0000 marks an invalid sensor; the comparator threshold comes last. -/
def sensorList (die stack : List Int) : List Int :=
  (die ++ stack).map (fun x => if sensorOk x then x else -(2 ^ 31 : Nat)) ++ [115000]
/-- TJ_SAMPLE: a reading that jumps by more than 20 °C is discarded once. -/
def execTjSample (die stack : List Int) (s : State) : Answer :=
  if s.dev.phase == .cold || s.thm.stage == .trip then .next s else
  let tj := maxInt (tjReadings die stack)
  match s.thm.tjPrev, s.thm.tjHeld with
  | some p, false => if 20000 < (tj - p).natAbs then .next (s.modThm (fun t => { t with tjHeld := true }))
      else .next ((s.modThm (fun t => { t with tjMax := tj, tjPrev := some tj, sensors := sensorList die stack }.watch s.clk)).raiseStage (tjStage tj))
  | _, _ => .next ((s.modThm (fun t => { t with tjMax := tj, tjPrev := some tj, tjHeld := false, sensors := sensorList die stack }.watch s.clk)).raiseStage (tjStage tj))
/-- FLOW_LOW_EXPIRED: below 1,000 mL/min for 2 s, SHED; below 2,200 for 1 s, ALERT. -/
def execFlowLowExpired (s : State) : Answer :=
  if s.dev.phase == .cold then .next s
  else if s.thm.low1000.any (fun t => decide (t + 2000000000 ≤ s.clk)) then .next (s.raiseStage .shed)
  else if s.thm.low2200.any (fun t => decide (t + 1000000000 ≤ s.clk)) then .next (s.raiseStage .alert)
  else .next s
/-- STAGE_HOLD_EXPIRED: back within limits for 10 s, one stage down. -/
def execStageHoldExpired (s : State) : Answer :=
  .next (if s.thm.backSince.any (fun t => decide (t + 10000000000 ≤ s.clk)) then
      (match s.thm.stage with | .alert => s.toStage .normal | .shed => s.toStage .alert | _ => s)
    else s)
/-- THERMAL_TRIP: THERMTRIP_N low, clocks stopped, transmitters idle; no notice. -/
def execThermalTrip (tj : Int) (s : State) : Answer :=
  if tj < 115000 || s.thm.stage == .trip then .next s else
  let s1 := (s.modThm (fun t => { t with tjMax := tj })).toStage .trip
  .next ({ s1 with ports := tmap s1.ports (fun _ x => { x with st := if x.st == PortState.disabled then PortState.disabled else PortState.detect, idling := true }) }.emit (.pin 0 0))

-- Uncorrectable SRAM errors (R455)
/-- The entry at place `pos` of a queue, numbered 10 times its egress plus its VC, and the state without it. -/
def State.takeEntry (s : State) (queue pos : Nat) : Option (QEntry × State) :=
  let q := tget [] s.sw.queues queue
  (q[pos]?).map (fun e => (e, { s with sw := { s.sw with queues := tset s.sw.queues queue (q.eraseIdx pos) } }))
def SramRow (l : SramLoc) : Nat :=
  match l with
  | .firstCell _ _ => 1 | .laterRequest _ _ => 2 | .laterResponse _ _ => 3 | .row _ _ => 4
  | .instState _ => 5 | .xlate _ _ => 6 | .accEntry _ _ => 7 | .markTable => 8
/-- The answer of R455's table. -/
def State.sramAnswer (s : State) (l : SramLoc) : State :=
  match l with
  | .firstCell q pos =>
    (match s.takeEntry q pos with
      | some (e, t) => (t.release e).addRepin (.egress (q / 10)) (s.sw.repinHold * 1000)
      | none => s)
  | .laterRequest q pos =>
    (match s.takeEntry q pos with
      | some (e, t) => if e.t.ty.cls == 2 then s else t.melt e (some (q / 10))
      | none => s)
  | .laterResponse q pos =>
    (match s.takeEntry q pos with
      | some (e, t) => if e.t.ty.cls == 2 then t.melt e (some (q / 10)) else s
      | none => s)
  | .row i e => s.modInst i (fun x => { x with rows := tmod {} x.rows e (fun r => { r with psn := true }) })
  | .instState i => if (s.inst i).st == .running || (s.inst i).st == .delivering then s.runFail i .poisoned else s
  | .xlate t pos => s.modXl (fun x => { x with cache := tmod [] x.cache t (fun c => c.eraseIdx pos) })
  | .accEntry q pos =>
    (match s.takeEntry q pos with
      | some (e, t) => (match e.acc with | some a => failContribs 7 .atomics a.contribs t | none => s)
      | none => s)
  | .markTable => s.enterFlood
/-- SRAM_UE: `TILE.ERR`, event 3/0x04, and the answer. -/
def execSramUe (tile : Nat) (loc : SramLoc) (s : State) : Answer :=
  let s1 := { s with tel := { s.tel with tileErr := tmod (0, 0, 0) s.tel.tileErr tile (fun e => (e.1, e.2.1 + 1, s.slot)) } }
  .next ((s1.event 3 0x04 1 tile (SramRow loc) 0).sramAnswer loc)

/-- HP_REFCLK_LOST (R489). -/
def execHpRefclkLost (h : Nat) (s : State) : Answer := .next (s.hostRefclkLost h)
/-- VANE_SESSIONS_LAPSE (R474): the session goes with its subscription, its kept responses and its transfers. -/
def execVaneSessionsLapse (sess : Nat) (s : State) : Answer :=
  .next (if sess == 0 then s else
    { s with vane := { s.vane with sessions := terase s.vane.sessions sess, transfers := s.vane.transfers.filter (fun x => x.sess != sess) } })

-- Telemetry (R460)
def State.portSnap (s : State) (p : Nat) : Bytes :=
  let x := s.port p
  let lanes := (List.range 4).map (fun i => s.lane (4 * p + i))
  [x.flitsTx, x.flitsRx, x.cellsAdmitted, x.melted, x.agedSent, x.flitsReplayed, (lanes.map (fun l => l.corrected)).sum,
   (lanes.map (fun l => l.uncorrectable)).sum].flatMap (leBytes 8)
def State.tileSnap (s : State) (t : Nat) : Bytes :=
  [tget 0 s.tel.tileFlake t, tget 0 s.tel.tileJoin t, tget 0 s.tel.tileMiss t, (tget (0, 0, 0) s.tel.tileErr t).1].flatMap (leBytes 8)
/-- The package record; package power is a measurement that the spec leaves open (log 30). -/
def State.packageSnap (s : State) : Bytes :=
  [s.thm.packagePower, ofSigned 64 s.thm.tjMax, s.thm.flow, s.thm.stage.code, s.tel.poolReads, s.tel.poolWrites, s.pool.linesEver, 0].flatMap (leBytes 8)
def State.snapBytes (s : State) : Bytes :=
  [s.slot, s.tel.seq + 1, 0, 0, 0, 0, 0, 0].flatMap (leBytes 8) ++ (List.range 256).flatMap s.portSnap ++ (List.range 256).flatMap s.tileSnap ++ s.packageSnap
/-- Whether a telemetry event of the schedule begins now (Table 9-4). -/
def State.snapDue (s : State) : Bool :=
  s.rt.now % 1024 == 0 && s.rt.quality != .unset && s.rt.quality != .acquiring &&
  s.tbl.active.events.any (fun e => e.2.kind == 1 && s.slot % max 1 e.2.period == e.2.offset)
/-- A fresh measurement of package power, in mW. -/
def State.measurePower (s : State) : State := let r := s.fresh; r.2.modThm (fun t => { t with packagePower := r.1.toNat % 2 ^ 32 * 1000 })
/-- TELEMETRY_SNAPSHOT. -/
def execTelemetrySnapshot (s : State) : Answer :=
  if !s.snapDue then .next s else
  let s1 := s.measurePower
  .next { s1 with tel := { s1.tel with snap := s1.snapBytes, seq := s1.tel.seq + 1 } }

end Sys2Proof.Machine
end

