-- ==== Sys2Proof/Machine/PoolCmds.lean ====
section
/-! DEFINITION. The commands of the memory pool: drift, extents, stacks and dies (R272 to R307). -/

namespace Sys2Proof.Machine
open Sys2Proof

def extObj (e sub : Nat) : Nat × Nat := (0x4A00 + e, sub)
/-- DRIFT_SCAN (R303, R471): after a decay, the entries of the pool's candidate pages are read in offset order. -/
def execDriftScan (s : State) : Answer :=
  match s.tbl.active.drift with
  | none => .next s
  | some d =>
    if s.pool.decayed && s.pool.driftEnable && s.inService && s.thm.stage == .normal then
      let pages := (s.pool.backptr.map Prod.fst).filter (fun g => s.driftCandidate d g && !s.pool.scanned.contains g)
      let s1 := s.modPool (fun p => { p with decayed := false, scanned := p.scanned ++ pages })
      .next (pages.foldl (fun t g => t.issue (readTxn 0 (tget 0 s.pool.backptr g) 16 0 true) (.driftScan g) s.reqTimeout) s1)
    else .next s
/-- DRIFT_COPY_DONE (R111 step 4): the page has been copied; its entry takes the new FA with MOVING = 0. -/
def execDriftCopyDone (mv : Nat) (s : State) : Answer :=
  match s.move mv with
  | some m =>
    if m.stage == 2 && !m.aborting && m.done == 32768 then
      .next ((s.modMove mv (fun x => { x with stage := 3 })).issue (entryStore m.entry m.word m.land false) (.driftEntry mv) s.reqTimeout)
    else .next s
  | none => .next s
/-- DRIFT_RELEASE (R111 step 5, R304, R306): the old home becomes a hole, `XL.RELEASE_GUARD` after the withdrawal's completion. -/
def execDriftRelease (mv : Nat) (s : State) : Answer :=
  match s.move mv with
  | some m =>
    if m.stage == 4 && decide (m.doneAt + s.xl.releaseGuard * 1000 ≤ s.clk) then
      let g := m.page / 2 ^ 21
      .next (s.modPool (fun p => { p with
        movesNow := p.movesNow.filter (fun x => x.id != mv), moves := p.moves + 1, landed := p.landed ++ [(m.land, m.page, m.entry)],
        counters := tmod {} p.counters g (fun c => { c with hole := true, zeroed := false }), backptr := terase p.backptr g }))
    else .next s
  | none => .next s
/-- The effect of a `DRIFT.ENABLE` write (R305): 0 aborts the moves under way that have not yet written the new FA. -/
def driftEnableWrite (on : Bool) (s : State) : Except Nat State :=
  let s1 := s.modPool (fun p => { p with driftEnable := on, movesNow := if on then p.movesNow else p.movesNow.map (fun m => if m.stage ≤ 2 then { m with aborting := true } else m) })
  .ok (if on then s1 else (s1.pool.movesNow.map (fun m => m.id)).foldl (fun t k => t.abortCheck k) s1)
/-- DRIFT_ENABLE. -/
def execDriftEnable (v : VCtx) (on : Bool) (s : State) : Answer := s.vaneWrite v (0x4000, 0x10) (leBytes 1 (boolNat on)) none (driftEnableWrite on)
/-- The effect of a `DRIFT.LAND_RELEASE` write (R304). -/
def driftLandReleaseWrite (fa : Nat) (s : State) : Except Nat State :=
  check (isFa fa) abortRange (.ok (s.modPool (fun p => { p with landed := p.landed.filter (fun l => l.1 != fa) })))
/-- DRIFT_LAND_RELEASE. -/
def execDriftLandRelease (v : VCtx) (fa : Nat) (s : State) : Answer := s.vaneWrite v (0x4000, 0x15) (leBytes 8 fa) none (driftLandReleaseWrite fa)
/-- The effect of a `POOL.BACKPTR` write (R300). -/
def poolBackptrWrite (page entry : Nat) (s : State) : Except Nat State :=
  let off := s.poolOff page
  let own := page / 2 ^ 41 == s.poolNode || page / 2 ^ 41 == s.poolNode2
  let ok := match extOfOff s off with | some (_, x) => x.st == .active | none => false
  check (own && ok && isFa entry && entry % 16 == 0) abortRefused
    (.ok (s.modPool (fun p => { p with backptr := if entry == 0 then terase p.backptr (off / 2 ^ 21) else tset p.backptr (off / 2 ^ 21) entry })))
/-- POOL_BACKPTR. -/
def execPoolBackptr (v : VCtx) (page entry : Nat) (s : State) : Answer := s.vaneWrite v (0x4000, 0x0A) (leBytes 8 page ++ leBytes 8 entry) none (poolBackptrWrite page entry)
/-- Zeroes a page, the parity of its stripes and the MACs of its lines with it (R280, R306, R345). -/
def State.zeroPage (s : State) (page : Nat) : State :=
  let s1 := s.modPool (fun p => { p with
    mem := memZero p.mem (page * 2 ^ 21) (2 ^ 21), parity := p.parity.filter (fun x => decide (32768 * page + 32768 ≤ x.1) || decide (x.1 + 5 ≤ 32768 * page)),
    macs := p.macs.filter (fun x => decide (x.1 / 32768 ≠ page)) })
  match extOfOff s1 (page * 2 ^ 21) with
  | some (_, x) => (s1.putParity x (page * 2 ^ 21)).putParity x (page * 2 ^ 21 + 2 ^ 21 - 64)
  | none => s1
/-- HOLE_ZEROED (R306). -/
def execHoleZeroed (page : Nat) (s : State) : Answer :=
  let c := tget {} s.pool.counters page
  if c.hole && !c.zeroed then
    .next ((s.zeroPage page).modPool (fun p => { p with counters := tset p.counters page { c with zeroed := true } }))
  else .next s
/-- The effect of an `EXT.CTL` write (R276, R278). -/
def extCtlWrite (e value : Nat) (s : State) : Except Nat State :=
  check (value == 1 || value == 2) abortRange <|
  if value == 1 then
    check (s.extCanActivate e) abortRefused (.ok ((s.setMg (.ext e) (some 1)).cmdChange (.ext e) (fun t => t.extActivate e)))
  else
    check ((s.ext e).st == .active) abortRefused (.ok ((s.setMg (.ext e) (some 0)).cmdChange (.ext e) (fun t => t.extRelease e)))
/-- EXT_ACTIVATE. -/
def execExtActivate (v : VCtx) (e : Nat) (s : State) : Answer := s.vaneWrite v (extObj e 9) (leBytes 1 1) (some (.ext e)) (extCtlWrite e 1)
/-- EXT_RELEASE. -/
def execExtRelease (v : VCtx) (e : Nat) (s : State) : Answer := s.vaneWrite v (extObj e 9) (leBytes 1 2) (some (.ext e)) (extCtlWrite e 2)
/-- EXTENT_RELEASED (R278, R356): queues, back-invalidates and moves have ended; a key slot of a context in REVOKING that no extent needs any more is destroyed. -/
def execExtentReleased (e : Nat) (s : State) : Answer :=
  if s.extDrained e then .next (s.cmdChange (.ext e) (fun t => t.extToZeroing e)).destroyRevoked else .next s
/-- GRANULE_ZEROED (R278): a granule returns to the free pool; the last makes the extent UNUSED. -/
def execGranuleZeroed (e : Nat) (s : State) : Answer :=
  if (s.ext e).st != .zeroing then .next s else
  let s1 := s.granuleZeroed e
  if (tget [] s1.pool.zeroing e).isEmpty then .next (s1.cmdChange (.ext e) (fun t => t.modExt e (fun x => { x with st := .unused }))) else .next s1
/-- Whether entry g of a grants record may be written over what stands there (R277). -/
def grantMayChange (old : Grant) (w : Nat) : Bool :=
  let n := grantOf w
  let same := { n with revoked := old.revoked, rstate := old.rstate, poisonedAny := old.poisonedAny, revokedAt := old.revokedAt } == old
  field w 22 10 == 0 && (!n.at_ || n.wr) && (!n.host || decide (n.id < 8)) && (same || !old.valid || (old.revoked && decide (2 ≤ old.rstate)))
def grantAfter (old : Grant) (w : Nat) : Grant :=
  let n := grantOf w
  if { n with revoked := old.revoked, rstate := old.rstate, poisonedAny := old.poisonedAny, revokedAt := old.revokedAt } == old then old else { n with revoked := false }
/-- The effect of an `EXT.GRANTS` write (R277). -/
def extGrantsWrite (e rec_ : Nat) (s : State) : Except Nat State :=
  let old := fun g => tget {} (s.ext e).grants g
  check ((List.range 8).all (fun g => grantMayChange (old g) (field rec_ (32 * g) 32))) abortRefused
    (.ok (s.modExt e (fun x => { x with grants := (List.range 8).map (fun g => (g, grantAfter (old g) (field rec_ (32 * g) 32))) })))
/-- EXT_GRANTS. -/
def execExtGrants (v : VCtx) (e : Nat) (rec : Nat) (s : State) : Answer := s.vaneWrite v (extObj e 8) (leBytes 32 rec) none (extGrantsWrite e rec)
/-- The effect of an `EXT.REVOKE` write (R296). -/
def extRevokeWrite (e g : Nat) (s : State) : Except Nat State :=
  let x := tget {} (s.ext e).grants g
  check (g < 8) abortRange (check (x.valid && !x.revoked) abortRefused (.ok (s.revokeGrant e g)))
/-- EXT_REVOKE. -/
def execExtRevoke (v : VCtx) (e g : Nat) (s : State) : Answer := s.vaneWrite v (extObj e 0x0A) (leBytes 1 g) (some (.ext e)) (extRevokeWrite e g)
/-- REVOCATION_COMPLETE (R296): no back-invalidate of the revocation is left, and no request of the grantee that had passed the checks before it. -/
def execRevocationComplete (e g : Nat) (s : State) : Answer :=
  let x := tget {} (s.ext e).grants g
  if x.rstate == 1 && !(s.pool.backInvs.any (fun b => b.revoke == some (e, g))) &&
      !(x.host && (s.host (x.id % 8)).st == .dead && s.pool.dir.any (fun d => inExt (s.ext e) (64 * d.1) && d.2.hosts.contains (x.id % 8))) &&
      !(x.host && (s.host (x.id % 8)).accs.any (fun a => a.passed && inExt (s.ext e) a.off)) && !s.lineWaits (s.ext e) (fun r => !x.host && r.homeTxn.ctx == x.id && decide (r.since ≤ x.revokedAt)) then
    .next (s.modExt e (fun y => { y with grants := tset y.grants g { x with rstate := if x.poisonedAny then 3 else 2 } }))
  else .next s
/-- CHANNEL_TIMEOUT (R289): an access and its retry have each gone unanswered for 5 µs; the command says so. -/
def execChannelTimeout (channel : Nat) (s : State) : Answer := .next (s.failStack (channel / 32) 1 true)
/-- The effect of a `STACK.CTL` write (R289). -/
def stackCtlWrite (k value : Nat) (s : State) : Except Nat State :=
  check (value == 1) abortRange (.ok ((s.setMg (.stack k) (some 2)).failStack k 4 false))
/-- STACK_FAIL. -/
def execStackFail (v : VCtx) (s_ : Nat) (s : State) : Answer := s.vaneWrite v (0x4100 + s_, 4) (leBytes 1 1) (some (.stack s_)) (stackCtlWrite s_ 1)
/-- REBUILD_STRIPE (R291). -/
def execRebuildStripe (d : Nat) (s : State) : Answer := .next (s.rebuildStripe d)
/-- EVACUATE_GRANULE (R294). -/
def execEvacuateGranule (d : Nat) (s : State) : Answer := .next (s.evacuate d)

end Sys2Proof.Machine
end

