-- ==== Sys2Proof/Machine/Records.lean ====
section
/-! DEFINITION. The bytes of the records that objects show (Tables 2-7, 3-8, 4-9, 10-4, 10-6, 10-10, 12-10, 13-7, 13-9, 14-9, 15-6). -/

namespace Sys2Proof.Machine
open Sys2Proof

/-- Table 14-9. -/
def State.epochBytes (s : State) (u : EUnit) : Bytes :=
  let r := s.epochRec u
  leBytes 16 (pack [(32, r.epoch), (8, s.dpState u), (8, s.mgState u), (1, boolNat r.disagree), (1, boolNat r.self), (14, 0), (64, r.slot)])
/-- Table 3-8. -/
def State.ringBytes (s : State) (n : Nat) : Bytes :=
  let r := s.ring n
  leBytes 32 (pack [(2, r.st.code), (4, r.cause), (1, boolNat r.fault), (25, 0), (32, r.head), (32, r.tail), (32, r.cmplTail), (32, r.cmplHead), (32, r.resumeIdx), (64, 0)])
/-- Table 4-9. -/
def FaultRec.bytes (f : FaultRec) : Bytes :=
  leBytes 32 (pack [(4, f.kind), (4, f.status), (1, f.form), (7, 0), (12, f.node), (4, 0), (16, f.ctx), (16, 0), (64, f.fa), (64, f.slot), (64, 0)])
/-- Table 10-6. -/
def Moraine.bytes (m : Moraine) : Bytes :=
  leBytes 32 (pack [(4, m.cause), (4, 0), (5, m.stack), (3, 0), (10, m.ext), (6, 0), (16, m.owner), (16, m.lines), (64, m.fa), (64, m.slot), (64, 0)])
/-- Table 10-10. -/
def Counter.bytes (c : Counter) : Bytes := leBytes 8 (pack [(16, c.reads), (16, c.writes), (24, c.last), (7, 0), (1, boolNat c.hole)])
/-- A record of `HP.ERR_LOG` (R314); its layout is the model's (log 33). -/
def HpErr.bytes (e : HpErr) : Bytes := leBytes 32 (pack [(16, e.rid), (4, e.status), (44, 0), (64, e.fa), (64, e.slot), (64, 0)])
/-- Table 13-7. -/
def TrainRec.bytes (r : TrainRec) : Bytes :=
  leBytes 16 (pack [(4, r.rates), (2, r.target), (2, 0), (4, r.lanes), (1, boolNat r.reversed), (3, 0), (4, r.format), (3, r.role), (1, boolNat r.wmode),
    (1, boolNat r.enc), (7, 0), (16, r.nonce), (16, r.echo), (64, 0)])
/-- Table 15-6. -/
def CapFrame.bytes (f : CapFrame) : Bytes :=
  leBytes 96 (pack [(8, f.cfver), (3, f.kind), (1, boolNat f.hostep), (3, f.status), (1, 0), (3, f.phase), (13, 0), (16, f.cseq), (16, f.echo), (64, f.uid),
    (12, f.node), (4, f.rack), (8, f.pos), (8, 0), (12, f.poolNode), (12, f.poolNode2), (8, f.hpMask), (96, f.hpNode), (48, f.memBytes), (8, f.engines), (8, 0),
    (64, f.atblBase), (32, f.atblEntries), (64, f.imgVersion), (64, f.setOrPlan), (192, 0)])
/-- Table 13-9. -/
def EyeRec.bytes (e : EyeRec) : Bytes :=
  leBytes 64 (pack [(10, e.lane), (2, e.eye), (2, e.rate), (1, boolNat e.traffic), (1, boolNat e.baseline), (1, boolNat e.degraded), (7, 0), (8, e.dwell), (16, e.vstep),
    (8, e.width), (8, e.height), (64, e.startSlot), (64, e.endSlot), (8, e.baseWidth), (8, e.baseHeight), (304, 0)]) ++ slice (e.errors.flatMap (leBytes 2)) 0 8192
def eyeOrZero (e : Option EyeRec) : Bytes := match e with | some r => r.bytes | none => List.replicate 8256 0
/-- `LANE.BERT` (Table 13-10). -/
def Lane.bertBytes (l : Lane) : Bytes :=
  leBytes 32 (pack [(64, l.bertBits), (64, l.bertErrs), (64, l.bertSlot), (2, l.bertRes), (30, 0), (32, l.bertPass.getD 0)])
/-- `CTX.STATE` (Table 12-12). -/
def Ctx.word (c : Ctx) : Nat := pack [(3, c.st.code), (1, 0), (4, c.kgen), (12, c.home), (12, 0), (32, c.slot)]
/-- `KEY.SLOT`, with the number of extents that name the slot. -/
def State.keyWord (s : State) (k : Nat) : Nat :=
  let x := s.key k
  pack [(1, boolNat x.loaded), (1, boolNat x.host), (1, boolNat x.sealed), (1, 0), (4, x.kgen), (16, x.owner), (8, 0),
        (16, (s.pool.exts.filter (fun e => e.2.st != .unused && e.2.keySlot == k)).length), (16, 0)]
def BundlePhase.code : BundlePhase → Nat
  | .idle => 0 | .running => 1 | .done => 2 | .failed => 3
/-- `OPS.INST_STATE` (Table 8-12). -/
def Inst.bytes (x : Inst) : Bytes := leBytes 16 (pack [(3, x.st.code), (4, x.status), (1, 0), (8, x.phase), (16, 0), (32, x.run), (64, x.slot)])
/-- The bitmap of a list of numbers, `n` bytes. -/
def bitmap (n : Nat) (l : List Nat) : Bytes := leBytes n (l.foldl (fun m i => if m.testBit i then m else m + 2 ^ i) 0)
/-- The numbers whose bits are set in a byte string. -/
def bitmapOf (b : Bytes) : List Nat := let v := leNat b; (List.range (8 * b.length)).filter (fun i => v.testBit i)

/-- Lines of an extent that are poisoned, or lost with their stack. -/
def State.poisonedLines (s : State) (x : Ext) : Nat := ((List.range (x.len / 64)).filter (fun i => s.linePoison x (x.base + 64 * i) != 0)).length
def State.linesLost (s : State) (x : Ext) : Bool := (List.range (x.len / 64)).any (fun i => s.lostCause x (x.base + 64 * i) != 0)
/-- `EXT.PROTECTION`: the worst that holds for the extent's lines and dies (log 33). -/
def State.protection (s : State) (x : Ext) : Nat :=
  if s.linesLost x then 3
  else if x.granules.any (fun g => (s.die g.die).st == .exposed) then 2
  else if x.granules.any (fun g => (s.die g.die).st == .rebuilding) then 1 else 0
/-- P1 granules of a REBUILDING die that the rebuild has not finished: 32,768 stripes each (R291). -/
def State.rebuildLeft (s : State) (d : Nat) : Nat :=
  if (s.die d).st != .rebuilding then 0 else
  ((s.pool.exts.filter (fun e => e.2.pclass == 1 && (e.2.st == .active || e.2.st == .releasing))).map (fun e =>
    (e.2.granules.filter (fun g => g.die == d && decide (g.rebuilt < 32768))).length)).sum
/-- Flake-cycles of a tile over the last 1,024 slots. -/
def State.flakeLoad (s : State) (t : Nat) : Nat :=
  (((tget [] s.tel.flakeAt t).filter (fun x => decide (s.slot < x.1 + 1024))).map Prod.snd).sum
/-- `PORT.IN_USE`. -/
def State.inUse (s : State) (p : Nat) : Nat := (viaAlt s.tbl.active s.portUp (s.port p).altOn p).getD 0xFFFF
/-- Open SPDM sessions: management, host ports and fabric links. -/
def State.openSessions (s : State) : Nat := (s.vane.sessions.filter (fun x => x.2.isOpen)).length + (s.ports.filter (fun x => x.2.cryptState == 2)).length

end Sys2Proof.Machine
end

