-- ==== Sys2Proof/Machine/Dict.lean ====
section
/-! DEFINITION. The object dictionary (R406 to R412): where each object lies, its type, access, view, default and range, how it is read, and what a write of it
does. One row per line of the object tables, chapter by chapter. -/

namespace Sys2Proof.Machine
open Sys2Proof

/-- Table 14-1; the number is a fixed or a greatest length in bytes. -/
inductive OType where
  | bool | u8 | u16 | u32 | u64 | s32 | f32 | octets (n : Nat) | record (n : Nat) | domain (n : Nat)
  deriving DecidableEq, Repr
inductive OAccess where | const | ro | rw | wo | rwl
  deriving DecidableEq, Repr
/-- Where a family of objects lies: one, at a stride of indices, at consecutive sub-indices, or at index base + k div 256, sub-index k mod 256. -/
inductive Place where
  | at_ (i s : Nat) | each (base stride count s : Nat) | subs (i s count : Nat) | split (base count : Nat)
  deriving DecidableEq, Repr

def OType.code : OType → Nat
  | .bool => 0x01 | .u8 => 0x02 | .u16 => 0x03 | .u32 => 0x04 | .u64 => 0x05 | .s32 => 0x08 | .f32 => 0x0A
  | .octets _ => 0x10 | .record _ => 0x11 | .domain _ => 0x12
def OType.len : OType → Nat
  | .bool => 1 | .u8 => 1 | .u16 => 2 | .u32 => 4 | .u64 => 8 | .s32 => 4 | .f32 => 4 | .octets n => n | .record n => n | .domain n => n
def OType.isDomain : OType → Bool | .domain _ => true | _ => false
def OType.isScalar : OType → Bool | .octets _ => false | .record _ => false | .domain _ => false | _ => true
def OAccess.code : OAccess → Nat | .const => 0 | .ro => 1 | .rw => 2 | .wo => 3 | .rwl => 4
/-- The number of an object within its family; none where the pair is not one of it. -/
def Place.key : Place → Nat → Nat → Option Nat
  | .at_ i s, j, t => if i == j && s == t then some 0 else none
  | .each b st n s, j, t => if b ≤ j && (j - b) % st == 0 && decide ((j - b) / st < n) && s == t then some ((j - b) / st) else none
  | .subs i s n, j, t => if i == j && s ≤ t && decide (t < s + n) then some (t - s) else none
  | .split b n, j, t => if b ≤ j && decide ((j - b) * 256 + t < n) then some ((j - b) * 256 + t) else none

/-- A row of an object table. -/
structure ObjRow where
  name : String
  place : Place
  ty : OType
  acc : OAccess
  ten : Bool := false
  dflt : Nat := 0
  rng : Option (Nat × Nat) := none       -- the range of a scalar; none: every value of its type
  read : Nat → Nat → State → Bytes := fun _ _ _ => []          -- by session and number
  write : Nat → Nat → Bytes → State → Except Nat State := fun _ _ _ _ => .error abortReadOnly
  locked : State → Bool := fun _ => false
  owner : Nat → State → Option Nat := fun _ _ => none          -- the context that a per-context entry belongs to (R338)

/-- A scalar that the device sets. -/
def roN (name : String) (place : Place) (ty : OType) (rd : Nat → State → Nat) (ten : Bool := false) (dflt : Nat := 0) (rng : Option (Nat × Nat) := none)
    (owner : Nat → State → Option Nat := fun _ _ => none) : ObjRow :=
  { name := name, place := place, ty := ty, acc := .ro, ten := ten, dflt := dflt, rng := rng, read := fun _ k s => leBytes ty.len (rd k s), owner := owner }
/-- A byte string that the device sets. -/
def roB (name : String) (place : Place) (ty : OType) (rd : Nat → State → Bytes) (ten : Bool := false) (owner : Nat → State → Option Nat := fun _ _ => none) : ObjRow :=
  { name := name, place := place, ty := ty, acc := .ro, ten := ten, read := fun _ k s => rd k s, owner := owner }
/-- A scalar that software writes. -/
def rwN (name : String) (place : Place) (ty : OType) (dflt : Nat) (rng : Option (Nat × Nat)) (rd : Nat → State → Nat) (wr : Nat → Nat → State → Except Nat State) : ObjRow :=
  { name := name, place := place, ty := ty, acc := .rw, dflt := dflt, rng := rng, read := fun _ k s => leBytes ty.len (rd k s),
    write := fun _ k b s => wr k (leNat b) s }
/-- A scalar whose write only stores it. -/
def rwS (name : String) (place : Place) (ty : OType) (dflt : Nat) (rng : Option (Nat × Nat)) (rd : Nat → State → Nat) (st : Nat → Nat → State → State) : ObjRow :=
  rwN name place ty dflt rng rd (fun k v s => .ok (st k v s))
/-- An object that is only written. -/
def woN (name : String) (place : Place) (ty : OType) (wr : Nat → Nat → State → Except Nat State) (ten : Bool := false) (rng : Option (Nat × Nat) := none)
    (owner : Nat → State → Option Nat := fun _ _ => none) : ObjRow :=
  { name := name, place := place, ty := ty, acc := .wo, ten := ten, rng := rng, write := fun _ k b s => wr k (leNat b) s, owner := owner }
/-- An epoch record (R430): a write makes the managed state equal to the data-path state and clears DISAGREE. -/
def epochAccept (u : EUnit) (s : State) : State := s.modEpoch u (fun r => { r with mg := some (s.dpState u), disagree := false })
def epochRow (name : String) (place : Place) (u : Nat → EUnit) (ten : Bool := false) (owner : Nat → State → Option Nat := fun _ _ => none) : ObjRow :=
  { name := name, place := place, ty := .record 16, acc := .rw, ten := ten, read := fun _ k s => s.epochBytes (u k),
    write := fun _ k _ s => .ok (epochAccept (u k) s), owner := owner }

def modVane (s : State) (f : Vane → Vane) : State := { s with vane := f s.vane }
def modSw (s : State) (f : Switch → Switch) : State := { s with sw := f s.sw }
def modXact (s : State) (f : Xact → Xact) : State := { s with xact := f s.xact }
def modMov (s : State) (f : Mov → Mov) : State := { s with mov := f s.mov }
def modLink (s : State) (f : LinkCfg → LinkCfg) : State := { s with link := f s.link }
def modWin (s : State) (e : Nat) (f : WinEp → WinEp) : State := { s with win := tmod {} s.win e f }
def words (l : List Nat) (n : Nat) : Bytes := l.flatMap (leBytes n)
def ringOwner (n : Nat) (s : State) : Option Nat := some (s.ring n).cfg.ctx
def extOwner (e : Nat) (s : State) : Option Nat := some (s.ext e).owner
def ctxSelf (c : Nat) (_ : State) : Option Nat := some c

-- Chapters 1, 2, 14 and 15: the device
def rowsDev : List ObjRow := [
  { roN "DEV.UID" (.at_ 0x1000 1) .u64 (fun _ s => s.dev.uid) true 0 (some (1, 2 ^ 64 - 1)) with acc := .const },
  { roN "DEV.VARIANT" (.at_ 0x1000 2) .u8 (fun _ s => boolNat s.dev.variantLH) true 0 (some (0, 1)) with acc := .const },
  { roN "DEV.STEPPING" (.at_ 0x1000 3) .u16 (fun _ s => s.dev.stepping) with acc := .const },
  roN "DEV.FW_VERSION" (.at_ 0x1000 4) .u64 (fun _ s => s.dev.fwVersion) true,
  roN "DEV.PHASE" (.at_ 0x1000 5) .u8 (fun _ s => s.dev.phase.code) true 0 (some (0, 7)),
  roN "DEV.ROLE" (.at_ 0x1000 6) .u8 (fun _ s => boolNat s.dev.spine) true 0 (some (0, 1)),
  roN "DEV.MODE" (.at_ 0x1000 7) .u8 (fun _ s => s.dev.mode) false 0 (some (0, 2)),
  roN "DEV.FACTORY_TEST" (.at_ 0x1000 8) .u8 (fun _ s => s.dev.factoryTest) false 0 (some (0, 1)),
  { name := "DEV.LABEL", place := .at_ 0x1000 9, ty := .octets 32, acc := .rw, read := fun _ _ s => leBytes 32 s.dev.label,
    write := fun _ _ b s => .ok (s.modDev (fun d => { d with label := leNat b })) },
  roN "DEV.ROLE_STRAP_CHANGED" (.at_ 0x1000 0x0A) .bool (fun _ s => boolNat s.dev.roleStrapChanged),
  roN "DEV.POOL_NODE" (.at_ 0x1000 0x0B) .u16 (fun _ s => s.poolNode) true 0xFFFF (some (0, 0xFFFF)),
  roN "DEV.POOL_NODE2" (.at_ 0x1000 0x0C) .u16 (fun _ s => s.poolNode2) true 0xFFFF (some (0, 0xFFFF)),
  roN "DEV.STRAPS" (.at_ 0x1000 0x0D) .u16 (fun _ s => s.dev.straps),
  roN "DEV.BOOT_STATUS" (.at_ 0x1000 0x0E) .u8 (fun _ s => s.dev.bootStatus) false 0 (some (0, 3)),
  woN "DEV.CTL" (.at_ 0x1000 0x0F) .u8 (fun _ v s => devCtlWrite v s) false (some (1, 2)),
  rwS "DEV.DRAIN_MAX" (.at_ 0x1000 0x10) .u32 100 (some (1, 10000)) (fun _ s => s.dev.drainMax) (fun _ v s => s.modDev (fun d => { d with drainMax := v })),
  epochRow "DEV.EPOCH" (.at_ 0x1000 0x20) (fun _ => .device),
  epochRow "RING.EPOCH" (.split 0x1C00 65536) .ring true ringOwner,
  epochRow "CTX.EPOCH" (.split 0x1D00 65536) .ctx true ctxSelf,
  epochRow "KEY.EPOCH" (.split 0x1F00 4096) .key,
  epochRow "PORT.EPOCH" (.each 0x2000 16 256 0xFE) .port,
  epochRow "STACK.EPOCH" (.each 0x4100 1 24 0xFE) .stack,
  epochRow "EXT.EPOCH" (.each 0x4A00 1 1024 0xFE) .ext,
  epochRow "RT.EPOCH" (.at_ 0x7000 0xFE) (fun _ => .rackTime),
  epochRow "TBL.EPOCH" (.at_ 0x7100 0xFE) (fun _ => .bank),
  epochRow "HP.EPOCH" (.each 0xA000 16 8 0xFE) .host]

-- Chapter 14: Vane (Table 14-11)
def rowsVane : List ObjRow := [
  rwS "VANE.IPV4" (.at_ 0x1300 1) .u32 0 none (fun _ s => s.vane.ipv4) (fun _ v s => modVane s (fun x => { x with ipv4 := v })),
  rwS "VANE.IPV4_PREFIX" (.at_ 0x1300 2) .u8 24 (some (8, 30)) (fun _ s => s.vane.ipv4Prefix) (fun _ v s => modVane s (fun x => { x with ipv4Prefix := v })),
  { name := "VANE.IPV6", place := .at_ 0x1300 3, ty := .octets 16, acc := .rw, read := fun _ _ s => leBytes 16 s.vane.ipv6,
    write := fun _ _ b s => .ok (modVane s (fun x => { x with ipv6 := leNat b })) },
  rwS "VANE.UDP_PORT" (.at_ 0x1300 4) .u16 4940 (some (1024, 65535)) (fun _ s => s.vane.udpPort) (fun _ v s => modVane s (fun x => { x with udpPort := v })),
  { roB "VANE.MAC" (.at_ 0x1300 5) (.octets 6) (fun _ s => leBytes 6 s.dev.mac) with acc := .const },
  { name := "VANE.ADMIN", place := .subs 0x1300 6 4, ty := .octets 96, acc := .rwl, read := fun _ k s => leBytes 96 (tget 0 s.vane.admin k),
    write := fun _ k b s => .ok (modVane s (fun x => { x with admin := tset x.admin k (leNat b) })), locked := fun s => s.vane.adminLock },
  { rwS "VANE.ADMIN_LOCK" (.at_ 0x1300 0x0A) .bool 0 none (fun _ s => boolNat s.vane.adminLock) (fun _ v s => modVane s (fun x => { x with adminLock := v == 1 }))
      with acc := .rwl, locked := fun s => s.vane.adminLock },
  rwS "VANE.RATE_LIMIT" (.at_ 0x1300 0x0B) .u32 20000 (some (100, 200000)) (fun _ s => s.vane.rateLimit) (fun _ v s => modVane s (fun x => { x with rateLimit := v })),
  rwS "VANE.SEG_TIMEOUT" (.at_ 0x1300 0x0C) .u32 1000 (some (10, 60000)) (fun _ s => s.vane.segTimeout) (fun _ v s => modVane s (fun x => { x with segTimeout := v })),
  rwS "VANE.SETTLE" (.at_ 0x1300 0x0D) .u32 5000 (some (100, 600000)) (fun _ s => s.vane.settle) (fun _ v s => modVane s (fun x => { x with settle := v })),
  { name := "VANE.SUBSCRIBE", place := .at_ 0x1300 0x0E, ty := .u32, acc := .rw, read := fun i _ s => leBytes 4 (s.session i).subscribe,
    write := fun i _ b s => .ok (s.modSession i (fun x => { x with subscribe := leNat b })) },
  roN "VANE.RX_DROPPED" (.at_ 0x1300 0x10) .u64 (fun _ s => s.vane.rxDropped),
  roN "VANE.AUTH_FAILS" (.at_ 0x1300 0x11) .u64 (fun _ s => s.vane.authFails),
  roN "VANE.ABORTS" (.at_ 0x1300 0x12) .u64 (fun _ s => s.vane.aborts),
  roN "VANE.NOTIFY_SEQ" (.at_ 0x1300 0x13) .u64 (fun _ s => s.vane.notifySeq)]

-- Chapters 5 and 7: transactions and the switch core (Tables 5-7, 7-12)
/-- `SW.AGE_LIMIT` (R187, R201). -/
def ageLimitWrite (b : Bytes) (s : State) : Except Nat State :=
  let l := (List.range 5).map (fun i => leAt b (4 * i) 4)
  check (l.all (fun v => decide (100 ≤ v) && decide (v ≤ 20000))) abortRange <|
  check (decide (l.getD 0 0 + l.getD 2 0 + 1000 ≤ s.mov.timeout)) abortRefused (.ok (modSw s (fun x => { x with ageLimit := l })))
/-- `SW.REPIN_HOLD` (R197). -/
def repinHoldWrite (v : Nat) (s : State) : Except Nat State :=
  check (decide (s.mov.timeout + 1000 ≤ v)) abortRefused (.ok (modSw s (fun x => { x with repinHold := v })))
/-- `MOV.TIMEOUT` (R80, R197). -/
def movTimeoutWrite (v : Nat) (s : State) : Except Nat State :=
  check (decide (s.sw.ageLimit.getD 0 0 + s.sw.ageLimit.getD 2 0 + 1000 ≤ v) && decide (v + 1000 ≤ s.sw.repinHold)) abortRefused
    (.ok (modMov s (fun x => { x with timeout := v })))
def rowsSwitch : List ObjRow := [
  rwN "XACT.ACC_ENABLE" (.at_ 0x1100 1) .bool 1 none (fun _ s => boolNat s.xact.accEnable) (fun _ v s => accEnableWrite (v == 1) s),
  rwS "XACT.ACC_HOLD" (.at_ 0x1100 2) .u16 0 (some (0, 512)) (fun _ s => s.xact.accHold) (fun _ v s => modXact s (fun x => { x with accHold := v })),
  roN "XACT.ACC_READS" (.at_ 0x1100 3) .u64 (fun _ s => s.xact.accReads),
  roN "XACT.ACC_ATOMS" (.at_ 0x1100 4) .u64 (fun _ s => s.xact.accAtoms),
  roN "XACT.ACC_REFUSED" (.at_ 0x1100 5) .u64 (fun _ s => s.xact.accRefused),
  roN "XACT.STRAY_RSP" (.at_ 0x1100 6) .u64 (fun _ s => s.xact.strayRsp),
  roN "XACT.MGT_DISCARDED" (.at_ 0x1100 7) .u64 (fun _ s => s.xact.mgtDiscarded),
  { name := "SW.AGE_LIMIT", place := .at_ 0x1200 1, ty := .record 20, acc := .rw, read := fun _ _ s => words s.sw.ageLimit 4,
    write := fun _ _ b s => ageLimitWrite b s },
  roB "SW.HOP_LIMIT" (.at_ 0x1200 2) (.record 20) (fun _ s => words ((List.range 5).map (fun c => s.hopLimit c / 1000)) 4) true,
  roN "SW.HOPS" (.at_ 0x1200 3) .u8 (fun _ s => s.sw.hops) false 1 (some (1, 3)),
  rwN "SW.REPIN_HOLD" (.at_ 0x1200 4) .u32 8000 (some (2000, 200000)) (fun _ s => s.sw.repinHold) (fun _ v s => repinHoldWrite v s),
  roN "SW.REPIN_ACTIVE" (.at_ 0x1200 5) .u16 (fun _ s => min s.sw.repins.length 258) false 0 (some (0, 258)),
  roN "SW.MARKS" (.at_ 0x1200 6) .u32 (fun _ s => min 65536 s.sw.marks.length) false 0 (some (0, 65536)),
  roN "SW.MARKS_SPILLED" (.at_ 0x1200 7) .u32 (fun _ s => s.sw.marks.length - 65536) false 0 (some (0, 4194304)),
  roN "SW.FLOOD" (.at_ 0x1200 8) .bool (fun _ s => boolNat s.sw.flood),
  roB "SW.MELTED" (.at_ 0x1200 0x10) (.record 40) (fun _ s => words s.sw.melted 8),
  roN "SW.MARK_DISCARDS" (.at_ 0x1200 0x11) .u64 (fun _ s => s.sw.markDiscards),
  roN "SW.UPDOWN_VIOL" (.at_ 0x1200 0x12) .u64 (fun _ s => s.sw.updownViol),
  roN "SW.NO_ROUTE" (.at_ 0x1200 0x13) .u64 (fun _ s => s.sw.noRoute)]

-- Chapters 2, 7, 12, 13 and 15: ports and lanes
/-- `PORT.WINDOW_MODE` takes effect at the next training (R53). -/
def windowModeWrite (p v : Nat) (s : State) : Except Nat State := .ok (s.modPort p (fun x => { x with windowMode := v == 1 }))
/-- `CTX.PORT_ALLOW`: a bitmap of contexts (R339); bytes that a shorter DOMAIN leaves out are zero (log 33). -/
def portAllowWrite (p : Nat) (b : Bytes) (s : State) : Except Nat State := .ok (s.modPort p (fun x => { x with allow := bitmapOf b }))
def rowsPort : List ObjRow := [
  rwN "PORT.ENABLE" (.each 0x2000 16 256 1) .bool 1 none (fun p s => boolNat (s.port p).enable) (fun p v s => portEnableWrite p (v == 1) s),
  roN "PORT.STATE" (.each 0x2000 16 256 2) .u8 (fun p s => (s.port p).st.code) false 0 (some (0, 9)),
  rwS "PORT.MAX_RATE" (.each 0x2000 16 256 3) .u8 3 (some (0, 3)) (fun p s => (s.port p).maxRate) (fun p v s => s.modPort p (fun x => { x with maxRate := v })),
  roN "PORT.RATE" (.each 0x2000 16 256 4) .u8 (fun p s => (s.port p).rate + 4 * boolNat (s.port p).limited) true,
  roN "PORT.LANES" (.each 0x2000 16 256 5) .u8 (fun p s => (s.port p).lanesIn + 16 * (s.port p).lanesOut) true,
  rwS "PORT.MIN_WIDTH" (.each 0x2000 16 256 6) .u8 1 (some (1, 4)) (fun p s => (s.port p).minWidth) (fun p v s => s.modPort p (fun x => { x with minWidth := v })),
  rwS "PORT.ALIGN_MODE" (.each 0x2000 16 256 7) .u8 0 (some (0, 1)) (fun p s => (s.port p).alignMode) (fun p v s => s.modPort p (fun x => { x with alignMode := v })),
  woN "PORT.CTL" (.each 0x2000 16 256 8) .u8 portCtlWrite false (some (1, 3)),
  roB "PORT.PARTNER" (.each 0x2000 16 256 9) (.record 16) (fun p s => TrainRec.bytes (s.port p).partner),
  roB "PORT.RETRY" (.each 0x2000 16 256 0x0A) (.record 24) (fun p s => words [(s.port p).naksSent, (s.port p).replays, (s.port p).flitsReplayed] 8),
  roB "PORT.DOWN_LOG" (.each 0x2000 16 256 0x0B) (.record 24) (fun p s => words [(s.port p).downCount, (s.port p).downCause, (s.port p).downSlot] 8),
  rwN "PORT.WINDOW_MODE" (.each 0x2000 16 256 0x0C) .bool 0 none (fun p s => boolNat (s.port p).windowMode) windowModeWrite,
  roB "PORT.ADM_OCC" (.each 0x2000 16 256 0x0D) (.record 40) (fun p s => words ((List.range 10).map (fun v => (s.admOf p v).held)) 4),
  roN "PORT.IN_USE" (.each 0x2000 16 256 0x0E) .u16 (fun p s => s.inUse p) false 0xFFFF (some (0, 0xFFFF)),
  roB "PORT.EGR_DEPTH" (.each 0x2000 16 256 0x0F) (.record 40) (fun p s => words ((List.range 10).map (fun v => ((s.queue p v).map (fun e => e.cells)).sum)) 4),
  rwS "PORT.BERT_TIME" (.each 0x2001 16 256 1) .u32 1000 (some (10, 100000)) (fun p s => (s.port p).bertTime) (fun p v s => s.modPort p (fun x => { x with bertTime := v })),
  roB "PORT.PARTNER_CAP" (.each 0x2001 16 256 2) (.octets 96) (fun p s => match (s.port p).partnerCap with | some f => CapFrame.bytes f | none => List.replicate 96 0),
  roB "PORT.ATTACH_LOG" (.each 0x2001 16 256 3) (.record 24) (fun p s =>
    words [(s.port p).attaches, (s.port p).announced, (s.port p).unannounced, (s.port p).framesRefused] 4 ++ leBytes 8 (s.port p).attachSlot),
  { name := "CTX.PORT_ALLOW", place := .each 0x6200 1 256 1, ty := .domain 8192, acc := .rw, read := fun _ p s => bitmap 8192 (s.port p).allow,
    write := fun _ p b s => portAllowWrite p b s },
  rwS "LINK.CRYPT" (.each 0x6300 1 256 1) .u8 1 (some (0, 2)) (fun p s => (s.port p).crypt) (fun p v s => s.modPort p (fun x => { x with crypt := v })),
  roN "LINK.CRYPT_STATE" (.each 0x6300 1 256 2) .u8 (fun p s => (s.port p).cryptState) false 0 (some (0, 3)),
  roN "LINK.TAG_FAILS" (.each 0x6300 1 256 3) .u64 (fun p s => (s.port p).tagFails)]
def rowsLane : List ObjRow := [
  roN "LANE.STATE" (.each 0xB000 1 1024 1) .u8 (fun l s => (s.lane l).st + 4 * boolNat (s.lane l).alarm + 8 * boolNat (s.lane l).degraded),
  roN "LANE.ALIGN" (.each 0xB000 1 1024 2) .u16 (fun l s => boolNat (s.lane l).lockOn + 2 * boolNat (s.lane l).inverted + 4 * ((s.lane l).slips % 8192)),
  woN "LANE.SLIP" (.each 0xB000 1 1024 3) .u8 laneSlipWrite false (some (1, 1)),
  roB "LANE.FEC" (.each 0xB000 1 1024 4) (.record 24) (fun l s => words [(s.lane l).corrected, (s.lane l).uncorrectable, (s.lane l).symbols] 8),
  roN "LANE.SER" (.each 0xB000 1 1024 5) .f32 (fun l s => (s.lane l).ser),
  roN "LANE.EQ" (.each 0xB000 1 1024 6) .u64 (fun l s => (s.lane l).eq),
  roB "LANE.EYE" (.each 0xB000 1 1024 7) (.domain 8256) (fun l s => eyeOrZero (s.lane l).eyeRec),
  roB "LANE.EYE_BASE" (.each 0xB000 1 1024 8) (.domain 24768) (fun l s => (List.range 3).flatMap (fun e => eyeOrZero (tfind (s.lane l).bases e))),
  woN "LANE.CTL" (.each 0xB000 1 1024 9) .u8 laneCtlWrite false (some (1, 2)),
  roB "LANE.BERT" (.each 0xB000 1 1024 0x0A) (.record 32) (fun l s => (s.lane l).bertBytes),
  rwS "LINK.SER_ALARM" (.at_ 0xB800 1) .f32 0x3727C5AC (some (0x322BCC77, 0x3A83126F)) (fun _ s => s.link.serAlarm) (fun _ v s => modLink s (fun x => { x with serAlarm := v })),
  rwS "LINK.SER_LIMIT" (.at_ 0xB800 2) .f32 0x38D1B717 (some (0x358637BD, 0x3A83126F)) (fun _ s => s.link.serLimit) (fun _ v s => modLink s (fun x => { x with serLimit := v })),
  rwS "LINK.VERIFY_BER" (.at_ 0xB800 3) .f32 0x3727C5AC (some (0x322BCC77, 0x38D1B717)) (fun _ s => s.link.verifyBer) (fun _ v s => modLink s (fun x => { x with verifyBer := v })),
  rwS "LINK.EYE_DWELL" (.at_ 0xB800 4) .u8 17 (some (10, 24)) (fun _ s => s.link.eyeDwell) (fun _ v s => modLink s (fun x => { x with eyeDwell := v })),
  rwS "LINK.EYE_MARGIN" (.at_ 0xB800 5) .u8 25 (some (5, 75)) (fun _ s => s.link.eyeMargin) (fun _ v s => modLink s (fun x => { x with eyeMargin := v })),
  rwS "LINK.BERT_LIMIT" (.at_ 0xB800 6) .f32 0x358637BD (some (0x3089705F, 0x38D1B717)) (fun _ s => s.link.bertLimit) (fun _ v s => modLink s (fun x => { x with bertLimit := v })),
  rwS "LINK.BERT_INTERVAL" (.at_ 0xB800 7) .u32 86400 (some (600, 2592000)) (fun _ s => s.link.bertInterval) (fun _ v s => modLink s (fun x => { x with bertInterval := v })),
  rwS "LINK.TRAIN_TRIES" (.at_ 0xB800 8) .u8 8 (some (1, 255)) (fun _ s => s.link.trainTries) (fun _ v s => modLink s (fun x => { x with trainTries := v })),
  rwS "LINK.EQ_REUSE" (.at_ 0xB800 9) .bool 1 none (fun _ s => boolNat s.link.eqReuse) (fun _ v s => modLink s (fun x => { x with eqReuse := v == 1 })),
  roN "LINK.RX_FILTERED" (.at_ 0xB800 0x0A) .u64 (fun _ s => s.link.rxFiltered)]

-- Chapters 3 and 4: rings, movers, translation, windows
/-- In CONFIG_LOCKED and RUN of a TDI the device refuses writes of these objects (R330). -/
def tdiOpen (s : State) (h : Nat) : Bool := (s.host h).tdi != .locked && (s.host h).tdi != .run
def tdiAllOpen (s : State) : Bool := (List.range 8).all (tdiOpen s)
def aptBaseWrite (v : Nat) (s : State) : Except Nat State :=
  check (isFa v && v % 4096 == 0) abortRange <| check (tdiAllOpen s) abortRefused (.ok (s.modXl (fun x => { x with aptBase := v })))
def aptLog2Write (v : Nat) (s : State) : Except Nat State :=
  check (v == 0 || decide (16 ≤ v)) abortRange (check (tdiAllOpen s) abortRefused (.ok (s.modXl (fun x => { x with aptLog2 := v }))))
/-- R57: a window's end within 2 TiB, reserved fields zero. -/
def winEntryOk (v : Nat) : Bool :=
  field v 4 4 == 0 && field v 24 8 == 0 && field v 57 7 == 0 && field v 79 49 == 0 && decide (((winEnt v).base + (winEnt v).lenM1 + 1) * 65536 ≤ 2 ^ 41)
/-- `WIN.TABLE` (R57, R58); entries that a shorter DOMAIN leaves out are zero (log 33). -/
def winTableWrite (e : Nat) (b : Bytes) (s : State) : Except Nat State :=
  let t := (List.range 1024).map (fun w => (w, leAt b (16 * w) 16))
  check (t.all (fun x => winEntryOk x.2)) abortRefused (.ok (modWin s e (fun x => { x with table := t.filter (fun y => y.2 != 0) })))
def rowsXlate : List ObjRow := [
  { name := "RING.CFG", place := .split 0x6400 65536, ty := .record 32, acc := .rw, read := fun _ n s => leBytes 32 (s.ring n).cfg.word,
    write := fun _ n b s => ringCfgWrite n (leNat b) s },
  roB "RING.STATE" (.split 0x6500 65536) (.record 32) (fun n s => s.ringBytes n) true ringOwner,
  woN "RING.CTL" (.split 0x6600 65536) .u64 ringCtlWrite true none ringOwner,
  rwN "MOV.TIMEOUT" (.at_ 0x6700 1) .u32 5000 (some (1000, 100000)) (fun _ s => s.mov.timeout) (fun _ v s => movTimeoutWrite v s),
  rwS "MOV.LOW_FLOOR" (.at_ 0x6700 2) .u16 64 (some (1, 4096)) (fun _ s => s.mov.lowFloor) (fun _ v s => modMov s (fun x => { x with lowFloor := v })),
  rwS "MOV.RETRY_MAX" (.at_ 0x6700 3) .u8 8 (some (0, 32)) (fun _ s => s.mov.retryMax) (fun _ v s => modMov s (fun x => { x with retryMax := v })),
  roN "MOV.DB_IGNORED" (.at_ 0x6700 4) .u64 (fun _ s => s.mov.dbIgnored),
  rwN "XL.APT_BASE" (.at_ 0x5000 1) .u64 0 none (fun _ s => s.xl.aptBase) (fun _ v s => aptBaseWrite v s),
  rwN "XL.APT_LOG2" (.at_ 0x5000 2) .u8 0 (some (0, 25)) (fun _ s => s.xl.aptLog2) (fun _ v s => aptLog2Write v s),
  rwS "XL.HOLD_MAX" (.at_ 0x5000 3) .u32 50 (some (5, 500)) (fun _ s => s.xl.holdMax) (fun _ v s => s.modXl (fun x => { x with holdMax := v })),
  rwS "XL.XLATE_TIMEOUT" (.at_ 0x5000 4) .u32 100 (some (10, 10000)) (fun _ s => s.xl.xlateTimeout) (fun _ v s => s.modXl (fun x => { x with xlateTimeout := v })),
  rwS "XL.SLOW_WAIT" (.at_ 0x5000 5) .u32 10000 (some (100, 1000000)) (fun _ s => s.xl.slowWait) (fun _ v s => s.modXl (fun x => { x with slowWait := v })),
  rwS "XL.WD_TIMEOUT" (.at_ 0x5000 6) .u32 10000 (some (5000, 100000)) (fun _ s => s.xl.wdTimeout) (fun _ v s => s.modXl (fun x => { x with wdTimeout := v })),
  rwS "XL.RELEASE_GUARD" (.at_ 0x5000 7) .u32 10 (some (10, 1000)) (fun _ s => s.xl.releaseGuard) (fun _ v s => s.modXl (fun x => { x with releaseGuard := v })),
  rwN "XL.PREFETCH" (.at_ 0x5000 8) .u8 4 (some (0, 4)) (fun _ s => s.xl.prefetch)
    (fun _ v s => check (v == 0 || v == 4) abortRange (.ok (s.modXl (fun x => { x with prefetch := v })))),
  woN "XL.WITHDRAW" (.at_ 0x5000 0x10) (.record 40) (fun _ v s => withdrawWrite v s),
  roN "XL.WD_ACTIVE" (.at_ 0x5000 0x11) .u16 (fun _ s => s.wdActive) false 0 (some (0, 256)),
  roN "XL.WD_FAILED" (.at_ 0x5000 0x12) .u64 (fun _ s => s.xl.wdFailed),
  roN "XL.HITS" (.at_ 0x5000 0x20) .u64 (fun _ s => s.xl.hits),
  roN "XL.MISSES" (.at_ 0x5000 0x21) .u64 (fun _ s => s.xl.misses),
  roN "XL.FAULTS" (.at_ 0x5000 0x22) .u64 (fun _ s => s.xl.faults),
  roN "XL.HOLD_EXPIRED" (.at_ 0x5000 0x23) .u64 (fun _ s => s.xl.holdExpired),
  roB "XL.FAULT_LOG" (.at_ 0x5000 0x30) (.domain 2048) (fun _ s => s.xl.faultLog.flatMap FaultRec.bytes),
  { name := "XL.CTX_BIND", place := .split 0x5100 65536, ty := .record 16, acc := .rw, read := fun _ c s => leBytes 16 (s.bind c).rec_,
    write := fun _ c b s => ctxBindWrite c (leNat b) s },
  roN "XL.CTX_XGEN" (.split 0x5200 65536) .u32 (fun c s => tget 0 s.xl.xgen c) true 0 none ctxSelf,
  { name := "WIN.TABLE", place := .each 0x5800 1 9 1, ty := .domain 16384, acc := .rw,
    read := fun _ e s => (List.range 1024).flatMap (fun w => leBytes 16 (tget 0 (s.winEp e).table w)), write := fun _ e b s => winTableWrite e b s },
  rwS "WIN.ENABLE" (.each 0x5800 1 9 2) .bool 0 none (fun e s => boolNat (s.winEp e).enable) (fun e v s => modWin s e (fun x => { x with enable := v == 1 })),
  roN "WIN.DENIED" (.each 0x5800 1 9 3) .u64 (fun e s => (s.winEp e).denied)]

-- Chapter 8: operators (Table 8-12)
def graceWrite (v : Nat) (s : State) : Except Nat State :=
  check (s.builtIn || decide (v ≤ s.tbl.active.guardSlots)) abortRefused (.ok (s.modOps (fun o => { o with grace := v })))
/-- `OPS.SLUSH_NODES` (R235): a count, then that many node numbers. -/
def slushNodesWrite (b : Bytes) (s : State) : Except Nat State :=
  let n := leAt b 0 2
  check (decide (2 ≤ b.length)) abortLength <|
  check (b.length == 2 + 2 * n) abortRefused (.ok (s.modOps (fun o => { o with slushNodes := some ((List.range n).map (fun i => leAt b (2 + 2 * i) 2)) })))
def rowsOps : List ObjRow := [
  rwS "OPS.ENABLE" (.at_ 0x8000 1) .bool 1 none (fun _ s => boolNat s.ops.enable) (fun _ v s => s.modOps (fun o => { o with enable := v == 1 })),
  rwN "OPS.GRACE" (.at_ 0x8000 2) .u16 4 (some (1, 64)) (fun _ s => s.ops.grace) (fun _ v s => graceWrite v s),
  rwS "OPS.CREDIT_DEADLINE" (.at_ 0x8000 3) .u32 20000 (some (1000, 1000000)) (fun _ s => s.ops.creditDeadline) (fun _ v s => s.modOps (fun o => { o with creditDeadline := v })),
  roN "OPS.SERIAL" (.at_ 0x8000 4) .bool (fun _ s => boolNat (s.dev.phase == .slush)) true,
  { name := "OPS.SLUSH_ENTRY", place := .at_ 0x8000 5, ty := .record 64, acc := .rw, read := fun _ _ s => leBytes 64 (opsEntryWord s.ops.slushEntry),
    write := fun _ _ b s => opsSlushEntryWrite (opsEntryOf (leNat b)) s },
  { name := "OPS.SLUSH_NODES", place := .at_ 0x8000 6, ty := .domain 512, acc := .rw,
    read := fun _ _ s => (match s.ops.slushNodes with | some l => words (l.length :: l) 2 | none => []), write := fun _ _ b s => slushNodesWrite b s },
  roN "OPS.COL_DISCARDED" (.at_ 0x8000 0x10) .u64 (fun _ s => s.ops.discarded),
  roN "OPS.RUNS_OK" (.at_ 0x8000 0x11) .u64 (fun _ s => s.ops.runsOk),
  roN "OPS.RUNS_FAILED" (.at_ 0x8000 0x12) .u64 (fun _ s => s.ops.runsFailed),
  roB "OPS.FLAKE_LOAD" (.at_ 0x8000 0x13) (.record 2048) (fun _ s => words ((List.range 256).map s.flakeLoad) 8),
  roB "OPS.INST_STATE" (.split 0x8100 4096) (.record 16) (fun i s => (s.inst i).bytes) true (fun i s => some (s.instOwner i))]

-- Chapter 9: rack time and tables (Table 9-16)
def rowsTime : List ObjRow := [
  rwN "RT.SOURCE" (.at_ 0x7000 1) .u8 0 (some (0, 1)) (fun _ s => s.rt.source) (fun _ v s => rtSourceWrite v s),
  rwN "RT.SRC_PORT" (.at_ 0x7000 2) .u16 0xFFFF (some (0, 0xFFFF)) (fun _ s => s.rt.srcPort) (fun _ v s => rtSrcPortWrite v s),
  woN "RT.SET" (.at_ 0x7000 3) .u64 (fun _ v s => rtSetWrite v s) false (some (0, 2 ^ 44 - 1)),
  roN "RT.NOW" (.at_ 0x7000 4) .u64 (fun _ s => s.rt.now) true,
  roN "RT.QUALITY" (.at_ 0x7000 5) .u8 (fun _ s => s.rt.quality.code) true 0 (some (0, 4)),
  roN "RT.ERR" (.at_ 0x7000 6) .u32 (fun _ s => min s.rtErr 0xFFFFFFFF) true 0xFFFFFFFF,
  rwS "RT.HOLDOVER_MAX" (.at_ 0x7000 7) .u32 10000 (some (0, 10000)) (fun _ s => s.rt.holdoverMax) (fun _ v s => s.modRt (fun r => { r with holdoverMax := v })),
  roN "RT.SCHEDULED" (.at_ 0x7000 8) .bool (fun _ s => boolNat s.rt.scheduled) true,
  rwN "RT.RESUME_SLOT" (.at_ 0x7000 9) .u64 0 none (fun _ s => s.rt.resumeSlot) (fun _ v s => rtResumeWrite v s),
  roN "RT.STRATUM" (.at_ 0x7000 0x0A) .u8 (fun _ s => s.rt.stratum) false 0 (some (0, 15)),
  roN "RT.LINK_DELAY" (.at_ 0x7000 0x0B) .u32 (fun _ s => (s.timePort s.rt.srcPort).delay.getD 0),
  roN "RT.PULSE_REJECTED" (.at_ 0x7000 0x10) .u64 (fun _ s => s.rt.pulseRejected),
  roN "RT.REF_LOSSES" (.at_ 0x7000 0x11) .u64 (fun _ s => s.rt.refLosses),
  { name := "TBL.IMAGE", place := .at_ 0x7100 1, ty := .domain 4194304, acc := .wo },
  roB "TBL.BANK_STATE" (.at_ 0x7100 2) (.record 16) (fun _ s => leBytes 16 (pack [(1, s.tbl.activeBank), (3, s.tbl.stdState.code), (60, 0), (64, s.tbl.standbyVersion)])),
  roB "TBL.LOAD_STATUS" (.at_ 0x7100 3) (.record 8) (fun _ s => leBytes 8 (pack [(8, s.tbl.loadCode), (8, s.tbl.loadType), (16, 0), (32, s.tbl.loadOff)])),
  woN "TBL.ARM" (.at_ 0x7100 4) (.record 16) (fun _ v s => tblArmWrite (field v 0 64) (field v 64 64) s),
  woN "TBL.CANCEL" (.at_ 0x7100 5) .u64 (fun _ v s => tblCancelWrite v s),
  roN "TBL.ACTIVE_VERSION" (.at_ 0x7100 6) .u64 (fun _ s => s.tbl.active.version) true,
  roN "TBL.ACTIVE_SET" (.at_ 0x7100 7) .u64 (fun _ s => s.tbl.activeSet),
  roN "TBL.SWITCH_SLOT" (.at_ 0x7100 8) .u64 (fun _ s => s.tbl.switchSlot),
  rwS "TBL.MIN_LEAD" (.at_ 0x7100 9) .u32 1024 (some (64, 1048576)) (fun _ s => s.tbl.minLead) (fun _ v s => s.modTbl (fun t => { t with minLead := v })),
  { name := "TBL.SIGNER", place := .subs 0x7100 0x10 4, ty := .octets 96, acc := .rwl, read := fun _ k s => leBytes 96 (tget 0 s.tbl.signers k),
    write := fun _ k b s => .ok (s.modTbl (fun t => { t with signers := tset t.signers k (leNat b) })), locked := fun s => s.tbl.signerLock },
  { rwS "TBL.SIGNER_LOCK" (.at_ 0x7100 0x14) .bool 0 none (fun _ s => boolNat s.tbl.signerLock) (fun _ v s => s.modTbl (fun t => { t with signerLock := v == 1 }))
      with acc := .rwl, locked := fun s => s.tbl.signerLock }]

-- Chapters 10 and 15: the pool (Table 10-14)
/-- The fields of an extent are writable while it is UNUSED (R275). -/
def extField (e : Nat) (f : Ext → Ext) (s : State) : Except Nat State :=
  check ((s.ext e).st == .unused) abortRefused (.ok (s.modExt e f))
def rowsPool : List ObjRow := [
  roN "POOL.STATE" (.at_ 0x4000 1) .u8 (fun _ s => s.pool.st) true 0 (some (0, 2)),
  roN "POOL.GRAN_TOTAL" (.at_ 0x4000 2) .u32 (fun _ s => if s.dev.variantLH then 178812 else 119208),
  roN "POOL.GRAN_FREE" (.at_ 0x4000 3) .u32 (fun _ s => if s.pool.st == 0 then 0 else s.granFree),
  roN "POOL.GRAN_ZEROING" (.at_ 0x4000 4) .u32 (fun _ s => (s.pool.zeroing.map (fun z => z.2.length)).sum),
  rwS "POOL.DECAY_EPOCHS" (.at_ 0x4000 5) .u16 64 (some (1, 4096)) (fun _ s => s.pool.decayEpochs) (fun _ v s => s.modPool (fun p => { p with decayEpochs := v })),
  rwS "POOL.REBUILD_SHARE" (.at_ 0x4000 6) .u8 25 (some (10, 90)) (fun _ s => s.pool.rebuildShare) (fun _ v s => s.modPool (fun p => { p with rebuildShare := v })),
  rwS "POOL.SCRUB_SHARE" (.at_ 0x4000 7) .u8 10 (some (1, 50)) (fun _ s => s.pool.scrubShare) (fun _ v s => s.modPool (fun p => { p with scrubShare := v })),
  rwS "POOL.STACK_UE_LIMIT" (.at_ 0x4000 8) .u32 64 (some (1, 65535)) (fun _ s => s.pool.stackUeLimit) (fun _ v s => s.modPool (fun p => { p with stackUeLimit := v })),
  rwS "POOL.EVACUATE" (.at_ 0x4000 9) .bool 1 none (fun _ s => boolNat s.pool.evacuate) (fun _ v s => s.modPool (fun p => { p with evacuate := v == 1 })),
  woN "POOL.BACKPTR" (.at_ 0x4000 0x0A) (.record 16) (fun _ v s => poolBackptrWrite (field v 0 64) (field v 64 64) s),
  rwS "POOL.WARMUP_EPOCHS" (.at_ 0x4000 0x0B) .u16 256 (some (0, 4096)) (fun _ s => s.pool.warmup) (fun _ v s => s.modPool (fun p => { p with warmup := v })),
  rwN "DRIFT.ENABLE" (.at_ 0x4000 0x10) .bool 1 none (fun _ s => boolNat s.pool.driftEnable) (fun _ v s => driftEnableWrite (v == 1) s),
  rwS "DRIFT.RATE" (.at_ 0x4000 0x11) .u32 200 (some (10, 2000)) (fun _ s => s.pool.driftRate) (fun _ v s => s.modPool (fun p => { p with driftRate := v })),
  rwS "DRIFT.ZERO_RATE" (.at_ 0x4000 0x12) .u32 400 (some (10, 4000)) (fun _ s => s.pool.zeroRate) (fun _ v s => s.modPool (fun p => { p with zeroRate := v })),
  roN "DRIFT.MOVES" (.at_ 0x4000 0x13) .u64 (fun _ s => s.pool.moves),
  roN "DRIFT.ABORTS" (.at_ 0x4000 0x14) .u64 (fun _ s => s.pool.aborts),
  woN "DRIFT.LAND_RELEASE" (.at_ 0x4000 0x15) .u64 (fun _ v s => driftLandReleaseWrite v s),
  roB "MORAINE.LOG" (.at_ 0x4000 0x20) (.domain 2097152) (fun _ s => s.pool.log.flatMap Moraine.bytes),
  roN "MORAINE.HEAD" (.at_ 0x4000 0x21) .u64 (fun _ s => s.pool.head),
  roN "MORAINE.LINES" (.at_ 0x4000 0x22) .u64 (fun _ s => s.pool.linesEver),
  roN "STACK.STATE" (.each 0x4100 1 24 1) .u8 (fun k s => (s.stack k).st.code) false 0 (some (0, 2)),
  roN "STACK.CE" (.each 0x4100 1 24 2) .u64 (fun k s => (s.stack k).ce),
  roN "STACK.UE" (.each 0x4100 1 24 3) .u64 (fun k s => (s.stack k).ue),
  woN "STACK.CTL" (.each 0x4100 1 24 4) .u8 stackCtlWrite false (some (1, 1)),
  roN "STACK.SCRUB_PASS" (.each 0x4100 1 24 5) .u64 (fun k s => (s.stack k).scrubPass),
  roN "DIE.STATE" (.each 0x4200 1 4 1) .u8 (fun d s => (s.die d).st.code) false 0 (some (0, 3)),
  roN "DIE.REBUILD_LEFT" (.each 0x4200 1 4 2) .u32 (fun d s => s.rebuildLeft d),
  roN "DIE.SPARES_USED" (.each 0x4200 1 4 3) .u32 (fun d s => (s.die d).sparesUsed) false 0 (some (0, 16777216))]
def rowsExt : List ObjRow := [
  roN "EXT.STATE" (.each 0x4A00 1 1024 1) .u8 (fun e s => (s.ext e).st.code) true 0 (some (0, 3)) extOwner,
  rwN "EXT.OWNER" (.each 0x4A00 1 1024 2) .u16 0 (some (1, 0xFFFF)) (fun e s => (s.ext e).owner) (fun e v s => extField e (fun x => { x with owner := v }) s),
  rwN "EXT.BASE" (.each 0x4A00 1 1024 3) .u64 0 none (fun e s => (s.ext e).base) (fun e v s => extField e (fun x => { x with base := v }) s),
  rwN "EXT.LEN" (.each 0x4A00 1 1024 4) .u64 0 none (fun e s => (s.ext e).len) (fun e v s => extField e (fun x => { x with len := v }) s),
  { rwN "EXT.PROT_CLASS" (.each 0x4A00 1 1024 5) .u8 0 (some (0, 1)) (fun e s => (s.ext e).pclass) (fun e v s => extField e (fun x => { x with pclass := v }) s)
      with ten := true, owner := extOwner },
  rwN "EXT.KEY_SLOT" (.each 0x4A00 1 1024 6) .u16 0 (some (0, 4095)) (fun e s => (s.ext e).keySlot) (fun e v s => extField e (fun x => { x with keySlot := v }) s),
  rwN "EXT.MAC" (.each 0x4A00 1 1024 7) .bool 0 none (fun e s => boolNat (s.ext e).mac) (fun e v s => extField e (fun x => { x with mac := v == 1 }) s),
  { name := "EXT.GRANTS", place := .each 0x4A00 1 1024 8, ty := .record 32, acc := .rw,
    read := fun _ e s => words ((List.range 8).map (fun g => (tget {} (s.ext e).grants g).word)) 4, write := fun _ e b s => extGrantsWrite e (leNat b) s },
  woN "EXT.CTL" (.each 0x4A00 1 1024 9) .u8 extCtlWrite false (some (1, 2)),
  woN "EXT.REVOKE" (.each 0x4A00 1 1024 0x0A) .u8 extRevokeWrite false (some (0, 7)),
  roN "EXT.REVOKE_STATE" (.each 0x4A00 1 1024 0x0B) .u16 (fun e s => pack ((List.range 8).map (fun g => (2, (tget {} (s.ext e).grants g).rstate)))),
  roN "EXT.PROTECTION" (.each 0x4A00 1 1024 0x0C) .u8 (fun e s => s.protection (s.ext e)) true 0 (some (0, 3)) extOwner,
  roN "EXT.POISONED" (.each 0x4A00 1 1024 0x0D) .u64 (fun e s => s.poisonedLines (s.ext e)) true 0 none extOwner,
  roB "EXT.COUNTERS" (.each 0x4A00 1 1024 0x0E) (.domain 16777216) (fun e s =>
    (List.range ((s.ext e).len / 2 ^ 21)).flatMap (fun i => (tget {} s.pool.counters ((s.ext e).base / 2 ^ 21 + i)).bytes)) true extOwner]

-- Chapter 11: host ports (Table 11-10)
def hpModeWrite (h v : Nat) (s : State) : Except Nat State :=
  check (tdiOpen s h) abortRefused (.ok ((s.setMg (.host h) none).modHost h (fun p => { p with mode := v })))
def nopasidWrite (h v : Nat) (s : State) : Except Nat State :=
  check (tdiOpen s h) abortRefused (.ok (s.modHost h (fun p => { p with nopasidCtx := v })))
def rowsHost : List ObjRow := [
  roN "HP.NODE" (.each 0xA000 16 8 1) .u16 (fun h s => s.hpNode h) true 0xFFFF (some (0, 0xFFFF)),
  roN "HP.STATE" (.each 0xA000 16 8 2) .u8 (fun h s => (s.host h).st.code) true 0 (some (0, 2)),
  rwN "HP.MODE" (.each 0xA000 16 8 3) .u8 0 (some (0, 2)) (fun h s => (s.host h).mode) hpModeWrite,
  rwN "HP.NOPASID_CTX" (.each 0xA000 16 8 4) .u16 0xFFFF (some (0, 0xFFFF)) (fun h s => (s.host h).nopasidCtx) nopasidWrite,
  rwS "HP.BI_TIMEOUT" (.each 0xA000 16 8 5) .u32 200 (some (10, 800)) (fun h s => (s.host h).biTimeout) (fun h v s => s.modHost h (fun p => { p with biTimeout := v })),
  woN "HP.CTL" (.each 0xA000 16 8 6) .u64 hpCtlWrite,
  roB "HP.ERR_LOG" (.each 0xA000 16 8 7) (.domain 2048) (fun h s => (s.host h).errLog.flatMap HpErr.bytes),
  roN "HP.BI_SENT" (.each 0xA000 16 8 8) .u64 (fun h s => (s.host h).biSent),
  roN "HP.LINES_LOST" (.each 0xA000 16 8 9) .u64 (fun h s => (s.host h).linesLost),
  roN "HP.TDI_STATE" (.each 0xA000 16 8 0x0A) .u8 (fun h s => (s.host h).tdi.code) true 0 (some (0, 3)),
  roN "HP.MB_REFUSED" (.each 0xA000 16 8 0x0B) .u64 (fun h s => (s.host h).mbRefused),
  roN "HP.DIR_USED" (.at_ 0xA800 1) .u32 (fun _ s => s.pool.dir.length) false 0 (some (0, 16777216)),
  roN "HP.DIR_EVICTIONS" (.at_ 0xA800 2) .u64 (fun _ s => s.pool.dirEvictions)]

-- Chapter 12: contexts and keys (Table 12-12)
/-- `CTX.CTL`. -/
def ctxCtlWrite (v : Nat) (s : State) : Except Nat State :=
  let c := field v 8 16
  if field v 0 8 == 1 then check (field v 25 39 == 0) abortRefused (ctxActivateWrite c (bitOf v 24) (field v 64 64) (field v 128 64) s)
  else if field v 0 8 == 2 then check (field v 24 40 == 0) abortRefused (ctxStopWrite instAbort c (field v 64 64) (field v 128 64) s)
  else .error abortRange
/-- `KEY.CTL`. -/
def keyCtlWrite (v : Nat) (s : State) : Except Nat State :=
  let ok := field v 21 3 == 0 && field v 40 24 == 0 && (!(bitOf v 20) || field v 27 13 == 0)
  if field v 0 8 == 1 then check ok abortRefused (keyGenerateWrite (field v 8 12) (bitOf v 20) (field v 24 16) s)
  else if field v 0 8 == 2 then check ok abortRefused (keyDestroyWrite (field v 8 12) s)
  else .error abortRange
def rowsSec : List ObjRow := [
  woN "CTX.CTL" (.at_ 0x6000 1) (.record 24) (fun _ v s => ctxCtlWrite v s),
  woN "KEY.CTL" (.at_ 0x6000 2) (.record 8) (fun _ v s => keyCtlWrite v s),
  woN "KEY.BUNDLE_LOAD" (.at_ 0x6000 3) (.record 40) (fun _ v s => bundleLoadChecked v s),
  roB "KEY.BUNDLE_STATE" (.at_ 0x6000 4) (.record 16) (fun _ s =>
    let b := s.sec.bundle; leBytes 16 (pack [(2, b.st.code), (2, 0), (4, b.cause), (24, 0), (32, b.chunk), (64, b.written)])),
  roB "KEY.BSLOTS" (.at_ 0x6000 5) (.record 256) (fun _ s =>
    words ((List.range 64).map (fun i => let b := tget {} s.sec.bkeys i; if b.used then pack [(16, b.ctx), (4, b.kgen), (1, 1)] else 0)) 4),
  roN "THAW.COUNT" (.at_ 0x6000 6) .u64 (fun _ s => s.sec.thawCount),
  roB "THAW.LAST" (.at_ 0x6000 7) (.record 16) (fun _ s => leBytes 16 (pack [(16, s.sec.thawCtx), (48, 0), (64, s.sec.thawSlot)])),
  roN "CTX.CHANGES" (.at_ 0x6000 8) .u8 (fun _ s => s.sec.changes.length) false 0 (some (0, 64)),
  roN "CTX.REVOKED" (.at_ 0x6000 9) .u64 (fun _ s => s.sec.revoked),
  roN "CTX.STATE" (.split 0x6100 65536) .u64 (fun c s => (s.ctx c).word) true 0 none ctxSelf,
  roN "KEY.SLOT" (.split 0x6800 4096) .u64 (fun k s => s.keyWord k),
  { name := "ATT.BROKER", place := .subs 0x6900 1 4, ty := .octets 96, acc := .rwl, read := fun _ k s => leBytes 96 (tget 0 s.sec.brokers k),
    write := fun _ k b s => .ok (s.modSec (fun x => { x with brokers := tset x.brokers k (leNat b) })), locked := fun s => s.sec.brokerLock },
  { rwS "ATT.BROKER_LOCK" (.at_ 0x6900 5) .bool 0 none (fun _ s => boolNat s.sec.brokerLock) (fun _ v s => s.modSec (fun x => { x with brokerLock := v == 1 }))
      with acc := .rwl, locked := fun s => s.sec.brokerLock },
  { roB "ATT.VENDOR_ID" (.at_ 0x6900 6) (.octets 6) (fun _ s => leBytes 6 s.dev.vendorId) true with acc := .const },
  roN "ATT.SESSIONS" (.at_ 0x6900 7) .u16 (fun _ s => s.openSessions) false 0 (some (0, 276))]

-- Chapters 16 and 17: failures, telemetry, power and temperature (Tables 16-10, 17-8)
def rowsFail : List ObjRow := [
  roB "EVT.LOG" (.at_ 0x9000 1) (.domain 131072) (fun _ s => s.evt.log.flatMap Event.bytes),
  roN "EVT.HEAD" (.at_ 0x9000 2) .u64 (fun _ s => s.evt.head),
  rwS "EVT.MIN_SEV" (.at_ 0x9000 3) .u8 0 (some (0, 3)) (fun _ s => s.evt.minSev) (fun _ v s => { s with evt := { s.evt with minSev := v } }),
  roN "THM.STAGE" (.at_ 0x9000 0x10) .u8 (fun _ s => s.thm.stage.code) true 0 (some (0, 4)),
  roN "THM.TJ_MAX" (.at_ 0x9000 0x11) .s32 (fun _ s => ofSigned 32 s.thm.tjMax),
  rwN "THM.FLOW" (.at_ 0x9000 0x12) .u16 0xFFFF (some (0, 0xFFFF)) (fun _ s => s.thm.flow) (fun _ v s => thmFlowSet v s),
  roN "THM.STAGE_SLOT" (.at_ 0x9000 0x13) .u64 (fun _ s => s.thm.stageSlot),
  roB "THM.SENSORS" (.at_ 0x9000 0x14) (.domain 420) (fun _ s => slice (words (s.thm.sensors.map (ofSigned 32)) 4) 0 420),
  rwS "PWR.OFF_AFTER" (.at_ 0x9000 0x18) .u16 4000 (some (1000, 6000)) (fun _ s => s.dev.offAfter) (fun _ v s => s.modDev (fun d => { d with offAfter := v })),
  roN "PWR.WARNINGS" (.at_ 0x9000 0x19) .u64 (fun _ s => s.dev.warnings),
  roN "PWR.PACKAGE" (.at_ 0x9000 0x1A) .u32 (fun _ s => s.thm.packagePower / 1000),
  roB "PWR.RAILS" (.at_ 0x9000 0x1B) (.record 72) (fun _ s => slice (s.thm.rails.flatMap (fun r => words [r.1, r.2] 4)) 0 72),
  roB "TEL.SNAP" (.at_ 0x9000 0x20) (.domain 24704) (fun _ s => slice s.tel.snap 0 24704),
  roN "TEL.SNAP_SEQ" (.at_ 0x9000 0x21) .u64 (fun _ s => s.tel.seq),
  roB "NODE.ABSENT" (.at_ 0x9000 0x28) (.domain 512) (fun _ s => bitmap 512 s.absent),
  roN "NODE.DEPARTURES" (.at_ 0x9000 0x29) .u64 (fun _ s => s.departures),
  roB "TILE.ERR" (.each 0x3000 16 256 1) (.record 16) (fun t s =>
    let e := tget (0, 0, 0) s.tel.tileErr t; leBytes 16 (pack [(32, e.1), (32, e.2.1), (64, e.2.2)]))]

/-- Every object of the dictionary. -/
def allRows : List ObjRow :=
  rowsDev ++ rowsVane ++ rowsSwitch ++ rowsPort ++ rowsLane ++ rowsXlate ++ rowsOps ++ rowsTime ++ rowsPool ++ rowsExt ++ rowsHost ++ rowsSec ++ rowsFail
/-- The row of an index and sub-index, with the object's number; none where no chapter defines it (R406). -/
def findRow (i t : Nat) : List ObjRow → Option (ObjRow × Nat)
  | [] => none
  | r :: l => match r.place.key i t with | some k => some (r, k) | none => findRow i t l
def objAt (i t : Nat) : Option (ObjRow × Nat) := findRow i t allRows
/-- The factory-test range (R4). -/
def factoryIndex (i : Nat) : Bool := decide (0xF000 ≤ i) && decide (i ≤ 0xFFFF)

end Sys2Proof.Machine
end

