-- ==== Sys2Proof/Machine/DictCmds.lean ====
section
/-! DEFINITION. The commands of the dictionary and its transports: frames in the PRV view (R406 to R420), transfers, the managed state (R429, R430),
the management port (R421, R422), SPDM (R349 to R351), the tenant mailbox (R332, R424) and the DOE instance (R331). -/

namespace Sys2Proof.Machine
open Sys2Proof

-- Frames
/-- The most payload bytes of a frame of a session's transport (R416): UDP 1,408 bytes in all, I3C 2,048. -/
def State.frameMax (s : State) (sess : Nat) : Nat := if sess != 0 && (s.session sess).chan == .udp then 1388 else 2028
/-- LAST outside a segment, or OFFSET, LAST or a length where the operation or the object's type has none (R415, Table 14-4). -/
def misplaced (f : VFrame) : Bool :=
  if f.op != 2 && f.last || f.op == 3 && (f.offset != 0 || f.len != 0) then true else
  if factoryIndex f.index then false else
  match objAt f.index f.sub with
  | none => false
  | some (r, _) => !r.ty.isDomain && (f.offset != 0 || f.last || (f.op != 2 && f.len != 0))
/-- The checks of R414 and R415 on the form of a request. -/
def malformedReq (f : VFrame) (max : Nat) : Bool :=
  f.ver != 1 || f.op == 0 || decide (4 ≤ f.op) || f.rsp || f.abort != 0 || f.rsvd != 0 || decide (max < f.payload.length) ||
  (if f.op == 1 then f.payload.length != 0 else f.payload.length != f.len) || misplaced f
/-- The checks on the object that precede SEQ_CONFLICT in R420. -/
def objectAbort (f : VFrame) (s : State) : Option Nat :=
  if factoryIndex f.index then none else
  match objAt f.index f.sub with
  | none => some abortNoObject
  | some (r, _) =>
    if f.op == 2 && (r.acc == .const || r.acc == .ro) then some abortReadOnly
    else if f.op == 1 && r.acc == .wo then some abortWriteOnly
    else if f.op == 2 && r.locked s then some abortLocked else none
/-- A frame of a client in the order of R420; `k` serves it where every check down to SEQ_CONFLICT passes. -/
def State.serveRaw (s : State) (sess : Nat) (f : VFrame) (k : State → Answer) : Answer :=
  if !s.vaneOpen sess f then .next s
  else if !s.answers sess || !s.rateOk sess || (!s.onI3c sess && !s.prvView sess) then .next s.dropFrame
  else
    let t := s.countDatagram sess
    if malformedReq f (s.frameMax sess) then .next (t.refuse sess f abortMalformed)
    else if !s.prvView sess then .next ((t.authFail 1).refuse sess f abortAuth)
    else match t.keptOf sess f.seq with
      | some kp => .next (if kp.req == f then t.resend sess kp else t.refuse sess f ((objectAbort f t).getD abortSeq))
      | none =>
        match objectAbort f t with
        | some a => .next (t.refuse sess f a)
        | none => k t

/-- What a read of a measured quantity takes first (log 30): package power, and the rails in table order. -/
def State.measure (s : State) (i t : Nat) : State :=
  if i == 0x9000 && t == 0x1A then s.measurePower
  else if i == 0x9000 && t == 0x1B then
    let r := s.freshBytes 72
    r.2.modThm (fun x => { x with rails := (List.range 9).map (fun n => (leAt r.1 (8 * n) 4, leAt r.1 (8 * n + 4) 4)) })
  else s
/-- The part of a DOMAIN's content that a READ returns, and whether it reaches the end (R415). -/
def domainPart (b : Bytes) (offset len max : Nat) : Bytes × Bool :=
  let p := (b.drop offset).take (if len == 0 || max < len then max else len)
  (p, decide (b.length ≤ offset + p.length))
/-- The payload of a READ, and LAST. -/
def ObjRow.payload (r : ObjRow) (sess k : Nat) (f : VFrame) (max : Nat) (s : State) : Bytes × Bool :=
  if r.ty.isDomain then domainPart (r.read sess k s) f.offset f.len max else (r.read sess k s, false)
/-- Lowest and highest value of a scalar type. -/
def OType.range : OType → Nat × Nat
  | .bool => (0, 1) | .u8 => (0, 2 ^ 8 - 1) | .u16 => (0, 2 ^ 16 - 1) | .u32 => (0, 2 ^ 32 - 1) | .u64 => (0, 2 ^ 64 - 1)
  | .s32 => (2 ^ 64 - 2 ^ 31, 2 ^ 31 - 1) | .f32 => (0xFF800000, 0x7F800000) | _ => (0, 0)
def nameBytes (n : String) : Bytes := n.toList.map (fun c => BitVec.ofNat 8 c.toNat)
/-- Table 14-5; the default of a CONST object, and of `POOL.GRAN_TOTAL`, is its factory value. -/
def ObjRow.describe (r : ObjRow) (i t k : Nat) (s : State) : Bytes :=
  let unit := unitOf { op := 2, index := i, sub := t, payload := List.replicate 8 0 }
  let range := r.rng.getD r.ty.range
  let sc := r.ty.isScalar
  leBytes 32 (pack [(8, r.ty.code), (3, r.acc.code), (1, boolNat (r.acc == .rwl && r.locked s)), (2, 1 + 2 * boolNat r.ten),
      (1, boolNat (unit.isSome && r.acc != .ro)), (1, 0), (32, r.ty.len), (16, 0),
      (64, if sc then (if r.acc == .const || (i == 0x4000 && t == 2) then leNat (r.read 0 k s) else r.dflt) else 0), (64, if sc then range.1 else 0), (64, if sc then range.2 else 0)]) ++
    slice (nameBytes r.name) 0 32
/-- Whether a value lies in the object's range (R407, R411). -/
def ObjRow.inRange (r : ObjRow) (b : Bytes) : Bool :=
  let v := leNat b
  match r.ty with
  | .bool => decide (v ≤ 1)
  | .f32 => !(decide (0x7F800000 < v % 2 ^ 31)) && (match r.rng with | some x => decide (x.1 ≤ v) && decide (v ≤ x.2) | none => true)
  | _ => (match r.rng with | some x => !r.ty.isScalar || (decide (x.1 ≤ v) && decide (v ≤ x.2)) | none => true)
/-- A write of an object that is no DOMAIN, from LENGTH on: the abort code and the state after it. -/
def ObjRow.put (r : ObjRow) (sess k : Nat) (f : VFrame) (s : State) : Nat × State :=
  if f.payload.length != r.ty.len then (abortLength, s)
  else s.judge f (unitOf f) (fun t => check (r.inRange f.payload) abortRange (r.write sess k f.payload t))
/-- A segment of a DOMAIN (R417): kept until LAST, then judged as one write. -/
def ObjRow.putSegment (r : ObjRow) (sess k : Nat) (f : VFrame) (s : State) : State :=
  let have_ := match s.ownTransfer sess f.index f.sub with | some x => x.bytes | none => []
  match s.segmentBad sess f r.ty.len have_.length with
  | some a => s.refuse sess f a
  | none =>
    let b := (if f.offset == 0 then [] else have_) ++ f.payload
    let t := s.noteSegment sess f b
    if f.last then t.vaneJudge sess f none (fun u => r.write sess k b u) else t.acknowledge sess f
/-- Serves a frame that has passed the checks of R420 down to SEQ_CONFLICT. -/
def State.serveFrame (s : State) (sess : Nat) (f : VFrame) : Answer :=
  if factoryIndex f.index then
    if f.op == 2 then
      if s.dev.factoryTest == 0 then .next (s.refuse sess f abortRefused) else .refused .factoryTestWrite
    else if f.op == 3 then
      let b := s.freshBytes 64
      .next (b.2.respond sess f (b.2.rspFrame f 0 false b.1))
    else
      let n := s.fresh
      let b := n.2.freshBytes (n.1.toNat % (s.frameMax sess + 1))
      .next (b.2.respond sess f (b.2.rspFrame f 0 false b.1))
  else match objAt f.index f.sub with
    | none => .next (s.refuse sess f abortNoObject)
    | some (r, k) =>
      if f.op == 1 then
        let t := s.measure f.index f.sub
        let p := r.payload sess k f (s.frameMax sess) t
        .next (t.respond sess f (t.rspFrame f 0 p.2 p.1))
      else if f.op == 3 then .next (s.respond sess f (s.rspFrame f 0 false (r.describe f.index f.sub k s)))
      else if f.index == 0x7100 && f.sub == 1 then .next (s.imageWrite sess f)
      else if r.ty.isDomain then .next (r.putSegment sess k f s)
      else
        let w := r.put sess k f s
        .next (w.2.refuse sess f w.1)
/-- READ (R415). -/
def execRead (sess : Nat) (f : VFrame) (s : State) : Answer := s.serveRaw sess f (fun t => t.serveFrame sess f)
/-- WRITE of an object without a row of its own (R411). -/
def execWrite (sess : Nat) (f : VFrame) (s : State) : Answer := s.serveRaw sess f (fun t => t.serveFrame sess f)
/-- DESCRIBE (R415). -/
def execDescribe (sess : Nat) (f : VFrame) (s : State) : Answer := s.serveRaw sess f (fun t => t.serveFrame sess f)
/-- EPOCH_RECORD_WRITE (R430): the record as read is written back with its EPOCH. -/
def execEpochRecordWrite (v : VCtx) (u : EUnit) (s : State) : Answer :=
  s.vaneWrite v u.obj (s.epochBytes u) (some u) (fun t => .ok (epochAccept u t))
/-- SEGMENT_TIMEOUT (R417). -/
def execSegmentTimeout (sess index sub : Nat) (s : State) : Answer :=
  .next (s.modTransfers (fun l => l.map (fun x =>
    if x.sess == sess && x.index == index && x.sub == sub && decide (x.at_ + s.vane.segTimeout * 1000000 ≤ s.clk) then { x with abandoned := true } else x)))
/-- SETTLE_TIMEOUT (R429). -/
def execSettleTimeout (u : EUnit) (s : State) : Answer :=
  let r := s.epochRec u
  .next (if r.since != 0 && decide (r.since + s.vane.settle * 1000000 ≤ s.clk) && s.dpState u != s.mgState u && !r.disagree then
      (s.modEpoch u (fun x => { x with disagree := true })).event 1 0x01 1 u.obj.1 u.obj.2 0
    else s)

-- The management port
/-- Whether the device answers on the management port at all (R421, R436, R450). -/
def State.netOpen (s : State) : Bool := s.thm.stage != .trip && s.dev.phase != .cold && s.dev.phase != .strap && s.dev.phase != .off
/-- MCTP_ASSEMBLY_TIMEOUT (R422): the message is discarded. -/
def execMctpAssemblyTimeout (tag : Nat) (s : State) : Answer :=
  .next (if s.dev.phase == .cold then s else ({ s with vane := { s.vane with mctp := terase s.vane.mctp tag } }).dropFrame)
/-- ARP_REQUEST. -/
def execArpRequest (ip : Nat) (s : State) : Answer := .next (if s.netOpen && s.vane.ipv4 != 0 && ip == s.vane.ipv4 then s.emit (.arp ip) else s)
/-- NEIGHBOUR_SOLICITATION. -/
def execNeighbourSolicitation (ip : Nat) (s : State) : Answer :=
  .next (if s.netOpen && s.vane.ipv6 != 0 && ip == s.vane.ipv6 then s.emit (.neighbour ip) else s)
/-- ICMP_ECHO. -/
def execIcmpEcho (v6 : Bool) (ip : Nat) (payload : Bytes) (s : State) : Answer :=
  let own := if v6 then s.vane.ipv6 else s.vane.ipv4
  .next (if !s.netOpen then s else if own != 0 && ip == own then s.emit (.icmp v6 ip payload) else s.dropFrame)

-- SPDM
def State.spdmOpen (s : State) (ch : SpdmChan) : Bool :=
  s.thm.stage != .trip && s.dev.phase != .cold && s.dev.phase != .strap && (s.dev.phase != .off || ch == .i3c) &&
  (match ch with | .doe h => (s.host h).st == .active | .link p => (s.port p).st == .linked || (s.port p).st == .inService | _ => true)
def State.spdmSay (s : State) (ch : SpdmChan) (code : Nat) (body : List Nat) : State := s.emit (.spdm ch code body)
/-- An ERROR response of SPDM (log 27). -/
def State.spdmError (s : State) (ch : SpdmChan) (err : Nat) : State := s.spdmSay ch 0x7F [err]
def mgmtChan : SpdmChan → Bool | .udp => true | .i3c => true | _ => false
/-- Whether one more session fits (Table 12-5). -/
def State.sessionFits (s : State) (ch : SpdmChan) : Bool :=
  let n := fun (p : SpdmChan → Bool) => (s.vane.sessions.filter (fun x => x.2.isOpen && p x.2.chan)).length
  match ch with
  | .doe _ => decide (n (· == ch) < 2)
  | .link p => (s.port p).cryptState == 1
  | _ => decide (n mgmtChan < 4)
/-- Whether a session belongs to the channel of a request. -/
def State.sessionOn (s : State) (ch : SpdmChan) (i : Nat) : Bool :=
  i != 0 && (s.session i).isOpen && (if mgmtChan ch then mgmtChan (s.session i).chan else (s.session i).chan == ch)
def State.closeSession (s : State) (i : Nat) : State :=
  { s with vane := { s.vane with sessions := terase s.vane.sessions i, transfers := s.vane.transfers.filter (fun x => x.sess != i) } }
def slotBytes (t : Tab Nat) : Bytes := (List.range 4).flatMap (fun k => leBytes 96 (tget 0 t k))
/-- Table 12-6. -/
def State.measurement (s : State) : Nat → List Nat
  | 1 => [Config.romHash.toNat]
  | 2 => [(Config.fwHash s.dev.fwCopy).toNat]
  | 3 => [Config.fwSvn.toNat]
  | 4 => [s.dev.straps]
  | 5 => [(Config.sha384 (slotBytes s.tbl.signers ++ leBytes 1 (boolNat s.tbl.signerLock))).toNat]
  | 6 => [s.tbl.active.version, s.tbl.active.setId, s.tbl.active.hash]
  | 7 => [s.dev.factoryTest]
  | 8 => [(Config.sha384 (slotBytes s.sec.brokers ++ leBytes 1 (boolNat s.sec.brokerLock))).toNat]
  | 9 => [pack ((List.range 256).map (fun p => (2, (s.port p).crypt)))]
  | _ => []
/-- KEY_EXCHANGE: a session opens, not yet established. -/
def State.keyExchange (s : State) (ch : SpdmChan) (leaf : Nat) (auth : Bool) : State :=
  if !s.sessionFits ch then s.spdmError ch 0x0A else
  match ch with
  | .link p => (s.modPort p (fun x => { x with spdmStage := 5 })).spdmSay ch 0x64 [p]
  | _ =>
    let i := (((List.range 32).map (· + 1)).find? (fun i => !(s.session i).isOpen)).getD 32
    let r := s.fresh
    (r.2.modSession i (fun _ => { isOpen := true, chan := ch, leafKey := leaf, mutAuth := auth, nonce := r.1.toNat })).spdmSay ch 0x64 [i, r.1.toNat]
/-- FINISH: the session is established; with mutual authentication only where the proof verifies (R423). -/
def State.spdmFinish (s : State) (ch : SpdmChan) (i proof : Nat) : State :=
  match ch with
  | .link p => if (s.port p).cryptState == 1 && (s.port p).spdmStage == 5 then ((s.sessionUp p).spdmSay ch 0x65 [p]).tryService p else s.spdmError ch 0x02
  | _ =>
    if !s.sessionOn ch i || (s.session i).established then s.spdmError ch 0x02
    else if (s.session i).mutAuth && !Config.spdmFinishOk (s.session i).leafKey (s.session i).nonce proof then
      ((if mgmtChan ch then s.authFail (boolNat (ch == SpdmChan.i3c)) else s).closeSession i).spdmError ch 0x06
    else (s.modSession i (fun x => { x with established := true })).spdmSay ch 0x65 [i]
/-- A broker's delivery in a session; refused in any other (R351). -/
def State.vendorRequest (s : State) (ch : SpdmChan) (i payload len : Nat) : State :=
  if !s.brokerSession i then s.spdmError ch 0x01
  else
    let r := s.bkeyDeliver i payload len
    r.2.spdmSay ch 0x7E [r.1]
/-- The responder of Table 12-5. -/
def State.spdmServe (s : State) (ch : SpdmChan) (r : SpdmReq) : State :=
  let inSession := fun (i : Nat) (t : State) => if s.sessionOn ch i && (s.session i).established then t else s.spdmError ch 0x02
  match r with
  | .getVersion => s.spdmSay ch 0x04 [0x13]
  | .getCapabilities => s.spdmSay ch 0x61 []
  | .negotiateAlgorithms => s.spdmSay ch 0x63 []
  | .getDigests => s.spdmSay ch 0x01 [(Config.sha384 Config.certChain).toNat]
  | .getCertificate slot => if slot == 0 then s.spdmSay ch 0x02 (Config.certChain.map BitVec.toNat) else s.spdmError ch 0x01
  | .challenge slot => if slot == 0 then (let g := s.fresh; g.2.spdmSay ch 0x03 [g.1.toNat]) else s.spdmError ch 0x01
  | .getMeasurements i signed =>
    let body := if i == 0 then [9] else if i == 0xFF then (List.range 9).flatMap (fun k => s.measurement (k + 1)) else s.measurement i
    if i != 0 && body.isEmpty then s.spdmError ch 0x01
    else if signed then (let g := s.fresh; g.2.spdmSay ch 0x60 (body ++ [g.1.toNat])) else s.spdmSay ch 0x60 body
  | .keyExchange leaf auth => s.keyExchange ch leaf auth
  | .finish i proof => s.spdmFinish ch i proof
  | .keyUpdate i =>
    (match ch with
     | .link p => if (s.port p).cryptState == 2 then (s.modPort p (fun x => { x with oldRx := none })).spdmSay ch 0x69 [p] else s.spdmError ch 0x02
     | _ => inSession i (s.spdmSay ch 0x69 [i]))
  | .heartbeat i => inSession i (s.spdmSay ch 0x68 [i])
  | .endSession i => inSession i ((s.closeSession i).spdmSay ch 0x6C [i])
  | .chunk _ => s.spdmSay ch 0x05 []
  | .vendorDefined i data => inSession i (s.vendorRequest ch i (leNat data) data.length)
  | .other _ => s.spdmError ch 0x07
/-- SPDM_REQUEST (R349). -/
def execSpdmRequest (ch : SpdmChan) (r : SpdmReq) (s : State) : Answer := .next (if s.spdmOpen ch then s.spdmServe ch r else s)
/-- BKEY_DELIVER (R351). -/
def execBkeyDeliver (sess payload len : Nat) (s : State) : Answer :=
  let ch := (s.session sess).chan
  .next (if !s.spdmOpen ch then s else if sess == 0 || !s.answers sess then s.dropFrame else s.vendorRequest ch sess payload len)

-- The tenant mailbox
/-- The frame in a byte string; a string shorter than the header reads zeros. -/
def frameOf (b : Bytes) : VFrame :=
  let h := leAt b 0 20
  { ver := field h 0 4, op := field h 4 3, rsp := bitOf h 7, last := bitOf h 8, rsvd := field h 9 7 + 2 ^ 7 * field h 144 16, seq := field h 16 16,
    index := field h 32 16, sub := field h 48 8, abort := field h 56 8, epoch := field h 64 32, offset := field h 96 32, len := field h 128 16, payload := b.drop 20 }
def VFrame.bytes (f : VFrame) : Bytes :=
  leBytes 20 (pack [(4, f.ver), (3, f.op), (1, boolNat f.rsp), (1, boolNat f.last), (7, 0), (16, f.seq), (16, f.index), (8, f.sub), (8, f.abort), (32, f.epoch),
    (32, f.offset), (16, f.len), (16, 0)]) ++ f.payload
/-- Whether a frame names an object of the TEN view of a context (R338). -/
def State.inTen (s : State) (ctx : Nat) (f : VFrame) : Bool :=
  if factoryIndex f.index then false else
  match objAt f.index f.sub with
  | some (r, k) => r.ten && (match r.owner k s with | some c => c == ctx | none => true)
  | none => false
/-- Serves a frame in the TEN view: the response and the state after it. No response is kept (R424). -/
def State.serveTen (s : State) (f : VFrame) : VFrame × State :=
  match objAt f.index f.sub with
  | none => (s.rspFrame f abortNoObject false [], s)
  | some (r, k) =>
    match objectAbort f s with
    | some a => (s.rspFrame f a false [], s)
    | none =>
      if f.op == 1 then (let p := r.payload 0 k f 2012 s; (s.rspFrame f 0 p.2 p.1, s))
      else if f.op == 3 then (s.rspFrame f 0 false (r.describe f.index f.sub k s), s)
      else (let w := r.put 0 k f s; (w.2.rspFrame f w.1 false [], w.2))
/-- Ends a mailbox request: STATE, the response, and entry 0 of the port's vectors (R311). -/
def State.mailEnd (s : State) (h g : Nat) (f : Mailbox → Mailbox) : State :=
  (s.modHost h (fun p => { p with mail := tmod {} p.mail g f, msix := tmod 0 p.msix 0 (· + 1) })).emit (.msix h 0)
def State.mailRefuse (s : State) (h g : Nat) : State :=
  (s.modHost h (fun p => { p with mbRefused := p.mbRefused + 1 })).mailEnd h g (fun m => { m with st := 3 })
def State.mailAnswer (s : State) (h g : Nat) (r : VFrame) : State :=
  { s with vane := { s.vane with aborts := s.vane.aborts + boolNat (r.abort != 0) } }.mailEnd h g
    (fun m => { m with st := 2, rsp := VFrame.bytes r, rlen := 20 + r.payload.length })
/-- MAILBOX_GO (R332): REQ holds `req`, and MB_CTL is written with `ctl`. -/
def execMailboxGo (h g : Nat) (req : Bytes) (ctl : Nat) (s : State) : Answer :=
  let rings := ((List.range 16).map (fun k => s.ring (16 * g + k))).filter (fun r => r.cfg.enable || r.st == .draining)
  if (s.host h).st != .active || (s.host h).tdi == .error || rings.any (fun r => (s.ctx r.cfg.ctx).st == .stopping) then .next s
  else
    let busy := (tget {} (s.host h).mail g).st == 1
    let t := if busy then s else s.modHost h (fun p => { p with mail := tmod {} p.mail g (fun m => { m with req := req, len := field ctl 0 12 }) })
    if !bitOf ctl 31 then .next t
    else if busy then .next (t.mailRefuse h g)
    else match rings.find? (fun r => r.cfg.enable) with
      | none => .next (t.mailRefuse h g)
      | some ring =>
        let f := frameOf (slice req 0 (field ctl 0 12))
        if malformedReq f 2028 || decide (field ctl 0 12 < 20) || decide (2048 < field ctl 0 12) then .next (t.mailAnswer h g (t.rspFrame f abortMalformed false []))
        else if !t.inTen ring.cfg.ctx f then .next (t.mailRefuse h g)
        else
          let r := t.serveTen f
          .next (r.2.mailAnswer h g r.1)

-- DOE
/-- The protocols of the DOE instance: vendor, data object type (R331; numbers log 27). -/
def State.doeProtocols (s : State) (h : Nat) : List (Nat × Nat) :=
  [(1, 0), (1, 1), (1, 2)] ++ (if (s.host h).modeActive == 2 then [(0x1E98, 2)] else [])
/-- IDE_KM over secured SPDM (R329): a stream's keys are set and used, or stopped. -/
def State.ideKm (s : State) (h stream : Nat) (secure : Bool) : State :=
  if !(s.vane.sessions.any (fun x => x.2.isOpen && x.2.established && x.2.chan == .doe h)) || 4 < stream then s
  else (s.modHost h (fun p =>
    if stream == 0 then { p with linkIde := if secure then some true else none }
    else { p with ideSel := if secure then tset p.ideSel stream true else terase p.ideSel stream })).emit (.doe h [stream, boolNat secure])
/-- DOE_REQUEST (R331): an object above 64 KiB or of another protocol is discarded. -/
def execDoeRequest (h len : Nat) (r : DoeReq) (s : State) : Answer :=
  if (s.host h).st != .active || 65536 < len || !s.spdmOpen (.doe h) then .next s
  else .next (match r with
    | .discovery i =>
      (match (s.doeProtocols h)[i]? with
       | some x => s.emit (.doe h [x.1, x.2, if i + 1 < (s.doeProtocols h).length then i + 1 else 0])
       | none => s.emit (.doe h [0xFFFF, 0xFF, 0]))
    | .spdm q => s.spdmServe (.doe h) q
    | .secured i q => if s.sessionOn (.doe h) i then s.spdmServe (.doe h) q else s
    | .ideKm stream secure => s.ideKm h stream secure
    | .cdat entry => if (s.host h).modeActive == 2 then (let g := s.fresh; g.2.emit (.doe h [entry, g.1.toNat])) else s
    | .other _ => s)

end Sys2Proof.Machine
end

