-- ==== Sys2Proof/Machine/Dispatch.lean ====
section
/-! DEFINITION. One meaning per command. -/

namespace Sys2Proof.Machine
open Sys2Proof

/-- The effect of a command on everything but the queue. -/
def exec (i : Instr) (s : State) : Host.Outcome State Fault Refusal :=
  match i with
  | .read sess f => Sys2Proof.Machine.execRead sess f s
  | .write sess f => Sys2Proof.Machine.execWrite sess f s
  | .describe sess f => Sys2Proof.Machine.execDescribe sess f s
  | .epochRecordWrite v u => Sys2Proof.Machine.execEpochRecordWrite v u s
  | .segmentTimeout sess index sub => Sys2Proof.Machine.execSegmentTimeout sess index sub s
  | .settleTimeout u => Sys2Proof.Machine.execSettleTimeout u s
  | .mctpAssemblyTimeout tag => Sys2Proof.Machine.execMctpAssemblyTimeout tag s
  | .arpRequest ip => Sys2Proof.Machine.execArpRequest ip s
  | .neighbourSolicitation ip => Sys2Proof.Machine.execNeighbourSolicitation ip s
  | .icmpEcho v6 ip payload => Sys2Proof.Machine.execIcmpEcho v6 ip payload s
  | .spdmRequest ch r => Sys2Proof.Machine.execSpdmRequest ch r s
  | .bkeyDeliver sess payload len => Sys2Proof.Machine.execBkeyDeliver sess payload len s
  | .coldReset => Sys2Proof.Machine.execColdReset s
  | .coldResetRelease railsGood => Sys2Proof.Machine.execColdResetRelease railsGood s
  | .strapSample samples => Sys2Proof.Machine.execStrapSample samples s
  | .firmwareAuthenticated pass0 pass1 => Sys2Proof.Machine.execFirmwareAuthenticated pass0 pass1 s
  | .warmReset lowNs coldLow => Sys2Proof.Machine.execWarmReset lowNs coldLow s
  | .packageReset v => Sys2Proof.Machine.execPackageReset v s
  | .drain v => Sys2Proof.Machine.execDrain v s
  | .drainEnd => Sys2Proof.Machine.execDrainEnd s
  | .roleStrapChanged level => Sys2Proof.Machine.execRoleStrapChanged level s
  | .powerWarnNAsserted lowNs => Sys2Proof.Machine.execPowerWarnNAsserted lowNs s
  | .powerOffAfterExpired => Sys2Proof.Machine.execPowerOffAfterExpired s
  | .hbmTrainingDone failed => Sys2Proof.Machine.execHbmTrainingDone failed s
  | .poolInitDone => Sys2Proof.Machine.execPoolInitDone s
  | .thmFlowWrite v flow => Sys2Proof.Machine.execThmFlowWrite v flow s
  | .flowStale => Sys2Proof.Machine.execFlowStale s
  | .tjSample die stack => Sys2Proof.Machine.execTjSample die stack s
  | .flowLowExpired => Sys2Proof.Machine.execFlowLowExpired s
  | .stageHoldExpired => Sys2Proof.Machine.execStageHoldExpired s
  | .thermalTrip tj => Sys2Proof.Machine.execThermalTrip tj s
  | .sramUe tile loc => Sys2Proof.Machine.execSramUe tile loc s
  | .hpRefclkLost h => Sys2Proof.Machine.execHpRefclkLost h s
  | .refclkLost => Sys2Proof.Machine.execRefclkLost s
  | .refclkPresent => Sys2Proof.Machine.execRefclkPresent s
  | .epochPulse highNs => Sys2Proof.Machine.execEpochPulse highNs s
  | .epochPulseMissing => Sys2Proof.Machine.execEpochPulseMissing s
  | .rtSet v e => Sys2Proof.Machine.execRtSet v e s
  | .rtSource v src => Sys2Proof.Machine.execRtSource v src s
  | .rtSrcPort v p => Sys2Proof.Machine.execRtSrcPort v p s
  | .time p r => Sys2Proof.Machine.execTime p r s
  | .timeRecordMissing => Sys2Proof.Machine.execTimeRecordMissing s
  | .epochStart => Sys2Proof.Machine.execEpochStart s
  | .holdoverLimit => Sys2Proof.Machine.execHoldoverLimit s
  | .rtResumeSlot v slot => Sys2Proof.Machine.execRtResumeSlot v slot s
  | .scheduledResume => Sys2Proof.Machine.execScheduledResume s
  | .tblImage v offset last data => Sys2Proof.Machine.execTblImage v offset last data s
  | .imageCheckDone => Sys2Proof.Machine.execImageCheckDone s
  | .tblArm v slot version => Sys2Proof.Machine.execTblArm v slot version s
  | .tblCancel v version => Sys2Proof.Machine.execTblCancel v version s
  | .switchOver => Sys2Proof.Machine.execSwitchOver s
  | .bankRetired => Sys2Proof.Machine.execBankRetired s
  | .telemetrySnapshot => Sys2Proof.Machine.execTelemetrySnapshot s
  | .eyeScanWindow entry => Sys2Proof.Machine.execEyeScanWindow entry s
  | .bitErrorWindow entry => Sys2Proof.Machine.execBitErrorWindow entry s
  | .bitErrorWindowEnd p l bits errs => Sys2Proof.Machine.execBitErrorWindowEnd p l bits errs s
  | .scrubWindow entry lines errs => Sys2Proof.Machine.execScrubWindow entry lines errs s
  | .portEnable v p on => Sys2Proof.Machine.execPortEnable v p on s
  | .portCtlRetrain v p => Sys2Proof.Machine.execPortCtlRetrain v p s
  | .portTest v p => Sys2Proof.Machine.execPortTest v p s
  | .rewiden v p => Sys2Proof.Machine.execRewiden v p s
  | .laneSlip v l => Sys2Proof.Machine.execLaneSlip v l s
  | .laneScan v l => Sys2Proof.Machine.execLaneScan v l s
  | .rebase v l => Sys2Proof.Machine.execRebase v l s
  | .eyeScanComplete l eye vstep width height errors => Sys2Proof.Machine.execEyeScanComplete l eye vstep width height errors s
  | .signalDetected p lanes => Sys2Proof.Machine.execSignalDetected p lanes s
  | .laneLock l codewords inverted => Sys2Proof.Machine.execLaneLock l codewords inverted s
  | .deskew p order skew => Sys2Proof.Machine.execDeskew p order skew s
  | .train p r => Sys2Proof.Machine.execTrain p r s
  | .trainRepeat p => Sys2Proof.Machine.execTrainRepeat p s
  | .equaliseConverged p coeff => Sys2Proof.Machine.execEqualiseConverged p coeff s
  | .verifyEnd p bers uncorrectable => Sys2Proof.Machine.execVerifyEnd p bers uncorrectable s
  | .trainingTimeout p => Sys2Proof.Machine.execTrainingTimeout p s
  | .cap p f => Sys2Proof.Machine.execCap p f s
  | .capRepeat p => Sys2Proof.Machine.execCapRepeat p s
  | .joiningWaitEnd p => Sys2Proof.Machine.execJoiningWaitEnd p s
  | .spdm p f => Sys2Proof.Machine.execSpdm p f s
  | .spdmAck p mseq => Sys2Proof.Machine.execSpdmAck p mseq s
  | .spdmRepeat p => Sys2Proof.Machine.execSpdmRepeat p s
  | .data p f => Sys2Proof.Machine.execData p f s
  | .idle p f => Sys2Proof.Machine.execIdle p f s
  | .tag p f => Sys2Proof.Machine.execTag p f s
  | .nakRepeat p => Sys2Proof.Machine.execNakRepeat p s
  | .replayTimeout p => Sys2Proof.Machine.execReplayTimeout p s
  | .ackTimeout p => Sys2Proof.Machine.execAckTimeout p s
  | .creditRefresh p vc => Sys2Proof.Machine.execCreditRefresh p vc s
  | .keyUpdate p => Sys2Proof.Machine.execKeyUpdate p s
  | .laneFault l why => Sys2Proof.Machine.execLaneFault l why s
  | .serWindow l ber => Sys2Proof.Machine.execSerWindow l ber s
  | .narrow p mask ack sw => Sys2Proof.Machine.execNarrow p mask ack sw s
  | .narrowRepeat p => Sys2Proof.Machine.execNarrowRepeat p s
  | .narrowSwitch p => Sys2Proof.Machine.execNarrowSwitch p s
  | .narrowTimeout p => Sys2Proof.Machine.execNarrowTimeout p s
  | .signalLost p decodable => Sys2Proof.Machine.execSignalLost p decodable s
  | .downIdleEnd p => Sys2Proof.Machine.execDownIdleEnd p s
  | .retrain p => Sys2Proof.Machine.execRetrain p s
  | .diagStart p mask dur => Sys2Proof.Machine.execDiagStart p mask dur s
  | .diagAck p mask => Sys2Proof.Machine.execDiagAck p mask s
  | .diagAckTimeout p => Sys2Proof.Machine.execDiagAckTimeout p s
  | .diagStop p => Sys2Proof.Machine.execDiagStop p s
  | .diagResult p l bits errs => Sys2Proof.Machine.execDiagResult p l bits errs s
  | .diagResultRepeat p => Sys2Proof.Machine.execDiagResultRepeat p s
  | .diagResultTimeout p l => Sys2Proof.Machine.execDiagResultTimeout p l s
  | .testEnd p counts => Sys2Proof.Machine.execTestEnd p counts s
  | .rd adm t => Sys2Proof.Machine.execRd adm t s
  | .wr adm t => Sys2Proof.Machine.execWr adm t s
  | .atom adm t => Sys2Proof.Machine.execAtom adm t s
  | .resync adm t => Sys2Proof.Machine.execResync adm t s
  | .bisnp adm t => Sys2Proof.Machine.execBisnp adm t s
  | .rspData adm t => Sys2Proof.Machine.execRspData adm t s
  | .rspAtom adm t => Sys2Proof.Machine.execRspAtom adm t s
  | .rspDone adm t => Sys2Proof.Machine.execRspDone adm t s
  | .birsp adm t => Sys2Proof.Machine.execBirsp adm t s
  | .queueHead egress vc => Sys2Proof.Machine.execQueueHead egress vc s
  | .meltSweep => Sys2Proof.Machine.execMeltSweep s
  | .portTransmit p => Sys2Proof.Machine.execPortTransmit p s
  | .repinWindowEnd => Sys2Proof.Machine.execRepinWindowEnd s
  | .accHoldExpired egress vc => Sys2Proof.Machine.execAccHoldExpired egress vc s
  | .accretionTimeout tag => Sys2Proof.Machine.execAccretionTimeout tag s
  | .accEnable v on => Sys2Proof.Machine.execAccEnable v on s
  | .lineQueueHead tile ue => Sys2Proof.Machine.execLineQueueHead tile ue s
  | .nodeLeave adm t => Sys2Proof.Machine.execNodeLeave adm t s
  | .responseAtRequester => Sys2Proof.Machine.execResponseAtRequester s
  | .requestTimeout node tag => Sys2Proof.Machine.execRequestTimeout node tag s
  | .resyncIssue node ctx flow dest => Sys2Proof.Machine.execResyncIssue node ctx flow dest s
  | .fence node engine => Sys2Proof.Machine.execFence node engine s
  | .farunIssue node engine t => Sys2Proof.Machine.execFarunIssue node engine t s
  | .ringEnable v n cfg => Sys2Proof.Machine.execRingEnable v n cfg s
  | .ringDisable v n cfg => Sys2Proof.Machine.execRingDisable v n cfg s
  | .ringConfigure v n cfg => Sys2Proof.Machine.execRingConfigure v n cfg s
  | .restart v n x => Sys2Proof.Machine.execRestart v n x s
  | .tail n value width => Sys2Proof.Machine.execTail n value width s
  | .cmplHead n value width => Sys2Proof.Machine.execCmplHead n value width s
  | .nop n => Sys2Proof.Machine.execNop n s
  | .copy n => Sys2Proof.Machine.execCopy n s
  | .fill n => Sys2Proof.Machine.execFill n s
  | .atomic n => Sys2Proof.Machine.execAtomic n s
  | .opLaunch n => Sys2Proof.Machine.execOpLaunch n s
  | .engineTileStart tile => Sys2Proof.Machine.execEngineTileStart tile s
  | .moverLineResponse tag => Sys2Proof.Machine.execMoverLineResponse tag s
  | .moverRetry tag => Sys2Proof.Machine.execMoverRetry tag s
  | .descriptorSignal n => Sys2Proof.Machine.execDescriptorSignal n s
  | .completionRecord n => Sys2Proof.Machine.execCompletionRecord n s
  | .notificationVector n => Sys2Proof.Machine.execNotificationVector n s
  | .ringDrainEnd n => Sys2Proof.Machine.execRingDrainEnd n s
  | .ctxBind v c rec => Sys2Proof.Machine.execCtxBind v c rec s
  | .withdrawContext v rec => Sys2Proof.Machine.execWithdrawContext v rec s
  | .withdrawFa v rec => Sys2Proof.Machine.execWithdrawFa v rec s
  | .withdrawalNotice home id form ctx base len2m xgen bind => Sys2Proof.Machine.execWithdrawalNotice home id form ctx base len2m xgen bind s
  | .doneNoticeSend home id => Sys2Proof.Machine.execDoneNoticeSend home id s
  | .doneNotice from_ id => Sys2Proof.Machine.execDoneNotice from_ id s
  | .withdrawalTimeout id => Sys2Proof.Machine.execWithdrawalTimeout id s
  | .notifyStoreResponse tag => Sys2Proof.Machine.execNotifyStoreResponse tag s
  | .walkStart w => Sys2Proof.Machine.execWalkStart w s
  | .walkEntryRead tag => Sys2Proof.Machine.execWalkEntryRead tag s
  | .walkTimeout w => Sys2Proof.Machine.execWalkTimeout w s
  | .holdExpired tile => Sys2Proof.Machine.execHoldExpired tile s
  | .atsCompletion w addr size r wr u => Sys2Proof.Machine.execAtsCompletion w addr size r wr u s
  | .prgResponse h ctx va code => Sys2Proof.Machine.execPrgResponse h ctx va code s
  | .slowWaitExpired n idx => Sys2Proof.Machine.execSlowWaitExpired n idx s
  | .movingReread w => Sys2Proof.Machine.execMovingReread w s
  | .atsInvalidate h pasid itag base len2m => Sys2Proof.Machine.execAtsInvalidate h pasid itag base len2m s
  | .atsEnableCleared h => Sys2Proof.Machine.execAtsEnableCleared h s
  | .driftScan => Sys2Proof.Machine.execDriftScan s
  | .driftCopyDone mv => Sys2Proof.Machine.execDriftCopyDone mv s
  | .driftRelease mv => Sys2Proof.Machine.execDriftRelease mv s
  | .driftEnable v on => Sys2Proof.Machine.execDriftEnable v on s
  | .driftLandRelease v fa => Sys2Proof.Machine.execDriftLandRelease v fa s
  | .poolBackptr v page entry => Sys2Proof.Machine.execPoolBackptr v page entry s
  | .holeZeroed page => Sys2Proof.Machine.execHoleZeroed page s
  | .extActivate v e => Sys2Proof.Machine.execExtActivate v e s
  | .extRelease v e => Sys2Proof.Machine.execExtRelease v e s
  | .extentReleased e => Sys2Proof.Machine.execExtentReleased e s
  | .granuleZeroed e => Sys2Proof.Machine.execGranuleZeroed e s
  | .extGrants v e rec => Sys2Proof.Machine.execExtGrants v e rec s
  | .extRevoke v e g => Sys2Proof.Machine.execExtRevoke v e g s
  | .revocationComplete e g => Sys2Proof.Machine.execRevocationComplete e g s
  | .channelTimeout channel => Sys2Proof.Machine.execChannelTimeout channel s
  | .stackFail v s0 => Sys2Proof.Machine.execStackFail v s0 s
  | .rebuildStripe d => Sys2Proof.Machine.execRebuildStripe d s
  | .evacuateGranule d => Sys2Proof.Machine.execEvacuateGranule d s
  | .hostLinkUp h => Sys2Proof.Machine.execHostLinkUp h s
  | .hostLinkDown h => Sys2Proof.Machine.execHostLinkDown h s
  | .declareDead v h => Sys2Proof.Machine.execDeclareDead v h s
  | .revive v h => Sys2Proof.Machine.execRevive v h s
  | .clearRid v h rid => Sys2Proof.Machine.execClearRid v h rid s
  | .deadScanDone h => Sys2Proof.Machine.execDeadScanDone h s
  | .memRd h dpa m => Sys2Proof.Machine.execMemRd h dpa m s
  | .memWr h dpa m mask data => Sys2Proof.Machine.execMemWr h dpa m mask data s
  | .rwd h dpa data => Sys2Proof.Machine.execRwd h dpa data s
  | .m2sBirsp h dpa => Sys2Proof.Machine.execM2sBirsp h dpa s
  | .biTimeout h line => Sys2Proof.Machine.execBiTimeout h line s
  | .hostMemRead h rid htag pasid off len => Sys2Proof.Machine.execHostMemRead h rid htag pasid off len s
  | .hostMemWrite h rid pasid ro off data => Sys2Proof.Machine.execHostMemWrite h rid pasid ro off data s
  | .hostAtomicop h rid htag pasid off op width data => Sys2Proof.Machine.execHostAtomicop h rid htag pasid off op width data s
  | .hostRetryDeadline h id => Sys2Proof.Machine.execHostRetryDeadline h id s
  | .hostCompletion h htag c => Sys2Proof.Machine.execHostCompletion h htag c s
  | .hostCompletionTimeout h htag => Sys2Proof.Machine.execHostCompletionTimeout h htag s
  | .mailboxGo h g req ctl => Sys2Proof.Machine.execMailboxGo h g req ctl s
  | .lockInterfaceRequest h => Sys2Proof.Machine.execLockInterfaceRequest h s
  | .startInterfaceRequest h => Sys2Proof.Machine.execStartInterfaceRequest h s
  | .stopInterfaceRequest h => Sys2Proof.Machine.execStopInterfaceRequest h s
  | .getDeviceInterfaceReport h => Sys2Proof.Machine.execGetDeviceInterfaceReport h s
  | .getDeviceInterfaceState h => Sys2Proof.Machine.execGetDeviceInterfaceState h s
  | .ideIntegrityFail h stream => Sys2Proof.Machine.execIdeIntegrityFail h stream s
  | .doeRequest h len r => Sys2Proof.Machine.execDoeRequest h len r s
  | .ctxActivate v c clean nfa nval => Sys2Proof.Machine.execCtxActivate v c clean nfa nval s
  | .ctxStop v c nfa nval => Sys2Proof.Machine.execCtxStop v c nfa nval s
  | .ctxStateNotice home c st kgen clean => Sys2Proof.Machine.execCtxStateNotice home c st kgen clean s
  | .ctxStateAck from_ c => Sys2Proof.Machine.execCtxStateAck from_ c s
  | .keyGenerate v slot host owner => Sys2Proof.Machine.execKeyGenerate v slot host owner s
  | .keyDestroy v slot => Sys2Proof.Machine.execKeyDestroy v slot s
  | .bundleLoad v rec => Sys2Proof.Machine.execBundleLoad v rec s
  | .bundleChunk => Sys2Proof.Machine.execBundleChunk s
  | .colData adm t => Sys2Proof.Machine.execColData adm t s
  | .colSide adm t => Sys2Proof.Machine.execColSide adm t s
  | .colPart adm t => Sys2Proof.Machine.execColPart adm t s
  | .colCtlAbort adm t => Sys2Proof.Machine.execColCtlAbort adm t s
  | .colCtlCredit adm t => Sys2Proof.Machine.execColCtlCredit adm t s
  | .runStart i0 => Sys2Proof.Machine.execRunStart i0 s
  | .runPeriod i0 => Sys2Proof.Machine.execRunPeriod i0 s
  | .phaseDeadline i0 => Sys2Proof.Machine.execPhaseDeadline i0 s
  | .resultWriteResponse tag => Sys2Proof.Machine.execResultWriteResponse tag s
  | .opsSlushEntry v e => Sys2Proof.Machine.execOpsSlushEntry v e s
  | .mgtMsg adm t => Sys2Proof.Machine.execMgtMsg adm t s
  | .bundleKeyExpiry b => Sys2Proof.Machine.execBundleKeyExpiry b s
  | .priReset h => Sys2Proof.Machine.execPriReset h s
  | .railsOutOfTolerance rail => Sys2Proof.Machine.execRailsOutOfTolerance rail s
  | .vaneSessionsLapse sess => Sys2Proof.Machine.execVaneSessionsLapse sess s

end Sys2Proof.Machine
end

