-- ==== Sys2Proof/Machine/Tick.lean ====
section
/-! DEFINITION. The passing of one nanosecond (R134, R178, R244, R245, R254, R313; log 1). -/

namespace Sys2Proof.Machine
open Sys2Proof

/-- Rack time after one more nanosecond: held back (R254), or counted, with a slew of at most 5 ppm: one nanosecond in 200,000. -/
def RackTime.tick (r : RackTime) (clk : Nat) : RackTime :=
  if r.hold != 0 then { r with hold := r.hold - 1 }
  else if clk % 200000 == 0 && decide (0 < r.slew) && (r.now + 1) % 1024 != 0 then { r with now := r.now + 2, slew := r.slew - 1 }
  else if clk % 200000 == 0 && decide (r.slew < 0) then { r with slew := r.slew + 1 }
  else { r with now := r.now + 1 }
/-- Device time and rack time advance, and what waits in the package goes on; everything that happens at a time is a command of its own. A package in TRIP has stopped its clocks (R471). -/
def State.tick (s : State) : State := if s.thm.stage == .trip then s else (State.goOn { s with clk := s.clk + 1, rt := s.rt.tick s.clk }).hostRetry.cxlResume

end Sys2Proof.Machine
end

