-- ==== Sys2Proof/Safety.lean ====
section
/-! DEFINITION. What counts as a safe state and a safe outcome, and how a Vane write comes to its object, in the terms that the statements use. -/

namespace Sys2Proof
open Sys2Proof.Machine

/-- Pool memory is in its canonical form. -/
def MemSafe (s : State) : Prop := Memory.wf s.pool.mem = true
/-- The identity objects read as the factory wrote them (R408, CONST). -/
def ConstSafe (s : State) : Prop :=
  s.dev.uid = Config.uidLess1.toNat + 1 ∧ s.dev.variantLH = Config.variantLH ∧ s.dev.stepping = Config.stepping.toNat ∧
  s.dev.mac = Config.mac.toNat ∧ s.dev.vendorId = Config.vendorId.toNat
/-- `t` differs from `s` on the management side alone: sessions, epochs and counters, the event log and the outbox. -/
def MgmtOnly (s t : State) : Prop := ∃ v e o, t = { s with vane := v, evt := e, out := o }
/-- A frame comes to its object: the phase answers it, the session is served and within its rate, its view is PRV, and it repeats no kept SEQ. -/
structure Reaches (s : State) (sess : Nat) (f : VFrame) : Prop where
  awake : s.vaneOpen sess f = true
  served : s.answers sess = true
  inRate : s.rateOk sess = true
  prv : s.prvView sess = true
  unseen : s.keptOf sess f.seq = none
/-- The write of object `obj` with `payload` comes to its object. -/
def Write (s : State) (v : VCtx) (obj : Nat × Nat) (payload : Bytes) : Prop := Reaches s v.sess (writeFrame v obj.1 obj.2 payload)
/-- The last thing that the device put out is the response to the write, with this abort code. -/
def Answered (t : State) (v : VCtx) (abort : Nat) : Prop :=
  ∃ r, t.out.getLast? = some (.vane v.sess r) ∧ r.rsp = true ∧ r.op = 2 ∧ r.seq = v.seq ∧ r.abort = abort
/-- The device takes command `c`, answers the write that it is with abort 0x00, and is in `w` but for the management side. -/
def Accepts (c : Instr) (v : VCtx) (s w : State) : Prop := ∃ t, exec c s = .next t ∧ Answered t v 0 ∧ MgmtOnly w t
/-- The device takes command `c` and answers the write that it is with an abort code, with no effect but on the management side. -/
def Aborts (c : Instr) (v : VCtx) (s : State) (abort : Nat) : Prop := ∃ t, exec c s = .next t ∧ Answered t v abort ∧ MgmtOnly s t

/-- The device takes command `c` and is in `w` but for the management side. -/
def Does (c : Instr) (s w : State) : Prop := ∃ t, exec c s = .next t ∧ MgmtOnly w t

/-- In `t` the request `x` that the package issued in `s` for `who` is outstanding: under its node, the context's generation and a tag of the node. -/
def Issues (s t : State) (x : Txn) (who : Purpose) : Prop :=
  ∃ g, tfind t.reqs (s.poolNode * 1048576 + g) =
    some { t := { ownFa s.poolNode x with snode := s.poolNode, kgen := (s.ctx x.ctx).kgen, tag := g }, who := who, issuedAt := s.clk, timeout := s.reqTimeout }

/-- The same for a request that a requester at another node of the package issued. -/
def IssuesAs (s t : State) (n : Nat) (x : Txn) (who : Purpose) : Prop :=
  ∃ g, tfind t.reqs (n * 1048576 + g) =
    some { t := { ownFa n x with snode := n, kgen := (s.ctx x.ctx).kgen, tag := g }, who := who, issuedAt := s.clk, timeout := s.reqTimeout }

/-- Host port h has died: its directory scan begins, its back-invalidates and what the host has not answered are over, and no byte of the pool has changed. -/
def HostDies (s t : State) (h : Nat) : Prop :=
  (t.host h).st = .dead ∧ (t.host h).scanning = true ∧ (t.host h).snoops = [] ∧ (∀ b ∈ t.pool.backInvs, b.host ≠ h) ∧ t.pool.mem = s.pool.mem

/-- In `t` the last entry of a queue is `x`, which entered through admission point `a` now, behind what the queue held in `s`. -/
def Queued (s t : State) (q v : Nat) (x : Txn) (a : Nat) : Prop :=
  ∃ l e, t.queue q v = l ++ [e] ∧ l.map (fun y => y.t) = (s.queue q v).map (fun y => y.t) ∧ e.t = x ∧ e.adm = a ∧ e.since = s.clk

/-- Port p has gone down with a cause of Table 13-10: it trains anew from DETECT, idling first, and its log says so. -/
def GoesDown (s t : State) (p cause : Nat) : Prop :=
  (t.port p).st = .detect ∧ (t.port p).idling = true ∧ (t.port p).downCount = (s.port p).downCount + 1 ∧ (t.port p).downCause = cause ∧ (t.port p).downSlot = s.slot ∧
  (t.port p).downAt = s.clk ∧ (t.port p).retry = []

/-- What a package reset leaves (Table 15-8). -/
structure AfterPackageReset (s t : State) : Prop where
  /-- The built-in default returns, in SLUSH. -/
  slush : t.dev.phase = .slush ∧ t.tbl.stdState = .empty ∧ t.tbl.armSlot = 0 ∧ t.tbl.active = defaultImage s.dev.straps ∧ t.rt.quality = .unset
  /-- Rings, instances, queues, marks, caches, moves, windows and requests are gone, and host ports are as after reset but for their logs. -/
  engines : t.mov = State.reset.mov ∧ t.ops = State.reset.ops ∧ t.sw = State.reset.sw ∧ t.win = [] ∧ t.xl.cache = [] ∧ t.xl.walkers = [] ∧ t.xl.wds = [] ∧ t.absent = [] ∧
    (∀ h, t.host h = { State.reset.host h with refclk := (s.host h).refclk, errLog := (s.host h).errLog })
  /-- The pool's contents, extents and directory are gone, FAILED stacks and RETIRED dies stay. -/
  pool : t.pool.mem = [] ∧ t.pool.st = 0 ∧ t.pool.exts = [] ∧ t.pool.dir = [] ∧ t.pool.movesNow = [] ∧ (∀ k, (t.stack k).st = (s.stack k).st) ∧
    (∀ d, (s.die d).st = .retired → (t.die d).st = .retired) ∧ t.pool.log = s.pool.log
  /-- Key slots, bundle keys and SPDM sessions are gone. -/
  secrets : t.sec.keys = [] ∧ t.sec.bkeys = [] ∧ ∀ x ∈ t.vane.sessions, x.1 = 0
  /-- Straps, RWL objects, rack time's selection, the context table, the bindings, logs and converged values stay. -/
  keeps : t.dev.straps = s.dev.straps ∧ t.dev.label = s.dev.label ∧ t.tbl.signers = s.tbl.signers ∧ t.tbl.signerLock = s.tbl.signerLock ∧
    t.sec.brokers = s.sec.brokers ∧ t.sec.brokerLock = s.sec.brokerLock ∧ t.rt.source = s.rt.source ∧ t.rt.srcPort = s.rt.srcPort ∧
    t.rt.holdoverMax = s.rt.holdoverMax ∧ t.sec.ctxs = s.sec.ctxs ∧ t.xl.binds = s.xl.binds ∧ t.xl.xgen = s.xl.xgen ∧ t.xl.faultLog = s.xl.faultLog ∧
    (∀ p, (t.port p).downCount = (s.port p).downCount ∧ (t.port p).downCause = (s.port p).downCause ∧ (t.port p).downSlot = (s.port p).downSlot) ∧
    (∀ l, (t.lane l).conv = (s.lane l).conv ∧ (t.lane l).bases = (s.lane l).bases ∧ (t.lane l).bertBits = (s.lane l).bertBits ∧ (t.lane l).bertErrs = (s.lane l).bertErrs)

/-- The commands that may store to pool memory: a request performed at the home, a CXL.mem access (or what waits behind one), an access that a response sets free, a
hole's zeroing, an extent's activation, pool initialisation, a reset, a dictionary frame that can carry any of the last ones, and what can make a host port
DEAD or the package OFF, which lets the CXL.mem accesses that wait for that port go on (R327). -/
def mayStore : Instr → Bool
  | .lineQueueHead .. | .memRd .. | .memWr .. | .rwd .. | .biTimeout .. | .birsp .. | .data .. | .tag .. | .responseAtRequester | .requestTimeout ..
  | .coldReset | .railsOutOfTolerance .. | .warmReset .. | .packageReset .. | .poolInitDone | .holeZeroed .. | .extActivate ..
  | .read .. | .write .. | .describe .. | .mailboxGo ..
  | .hostLinkDown .. | .hpRefclkLost .. | .declareDead .. | .drainEnd .. | .powerOffAfterExpired .. | .tjSample .. => true
  | _ => false

end Sys2Proof
end

