-- ==== Sys2Proof/WellFormed.lean ====
section
/-! DEFINITION. Which commands are well formed: every operand lies in the range that the spec gives it (256 ports, 1,024 lanes, 65,536 rings,
8 host ports, 65,536 contexts, 1,024 extents, 24 stacks, 256 tiles, 4,096 instances; field widths of the tables). -/

namespace Sys2Proof

def portOk (p : Nat) : Bool := decide (p < 256)
def laneOk (l : Nat) : Bool := decide (l < 1024)
def ringOk (n : Nat) : Bool := decide (n < 65536)
def hostOk (h : Nat) : Bool := decide (h < 8)
def ctxOk (c : Nat) : Bool := decide (c < 65536)
def extOk (e : Nat) : Bool := decide (e < 1024)
def nodeOk (n : Nat) : Bool := decide (n < 4096)
def tagOk (t : Nat) : Bool := decide (t < 1048576)
def admOk (a : Nat) : Bool := decide (a < 266)
def w8 (x : Nat) : Bool := decide (x < 2 ^ 8)
def w16 (x : Nat) : Bool := decide (x < 2 ^ 16)
def w32 (x : Nat) : Bool := decide (x < 2 ^ 32)
def w64 (x : Nat) : Bool := decide (x < 2 ^ 64)
/-- A frame's fields have the widths of Table 14-4. -/
def VFrame.ok (f : VFrame) : Bool := decide (f.ver < 16) && decide (f.op < 8) && w16 f.seq && w16 f.index && w8 f.sub && w8 f.abort && w32 f.epoch && w32 f.offset && w16 f.len
def VCtx.ok (v : VCtx) : Bool := w16 v.seq && w32 v.epoch
def EUnit.ok : EUnit → Bool
  | .device => true | .ring n => ringOk n | .ctx c => ctxOk c | .key k => decide (k < 4096) | .port p => portOk p | .stack s => decide (s < 24)
  | .ext e => extOk e | .rackTime => true | .bank => true | .host h => hostOk h
/-- A transaction's fields have the widths of Tables 5-2, 5-4 and 8-7. -/
def Txn.ok (t : Txn) : Bool :=
  decide (t.akind < 4) && decide (t.size < 64) && nodeOk t.snode && decide (t.kgen < 16) && ctxOk t.ctx && tagOk t.tag && decide (t.flow < 8) &&
  decide (t.addr < 2 ^ 57) && decide (t.status < 16) && decide (t.dslots < 16) && nodeOk t.dnode && nodeOk t.hnode && nodeOk t.tnode &&
  decide (t.fmt < 16) && nodeOk t.inst && decide (t.phase < 16) && w32 t.eoff && nodeOk t.contrib && w8 t.xb && nodeOk t.lnode && decide (t.data.length ≤ 64)
def TrainRec.ok (r : TrainRec) : Bool := w16 r.nonce && w16 r.echo && decide (r.role < 4) && w8 r.rates
def CapFrame.ok (f : CapFrame) : Bool := w8 f.cfver && decide (f.kind < 8) && decide (f.status < 4) && w16 f.cseq && w16 f.echo && nodeOk f.node && w64 f.uid
def TimeRec.ok (r : TimeRec) : Bool := w64 r.txTime && w64 r.echo && w32 r.turn && decide (r.quality < 16) && decide (r.stratum < 16) && decide (r.err < 2 ^ 24)
def Flit.ok (f : Flit) : Bool := decide (f.body.length = 56) && decide (f.chk < 2 ^ 48)
def Frag.ok (f : Frag) : Bool := decide (f.body.length ≤ 56)

/-- The operands of a command lie in their ranges. -/
def Instr.wellFormed : Instr → Bool
  | .read _ f => f.ok
  | .write _ f => f.ok
  | .describe _ f => f.ok
  | .epochRecordWrite v u => v.ok && u.ok
  | .segmentTimeout _ i sub => w16 i && w8 sub
  | .settleTimeout u => u.ok
  | .mctpAssemblyTimeout t => decide (t < 8)
  | .arpRequest ip => w32 ip
  | .neighbourSolicitation ip => decide (ip < 2 ^ 128)
  | .icmpEcho v6 ip _ => if v6 then decide (ip < 2 ^ 128) else w32 ip
  | .spdmRequest _ _ => true
  | .bkeyDeliver _ _ len => w16 len
  | .coldReset => true
  | .coldResetRelease _ => true
  | .strapSample l => decide (l.length = 16)
  | .firmwareAuthenticated _ _ => true
  | .warmReset _ _ => true
  | .packageReset v => v.ok
  | .drain v => v.ok
  | .drainEnd => true
  | .roleStrapChanged _ => true
  | .powerWarnNAsserted _ => true
  | .powerOffAfterExpired => true
  | .hbmTrainingDone l => l.all (fun k => decide (k < 24))
  | .poolInitDone => true
  | .thmFlowWrite v f => v.ok && w16 f
  | .flowStale => true
  | .tjSample d k => decide (d.length = 80) && decide (k.length = 24)
  | .flowLowExpired => true
  | .stageHoldExpired => true
  | .thermalTrip _ => true
  | .sramUe t _ => w8 t
  | .hpRefclkLost h => hostOk h
  | .refclkLost => true
  | .refclkPresent => true
  | .epochPulse _ => true
  | .epochPulseMissing => true
  | .rtSet v e => v.ok && w64 e
  | .rtSource v x => v.ok && w8 x
  | .rtSrcPort v p => v.ok && w16 p
  | .time p r => portOk p && r.ok
  | .timeRecordMissing => true
  | .epochStart => true
  | .holdoverLimit => true
  | .rtResumeSlot v x => v.ok && w64 x
  | .scheduledResume => true
  | .tblImage v o _ d => v.ok && w32 o && decide (d.length < 2 ^ 16)
  | .imageCheckDone => true
  | .tblArm v x y => v.ok && w64 x && w64 y
  | .tblCancel v x => v.ok && w64 x
  | .switchOver => true
  | .bankRetired => true
  | .telemetrySnapshot => true
  | .eyeScanWindow k => w8 k
  | .bitErrorWindow k => w8 k
  | .bitErrorWindowEnd p l _ _ => portOk p && decide (l < 4)
  | .scrubWindow k _ _ => w8 k
  | .portEnable v p _ => v.ok && portOk p
  | .portCtlRetrain v p => v.ok && portOk p
  | .portTest v p => v.ok && portOk p
  | .rewiden v p => v.ok && portOk p
  | .laneSlip v l => v.ok && laneOk l
  | .laneScan v l => v.ok && laneOk l
  | .rebase v l => v.ok && laneOk l
  | .eyeScanComplete l e _ _ _ errs => laneOk l && decide (e < 3) && decide (errs.length = 4096)
  | .signalDetected p m => portOk p && decide (m < 16)
  | .laneLock l _ _ => laneOk l
  | .deskew p o _ => portOk p && o.all (fun x => decide (x < 4))
  | .train p r => portOk p && r.ok
  | .trainRepeat p => portOk p
  | .equaliseConverged p c => portOk p && w64 c
  | .verifyEnd p bers _ => portOk p && decide (bers.length = 4)
  | .trainingTimeout p => portOk p
  | .cap p f => portOk p && f.ok
  | .capRepeat p => portOk p
  | .joiningWaitEnd p => portOk p
  | .spdm p f => portOk p && f.ok
  | .spdmAck p m => portOk p && w8 m
  | .spdmRepeat p => portOk p
  | .data p f => portOk p && f.ok
  | .idle p f => portOk p && f.ok
  | .tag p f => portOk p && f.ok
  | .nakRepeat p => portOk p
  | .replayTimeout p => portOk p
  | .ackTimeout p => portOk p
  | .creditRefresh p vc => portOk p && decide (vc < 10)
  | .keyUpdate p => portOk p
  | .laneFault l _ => laneOk l
  | .serWindow l b => laneOk l && w32 b
  | .narrow p m _ _ => portOk p && decide (m < 16)
  | .narrowRepeat p => portOk p
  | .narrowSwitch p => portOk p
  | .narrowTimeout p => portOk p
  | .signalLost p _ => portOk p
  | .downIdleEnd p => portOk p
  | .retrain p => portOk p
  | .diagStart p m _ => portOk p && decide (m < 16)
  | .diagAck p m => portOk p && decide (m < 16)
  | .diagAckTimeout p => portOk p
  | .diagStop p => portOk p
  | .diagResult p l _ _ => portOk p && decide (l < 4)
  | .diagResultRepeat p => portOk p
  | .diagResultTimeout p l => portOk p && decide (l < 4)
  | .testEnd p l => portOk p && decide (l.length = 4)
  | .rd a t => admOk a && t.ok
  | .wr a t => admOk a && t.ok
  | .atom a t => admOk a && t.ok
  | .resync a t => admOk a && t.ok
  | .bisnp a t => admOk a && t.ok
  | .rspData a t => admOk a && t.ok
  | .rspAtom a t => admOk a && t.ok
  | .rspDone a t => admOk a && t.ok
  | .birsp a t => admOk a && t.ok
  | .queueHead e v => decide (e < 265) && decide (v < 10)
  | .meltSweep => true
  | .portTransmit p => portOk p
  | .repinWindowEnd => true
  | .accHoldExpired e v => decide (e < 265) && (decide (v < 10) || (e == 256 && w8 v))
  | .accretionTimeout t => tagOk t
  | .accEnable v _ => v.ok
  | .lineQueueHead t _ => w8 t
  | .nodeLeave a t => admOk a && t.ok
  | .responseAtRequester => true
  | .requestTimeout n t => nodeOk n && tagOk t
  | .resyncIssue n c f d => nodeOk n.node && ctxOk c && decide (f < 8) && nodeOk d
  | .fence n _ => nodeOk n
  | .farunIssue n _ t => nodeOk n && t.txn.ok
  | .ringEnable v n c => v.ok && ringOk n && decide (c < 2 ^ 256)
  | .ringDisable v n c => v.ok && ringOk n && decide (c < 2 ^ 256)
  | .ringConfigure v n c => v.ok && ringOk n && decide (c < 2 ^ 256)
  | .restart v n x => v.ok && ringOk n && w32 x
  | .tail n x w => ringOk n && w64 x && w8 w
  | .cmplHead n x w => ringOk n && w64 x && w8 w
  | .nop n => ringOk n
  | .copy n => ringOk n
  | .fill n => ringOk n
  | .atomic n => ringOk n
  | .opLaunch n => ringOk n
  | .engineTileStart t => w8 t
  | .moverLineResponse t => tagOk t
  | .moverRetry t => tagOk t
  | .descriptorSignal n => ringOk n
  | .completionRecord n => ringOk n
  | .notificationVector n => ringOk n
  | .ringDrainEnd n => ringOk n
  | .ctxBind v c r => v.ok && ctxOk c && decide (r < 2 ^ 128)
  | .withdrawContext v r => v.ok && decide (r < 2 ^ 320)
  | .withdrawFa v r => v.ok && decide (r < 2 ^ 320)
  | .withdrawalNotice h i _ c _ _ x _ => nodeOk h && w32 i && ctxOk c && w32 x
  | .doneNoticeSend h i => nodeOk h && w32 i
  | .doneNotice n i => nodeOk n && w32 i
  | .withdrawalTimeout i => w32 i
  | .notifyStoreResponse t => tagOk t
  | .walkStart w => decide (w < 128)
  | .walkEntryRead t => tagOk t
  | .walkTimeout w => decide (w < 128)
  | .holdExpired t => decide (t < 266)
  | .atsCompletion w a _ _ _ _ => decide (w < 128) && w64 a
  | .prgResponse h c va code => hostOk h && ctxOk c && w64 va && decide (code < 16)
  | .slowWaitExpired n i => ringOk n && w32 i
  | .movingReread w => decide (w < 128)
  | .atsInvalidate h p i b _ => hostOk h && decide (p < 2 ^ 20) && decide (i < 32) && w64 b
  | .atsEnableCleared h => hostOk h
  | .driftScan => true
  | .driftCopyDone _ => true
  | .driftRelease _ => true
  | .driftEnable v _ => v.ok
  | .driftLandRelease v fa => v.ok && w64 fa
  | .poolBackptr v p e => v.ok && w64 p && w64 e
  | .holeZeroed _ => true
  | .extActivate v e => v.ok && extOk e
  | .extRelease v e => v.ok && extOk e
  | .extentReleased e => extOk e
  | .granuleZeroed e => extOk e
  | .extGrants v e r => v.ok && extOk e && decide (r < 2 ^ 256)
  | .extRevoke v e g => v.ok && extOk e && decide (g < 8)
  | .revocationComplete e g => extOk e && decide (g < 8)
  | .channelTimeout c => decide (c < 768)
  | .stackFail v k => v.ok && decide (k < 24)
  | .rebuildStripe d => decide (d < 4)
  | .evacuateGranule d => decide (d < 4)
  | .hostLinkUp h => hostOk h
  | .hostLinkDown h => hostOk h
  | .declareDead v h => v.ok && hostOk h
  | .revive v h => v.ok && hostOk h
  | .clearRid v h r => v.ok && hostOk h && w16 r
  | .deadScanDone h => hostOk h
  | .memRd h d _ => hostOk h && decide (d % 64 = 0)
  | .memWr h d _ m b => hostOk h && decide (d % 64 = 0) && w64 m && decide (b.length = 64)
  | .rwd h d b => hostOk h && decide (d % 64 = 0) && decide (b.length = 64)
  | .m2sBirsp h d => hostOk h && decide (d % 64 = 0)
  | .biTimeout h _ => hostOk h
  | .hostMemRead h r _ _ _ n => hostOk h && w16 r && decide (n ≤ 4096)
  | .hostMemWrite h r _ _ _ b => hostOk h && w16 r && decide (b.length ≤ 4096)
  | .hostAtomicop h r _ _ _ _ w b => hostOk h && w16 r && (w == 4 || w == 8 || w == 16) && decide (b.length ≤ 32)
  | .hostRetryDeadline h _ => hostOk h
  | .hostCompletion h _ _ => hostOk h
  | .hostCompletionTimeout h _ => hostOk h
  | .mailboxGo h g r c => hostOk h && decide (g < 4096) && decide (r.length ≤ 2048) && w32 c
  | .lockInterfaceRequest h => hostOk h
  | .startInterfaceRequest h => hostOk h
  | .stopInterfaceRequest h => hostOk h
  | .getDeviceInterfaceReport h => hostOk h
  | .getDeviceInterfaceState h => hostOk h
  | .ideIntegrityFail h _ => hostOk h
  | .doeRequest h _ _ => hostOk h
  | .ctxActivate v c _ a b => v.ok && ctxOk c && w64 a && w64 b
  | .ctxStop v c a b => v.ok && ctxOk c && w64 a && w64 b
  | .ctxStateNotice h c st k _ => nodeOk h && ctxOk c && decide (st < 5) && decide (k < 16)
  | .ctxStateAck n c => nodeOk n && ctxOk c
  | .keyGenerate v k _ o => v.ok && decide (k < 4096) && ctxOk o
  | .keyDestroy v k => v.ok && decide (k < 4096)
  | .bundleLoad v r => v.ok && decide (r < 2 ^ 320)
  | .bundleChunk => true
  | .colData a t => admOk a && t.ok
  | .colSide a t => admOk a && t.ok
  | .colPart a t => admOk a && t.ok
  | .colCtlAbort a t => admOk a && t.ok
  | .colCtlCredit a t => admOk a && t.ok
  | .runStart i => nodeOk i
  | .runPeriod i => nodeOk i
  | .phaseDeadline i => nodeOk i
  | .resultWriteResponse t => tagOk t
  | .opsSlushEntry v _ => v.ok
  | .mgtMsg a t => admOk a && t.ok
  | .bundleKeyExpiry b => decide (b < 64)
  | .priReset h => hostOk h
  | .railsOutOfTolerance _ => true
  | .vaneSessionsLapse _ => true

end Sys2Proof
end

