-- ==== Sys2Proof/Certificates/Slice0/Obligations.lean ====
section
/-! DEFINITION. The statements for the provers, chapter by chapter. Where a statement rests on a choice of the model and not on a rule,
its docstring names the log entry. -/

open Sys2Proof Sys2Proof.Machine

-- The machine as a whole

/-- A step runs the command at the front of the queue, on the queue's rest. -/
def Obligations.StepRunsFront : Prop :=
  ∀ (c : Instr) (q : List Instr) (s : State), s.pending = c :: q → step s = exec c { s with pending := q }

/-- With no command waiting one nanosecond passes (model's choice, log 1): device time and rack time count, rack time plainly while it is
neither held nor slewed, and nothing else changes while nothing in the package waits to go on; in TRIP the clocks stand. -/
def Obligations.EmptyQueuePassesTime : Prop :=
  (∀ s : State, s.pending = [] → s.thm.stage ≠ .trip → s.settled = true → (∀ q ∈ s.hp, ∀ a ∈ q.2.accs, a.kind < 4) → ∃ r, step s = .next { s with clk := s.clk + 1, rt := r } ∧
    (s.rt.hold = 0 → s.rt.slew = 0 → r = { s.rt with now := s.rt.now + 1 })) ∧
  (∀ s : State, s.pending = [] → s.thm.stage = .trip → step s = .next s)

/-- What a cold reset leaves: phase COLD, rack time UNSET from the pins, the standby bank EMPTY and no image but the built-in default,
the pool INITIALISING with no byte written, every ring DISABLED, every extent UNUSED, every key slot EMPTY, every context FREE but context 0,
every operator instance IDLE, the thermal stage NORMAL and no event. -/
def Obligations.ResetValues : Prop :=
  State.reset.dev.phase = .cold ∧ State.reset.rt.quality = .unset ∧ State.reset.rt.source = 0 ∧ State.reset.tbl.stdState = .empty ∧
  State.reset.tbl.active.version = 0 ∧ State.reset.pool.st = 0 ∧ State.reset.pool.mem = [] ∧ (∀ n, (State.reset.ring n).st = .disabled) ∧
  (∀ e, (State.reset.ext e).st = .unused) ∧ (∀ k, (State.reset.key k).loaded = false) ∧ (State.reset.ctx 0).st = .active ∧
  (∀ c, c ≠ 0 → (State.reset.ctx c).st = .free) ∧ (∀ i, (State.reset.inst i).st = .idle) ∧ State.reset.thm.stage = .normal ∧
  State.reset.evt.log = [] ∧ State.reset.pending = []

/-- The state after reset meets the two invariants below. -/
def Obligations.ResetMeetsInvariants : Prop :=
  MemSafe State.reset ∧ ConstSafe State.reset

/-- Every step keeps pool memory in its canonical form. -/
def Obligations.StepKeepsMemory : Prop :=
  ∀ s t : State, MemSafe s → step s = .next t → MemSafe t

/-- Every step, resets among them, leaves the CONST objects of Table 14-3 at their factory values. -/
def Obligations.StepKeepsConst : Prop :=
  ∀ s t : State, ConstSafe s → step s = .next t → ConstSafe t

/-- No command touches the queue of the commands behind it. -/
def Obligations.ExecKeepsQueue : Prop :=
  ∀ (c : Instr) (s t : State), exec c s = .next t → t.pending = s.pending

/-- Every command has its effect in every state of a device whose factory-test mode is off. -/
def Obligations.EveryCommandCompletes : Prop :=
  ∀ (c : Instr) (s : State), s.dev.factoryTest = 0 → ∃ t, exec c s = .next t

/-- Every byte of pool memory is as before after a command that stores nothing to the pool. -/
def Obligations.OtherCommandsKeepMemory : Prop :=
  ∀ (c : Instr) (s t : State), mayStore c = false → exec c s = .next t → ∀ a, memGet t.pool.mem a = memGet s.pool.mem a

-- The object dictionary and Vane

/-- A frame's bytes, header and payload, decode to the frame, with every field at every value its width admits (the reserved fields at zero). -/
def Obligations.FrameRoundTrip : Prop :=
  ∀ f : VFrame, f.ver < 16 → f.op < 8 → f.rsvd = 0 → f.seq < 2 ^ 16 → f.index < 2 ^ 16 → f.sub < 2 ^ 8 → f.abort < 2 ^ 8 → f.epoch < 2 ^ 32 →
    f.offset < 2 ^ 32 → f.len < 2 ^ 16 → frameOf (VFrame.bytes f) = f

/-- A READ of a readable object that is no DOMAIN and is not measured anew returns its value, and changes nothing else.
A DESCRIBE of an object returns 64 bytes and changes nothing else. -/
def Obligations.ReadAndDescribe : Prop :=
  (∀ (s : State) (sess : Nat) (f : VFrame) (r : ObjRow) (k : Nat), Reaches s sess f → f.op = 1 → malformedReq f (s.frameMax sess) = false →
    factoryIndex f.index = false → objAt f.index f.sub = some (r, k) → r.acc ≠ .wo → r.ty.isDomain = false → f.index ≠ 0x9000 →
    ∃ t q, exec (.read sess f) s = .next t ∧ MgmtOnly s t ∧ t.out.getLast? = some (.vane sess q) ∧ q.abort = 0 ∧ q.seq = f.seq ∧ q.rsp = true ∧
      q.payload = r.read sess k (s.countDatagram sess)) ∧
  (∀ (s : State) (sess : Nat) (f : VFrame) (r : ObjRow) (k : Nat), Reaches s sess f → f.op = 3 → malformedReq f (s.frameMax sess) = false →
    factoryIndex f.index = false → objAt f.index f.sub = some (r, k) →
    ∃ t q, exec (.describe sess f) s = .next t ∧ MgmtOnly s t ∧ t.out.getLast? = some (.vane sess q) ∧ q.abort = 0 ∧ q.seq = f.seq ∧ q.rsp = true ∧
      q.payload.length = 64 ∧ q.len = 64)

/-- A WRITE of an object that may be written takes effect where the object takes its value, and is answered with abort 0x00. -/
def Obligations.WriteTakesEffect : Prop :=
  ∀ (s w : State) (sess : Nat) (f : VFrame) (r : ObjRow) (k : Nat), Reaches s sess f → f.op = 2 → malformedReq f (s.frameMax sess) = false →
    factoryIndex f.index = false → objAt f.index f.sub = some (r, k) → r.acc ≠ .const → r.acc ≠ .ro → r.locked (s.countDatagram sess) = false →
    r.ty.isDomain = false → f.payload.length = r.ty.len → r.inRange f.payload = true →
    (∀ u, unitOf f = some u → (s.epochRec u).epoch = f.epoch) → r.write sess k f.payload (s.countDatagram sess) = .ok w →
    ∃ t q, exec (.write sess f) s = .next t ∧ MgmtOnly w t ∧ t.out.getLast? = some (.vane sess q) ∧ q.abort = 0 ∧ q.seq = f.seq ∧ q.rsp = true

/-- A write of an object that does not exist, that is read-only, of a wrong length or out of range has no effect but its abort code.
A write of indices 0xF000 to 0xFFFF outside factory test is answered with REFUSED and has no other effect. -/
def Obligations.BadWriteHasNoEffect : Prop :=
  (∀ (s : State) (sess : Nat) (f : VFrame), Reaches s sess f → f.op = 2 → malformedReq f (s.frameMax sess) = false → factoryIndex f.index = false →
    (∀ a, (objAt f.index f.sub = none ∧ a = abortNoObject) ∨
        (∃ r k, objAt f.index f.sub = some (r, k) ∧ (r.acc = .const ∨ r.acc = .ro) ∧ a = abortReadOnly) ∨
        (∃ r k, objAt f.index f.sub = some (r, k) ∧ r.acc ≠ .const ∧ r.acc ≠ .ro ∧ r.locked (s.countDatagram sess) = false ∧
          r.ty.isDomain = false ∧ f.payload.length ≠ r.ty.len ∧ a = abortLength) ∨
        (∃ r k, objAt f.index f.sub = some (r, k) ∧ r.acc ≠ .const ∧ r.acc ≠ .ro ∧ r.locked (s.countDatagram sess) = false ∧
          r.ty.isDomain = false ∧ f.payload.length = r.ty.len ∧ (∀ u, unitOf f = some u → (s.epochRec u).epoch = f.epoch) ∧
          r.inRange f.payload = false ∧ a = abortRange) →
      ∃ t q, exec (.write sess f) s = .next t ∧ MgmtOnly s t ∧ t.out.getLast? = some (.vane sess q) ∧ q.abort = a ∧ q.seq = f.seq ∧ q.rsp = true)) ∧
  (∀ (s : State) (sess : Nat) (f : VFrame), Reaches s sess f → f.op = 2 → malformedReq f (s.frameMax sess) = false → 0xF000 ≤ f.index → f.index < 0x10000 →
    s.dev.factoryTest = 0 →
    ∃ t q, exec (.write sess f) s = .next t ∧ MgmtOnly s t ∧ t.out.getLast? = some (.vane sess q) ∧ q.abort = 0x0A ∧ q.seq = f.seq ∧ q.rsp = true)

/-- A write that carries another epoch than its unit's is answered with STALE and changes nothing else. -/
def Obligations.StaleWriteHasNoEffect : Prop :=
  ∀ (s : State) (v : VCtx),
    (∀ u, Write s v u.obj (s.epochBytes u) → (s.epochRec u).epoch ≠ v.epoch → Aborts (.epochRecordWrite v u) v s 0x08) ∧
    (∀ e, Write s v (0x7000, 3) (leBytes 8 e) → (s.epochRec .rackTime).epoch ≠ v.epoch → Aborts (.rtSet v e) v s 0x08) ∧
    (∀ x y, Write s v (0x7100, 4) (leBytes 8 x ++ leBytes 8 y) → (s.epochRec .bank).epoch ≠ v.epoch → Aborts (.tblArm v x y) v s 0x08) ∧
    (∀ p on, Write s v (portObj p, 1) (leBytes 1 (boolNat on)) → (s.epochRec (.port p)).epoch ≠ v.epoch → Aborts (.portEnable v p on) v s 0x08) ∧
    (∀ n c, Write s v (ringCfgObj n) (leBytes 32 (c / 2 * 2 + 1)) → (s.epochRec (.ring n)).epoch ≠ v.epoch → Aborts (.ringEnable v n c) v s 0x08) ∧
    (∀ c cl a b, Write s v ctxCtlObj (ctxCtlBytes 1 c cl a b) → (s.epochRec (.ctx c)).epoch ≠ v.epoch → Aborts (.ctxActivate v c cl a b) v s 0x08) ∧
    (∀ k h o, Write s v keyCtlObj (keyCtlBytes 1 k h o) → (s.epochRec (.key k)).epoch ≠ v.epoch → Aborts (.keyGenerate v k h o) v s 0x08) ∧
    (∀ e, Write s v (extObj e 9) (leBytes 1 1) → (s.epochRec (.ext e)).epoch ≠ v.epoch → Aborts (.extActivate v e) v s 0x08) ∧
    (∀ k, Write s v (0x4100 + k, 4) (leBytes 1 1) → (s.epochRec (.stack k)).epoch ≠ v.epoch → Aborts (.stackFail v k) v s 0x08) ∧
    (∀ h, Write s v (hpCtlObj h) (leBytes 8 1) → (s.epochRec (.host h)).epoch ≠ v.epoch → Aborts (.declareDead v h) v s 0x08)

/-- A write of a unit's epoch record with its current EPOCH makes the managed state the data-path state, clears DISAGREE and raises the epoch, and changes
the data path nowhere: the record as read, and any 16 bytes in a frame of the dictionary, whose content is ignored; a payload of another length is refused for it. -/
def Obligations.EpochRecordWriteSettles : Prop :=
  (∀ (s : State) (v : VCtx) (u : EUnit), Write s v u.obj (s.epochBytes u) → (s.epochRec u).epoch = v.epoch →
    ∃ t, exec (.epochRecordWrite v u) s = .next t ∧ Answered t v 0 ∧ MgmtOnly s t ∧ (t.epochRec u).mg = some (s.dpState u) ∧
      (t.epochRec u).disagree = false ∧ (t.epochRec u).epoch = (v.epoch + 1) % 2 ^ 32) ∧
  (∀ (s : State) (sess : Nat) (f : VFrame) (u : EUnit), u.ok = true → f.index = u.obj.1 → f.sub = u.obj.2 → Reaches s sess f → f.op = 2 →
    malformedReq f (s.frameMax sess) = false → (s.epochRec u).epoch = f.epoch →
    (f.payload.length = 16 → ∃ t q, exec (.write sess f) s = .next t ∧ MgmtOnly s t ∧ t.out.getLast? = some (.vane sess q) ∧ q.abort = 0 ∧ q.seq = f.seq ∧
      q.rsp = true ∧ (t.epochRec u).mg = some (s.dpState u) ∧ (t.epochRec u).disagree = false) ∧
    (f.payload.length ≠ 16 → ∃ t q, exec (.write sess f) s = .next t ∧ MgmtOnly s t ∧ t.out.getLast? = some (.vane sess q) ∧ q.abort = abortLength ∧ q.seq = f.seq ∧
      q.rsp = true))

/-- A repeated request is answered with the response kept for it and is not performed again; another request under a kept SEQ is answered with
SEQ_CONFLICT.
A frame of no open session is dropped and counted; on clear I3C, once an administrator slot holds a key, a request is answered with AUTH. -/
def Obligations.SessionRules : Prop :=
  (∀ (s : State) (sess : Nat) (f : VFrame) (kp : Kept), s.vaneOpen sess f = true → s.answers sess = true → s.rateOk sess = true →
    s.prvView sess = true → malformedReq f (s.frameMax sess) = false → s.keptOf sess f.seq = some kp →
    (kp.req = f → ∃ t, exec (.write sess f) s = .next t ∧ MgmtOnly s t ∧ t.out = s.out ++ [.vane sess kp.rsp]) ∧
    (kp.req ≠ f → objectAbort f (s.countDatagram sess) = none →
      ∃ t q, exec (.write sess f) s = .next t ∧ MgmtOnly s t ∧ t.out.getLast? = some (.vane sess q) ∧ q.abort = 0x0D ∧ q.seq = f.seq ∧ q.rsp = true)) ∧
  ((∀ (s : State) (sess : Nat) (f : VFrame), s.vaneOpen sess f = true → s.answers sess = false →
    exec (.write sess f) s = .next { s with vane := { s.vane with rxDropped := s.vane.rxDropped + 1 } }) ∧
  (∀ (s : State) (f : VFrame), s.vaneOpen 0 f = true → s.prvView 0 = false → malformedReq f (s.frameMax 0) = false →
    ∃ t q, exec (.write 0 f) s = .next t ∧ MgmtOnly s t ∧ t.out.getLast? = some (.vane 0 q) ∧ q.abort = 0x0C ∧ q.seq = f.seq ∧ q.rsp = true))

/-- The timeouts of the dictionary: a DOMAIN transfer is abandoned after `VANE.SEG_TIMEOUT` (ms) without a segment, a unit that has not settled
within `VANE.SETTLE` (ms) disagrees, a partial MCTP message is discarded and counted.
Outside COLD, STRAP, OFF and TRIP the management port answers ARP, Neighbour Discovery and echo for its own addresses, and nothing else changes. -/
def Obligations.TransportEvents : Prop :=
  ((∀ (s : State) (x : Transfer) (l : List Transfer), s.vane.transfers = x :: l → x.at_ + s.vane.segTimeout * 1000000 ≤ s.clk →
    ∃ l', exec (.segmentTimeout x.sess x.index x.sub) s = .next { s with vane := { s.vane with transfers := { x with abandoned := true } :: l' } } ∧
      l'.length = l.length) ∧
  (∀ (s : State) (u : EUnit), (s.epochRec u).since ≠ 0 → (s.epochRec u).since + s.vane.settle * 1000000 ≤ s.clk → s.dpState u ≠ s.mgState u →
    (s.epochRec u).disagree = false → ∃ t, exec (.settleTimeout u) s = .next t ∧ MgmtOnly s t ∧ (t.epochRec u).disagree = true) ∧
  (∀ (s : State) (g : Nat), s.dev.phase ≠ .cold → exec (.mctpAssemblyTimeout g) s =
    .next { s with vane := { s.vane with mctp := terase s.vane.mctp g, rxDropped := s.vane.rxDropped + 1 } })) ∧
  (∀ s : State, s.netOpen = true →
    (s.vane.ipv4 ≠ 0 → exec (.arpRequest s.vane.ipv4) s = .next (s.emit (.arp s.vane.ipv4))) ∧
    (s.vane.ipv6 ≠ 0 → exec (.neighbourSolicitation s.vane.ipv6) s = .next (s.emit (.neighbour s.vane.ipv6))) ∧
    (∀ p, s.vane.ipv4 ≠ 0 → exec (.icmpEcho false s.vane.ipv4 p) s = .next (s.emit (.icmp false s.vane.ipv4 p))))

/-- The SPDM responder: VERSION 1.3, an END_SESSION that closes the session with its subscriptions, kept responses and transfers; a bundle key
delivered in a mutually authenticated broker's session is kept in its free slot, and answered 1 where the slot is in use, 2 where its context is not ACTIVE and 3 where its record
is malformed. Codes: log 27. A session also lapses when it is no longer kept alive. -/
def Obligations.SpdmSessions : Prop :=
  (∀ (s : State) (ch : SpdmChan), s.spdmOpen ch = true → exec (.spdmRequest ch .getVersion) s = .next (s.emit (.spdm ch 0x04 [0x13]))) ∧
  (∀ (s : State) (ch : SpdmChan) (i : Nat), s.spdmOpen ch = true → (∀ p, ch ≠ .link p) → s.sessionOn ch i = true → (s.session i).established = true →
    exec (.spdmRequest ch (.endSession i)) s = .next ({ s with vane := { s.vane with
      sessions := terase s.vane.sessions i, transfers := s.vane.transfers.filter (fun x => x.sess != i) } }.emit (.spdm ch 0x6C [i]))) ∧
  (∀ (s : State) (i p n : Nat), i ≠ 0 → s.spdmOpen (s.session i).chan = true → s.answers i = true → s.brokerSession i = true →
    (n = 56 → field p 0 8 = 1 → field p 8 8 < 64 → field p 36 28 = 0 →
      ((tget {} s.sec.bkeys (field p 8 8)).used = false → (s.ctx (field p 16 16)).st = .active → (s.ctx (field p 16 16)).kgen = field p 32 4 →
        exec (.bkeyDeliver i p n) s = .next ({ s with sec := { s.sec with bkeys := tset s.sec.bkeys (field p 8 8) {
          used := true, ctx := field p 16 16, kgen := field p 32 4, bundle := field p 64 64, key := field p 128 256, expiry := field p 384 64 } } }.emit
            (.spdm (s.session i).chan 0x7E [0]))) ∧
      ((tget {} s.sec.bkeys (field p 8 8)).used = true → exec (.bkeyDeliver i p n) s = .next (s.emit (.spdm (s.session i).chan 0x7E [1]))) ∧
      ((tget {} s.sec.bkeys (field p 8 8)).used = false → (s.ctx (field p 16 16)).st ≠ .active → exec (.bkeyDeliver i p n) s = .next (s.emit (.spdm (s.session i).chan 0x7E [2])))) ∧
    (n ≠ 56 ∨ field p 0 8 ≠ 1 ∨ 64 ≤ field p 8 8 ∨ field p 36 28 ≠ 0 → exec (.bkeyDeliver i p n) s = .next (s.emit (.spdm (s.session i).chan 0x7E [3])))) ∧
  (∀ (s : State) (i : Nat), i ≠ 0 → exec (.vaneSessionsLapse i) s = .next { s with vane := { s.vane with
      sessions := terase s.vane.sessions i, transfers := s.vane.transfers.filter (fun x => x.sess != i) } })

-- Bring-up, resets, power and heat

/-- A cold reset, and a rail out of tolerance, leave every unit of the package as `State.reset` has it, the CONST objects at their factory values. What lies outside
the package stays: the levels of REFCLK and of the HP_REFCLKs, and the end-points' own requests; the end-points lose their ports, MG_PHY_RST_N falls and
THERMTRIP_N rises. -/
def Obligations.ColdResetClears : Prop :=
  ∀ (s : State) (c : Instr), (c = .coldReset ∨ ∃ r, c = .railsOutOfTolerance r) →
    ∃ t, exec c s = .next t ∧ ConstSafe t ∧ t.dev = State.reset.dev ∧ t.vane = State.reset.vane ∧ t.evt = State.reset.evt ∧
      t.thm = { State.reset.thm with flowAt := s.clk } ∧ t.tel = State.reset.tel ∧ t.rt = { State.reset.rt with refclk := s.rt.refclk } ∧ t.tbl = State.reset.tbl ∧
      t.ports = State.reset.ports ∧ t.lanes = State.reset.lanes ∧ t.link = State.reset.link ∧ t.sw = State.reset.sw ∧ t.xact = State.reset.xact ∧
      t.mov = State.reset.mov ∧ t.xl = State.reset.xl ∧ t.win = State.reset.win ∧ t.pool = State.reset.pool ∧ t.sec = State.reset.sec ∧ t.ops = State.reset.ops ∧
      t.absent = State.reset.absent ∧ t.noticeSlot = State.reset.noticeSlot ∧ t.departures = 0 ∧ t.excluded = [] ∧
      (∀ h, t.host h = { State.reset.host h with refclk := (s.host h).refclk }) ∧ (∀ q ∈ t.farun, q.2.ports = []) ∧
      (∀ q ∈ t.reqs, q ∈ s.reqs ∧ ∃ i, q.2.who = .farun i ∨ q.2.who = .farunSync i) ∧
      t.out = s.out ++ [.pin 1 0, .pin 0 1] ∧ t.clk = s.clk

/-- From COLD to SLUSH: COLD_RST_N rising with the rails good enters STRAP; sixteen equal strap samples latch the straps; the first firmware copy
that passes runs. Both done, STRAP ends. Where the samples differ or no copy passes, STRAP stays with its BOOT_STATUS, whatever is sampled or checked later. -/
def Obligations.BootsThroughStrap : Prop :=
  (∀ s : State, s.dev.phase = .cold → Does (.coldResetRelease true) s { s with dev := { s.dev with phase := .strap, phaseSince := s.clk } }) ∧
  (∀ (s : State) (w : Nat), s.dev.phase = .strap → s.dev.bootStatus = 0 → s.dev.strapsSampled = false → s.dev.phaseSince + 1960000 ≤ s.clk → w < 2 ^ 14 →
    s.dev.fwRunning = false →
    exec (.strapSample (List.replicate 16 w)) s = .next { s with dev := { s.dev with straps := w, strapsSampled := true, spine := w % 2 == 1, rolePin := w % 2 == 1 } }) ∧
  (∀ (s : State) (a b : Nat), s.dev.phase = .strap → s.dev.bootStatus = 0 → s.dev.strapsSampled = false → s.dev.phaseSince + 1960000 ≤ s.clk → a % 2 ^ 14 ≠ b % 2 ^ 14 →
    exec (.strapSample (a :: b :: List.replicate 14 a)) s = .next { s with dev := { s.dev with bootStatus := 2 } }) ∧
  (∀ (s : State) (b : Bool), s.dev.phase = .strap → s.dev.bootStatus = 0 → s.dev.fwRunning = false → s.dev.strapsSampled = false → exec (.firmwareAuthenticated true b) s =
    .next { s with dev := { s.dev with fwRunning := true, fwCopy := false, fwVersion := (Config.fwVersion false).toNat } }) ∧
  (∀ s : State, s.dev.phase = .strap → s.dev.bootStatus = 0 → s.dev.fwRunning = false → exec (.firmwareAuthenticated false false) s =
    .next { s with dev := { s.dev with bootStatus := 1 } }) ∧
  (∀ (s : State) (l : List Nat) (a b : Bool), s.dev.phase = .strap → s.dev.bootStatus ≠ 0 → exec (.strapSample l) s = .next s ∧ exec (.firmwareAuthenticated a b) s = .next s) ∧
  (∀ (s : State) (b : Bool), s.dev.phase = .strap → s.dev.bootStatus = 0 → s.dev.fwRunning = false → s.dev.strapsSampled = true → s.dev.powerWarned = none →
    ∃ t, exec (.firmwareAuthenticated true b) s = .next t ∧ t.dev.phase = .slush)

/-- WARM_RST_N low for 1 µs, and `DEV.CTL` PACKAGE_RESET, perform a package reset, which enters SLUSH under the built-in default, clears and keeps what Table 15-8 has it
clear and keep; a shorter pulse does nothing. -/
def Obligations.PackageResetEntersSlush : Prop :=
  (∀ (s : State) (n : Nat), 1000 ≤ n → s.dev.phase ≠ .cold → s.thm.stage ≠ .trip → ∃ t, exec (.warmReset n false) s = .next t ∧ AfterPackageReset s t) ∧
  (∀ (s : State) (n : Nat) (b : Bool), n < 1000 → exec (.warmReset n b) s = .next s) ∧
  (∀ (s : State) (v : VCtx), Write s v devCtlObj [2] → s.thm.stage ≠ .trip → ∃ w : State, Accepts (.packageReset v) v s w ∧ AfterPackageReset s w)

/-- DRAIN by command from TABLES or in service, REFUSED elsewhere: every RUNNING or HALTED ring drains and every port shows DRAINING. It ends in OFF once the device is
idle or `DEV.DRAIN_MAX` (ms) has passed, and not before. A power warning of 2 µs counts; the first one drains a device in service, and `PWR.OFF_AFTER` (µs) after it
the device is OFF; a shorter one does nothing. In OFF no fabric port and no host link is up. -/
def Obligations.DrainAndPowerLoss : Prop :=
  (∀ (s : State) (v : VCtx), Write s v devCtlObj [1] →
    ((s.dev.phase = .tables ∨ s.inService = true) →
      ∃ w : State, Accepts (.drain v) v s w ∧ w.dev.phase = .drain ∧ w.dev.drainSince = s.clk ∧ w.pool = s.pool ∧
        (∀ n, (s.ring n).st = .running ∨ (s.ring n).st = .halted → (w.ring n).st = .draining) ∧
        (∀ p, p < 256 → ∃ f, (w.port p).capSent = some f ∧ f.status = 2)) ∧
    (s.dev.phase ≠ .tables → s.inService = false → Aborts (.drain v) v s 0x0A)) ∧
  (∀ s : State, s.dev.phase = .drain →
    ((s.drained = true ∨ s.dev.drainSince + s.dev.drainMax * 1000000 ≤ s.clk) → ∃ t, exec .drainEnd s = .next t ∧ t.dev.phase = .off ∧
      (∀ p, p < 256 → (t.port p).st = .disabled) ∧ (∀ h, h < 8 → (t.host h).trained = false ∧ (t.host h).st ≠ .active)) ∧
    (s.drained = false → s.clk < s.dev.drainSince + s.dev.drainMax * 1000000 → exec .drainEnd s = .next s)) ∧
  (∀ (s : State) (n : Nat), s.dev.phase ≠ .cold → s.dev.phase ≠ .off →
    (2000 ≤ n → s.dev.powerWarned.isSome = true →
      Does (.powerWarnNAsserted n) s { s with dev := { s.dev with warnings := s.dev.warnings + 1 } }) ∧
    (2000 ≤ n → s.dev.powerWarned = none → s.inService = true → ∃ t, exec (.powerWarnNAsserted n) s = .next t ∧ t.dev.phase = .drain ∧
      t.dev.warnings = s.dev.warnings + 1 ∧ t.dev.powerWarned = some (s.clk - 2000) ∧ t.pool = s.pool ∧
      ∀ m, (s.ring m).st = .running → (t.ring m).st = .draining) ∧
    (n < 2000 → exec (.powerWarnNAsserted n) s = .next s)) ∧
  (∀ (s : State) (x : Nat), s.dev.powerWarned = some x → s.dev.phase = .drain →
    (x + s.dev.offAfter * 1000 ≤ s.clk → ∃ t, exec .powerOffAfterExpired s = .next t ∧ t.dev.phase = .off ∧ (∀ p, p < 256 → (t.port p).st = .disabled) ∧
      (∀ h, h < 8 → (t.host h).trained = false ∧ (t.host h).st ≠ .active)) ∧
    (s.clk < x + s.dev.offAfter * 1000 → exec .powerOffAfterExpired s = .next s))

/-- The pool comes up: HBM training in SLUSH brings every trained stack ONLINE and marks one that failed FAILED and its die RETIRED; initialisation makes the pool ONLINE
where every die is HEALTHY, DEGRADED otherwise, with every byte zero, every extent UNUSED and the metadata of lines and pages clear.
An uncorrectable SRAM error is counted at its tile and answered by its place: a row is poisoned, a translation entry dropped, the first cell of a packet takes the
packet out of its queue under a REPIN window, the mark table enters FLOOD. A host port whose reference clock goes loses its link, and is DEAD if it was ACTIVE. A change
at ROLE_SEL after STRAP is noted and nothing else. A snapshot counts TEL.SEQ, begins with its slot and number, and touches nothing but telemetry and the
power that it measures. -/
def Obligations.DeviceEvents : Prop :=
  ((∀ (s : State) (l : List Nat), s.dev.hbmTrained = false → s.dev.phase = .slush → (∀ k, k < 24 → (s.stack k).st = .untrained) →
    ∃ t, exec (.hbmTrainingDone l) s = .next t ∧ t.dev = { s.dev with hbmTrained := true } ∧ t.pool.mem = s.pool.mem ∧
      ∀ k, k < 24 → (l.contains k = false → (t.stack k).st = .online) ∧ (l.contains k = true → (t.stack k).st = .failed ∧ (t.die (k / 6)).st = .retired)) ∧
  (∀ s : State, s.dev.hbmTrained = true → s.pool.st = 0 → 2 ≤ s.dev.phase.code → s.dev.phase ≠ .off → s.dev.afterReset = false →
    exec .poolInitDone s = .next { s with pool := { s.pool with
      st := if s.pool.dies.all (fun d => d.2.st == .healthy) then 1 else 2, onlineEpoch := s.epochNo,
      exts := tmap s.pool.exts (fun _ x => { x with st := .unused, granules := [] }), zeroing := [], mem := [], poison := [], spares := [], parity := [], macs := [],
      counters := [], backptr := [], landed := [], dir := [] } })) ∧
  ((∀ (s : State) (g : Nat) (x : Nat × Nat × Nat), x = tget (0, 0, 0) s.tel.tileErr g →
    (∀ i e, ∃ t, exec (.sramUe g (.row i e)) s = .next t ∧ tget (0, 0, 0) t.tel.tileErr g = (x.1, x.2.1 + 1, s.slot) ∧ ((t.inst i).row e).psn = true ∧ t.pool = s.pool) ∧
    (∀ n k, ∃ t, exec (.sramUe g (.xlate n k)) s = .next t ∧ tget (0, 0, 0) t.tel.tileErr g = (x.1, x.2.1 + 1, s.slot) ∧ t.cacheOf n = (s.cacheOf n).eraseIdx k ∧
      t.pool = s.pool) ∧
    (∀ q k e, (tget [] s.sw.queues q)[k]? = some e → ∃ t r, exec (.sramUe g (.firstCell q k)) s = .next t ∧
      tget (0, 0, 0) t.tel.tileErr g = (x.1, x.2.1 + 1, s.slot) ∧ tget [] t.sw.queues q = (tget [] s.sw.queues q).eraseIdx k ∧ r ∈ t.sw.repins ∧
      r.cause = .egress (q / 10) ∧ t.pool = s.pool) ∧
    (s.sw.flood = false → ∃ t, exec (.sramUe g .markTable) s = .next t ∧ tget (0, 0, 0) t.tel.tileErr g = (x.1, x.2.1 + 1, s.slot) ∧ t.sw.flood = true ∧ t.pool = s.pool)) ∧
  (∀ (s : State) (h : Nat), ∃ t, exec (.hpRefclkLost h) s = .next t ∧ (t.host h).refclk = false ∧ (t.host h).trained = false ∧
    ((s.host h).st = .active → (t.host h).st = .dead) ∧ ((s.host h).st ≠ .active → (t.host h).st = (s.host h).st ∧ t.pool = s.pool)) ∧
  (∀ (s : State) (b : Bool), exec (.roleStrapChanged b) s = .next { s with dev := { s.dev with
    rolePin := b, roleStrapChanged := if 2 ≤ s.dev.phase.code ∧ b ≠ s.dev.rolePin then true else s.dev.roleStrapChanged } }) ∧
  (∀ s : State, s.snapDue = true → ∃ t, exec .telemetrySnapshot s = .next t ∧ t.tel.seq = s.tel.seq + 1 ∧ leAt t.tel.snap 0 8 = s.slot % 2 ^ 64 ∧
    leAt t.tel.snap 8 8 = (s.tel.seq + 1) % 2 ^ 64 ∧ t.tel.tileErr = s.tel.tileErr ∧ ∃ w k, t = { s with tel := t.tel, thm := { s.thm with packagePower := w }, free := k }))

/-- The coolant flow: a write of `THM.FLOW` sets it, a value above 10,000 mL/min that is not 0xFFFF is out of RANGE, and a value not rewritten for one
second is stale.
Thermal stages: a junction sample is recorded, a sample within limits moves nothing and one that jumps by more than 20 °C is put off once; flow below 1,000 mL/min for two
seconds raises the stage to SHED; ten seconds within limits lower it by one; 115 °C trips, drives THERMTRIP_N low and idles the transmitters. -/
def Obligations.ThermalStages : Prop :=
  ((∀ (s : State) (v : VCtx) (q : Nat), Write s v (0x9000, 0x12) (leBytes 2 q) → q ≤ 10000 →
    ∃ w : State, Accepts (.thmFlowWrite v q) v s w ∧ w.thm.flow = q ∧ w.thm.flowAt = s.clk ∧ w.thm.flowStale = false ∧ w.thm.stage = s.thm.stage ∧
      (q < 1000 → w.thm.low1000 = some (s.thm.low1000.getD s.clk)) ∧ (1000 ≤ q → w.thm.low1000 = none) ∧ w = { s with thm := w.thm }) ∧
  (∀ (s : State) (v : VCtx) (q : Nat), Write s v (0x9000, 0x12) (leBytes 2 q) → 10000 < q → q ≠ 0xFFFF → Aborts (.thmFlowWrite v q) v s 0x09) ∧
  (∀ s : State, s.thm.flowStale = false → s.thm.flowAt + 1000000000 ≤ s.clk → s.dev.phase ≠ .cold → s.thm.stage ≠ .trip →
    ∃ w : State, Does .flowStale s w ∧ w.thm.flowStale = true ∧ w.thm.low2200 = some (s.thm.low2200.getD s.clk) ∧ w.thm.stage = s.thm.stage ∧ w = { s with thm := w.thm })) ∧
  ((∀ (s : State) (d k : List Int), s.dev.phase ≠ .cold → s.thm.stage ≠ .trip →
    (s.thm.tjPrev = none → tjStage (maxInt (tjReadings d k)) = .normal →
      ∃ t, exec (.tjSample d k) s = .next t ∧ t.thm.tjMax = maxInt (tjReadings d k) ∧ t.thm.tjPrev = some (maxInt (tjReadings d k)) ∧ t.thm.stage = s.thm.stage ∧
        t.thm.sensors = sensorList d k ∧ t = { s with thm := t.thm }) ∧
    (∀ x, s.thm.tjPrev = some x → s.thm.tjHeld = false → 20000 < (maxInt (tjReadings d k) - x).natAbs →
      exec (.tjSample d k) s = .next { s with thm := { s.thm with tjHeld := true } })) ∧
  (∀ (s : State) (x : Nat), s.dev.phase ≠ .cold → s.thm.low1000 = some x → x + 2000000000 ≤ s.clk → s.thm.stage.code < 2 →
    ∃ t, exec .flowLowExpired s = .next t ∧ t.thm.stage = .shed ∧ t.thm.stageSlot = s.slot ∧ (s.dev.phase = .full → t.dev.phase = .degraded) ∧ t.pool = s.pool) ∧
  (∀ (s : State) (x : Nat), s.thm.backSince = some x →
    (x + 10000000000 ≤ s.clk → s.thm.stage = .alert → ∃ t, exec .stageHoldExpired s = .next t ∧ t.thm.stage = .normal ∧ t.thm.stageSlot = s.slot ∧ t.pool = s.pool) ∧
    (x + 10000000000 ≤ s.clk → s.thm.stage = .shed → ∃ t, exec .stageHoldExpired s = .next t ∧ t.thm.stage = .alert ∧ t.thm.stageSlot = s.slot ∧ t.pool = s.pool) ∧
    (s.clk < x + 10000000000 → exec .stageHoldExpired s = .next s)) ∧
  (∀ (s : State) (tj : Int), 115000 ≤ tj → s.thm.stage ≠ .trip → ∃ t, exec (.thermalTrip tj) s = .next t ∧ t.thm.stage = .trip ∧ t.thm.tjMax = tj ∧
    t.out.getLast? = some (.pin 0 0) ∧ (∀ x ∈ t.ports, x.2.idling = true ∧ (x.2.st = .disabled ∨ x.2.st = .detect)) ∧ t.pool = s.pool))

-- Rack time

/-- Losing the reference while LOCKED: the device goes into HOLDOVER with its error and the time it had been LOCKED kept, whether REFCLK goes, three
epochs pass without a plausible pulse, or without a usable record; HOLDOVER ends in UNLOCKED at its limit. -/
def Obligations.ReferenceLoss : Prop :=
  ∀ s : State,
    (s.rt.quality = .locked →
      (s.rt.source = 0 → Does .refclkLost s { s with rt := { s.rt with
        refclk := false, quality := .holdover, plausible := 0, refLosses := s.rt.refLosses + 1,
        errAtLoss := s.rt.err, holdSince := s.clk, lockedFor := s.clk - s.rt.lockedSince } }) ∧
      (s.rt.source ≠ 0 → exec .refclkLost s = .next { s with rt := { s.rt with refclk := false } }) ∧
      (s.rt.source = 0 → s.refSilent = true → Does .epochPulseMissing s { s with rt := { s.rt with
        quality := .holdover, plausible := 0,
        refLosses := s.rt.refLosses + 1, errAtLoss := s.rt.err, holdSince := s.clk, lockedFor := s.clk - s.rt.lockedSince } }) ∧
      (s.rt.source = 1 → s.refSilent = true → Does .timeRecordMissing s { s with rt := { s.rt with
        quality := .holdover, plausible := 0,
        refLosses := s.rt.refLosses + 1, errAtLoss := s.rt.err, holdSince := s.clk, lockedFor := s.clk - s.rt.lockedSince } })) ∧
    (s.rt.quality = .holdover → s.rt.holdSince + s.holdLimit ≤ s.clk → s.rt.scheduled = false →
      Does .holdoverLimit s { s with rt := { s.rt with quality := .unlocked, plausible := 0, refLosses := s.rt.refLosses + 1, err := s.rtErr } }) ∧
    (s.rt.quality ≠ .unset → exec .refclkPresent s = .next { s with rt := { s.rt with refclk := true } })

/-- The writes of rack time: `RT.SET` gives the number of the next epoch while the device is not LOCKED or in HOLDOVER, and is RANGE from 2^44 on;
`RT.SOURCE` and `RT.SRC_PORT` select the reference; `RT.RESUME_SLOT` is taken while LOCKED with its lead, and REFUSED while not. -/
def Obligations.RackTimeWrites : Prop :=
  ∀ (s : State) (v : VCtx), (s.epochRec .rackTime).epoch = v.epoch →
    (∀ e, Write s v (0x7000, 3) (leBytes 8 e) → e < 2 ^ 44 → s.rt.quality = .unlocked →
      Accepts (.rtSet v e) v s { s with rt := { s.rt with setWritten := true, setEpoch := some e } }) ∧
    (∀ e, Write s v (0x7000, 3) (leBytes 8 e) → 2 ^ 44 ≤ e → Aborts (.rtSet v e) v s 0x09) ∧
    (Write s v (0x7000, 1) (leBytes 1 1) → s.rt.quality = .unlocked →
      Accepts (.rtSource v 1) v s { s with rt := { s.rt with source := 1, plausible := 0, lastMark := none, partnerQuality := 0, lastPulseAt := none, refOkSince := none } }) ∧
    (∀ p, Write s v (0x7000, 2) (leBytes 2 p) → p < 256 → s.rt.quality = .unlocked →
      Accepts (.rtSrcPort v p) v s { s with rt := { s.rt with srcPort := p, plausible := 0, lastMark := none, partnerQuality := 0, lastPulseAt := none, refOkSince := none } }) ∧
    (∀ x, Write s v (0x7000, 9) (leBytes 8 x) → s.rt.quality = .locked → s.slot + s.tbl.minLead ≤ x →
      Accepts (.rtResumeSlot v x) v s { s with rt := { s.rt with resumeSlot := x } }) ∧
    (∀ x, Write s v (0x7000, 9) (leBytes 8 x) → s.rt.quality ≠ .locked → Aborts (.rtResumeSlot v x) v s 0x0A)

/-- An EPOCH edge, once it is no glitch, that arrives while REFCLK is lost is ignored and counted, whatever the source and the quality of rack time. -/
def Obligations.PulsesNeedRefclk : Prop :=
  ∀ (s : State) (w : Nat), s.rt.refclk = false →
    (20 ≤ w → exec (.epochPulse w) s = .next { s with rt := { s.rt with pulseRejected := s.rt.pulseRejected + 1 } }) ∧
    (w < 20 → exec (.epochPulse w) s = .next s)

/-- Pulses, records and epochs of a LOCKED device: a pulse within 20 ns of an edge slews it, one within 50 ns corrects it at once (forward by a step, backward by holding the
count), and one further away is only counted; a record on a port that is not the source leaves its stamps, with the link's delay where it echoes the last record sent, and
nothing else, and one of an undefined QUALITY is counted; the first nanosecond of an epoch sends a time record on each trained port whose partner takes records;
scheduled operation resumes at its slot. -/
def Obligations.RackTimeFollows : Prop :=
  (∀ (s : State) (w : Nat), 20 ≤ w → s.rt.source = 0 → s.rt.refclk = true → s.rt.quality = .locked →
    (s.pulseOff.natAbs ≤ 20 →
      exec (.epochPulse w) s = .next { s with rt := { s.rt with slew := -s.pulseOff, plausible := 0, lastPulseAt := some s.clk, lastMark := some (s.clk, s.refNow) } }) ∧
    (20 < s.pulseOff.natAbs → s.pulseOff.natAbs ≤ 50 → s.rt.hold = 0 → ∃ r, exec (.epochPulse w) s = .next { s with rt := r } ∧ r.quality = .locked ∧ r.slew = 0 ∧
      r.lastPulseAt = some s.clk ∧ (s.pulseOff < 0 → r.now = s.rt.now + s.pulseOff.natAbs ∧ r.hold = 0) ∧ (0 < s.pulseOff → r.now = s.rt.now ∧ r.hold = s.pulseOff.natAbs)) ∧
    (50 < s.pulseOff.natAbs → exec (.epochPulse w) s = .next { s with rt := { s.rt with pulseRejected := s.rt.pulseRejected + 1 } })) ∧
  (∀ (s : State) (p : Nat) (r : TimeRec) (x : TimePort), r.rsvd = 0 → r.quality ≤ 4 → s.rt.source = 0 → x = tget {} s.rt.ports p →
    (r.echo ≠ 0 → r.echo = x.lastTx → exec (.time p r) s = .next { s with rt := { s.rt with
      ports := tset s.rt.ports p { x with lastRxTx := r.txTime, lastRxAt := s.rt.now * 16, delay := some ((s.rt.now * 16 - r.echo - r.turn) / 2) } } }) ∧
    ((r.echo = 0 ∨ r.echo ≠ x.lastTx) → exec (.time p r) s = .next { s with rt := { s.rt with
      ports := tset s.rt.ports p { x with lastRxTx := r.txTime, lastRxAt := s.rt.now * 16 } } })) ∧
  (∀ (s : State) (p : Nat) (r : TimeRec), 4 < r.quality → exec (.time p r) s = .next { s with link := { s.link with rxFiltered := s.link.rxFiltered + 1 } }) ∧
  (∀ s : State, s.rt.now % 2 ^ 20 = 0 → s.pool.st = 0 → ∃ t, exec .epochStart s = .next t ∧ t.pool = s.pool ∧ t.ports = s.ports ∧ t.rt.now = s.rt.now ∧
    ∀ p, p < 256 → ((s.port p).st = .linked ∨ (s.port p).st = .inService) → (s.port p).partner.format ≠ 0 → (s.port p).partner.role ≠ 3 →
      (tget {} t.rt.ports p).lastTx = s.rt.now * 16 ∧ ∃ r, .time p r ∈ t.out ∧ r.txTime = s.rt.now * 16 ∧ r.quality = s.rt.quality.code ∧ r.stratum = s.rt.stratum ∧
        r.echo = (tget {} s.rt.ports p).lastRxTx) ∧
  (∀ s : State, s.rt.resumeSlot ≠ 0 → s.slot = s.rt.resumeSlot → s.rt.quality = .locked →
    exec .scheduledResume s = .next { s with rt := { s.rt with scheduled := true } })

-- Table images and windows

/-- Loading and checking an image: the segments of `TBL.IMAGE` are joined in the standby bank, which is CHECKING once IMG_LEN bytes have arrived and
LOADING before; a faulty image leaves the bank EMPTY with its code, a good one READY. -/
def Obligations.ImageLoads : Prop :=
  (∀ (s : State) (v : VCtx) (o : Nat) (l : Bool) (d : Bytes), Reaches s v.sess { writeFrame v 0x7100 1 d with offset := o, last := l } →
    (s.epochRec .bank).epoch = v.epoch → s.segmentBad v.sess { writeFrame v 0x7100 1 d with offset := o, last := l } 4194304 s.tbl.stdBytes.length = none →
    s.bankBusy = false →
    Accepts (.tblImage v o l d) v s { s with tbl := { s.tbl with
      stdBytes := (if o = 0 then [] else s.tbl.stdBytes) ++ d, stdLen := leAt ((if o = 0 then [] else s.tbl.stdBytes) ++ d) 8 4, checkSince := s.clk, std := {},
      stdState := if 12 ≤ ((if o = 0 then [] else s.tbl.stdBytes) ++ d).length ∧
          leAt ((if o = 0 then [] else s.tbl.stdBytes) ++ d) 8 4 ≤ ((if o = 0 then [] else s.tbl.stdBytes) ++ d).length then .checking else .loading } }) ∧
  (∀ s : State, s.tbl.stdState = .checking → Does .imageCheckDone s { s with tbl :=
    if (imageCheck s s.tbl.stdBytes).1 = 0 then
      { s.tbl with stdState := .ready, std := decodeImage s.tbl.stdBytes, loadCode := 0, loadType := 0, loadOff := 0 }
    else { s.tbl with
      stdState := .empty, std := {}, stdBytes := [], stdLen := 0, loadCode := (imageCheck s s.tbl.stdBytes).1,
      loadType := (imageCheck s s.tbl.stdBytes).2.1, loadOff := (imageCheck s s.tbl.stdBytes).2.2 } })

/-- Arming, cancelling, switching and retiring: an arm for a later slot with its lead makes the bank ARMED, and is REFUSED of another version; a cancel
up to sixteen slots before makes it READY, and is REFUSED later; the first nanosecond of the armed slot, or of the first one after it, makes the new image active and its
predecessor's bank RETIRING, with the roles and the hop count of the new image; after A_REQ a retired bank of which no run goes on is EMPTY, and not before. -/
def Obligations.ImageSwitches : Prop :=
  (∀ (s : State) (v : VCtx) (x y : Nat), Write s v (0x7100, 4) (leBytes 8 x ++ leBytes 8 y) → (s.epochRec .bank).epoch = v.epoch →
    (x ≠ 0 → s.tbl.stdState = .ready → s.tbl.std.version = y → s.slot + s.tbl.minLead ≤ x → x ≤ s.slot + 2 ^ 30 → s.rt.quality ≠ .unset → s.rt.quality ≠ .acquiring →
      s.assignOk (x * 1024) = true → Accepts (.tblArm v x y) v s { s with tbl := { s.tbl with armSlot := x, stdState := .armed } }) ∧
    (s.tbl.std.version ≠ y → Aborts (.tblArm v x y) v s 0x0A)) ∧
  (∀ (s : State) (v : VCtx) (y : Nat), Write s v (0x7100, 5) (leBytes 8 y) → (s.epochRec .bank).epoch = v.epoch → s.tbl.stdState = .armed → s.tbl.std.version = y →
    (s.slot + 16 ≤ s.tbl.armSlot → Accepts (.tblCancel v y) v s { s with tbl := { s.tbl with armSlot := 0, stdState := .ready } }) ∧
    (s.tbl.armSlot < s.slot + 16 → Aborts (.tblCancel v y) v s 0x0A)) ∧
  (∀ s : State, s.tbl.stdState = .armed → s.tbl.armSlot ≤ s.slot → s.rt.now % 1024 = 0 → s.rt.quality = .locked →
    s.assignOk (s.tbl.armSlot * 1024) = true →
    ∃ t, exec .switchOver s = .next t ∧ t.tbl.active = s.tbl.std ∧ t.tbl.stdState = .retiring ∧ t.tbl.retiringSince = s.clk ∧ t.tbl.switchSlot = s.tbl.armSlot ∧
      t.tbl.armSlot = 0 ∧ t.tbl.activeBank = 1 - s.tbl.activeBank ∧ t.tbl.activeSet = s.tbl.std.setId ∧ t.dev.mode = s.tbl.std.role ∧
      (s.builtIn = false → t.sw.hops = (if s.tbl.std.role = 0 then 1 else 3) ∧ t.rt.scheduled = true ∧ t.pool = s.pool)) ∧
  (∀ s : State, s.tbl.stdState = .retiring → (∀ x ∈ s.ops.insts, x.2.retiring = false) →
    (s.tbl.retiringSince + s.ageLimit 0 ≤ s.clk → Does .bankRetired s { s with tbl := { s.tbl with retiring := none, stdState := .empty } }) ∧
    (s.clk < s.tbl.retiringSince + s.ageLimit 0 → exec .bankRetired s = .next s))

/-- The windows of the EVENTS section: an eye-scan window marks the lanes in service of its ports as scanned from this slot; a bit-error window sends the START of a test on a
port that this package leads, of every trained lane where the port is LINKED and of the lane that is due and out of service where it is IN_SERVICE, and does nothing to a port that
another package leads; the window's end takes the lane out, records its counts, and sends its RESULT; a scrub window counts each corrected error at its
stack. From ALERT on none runs. -/
def Obligations.EventWindows : Prop :=
  (∀ (s : State) (k : Nat) (e : EventEnt), s.eventNow k 2 = some e → s.thm.stage = .normal →
    exec (.eyeScanWindow k) s = .next (e.ports.foldl (fun t p => t.modLanes p (fun _ l =>
      if l.st == 1 && l.scanning.isNone then { l with scanning := some s.slot } else l)) s)) ∧
  (∀ (s : State) (k p : Nat) (e : EventEnt), s.eventNow k 3 = some e → e.target = p → p < 256 → s.thm.stage = .normal → (s.port p).utgeod = false →
    (s.port p).test = none → (s.port p).narrowing = none →
    (∀ m, s.leads p = true → (s.port p).st = .linked → m = (s.port p).lanesIn ||| (s.port p).lanesOut →
      ∃ t x, exec (.bitErrorWindow k) s = .next t ∧ (t.port p).test = some x ∧ x.lanes = m ∧ x.dur = (e.len * 1024 - 200000) / 1000 ∧ x.leader = true ∧ x.window = true ∧
        x.since = s.clk ∧ t.out = s.out ++ [.ctrl p 8 [m, 1, 1, x.dur]] ∧ t.pool = s.pool) ∧
    (∀ i, s.leads p = true → (s.port p).st = .inService → (bitsOf 4 ((s.port p).lanesIn ||| (s.port p).lanesOut)).find? (s.laneDue p) = some i →
      (s.port p).lanesOut.testBit i = true →
      ∃ t x, exec (.bitErrorWindow k) s = .next t ∧ (t.port p).test = some x ∧ x.lanes = 2 ^ i ∧ x.dur = (e.len * 1024 - 200000) / 1000 ∧ x.leader = true ∧
        x.window = true ∧ t.out = s.out ++ [.ctrl p 8 [2 ^ i, 1, 1, x.dur]] ∧ t.pool = s.pool) ∧
    (s.leads p = false → exec (.bitErrorWindow k) s = .next s)) ∧
  (∀ (s : State) (p l b n : Nat) (x : Test), (s.port p).test = some x → x.window = true → x.acked = true → x.lanes.testBit l = true → x.ended = false →
    (s.port p).st = .inService → s.rt.quality = .locked → tfind x.peers l = none → l < 4 →
    ∃ t, exec (.bitErrorWindowEnd p l b n) s = .next t ∧ (t.port p).test = some { x with ended := true, endAt := s.clk, results := tset x.results l (b, n) } ∧
      (t.lane (4 * p + l)).st = 2 ∧ t.out = s.out ++ [.ctrl p 8 [2 ^ l, 4, 1, 0, min b (2 ^ 64 - 1), min n (2 ^ 64 - 1)]] ∧ t.pool = s.pool) ∧
  (∀ (s : State) (k : Nat) (e : EventEnt), s.eventNow k 4 = some e → s.thm.stage = .normal → e.target = 1 → (s.stack 0).st ≠ .online →
    exec (.scrubWindow k 0 [.corrected 0 0]) s = .next (s.modStack 0 (fun x => { x with ce := x.ce + 1 }))) ∧
  (∀ (s : State) (k n : Nat) (l : List ScrubErr), s.thm.stage ≠ .normal → exec (.eyeScanWindow k) s = .next s ∧ exec (.bitErrorWindow k) s = .next s ∧
    exec (.scrubWindow k n l) s = .next s)

-- Links

/-- The writes of a port, each answered with abort 0x00: ENABLE takes a DISABLED port to DETECT; RETRAIN takes a port that trains back to DETECT, and
is REFUSED of a DISABLED one; TEST of a LINKED port sends DIAG START for its trained lanes; REWIDEN sets its lanes out of service to equalise.
The writes of a lane: SLIP in LOCK moves the boundary by one UI and is REFUSED of a lane in service, SCAN starts an eye scan, REBASE clears the
baselines. -/
def Obligations.PortAndLaneWrites : Prop :=
  (∀ (s : State) (v : VCtx) (p : Nat), (s.epochRec (.port p)).epoch = v.epoch → s.dev.stepGroup = none →
    (Write s v (portObj p, 1) [1] → (s.port p).st = .disabled → Accepts (.portEnable v p true) v s
      (s.modPort p (fun x => { x with enable := true, st := .detect, stSince := s.clk, attempts := 0, idling := false }))) ∧
    (Write s v (portObj p, 8) [1] → (s.port p).st = .lock → (s.port p).test = none → 0 < s.link.trainTries →
      Accepts (.portCtlRetrain v p) v s ((s.modPort p (fun x => { x.linkReset with st := .detect, stSince := s.clk, attempts := 0 })).lanesOff p)) ∧
    (Write s v (portObj p, 8) [1] → (s.port p).st = .disabled → Aborts (.portCtlRetrain v p) v s 0x0A) ∧
    (Write s v (portObj p, 8) [2] → (s.port p).st = .linked → (s.port p).utgeod = false → (s.port p).test = none →
      Accepts (.portTest v p) v s (s.modPort p (fun y => { y with
        test := some {
          lanes := y.lanesIn ||| y.lanesOut, dur := y.bertTime * 1000, leader := true,
          window := false, acked := false, sent := true, since := s.clk, ended := false, endAt := 0, results := [], peers := [] } }))) ∧
    (Write s v (portObj p, 8) [3] → (s.port p).st = .inService → (s.port p).lanesOut ≠ 0 → (s.port p).lanesOut ≤ 15 →
      (∀ i : Nat, (s.lane (4 * p + i)).st ≠ 3) →
      Accepts (.rewiden v p) v s (s.modPort p (fun y => { y with wideMask := y.wideMask ||| (s.port p).lanesOut, wideStage := 1 })))) ∧
  (∀ (s : State) (v : VCtx) (l : Nat),
    (Write s v (laneObj l, 3) [1] → (s.port (l / 4)).st = .lock →
      Accepts (.laneSlip v l) v s ((s.modLane l (fun x => { x with slips := (x.slips + 1) % 8192, lockOn := false })).modPort (l / 4)
        (fun y => { y with locked := y.locked &&& (15 ^^^ 2 ^ (l % 4)) }))) ∧
    (Write s v (laneObj l, 3) [1] → (s.port (l / 4)).st = .inService → (s.lane l).st = 1 → Aborts (.laneSlip v l) v s 0x0A) ∧
    (Write s v (laneObj l, 9) [1] → (s.lane l).st ≠ 0 → Accepts (.laneScan v l) v s (s.modLane l (fun x => { x with scanning := some s.slot }))) ∧
    (Write s v (laneObj l, 9) [2] → Accepts (.rebase v l) v s (s.modLane l (fun x => { x with bases := [] }))))

/-- Training, state by state: signal takes DETECT to LOCK, eight codewords lock a lane, skew within four codewords deskews, the eighth identical echoing
record ends EXCHANGE at the agreed rate, converged coefficients enter VERIFY, and a failed VERIFY equalises once more. -/
def Obligations.TrainingAdvances : Prop :=
  (∀ (s : State) (p m : Nat), (s.port p).st = .detect → (s.port p).idling = false → m % 16 ≠ 0 → Does (.signalDetected p m) s
    ((s.modPort p (fun x => { x with st := .lock, stSince := s.clk, signalled := m % 16, locked := 0, deskewed := false })).modLanes p
      (fun _ l => { l with lockOn := false, inverted := false, slips := 0 }))) ∧
  (∀ (s : State) (l n : Nat) (b : Bool), 8 ≤ n → (s.port (l / 4)).st = .lock → (s.port (l / 4)).deskewed = false → (s.port (l / 4)).signalled.testBit (l % 4) = true →
    exec (.laneLock l n b) s = .next ((s.modLane l (fun x => { x with lockOn := true, inverted := b })).modPort (l / 4)
      (fun x => { x with locked := x.locked ||| 2 ^ (l % 4) }))) ∧
  (∀ (s : State) (p k : Nat), (s.port p).st = .lock → k ≤ 4 → (s.port p).locked ≠ (s.port p).signalled →
    exec (.deskew p [0, 1, 2, 3] k) s = .next (s.modPort p (fun x => { x with deskewed := true, sent := { x.sent with reversed := false } }))) ∧
  (∀ (s : State) (p : Nat) (r : TrainRec), (s.port p).st = .exchange → r.rsvd = 0 → r.format ≤ 1 → r.role ≤ 3 → r.rates.testBit 0 = true →
    trainMismatch (s.port p) r = false → r.echo = (s.port p).sent.nonce → (s.port p).lastTrain = some r → (s.port p).sameTrain = 7 → s.agreed p r ≠ 0 →
    Does (.train p r) s (s.modPort p (fun y => { y with
      st := .equalise, stSince := s.clk, sent := { y.sent with echo := r.nonce }, lastTrain := some r, sameTrain := 8,
      partner := r, agreedRate := s.agreed p r, eqTries := 0, equalised := false }))) ∧
  (∀ (s : State) (p : Nat), (s.port p).st = .exchange → exec (.trainRepeat p) s = .next (s.emit (.train p (s.ownTrain p)))) ∧
  (∀ (s : State) (p c : Nat), (s.port p).st = .equalise → Does (.equaliseConverged p c) s
    ((s.modPort p (fun y => { y with st := .verify, stSince := s.clk, equalised := true })).modLanes p (fun i l =>
      if (s.port p).locked.testBit i then { l with eq := c, conv := tset l.conv (nextRate (s.port p).partner (s.port p).agreedRate (s.port p).rate) c } else l))) ∧
  (∀ (s : State) (p : Nat) (b : List Nat), s.dev.stepGroup = none → (s.port p).st = .verify → (s.port p).eqTries = 0 → Does (.verifyEnd p b true) s
    (s.modPort p (fun y => { y with st := .equalise, stSince := s.clk, eqTries := 1, equalised := false }))) ∧
  (∀ (s : State) (p : Nat), s.dev.stepGroup = none → (s.port p).st = .equalise → (s.port p).eqTries = 0 → (s.port p).stSince + 40000000 ≤ s.clk →
    Does (.trainingTimeout p) s (s.modPort p (fun y => { y with st := .equalise, stSince := s.clk, eqTries := 1, equalised := false })))

/-- Capability frames: a faulty frame is counted, with its slot, and changes nothing else; a good one is held as the partner's, and one of another partner than the last
clears the port's allowances and begins the JOINING wait; an unacknowledged frame is sent again; the wait over, the port shows AVAIL.
SPDM on a link: a fragment is kept until its message is whole, a whole message is acknowledged and answered, an acknowledgement frees the sender, and an unacknowledged
message is sent again after 10 µs, eight times at most, after which the session has failed. -/
def Obligations.LinkRecords : Prop :=
  ((∀ (s : State) (p : Nat) (f : CapFrame), s.linkUsed p = true → s.capBad p f = true →
    exec (.cap p f) s = .next (s.modPort p (fun y => { y with framesRefused := y.framesRefused + 1, attachSlot := s.slot }))) ∧
  (∀ (s : State) (p : Nat) (f : CapFrame), s.linkUsed p = true → s.capBad p f = false → s.dev.stepGroup = none →
    ∃ t, exec (.cap p f) s = .next t ∧ (t.port p).partnerCap = some f ∧ (t.port p).rxCseq = f.cseq ∧ (t.port p).lastUid = f.uid ∧ t.pool = s.pool ∧
      ((s.port p).lastUid ≠ 0 → (s.port p).lastUid ≠ f.uid → (t.port p).allow = [] ∧ (t.port p).joinUntil = (s.port p).downAt + s.ageLimit 0 + s.ageLimit 2)) ∧
  (∀ (s : State) (p : Nat) (f : CapFrame), s.linkUsed p = true → (s.port p).utgeod = false → (s.port p).capTxAck = false → (s.port p).capSent = some f →
    (s.port p).capSent.map (fun g => { g with cseq := 0, echo := 0 }) = some (s.capContent p) →
    exec (.capRepeat p) s = .next (s.emit (.cap p { f with echo := (s.port p).rxCseq }))) ∧
  (∀ (s : State) (p : Nat), (s.port p).joinUntil ≠ 0 → (s.port p).joinUntil ≤ s.clk → s.linkUsed p = true → s.dev.stepGroup = none →
    ∃ t, exec (.joiningWaitEnd p) s = .next t ∧ (t.port p).joinUntil = 0 ∧ t.pool = s.pool ∧
      (s.dev.phase ≠ .drain → s.portHasVcs p = true → ∃ f, (t.port p).capSent = some f ∧ f.status = 1))) ∧
  ((∀ (s : State) (p : Nat) (f : Frag), s.linkUsed p = true → f.body.length ≤ 48 → f.frag ≤ 1023 → f.last = false → (s.port p).spdmRx = [] →
    exec (.spdm p f) s = .next (s.modPort p (fun x => { x with spdmRx := [f] }))) ∧
  (∀ (s : State) (p m : Nat) (f : Frag), s.linkUsed p = true → f.body.length ≤ 48 → f.frag = 0 → f.last = true → (s.port p).spdmRx = [] →
    s.leads p = false → (s.port p).cryptState = 1 → (s.port p).spdmStage = 0 → leAt f.body 1 1 = 0x84 → m = ((s.port p).spdmMseq + 1) % 256 → s.dev.stepGroup = none →
    exec (.spdm p f) s = .next { s.modPort p (fun x => { x with spdmRx := [], spdmStage := 1, spdmMseq := m, spdmTx := some (m, 0, s.clk), spdmOut := spdmMsg 0x04 }) with
      out := s.out ++ [.ctrl p 6 [f.mseq], .spdmFrag p { mseq := m, frag := 0, last := true, body := spdmMsg 0x04 }] }) ∧
  (∀ (s : State) (p m n a : Nat), s.linkUsed p = true → (s.port p).spdmTx = some (m, n, a) →
    exec (.spdmAck p m) s = .next (s.modPort p (fun x => { x with spdmTx := none }))) ∧
  (∀ (s : State) (p m n a : Nat), (s.port p).spdmTx = some (m, n, a) → a + 10000 ≤ s.clk →
    (n < 8 → exec (.spdmRepeat p) s = .next { s.modPort p (fun x => { x with spdmTx := some (m, n + 1, s.clk) }) with
      out := s.out ++ (fragsOf m (s.port p).spdmOut).map (fun f => .spdmFrag p f) }) ∧
    (8 ≤ n → s.dev.stepGroup = none → ∃ t, exec (.spdmRepeat p) s = .next t ∧ (t.port p).cryptState = 3 ∧ (t.port p).spdmTx = none ∧ t.pool = s.pool)))

/-- Flits of a port in service: a flit in sequence counts, with its link-control bytes; on a port that is OFF it is acknowledged at once, slots that complete no transaction are
kept, and one that it completes is taken as the command of its type; on a port that is ON it waits for its group's tag. A flit that fails its check asks for a replay. The
credits and acknowledgements of an IDLE flit count. A group whose tag verifies is acknowledged and its flits are taken, deciphered, one after another; one whose
tag fails is thrown away and asked for again. The NAK, the replay, the fall after 4 µs, the credit refresh and the key update come at their times. -/
def Obligations.FlitsInSequence : Prop :=
  (∀ (s : State) (p : Nat) (f : Flit), (s.port p).st = .inService → flitPasses f (s.port p).rxSeq = true →
    ∃ u : State, u = (s.modPort p (fun y => { y with rxSeq := (y.rxSeq + 1) % 2048, nak := false })).lcbIn p f.lcb ∧
      ((u.port p).cryptState = 2 → exec (.data p f) s = .next (u.modPort p (fun x => { x with flitsRx := x.flitsRx + 1, rxFlits := x.rxFlits + 1, group := x.group ++ [(f.lcb, f.body)] }))) ∧
      (∀ r, (u.port p).cryptState ≠ 2 → takeSlots (slotsOf f.body) { open_ := (u.port p).rxSlots } = r → r.framing = false →
        (r.txns = [] → s.dev.stepGroup = none → exec (.data p f) s = .next ((u.modPort p (fun x => { x with
            flitsRx := x.flitsRx + 1, rxFlits := x.rxFlits + 1, rxSlots := r.open_ })).emit (.lcb p (lcbAck 1 (u.port p).ackSeq false)))) ∧
        (∀ x, r.txns = [x] → x.ty = .rd → ∃ t, exec (.rd p x) ((u.modPort p (fun x => { x with
            flitsRx := x.flitsRx + 1, rxFlits := x.rxFlits + 1, rxSlots := r.open_ })).emit (.lcb p (lcbAck 1 (u.port p).ackSeq false))) = .next t ∧
          exec (.data p f) s = .next t.stepCheck))) ∧
  (∀ (s : State) (p : Nat) (f : Flit), (s.port p).st = .inService → flitPasses f (s.port p).rxSeq = false → passesUnder f 2047 ((s.port p).rxSeq + 1) = none →
    (s.port p).nak = false → exec (.data p f) s = .next ((s.modPort p (fun x => { x with nak := true, nakAt := s.clk, naksSent := x.naksSent + 1 })).emit
      (.lcb p (lcbAck 1 (((s.port p).rxSeq + 2047) % 2048) true)))) ∧
  (∀ (s : State) (p v n : Nat) (f : Flit), (s.port p).st = .inService → flitPasses f 0xFFFF = true →
    (f.lcb = lcbCredit 1 v n → v < 10 → n < 512 → exec (.idle p f) s = .next (s.modPort p (fun x => { x with
      txCredit := tset x.txCredit v (tget 0 x.txCredit v + (n + 512 - tget 0 x.ccIn v % 512) % 512), ccIn := tset x.ccIn v n }))) ∧
    (∀ r l, f.lcb = lcbAck 1 n false → n < 2048 → (s.port p).retry = r :: l → r.seq = n → exec (.idle p f) s = .next (s.modPort p (fun x => { x with
      retry := l, ackAt := s.clk })))) ∧
  (∀ (s : State) (p : Nat) (f : Flit), (s.port p).st = .inService → flitPasses f (s.port p).rxSeq = true →
    ∃ (u : State) (x : Port), u = (s.modPort p (fun y => { y with rxSeq := (y.rxSeq + 1) % 2048, nak := false })).lcbIn p f.lcb ∧ x = u.port p ∧
      (x.cryptState = 2 → x.oldRx = none → 0 < x.group.length → x.group.length ≤ 16 → leAt f.body 16 1 = x.group.length → leAt f.body 17 39 = 0 →
        (leAt f.body 0 16 = (Config.gcmTag x.rxKey.key (x.rxKey.groupIv x.rxGroupNo) x.group).toNat →
          ∃ w, w = u.modPort p (fun y => { y with group := [], rxGroupNo := y.rxGroupNo + 1 }) ∧
            exec (.tag p f) s = .next (takeGroup p x.rxKey (x.rxKey.groupIv x.rxGroupNo) 0 x.group (w.emit (.lcb p (lcbAck 1 (w.port p).ackSeq false)))).stepCheck) ∧
        (leAt f.body 0 16 ≠ (Config.gcmTag x.rxKey.key (x.rxKey.groupIv x.rxGroupNo) x.group).toNat → x.tagFailAt = [] →
          exec (.tag p f) s = .next ((u.modPort p (fun y => { y with
            tagFails := y.tagFails + 1, tagFailAt := [u.clk], group := [], rxSeq := (y.rxSeq + 4095 - x.group.length) % 2048,
            nak := true, nakAt := u.clk, naksSent := y.naksSent + 1 })).emit (.lcb p (lcbAck 1 (((x.rxSeq + 4095 - x.group.length) % 2048 + 2047) % 2048) true))))) ∧
      (x.cryptState ≠ 2 → exec (.tag p f) s = .next (u.emit (.lcb p (lcbAck 1 x.ackSeq false))))) ∧
  (∀ (s : State) (p : Nat), (s.port p).st = .inService → (s.port p).nak = true → (s.port p).nakAt + 200 ≤ s.clk →
    exec (.nakRepeat p) s = .next ((s.modPort p (fun y => { y with nakAt := s.clk, naksSent := y.naksSent + 1 })).emit (.lcb p (lcbAck 1 (((s.port p).rxSeq + 2047) % 2048) true)))) ∧
  (∀ (s : State) (p : Nat), (s.port p).st = .inService → (s.port p).retry ≠ [] → (s.port p).ackAt + 1000 ≤ s.clk →
    exec (.replayTimeout p) s = .next { s.modPort p (fun y => { y with replays := y.replays + 1, flitsReplayed := y.flitsReplayed + y.retry.length, ackAt := s.clk }) with
      out := s.out ++ (s.port p).retry.map (fun f => .flit p f.seq ((s.port p).codewords % max 1 (popc 4 (s.port p).lanesIn)) f.lcb f.body) }) ∧
  (∀ (s : State) (p : Nat) (r : RetryFlit) (l : List RetryFlit), (s.port p).st = .inService → (s.port p).retry = r :: l → r.sentAt + 4000 ≤ s.clk →
    ∃ t, exec (.ackTimeout p) s = .next t ∧ GoesDown s t p 3) ∧
  (∀ (s : State) (p c : Nat), (s.port p).st = .inService → c < 10 →
    exec (.creditRefresh p c) s = .next (s.emit (.lcb p (lcbCredit 1 c (tget 0 (s.port p).ccOut c % 512))))) ∧
  (∀ (s : State) (p : Nat), (s.port p).cryptState = 2 → 2 ^ 40 ≤ (s.port p).txFlits → s.leads p = false →
    exec (.keyUpdate p) s = .next (s.modPort p (fun y => { y with
      secret := Config.updatedSecret y.secret, txKey := linkKey (Config.updatedSecret y.secret) false, rxKey := linkKey (Config.updatedSecret y.secret) true,
      oldRx := some y.rxKey, rxFlits := 0, txFlits := 0 })))

/-- Lanes in use: a faulty lane in service has the port ask for the mask without it, or go down where too few lanes are left, and a fault of a lane out of service changes
nothing but its count; an error-ratio window below both limits is only recorded; a NARROW that leaves enough lanes is agreed sixteen codewords on and acknowledged,
one that leaves too few takes the port down; it is repeated while not acknowledged and takes effect at its counter; a narrowing that is not over in 2 µs, lost signal and a
RETRAIN take the port down with their causes, and it idles 100 µs. -/
def Obligations.LaneCare : Prop :=
  (∀ (s : State) (l : Nat), (s.port (l / 4)).st ≠ .inService →
    exec (.laneFault l 1) s = .next (s.modLane l (fun x => { x with uncorrectable := x.uncorrectable + 4 })) ∧ exec (.laneFault l 0) s = .next s) ∧
  (∀ (s : State) (l p m : Nat), p = l / 4 → (s.port p).st = .inService → (s.port p).lanesIn &&& 2 ^ (l % 4) ≠ 0 → (s.port p).narrowing = none → (s.port p).test = none →
    m = (s.port p).lanesIn &&& (15 ^^^ 2 ^ (l % 4)) →
    (max 1 (s.port p).minWidth ≤ popc 4 m → exec (.laneFault l 0) s = .next ((s.modPort p (fun y => { y with
      narrowing := some { mask := m, sw := ((s.port p).codewords + 16) % 65536, acked := false,
                          since := s.clk, sentAt := s.clk } })).emit (.ctrl p 7 [m, 0, ((s.port p).codewords + 16) % 65536]))) ∧
    (popc 4 m < max 1 (s.port p).minWidth → ∃ t, exec (.laneFault l 0) s = .next t ∧ GoesDown s t p 5)) ∧
  (∀ (s : State) (l b : Nat), (s.lane l).st = 1 → (s.port (l / 4)).st = .inService → (s.lane l).winSince + 10000000 ≤ s.clk → f32Above b s.link.serAlarm = false →
    f32Above b s.link.serLimit = false → exec (.serWindow l b) s = .next (s.modLane l (fun y => { y with ser := b, winSince := s.clk }))) ∧
  (∀ (s : State) (p m w : Nat), (s.port p).st = .inService → m ≤ 15 → (s.port p).narrowing = none →
    (max 1 (s.port p).minWidth ≤ popc 4 m → exec (.narrow p m false w) s = .next ((s.modPort p (fun y => { y with
      narrowing := some {
        mask := m, sw := ((s.port p).codewords + 16) % 65536, acked := true,
        since := s.clk, sentAt := s.clk } })).emit (.ctrl p 7 [m, 1, ((s.port p).codewords + 16) % 65536]))) ∧
    (popc 4 m < max 1 (s.port p).minWidth → ∃ t, exec (.narrow p m false w) s = .next t ∧ GoesDown s t p 5)) ∧
  (∀ (s : State) (p : Nat) (n : Narrow), (s.port p).narrowing = some n →
    (n.acked = false → n.sentAt + 200 ≤ s.clk → exec (.narrowRepeat p) s =
      .next ((s.modPort p (fun x => { x with narrowing := some { n with sentAt := s.clk } })).emit (.ctrl p 7 [n.mask, 0, n.sw]))) ∧
    (∀ w, (s.port p).st = .inService → n.mask ≤ 15 → n.switched = false →
      exec (.narrow p n.mask true w) s = .next (s.modPort p (fun y => { y with narrowing := some { n with acked := true } }))) ∧
    (n.switched = false → n.acked = false → ∃ t, exec (.narrowSwitch p) s = .next t ∧ (t.port p).lanesIn = n.mask ∧
      (t.port p).lanesOut = ((s.port p).lanesIn ||| (s.port p).lanesOut) &&& (15 ^^^ n.mask) ∧ (t.port p).narrowing = some { n with switched := true } ∧ t.pool = s.pool ∧
      (∀ i, i < 4 → n.mask.testBit i = true → (t.lane (4 * p + i)).st = 1) ∧
      (∀ i, i < 4 → n.mask.testBit i = false → (s.port p).lanesIn.testBit i = true → (s.lane (4 * p + i)).st ≠ 3 → (t.lane (4 * p + i)).st = 2)) ∧
    (n.since + 2000 ≤ s.clk → ∃ t, exec (.narrowTimeout p) s = .next t ∧ GoesDown s t p 6)) ∧
  (∀ (s : State) (p : Nat) (b : Bool), (s.port p).st = .inService → s.dev.stepGroup = none →
    ∃ t, exec (.signalLost p b) s = .next t ∧ GoesDown s t p (if b then 2 else 1)) ∧
  (∀ (s : State) (p : Nat), (s.port p).idling = true → (s.port p).downAt + 100000 ≤ s.clk →
    exec (.downIdleEnd p) s = .next (s.modPort p (fun x => { x with idling := false }))) ∧
  (∀ (s : State) (p : Nat), (s.port p).st = .inService → ∃ t, exec (.retrain p) s = .next t ∧ GoesDown s t p 7)

/-- Bit-error tests between two ends: START is acknowledged and takes a LINKED port to TEST, ACK takes the leader to TEST, no ACK within 10 µs and a
STOP end the test ABORTED, the partner's counts are kept and with the own ones make a lane's verdict, results are repeated until the partner's arrive, a result that does not come
within 1 ms is ABORTED, and the test ends in DETECT with its counts. A completed eye scan of a lane leaves its record. -/
def Obligations.DiagMessages : Prop :=
  (∀ (s : State) (p m d : Nat), (s.port p).st = .linked → (s.port p).test = none → 0 < m → m ≤ 15 →
    ∃ t, exec (.diagStart p m d) s = .next t ∧ (t.port p).st = .test ∧ t.out.getLast? = some (.ctrl p 8 [m, 3, 1, d]) ∧
      (t.port p).test = some { lanes := m, dur := d, leader := false, window := false, acked := true, sent := true, since := s.clk, ended := false, endAt := 0,
                               results := [], peers := [] }) ∧
  (∀ (s : State) (p : Nat) (x : Test), (s.port p).test = some x → s.diagUsed p = true → x.leader = true → x.sent = true → x.acked = false → x.window = false →
    ∃ t, exec (.diagAck p x.lanes) s = .next t ∧ (t.port p).st = .test ∧ (t.port p).test = some { x with acked := true, since := s.clk }) ∧
  (∀ (s : State) (p : Nat) (x : Test), (s.port p).test = some x → (s.port p).st ≠ .inService → 0 < s.link.trainTries →
    (x.leader = true → x.sent = true → x.acked = false → x.since + 10000 ≤ s.clk → ∃ t, exec (.diagAckTimeout p) s = .next t ∧ (t.port p).st = .detect ∧
      (t.port p).test = none ∧ (∀ i, i < 4 → x.lanes.testBit i = true → (t.lane (4 * p + i)).bertRes = 3) ∧ t.pool = s.pool) ∧
    (s.diagUsed p = true → x.ended = false → ∃ t, exec (.diagStop p) s = .next t ∧ (t.port p).st = .detect ∧ (t.port p).test = none ∧
      (∀ i, i < 4 → x.lanes.testBit i = true → (t.lane (4 * p + i)).bertRes = 3) ∧ t.pool = s.pool)) ∧
  (∀ (s : State) (p l b n : Nat) (x : Test), (s.port p).test = some x → (s.port p).st = .inService → x.lanes.testBit l = true → l < 4 →
    (tfind x.results l = none → exec (.diagResult p l b n) s = .next (s.modPort p (fun y => { y with test := some { x with peers := tset x.peers l (b, n) } }))) ∧
    (∀ a, tfind x.results l = some a → ∃ t, exec (.diagResult p l b n) s = .next t ∧
      (t.lane (4 * p + l)).bertRes = (if s.bertMeets a = true ∧ s.bertMeets (b, n) = true then 1 else 2) ∧ t.pool = s.pool)) ∧
  (∀ (s : State) (p : Nat) (x : Test), s.linkUsed p = true → (s.port p).test = some x → x.ended = true → x.peers = [] → x.lanes ≤ 15 →
    exec (.diagResultRepeat p) s = .next { s with out := s.out ++ (bitsOf 4 x.lanes).map (fun i =>
      .ctrl p 8 [2 ^ i, 4, 1, 0, min (tget (0, 0) x.results i).1 (2 ^ 64 - 1), min (tget (0, 0) x.results i).2 (2 ^ 64 - 1)]) }) ∧
  (∀ (s : State) (p l : Nat) (x : Test), (s.port p).test = some x → x.ended = true → s.linkUsed p = true → x.lanes.testBit l = true → tfind x.peers l = none →
    x.endAt + 1000000 ≤ s.clk → x.lanes &&& (15 ^^^ 2 ^ l) = 0 →
    ∃ t, exec (.diagResultTimeout p l) s = .next t ∧ (t.port p).test = none ∧ (t.lane (4 * p + l)).bertRes = 3 ∧ t.pool = s.pool) ∧
  (∀ (s : State) (p : Nat) (c : List (Nat × Nat)) (x : Test), (s.port p).test = some x → (s.port p).st = .test → x.since + x.dur * 1000 ≤ s.clk → 0 < s.link.trainTries →
    ∃ t, exec (.testEnd p c) s = .next t ∧ (t.port p).st = .detect ∧ ∃ y, (t.port p).test = some y ∧ y.ended = true ∧
      y.results = (bitsOf 4 x.lanes).foldl (fun r i => tset r i (c.getD i (0, 0))) []) ∧
  (∀ (s : State) (l k a : Nat) (b c : Nat) (e : List Nat), (s.lane l).scanning = some a → k = 2 → (s.port (l / 4)).rate = 0 →
    ∃ r : EyeRec, exec (.eyeScanComplete l k b c 0 e) s = .next (s.modLane l (fun x => { x with eyeRec := some r, scanning := none })) ∧
      r.lane = l ∧ r.eye = 2 ∧ r.startSlot = a ∧ r.endSlot = s.slot ∧ r.vstep = b ∧ r.width = c ∧ r.baseline = false ∧ r.degraded = false)

-- The fabric

/-- A request that arrives well formed at an admission point goes into the queue of its route's port, charged there; one that is malformed, whose node is absent, whose flow is
marked, or whose generation is retired is answered MALFORMED, NODE_ABSENT, AGED or CTX_REVOKED by the hop; before the context table is ready it is answered RETRY_LATER, a
RESYNC AGED with its flow marked. A response and a BISNP go into the queue of their route, a response of this package to its requesters. A BIRSP at the pool home ends
its back-invalidate when it reports OK, and its request alone otherwise. -/
def Obligations.TransactionsArrive : Prop :=
  (∀ (s : State) (a : Nat) (c : Nat → Txn → Instr) (y : TType) (z x : Txn), (c, y) ∈ [(Instr.rd, TType.rd), (.wr, .wr), (.atom, .atom), (.resync, .resync)] →
    s.canArrive a = true → x = { z with ty := y } →
    (∀ q, s.malformedAt a x = false → s.sec.tableReady = true → s.retired x = false → flowHeld (s.holdsOf a) x = false → x.akind ≠ 1 →
      s.absent.contains (x.dest.getD 0xFFF) = false → s.vcAt a 0 < 5 → s.egress a (x.dest.getD 0xFFF) x.key = some q → q < 256 → s.sw.marks = [] → s.sw.repins = [] →
      s.sw.flood = false → s.xact.accEnable = false →
      ∃ t, exec (c a z) s = .next t ∧ Queued s t q 0 x a ∧ (t.admOf a (s.vcAt a 0)).held = (s.admOf a (s.vcAt a 0)).held + x.cells ∧ t.reqs = s.reqs ∧ t.pool = s.pool) ∧
    (∀ q st, s.egress a x.snode (x.fail st s.poolNode).key = some q → q < 256 →
      (s.malformedAt a x = true ∧ st = 9) ∨
      (s.malformedAt a x = false ∧ s.sec.tableReady = false ∧ y ≠ .resync ∧ st = 10) ∨
      (s.malformedAt a x = false ∧ s.sec.tableReady = false ∧ y = .resync ∧ st = 7) ∨
      (s.malformedAt a x = false ∧ s.sec.tableReady = true ∧ s.retired x = true ∧ st = 4) ∨
      (s.malformedAt a x = false ∧ s.sec.tableReady = true ∧ s.retired x = false ∧ flowHeld (s.holdsOf a) x = false ∧ x.akind ≠ 1 ∧
        ((s.absent.contains (x.dest.getD 0xFFF) = true ∧ st = 2) ∨
         (s.absent.contains (x.dest.getD 0xFFF) = false ∧ s.vcAt a 0 < 5 ∧ (s.egress a (x.dest.getD 0xFFF) x.key).isSome = true ∧ s.sw.flood = false ∧
          y ≠ .resync ∧ s.marked x a = true ∧ st = 7))) →
      ∃ t, exec (c a z) s = .next t ∧ Queued s t q (2 + 5 * (s.vcAt a 0 / 5)) (x.fail st s.poolNode) a ∧ t.reqs = s.reqs ∧ t.pool = s.pool) ∧
    (s.malformedAt a x = false → s.sec.tableReady = false → y = .resync → s.sw.flood = false → s.sw.marks = [] → (routeEnt s.tbl.active x.snode).wmode = false →
      ∃ t, exec (c a z) s = .next t ∧ t.marked x a = true)) ∧
  (∀ (s : State) (a q : Nat) (c : Nat → Txn → Instr) (y : TType) (z x : Txn), (c, y) ∈ [(Instr.rspData, TType.rspData), (.rspAtom, .rspAtom), (.rspDone, .rspDone)] →
    s.canArrive a = true → x = { z with ty := y } → s.retired x = false → s.vcAt a 2 < 5 → s.absent.contains x.dnode = false → s.egress a x.dnode x.key = some q →
    (q ≠ 256 → ∃ t, exec (c a z) s = .next t ∧ Queued s t q 2 x a ∧ t.reqs = s.reqs ∧ t.pool = s.pool) ∧
    (q = 256 → ∃ t, exec (c a z) s = .next t ∧ t.xact.inbox = s.xact.inbox ++ [x] ∧ t.reqs = s.reqs ∧ t.pool = s.pool)) ∧
  (∀ (s : State) (a q : Nat) (z x : Txn), s.canArrive a = true → x = { z with ty := .bisnp } → reqShapeOk x = true → s.vcAt a 1 < 5 → s.absent.contains x.dnode = false →
    s.egress a x.dnode x.key = some q → q ≠ 256 → ∃ t, exec (.bisnp a z) s = .next t ∧ Queued s t q 1 x a ∧ t.reqs = s.reqs ∧ t.pool = s.pool) ∧
  (∀ (s : State) (a l h : Nat) (x : Txn) (o : OutReq) (b : BackInv), s.canArrive a = true → x.dnode = s.poolNode → s.reqs = [(s.poolNode * 1048576 + x.tag, o)] →
    o.who = .backInv l h → s.pool.backInvs = [b] → b.line = l → b.host = h → s.hp = [] →
    (x.status = 0 → ∃ t, exec (.birsp a x) s = .next t ∧ t.reqs = [] ∧ t.pool.backInvs = [] ∧ t.pool.mem = s.pool.mem) ∧
    (x.status ≠ 0 → ∃ t, exec (.birsp a x) s = .next t ∧ t.reqs = [] ∧ t.pool = s.pool))

/-- The queues: a head that no check stops becomes ready on a fabric egress, one whose flow is marked is answered AGED and counted, one past its limit is melted; the sweep melts
what is past its limit and leaves the rest; a port sends the head of its one queue that can start, for the partner's credit; a REPIN window closes at its end and not
before; an accretion entry's hold ends at its time, at a port's queue with the entry ready.
Combining: a combined request without a response answers its contributors AGED and ends; with combining allowed again nothing else changes, and with combining turned
off every open entry is closed. -/
def Obligations.QueuesMove : Prop :=
  ((∀ (s : State) (g c q : Nat) (e : QEntry) (l : List QEntry), s.queue g c = e :: l → e.ready = false → e.acc = none → g < 256 → s.retired e.t = false →
    (s.tooOld e = false → s.sw.marks = [] → s.sw.repins = [] → exec (.queueHead g c) s = .next (s.setQueue g c ({ e with ready := true } :: l))) ∧
    (s.tooOld e = false → e.t.ty = .rd → s.marked e.t e.adm = true → s.egress e.adm e.t.snode (e.t.fail 7 s.poolNode).key = some q → q < 256 → c < 2 →
      ∃ t, exec (.queueHead g c) s = .next t ∧ t.queue g c = l ∧ Queued s t q (2 + 5 * (e.vc / 5)) (e.t.fail 7 s.poolNode) e.adm ∧
        t.sw.markDiscards = s.sw.markDiscards + 1 ∧ t.pool = s.pool) ∧
    (s.tooOld e = true → e.t.ty = .rd → s.egress e.adm e.t.snode (e.t.fail 7 s.poolNode).key = some q → q < 256 → c < 2 → s.sw.melted.length = 5 →
      ∃ t, exec (.queueHead g c) s = .next t ∧ t.queue g c = l ∧ Queued s t q (2 + 5 * (e.vc / 5)) (e.t.fail 7 s.poolNode) e.adm ∧
        t.sw.melted.getD 0 0 = s.sw.melted.getD 0 0 + 1 ∧ t.pool = s.pool)) ∧
  (∀ (s : State) (g q : Nat) (e f : QEntry), s.sw.queues = [(10 * g, [e, f])] → s.sw.lines = [] → s.tooOld e = true → s.tooOld f = false → e.t.ty = .rd → e.acc = none →
    s.egress e.adm e.t.snode (e.t.fail 7 s.poolNode).key = some q → q < 256 → s.sw.melted.length = 5 → s.sw.flood = false → s.sw.marks = [] →
    (routeEnt s.tbl.active e.t.snode).wmode = false →
    ∃ t, exec .meltSweep s = .next t ∧ t.queue g 0 = [f] ∧ Queued s t q (2 + 5 * (e.vc / 5)) (e.t.fail 7 s.poolNode) e.adm ∧ t.marked e.t e.adm = true ∧
      t.sw.melted.getD 0 0 = s.sw.melted.getD 0 0 + 1 ∧ t.pool = s.pool) ∧
  (∀ (s : State) (p c : Nat) (e : QEntry) (l : List QEntry), (s.port p).st = .inService → (s.port p).retry.length ≤ 1012 → (s.port p).cryptState ≠ 2 →
    (s.port p).utgeod = false → c < 5 → s.queue p c = e :: l → (∀ v, v < 10 → v ≠ c → s.queue p v = []) → e.ready = true → s.tooOld e = false → e.acc = none → s.farun = [] →
    e.t.cells ≤ tget 0 (s.port p).txCredit (s.partnerVc c) → e.t.words ≠ [] → e.t.words.length ≤ 7 →
    ∃ (t : State) (n b : Nat) (f : RetryFlit), exec (.portTransmit p) s = .next t ∧ t.queue p c = l ∧
      t.out = s.out ++ [.flit p (s.port p).txSeq n b (slice (e.t.words.flatMap (leBytes 8)) 0 56)] ∧ (t.port p).retry = (s.port p).retry ++ [f] ∧ f.seq = (s.port p).txSeq ∧
      f.txn = some e.t ∧ tget 0 (t.port p).txCredit (s.partnerVc c) = tget 0 (s.port p).txCredit (s.partnerVc c) - e.t.cells ∧ t.pool = s.pool) ∧
  (∀ (s : State) (r : Repin), s.sw.repins = [r] → (s.clk < r.until_ → exec .repinWindowEnd s = .next s) ∧
    (r.until_ ≤ s.clk → r.cause ≠ .switchOver → s.sw.marks = [] → s.sw.flood = false →
      exec .repinWindowEnd s = .next { s with sw := { s.sw with repins := [] } })) ∧
  (∀ (s : State) (g c h : Nat) (e : QEntry) (a : AccEntry) (l : List QEntry), e.acc = some a → a.hold = some h → a.openedAt + h ≤ s.clk →
    (s.lineQ g = e :: l → exec (.accHoldExpired 256 g) s = .next (s.setLineQ g ({ e with acc := some { a with hold := none } } :: l))) ∧
    (s.queue g c = e :: l → g < 256 → e.ready = false → s.tooOld e = false → s.retired e.t = false → s.sw.marks = [] → s.sw.repins = [] →
      ∃ t, exec (.accHoldExpired g c) s = .next t ∧ t.queue g c = { e with acc := some { a with hold := none }, ready := true } :: l ∧ t.pool = s.pool))) ∧
  ((∀ (s : State) (g p q : Nat) (o : OutReq) (a : AccEntry) (x y : Contrib), s.ownReq g = some o → o.who = .accretion a → a.contribs = [x, y] →
    s.egress x.adm x.t.snode (x.t.fail 7 s.poolNode).key = some p → s.egress y.adm y.t.snode (y.t.fail 7 s.poolNode).key = some q → p < 256 → q < 256 → p ≠ q →
    (o.issuedAt + s.ageLimit 0 + s.ageLimit 2 ≤ s.clk →
      ∃ t, exec (.accretionTimeout g) s = .next t ∧ t.ownReq g = none ∧ Queued s t p (2 + 5 * (x.vc / 5)) (x.t.fail 7 s.poolNode) x.adm ∧
        Queued s t q (2 + 5 * (y.vc / 5)) (y.t.fail 7 s.poolNode) y.adm ∧ t.pool = s.pool) ∧
    (s.clk < o.issuedAt + s.ageLimit 0 + s.ageLimit 2 → exec (.accretionTimeout g) s = .next s)) ∧
  (∀ (s : State) (v : VCtx), Write s v (0x1100, 1) [1] → Accepts (.accEnable v true) v s { s with xact := { s.xact with accEnable := true } }) ∧
  (∀ (s : State) (v : VCtx), Write s v (0x1100, 1) [0] → Accepts (.accEnable v false) v s { s with
    xact := { s.xact with accEnable := false },
    sw := { s.sw with queues := tmap s.sw.queues (fun _ q => q.map closeEntry), lines := tmap s.sw.lines (fun _ q => q.map closeEntry) } }))

/-- The home, for the request at the head of a line queue: a RESYNC is answered OK, one that the checks refused as it entered the queue with their status, one without room for
its response RETRY_LATER. On a line that no host holds a write puts its bytes at its address and leaves every other byte of the pool as it was; a read returns the bytes that
stand there and changes none; an atomic returns the old value and writes the new; a read and a write of part of a POISONED line are answered POISONED. On a line that a host
holds exclusively the request stays at the head while the host is back-invalidated. -/
def Obligations.HomePerforms : Prop :=
  ∀ (s : State) (g q : Nat) (e : QEntry) (l : List QEntry), s.lineQ g = e :: l → l.length < 4 → e.acc = none → e.accepted = none → s.cxlBefore g e.turn = false →
    s.retired e.t = false → s.tooOld e = false → s.sw.marks = [] → s.sw.repins = [] → s.egress 256 e.t.snode (hashKey (e.t.dest.getD s.poolNode) e.t.ctx e.t.flow e.t.snode) = some q → q < 256 →
    (s.canReserve 256 2 (rspCells e.t) = true →
      (∀ st : Nat, (e.t.ty = .resync ∧ st = 0) ∨ (∃ r : Status, e.t.ty ≠ .resync ∧ e.gate = some r ∧ 2 ≤ r.code ∧ st = r.code) →
        ∃ t, exec (.lineQueueHead g false) s = .next t ∧ t.lineQ g = l ∧ Queued s t q 2 (e.t.reply st (e.t.dest.getD s.poolNode) []) 256 ∧ t.pool.mem = s.pool.mem) ∧
      (∀ (x : Txn) (o k : Nat) (y : Ext), e.gate = none → x = e.homeTxn → x.ty = e.t.ty → x.size = e.t.size → inDoorbell x.off = false → o = s.poolOff x.addr → extOfOff s o = some (k, y) →
        s.holeFor x o = false → s.sealOk y x = true → y.mac = false →
        (s.dirOf (o / 64) = none → s.linePoison y o = 0 →
          (x.ty = .wr → MemSafe s → ∃ t, exec (.lineQueueHead g false) s = .next t ∧ t.lineQ g = l ∧ Queued s t q 2 (e.t.reply 0 (e.t.dest.getD s.poolNode) []) 256 ∧
            (∀ a, a < o ∨ o + x.len ≤ a → memGet t.pool.mem a = memGet s.pool.mem a) ∧
            (∀ i, i < x.len → memGet t.pool.mem (o + i) = (slice x.data (x.addr % 8) x.len).getD i 0)) ∧
          (x.ty = .rd → ∃ t b, exec (.lineQueueHead g false) s = .next t ∧ t.lineQ g = l ∧ Queued s t q 2 (e.t.reply 0 (e.t.dest.getD s.poolNode) b) 256 ∧
            slice b (x.addr % 8) x.len = s.poolRead o x.len ∧ t.pool.mem = s.pool.mem) ∧
          (x.ty = .atom → MemSafe s → ∃ t n, exec (.lineQueueHead g false) s = .next t ∧ t.lineQ g = l ∧ n = leNat (s.poolRead o x.len) ∧
            Queued s t q 2 (e.t.reply 0 (e.t.dest.getD s.poolNode) (atomData x.size n)) 256 ∧
            (∀ a, a < o ∨ o + x.len ≤ a → memGet t.pool.mem a = memGet s.pool.mem a) ∧
            (∀ i, i < x.len → memGet t.pool.mem (o + i) = (leBytes x.len (atomNew x.size n (atomOperands x).1 (atomOperands x).2)).getD i 0))) ∧
        (s.dirOf (o / 64) = none → s.linePoison y o ≠ 0 →
          (x.ty = .rd → ∃ t b, exec (.lineQueueHead g false) s = .next t ∧ t.lineQ g = l ∧ Queued s t q 2 (e.t.reply 1 (e.t.dest.getD s.poolNode) b) 256 ∧ t.pool.mem = s.pool.mem) ∧
          (x.ty = .wr → wholeLine x = false → ∃ t, exec (.lineQueueHead g false) s = .next t ∧ t.lineQ g = l ∧
            Queued s t q 2 (e.t.reply 1 (e.t.dest.getD s.poolNode) []) 256 ∧ t.pool.mem = s.pool.mem)) ∧
        (∀ (h : Nat) (d : DirEnt), s.dirOf (o / 64) = some d → d.excl = true → d.owner = h → (s.host h).st ≠ .dead → s.linePoison y o = 0 → x.ty = .rd ∨ x.ty = .wr →
          ∃ t b, exec (.lineQueueHead g false) s = .next t ∧ t.lineQ g = { e with accepted := some s.clk } :: l ∧ b ∈ t.pool.backInvs ∧ b.line = o / 64 ∧ b.host = h ∧
            t.pool.mem = s.pool.mem))) ∧
    (s.canReserve 256 2 (rspCells e.t) = false → e.t.ty ≠ .resync → ∀ p, s.egress e.adm e.t.snode (e.t.fail 10 s.poolNode).key = some p → p < 256 →
      ∃ t, exec (.lineQueueHead g false) s = .next t ∧ t.lineQ g = l ∧ Queued s t p (2 + 5 * (e.vc / 5)) (e.t.fail 10 s.poolNode) e.adm ∧ t.pool = s.pool)

/-- Requesters: a response that no outstanding request awaits, the second one to a request among them, is counted as a stray. A Farun end-point reports TIMEOUT
for a request without a response, resynchronises a broken flow, and issues the request of a declared engine through a port; a fence with nothing outstanding
succeeds, fails after a write that did not complete OK, and holds while a request of the engine is outstanding. -/
def Obligations.RequestersMatch : Prop :=
  (∀ (s : State) (r : Txn) (l : List Txn), s.xact.inbox = r :: l → tfind s.reqs (r.dnode * 1048576 + r.tag) = none → s.isFarun r.dnode = false →
    exec .responseAtRequester s = .next { s with xact := { s.xact with inbox := l, strayRsp := s.xact.strayRsp + 1 } }) ∧
  (∀ (s : State) (r : Txn) (l : List Txn) (o : OutReq), s.xact.inbox = r :: l → tfind s.reqs (r.dnode * 1048576 + r.tag) = some o → o.resp ≠ none →
    s.isFarun r.dnode = false →
    exec .responseAtRequester s = .next { s with xact := { s.xact with inbox := l, strayRsp := s.xact.strayRsp + 1 } }) ∧
  (∀ (s : State) (n g i : Nat) (o : OutReq), tfind s.reqs (n * 1048576 + g) = some o → o.resp = none → o.waitUntil = none → o.issuedAt + o.timeout ≤ s.clk →
    o.who = .farun i → g < 1048576 → o.t.tag = g → s.isFarun n = true → s.settled = true → (s.farunOf n).releases = [] →
    ∃ t, exec (.requestTimeout n g) s = .next t ∧ tfind t.reqs (n * 1048576 + g) = none ∧ .report n g .timeout ∈ t.out ∧ t.pool = s.pool) ∧
  (∀ (s : State) (n e c k d p : Nat), (s.farunOf n).broken.contains (c, k, d) = true → d < 4096 → e < (s.farunOf n).engines → (s.farunOf n).fencing.contains e = false →
    (s.farunOf n).acquiring.contains e = false → s.reqs = [] → (s.farunOf n).absent.contains d = false → (s.farunOf n).releases = [] →
    s.farunPort n (s.farunPorts n (some d)) { resyncTxn c k d with kgen := (s.ctx c).kgen } (some d) = some p →
    ∃ t g o, exec (.resyncIssue ⟨n, e⟩ c k d) s = .next t ∧ tfind t.reqs (n * 1048576 + g) = some o ∧ o.who = .farunSync e ∧ o.t.ty = .resync ∧ o.t.ctx = c ∧
      o.t.flow = k ∧ o.t.dest = some d ∧ o.issuedAt = s.clk ∧ t.out = s.out ++ [.farun n p o.t] ∧ (t.farunOf n).broken.contains (c, k, d) = false) ∧
  (∀ (s : State) (n i : Nat), s.isFarun n = true → i < (s.farunOf n).engines → (s.farunOf n).releases = [] →
    (s.farunOutstanding n i = false → (s.farunOf n).failedW.contains i = false → (s.farunOf n).unsync = [] →
      ∃ t, exec (.fence n i) s = .next t ∧ t.out = s.out ++ [.fence n i true] ∧ (t.farunOf n).fenced.contains i = true ∧ (t.farunOf n).fencing.contains i = false) ∧
    (s.farunOutstanding n i = false → (s.farunOf n).failedW.contains i = true →
      ∃ t, exec (.fence n i) s = .next t ∧ t.out = s.out ++ [.fence n i false] ∧ (t.farunOf n).fencing.contains i = false) ∧
    (s.farunOutstanding n i = true → ∃ t, exec (.fence n i) s = .next t ∧ t.out = s.out ∧ (t.farunOf n).fencing.contains i = true)) ∧
  (∀ (s : State) (n i p d : Nat) (x : Txn), s.isFarun n = true → s.farunNode n = n → x.ty = .rd → x.akind = 0 → i < (s.farunOf n).engines →
    (s.farunOf n).fencing = [] → (s.farunOf n).acquiring = [] → (s.farunOf n).releases = [] → s.farunWaits n { ownFa n x with snode := n } = false →
    s.farunDest n { ownFa n x with snode := n } = some d → d ≠ n → (s.farunOf n).absent.contains d = false →
    s.farunPort n (s.farunPorts n (some d)) { ownFa n x with snode := n } (some d) = some p →
    ∃ t g o, exec (.farunIssue n i { txn := x }) s = .next t ∧ tfind t.reqs (n * 1048576 + g) = some o ∧ o.who = .farun i ∧ o.issuedAt = s.clk ∧ o.t.ty = .rd ∧
      o.t.addr = (ownFa n x).addr ∧ o.t.snode = n ∧ o.t.tag = g ∧ t.out = s.out ++ [.farun n p o.t])

/-- Notices: a NODE_LEAVE with a kind of Table 16-5 and no later notice in force makes its node absent here, counts the departure, keeps its slot, drops the marks whose source the node is
and excludes its package where the kind says so; RETURNED ends the absence, and from the node's own package the exclusion; an older notice changes nothing; one of another kind or with a reserved bit is counted and discarded.
Messages: one with a reserved bit or a kind without a meaning is counted and discarded, the answer to a request for the context table sets a binding and its generation, and the end of
the last answer awaited makes the table ready. -/
def Obligations.NoticesArrive : Prop :=
  (∀ (s : State) (a : Nat) (x : Txn), s.canArrive a = true → x.dnode = s.poolNode →
    (x.rsvd = 0 → s.ownNodes.contains x.lnode = false → tget 0 s.noticeSlot x.lnode ≤ x.slot →
      (x.mkind ≤ 4 → s.ops.insts = [] → s.pool.landed = [] → s.xl.wds = [] → s.sec.changes = [] →
        ∃ t, exec (.nodeLeave a x) s = .next t ∧ t.absent.contains x.lnode = true ∧ (∀ n, n ≠ x.lnode → t.absent.contains n = s.absent.contains n) ∧
          t.departures = s.departures + 1 ∧ tget 0 t.noticeSlot x.lnode = x.slot ∧ t.sw.marks = s.sw.marks.filter (fun m => !(m.snode == x.lnode)) ∧
          (x.mkind = 4 → ∀ p, s.nodePkg x.lnode = some p → t.excluded.contains p = true) ∧ t.pool = s.pool) ∧
      (x.mkind = 8 → ∃ t, exec (.nodeLeave a x) s = .next t ∧ t.absent.contains x.lnode = false ∧ (∀ n, n ≠ x.lnode → t.absent.contains n = s.absent.contains n) ∧
        tget 0 t.noticeSlot x.lnode = x.slot ∧ (∀ p, s.nodePkg x.lnode = some p → (s.nodePkg x.snode = some p → t.excluded.contains p = false) ∧ (s.nodePkg x.snode ≠ some p → t.excluded = s.excluded)) ∧
        t.pool = s.pool)) ∧
    (x.rsvd = 0 → x.mkind ≤ 4 → x.slot < tget 0 s.noticeSlot x.lnode →
      ∃ t, exec (.nodeLeave a x) s = .next t ∧ t.absent = s.absent ∧ t.departures = s.departures ∧ t.noticeSlot = s.noticeSlot ∧ t.pool = s.pool) ∧
    (x.rsvd ≠ 0 ∨ (4 < x.mkind ∧ x.mkind ≠ 8) →
      ∃ t, exec (.nodeLeave a x) s = .next t ∧ t.xact.mgtDiscarded = s.xact.mgtDiscarded + 1 ∧ t.absent = s.absent ∧ t.departures = s.departures ∧ t.pool = s.pool)) ∧
  (∀ (s : State) (a : Nat) (x : Txn), s.canArrive a = true → x.dnode = s.poolNode →
    (x.rsvd ≠ 0 ∨ x.mkind = 0 ∨ 12 < x.mkind → ∃ t, exec (.mgtMsg a x) s = .next t ∧ t.xact.mgtDiscarded = s.xact.mgtDiscarded + 1 ∧ t.xl = s.xl ∧ t.sec = s.sec ∧ t.pool = s.pool) ∧
    (x.rsvd = 0 → x.mkind = 5 → ∃ t, exec (.mgtMsg a x) s = .next t ∧ t.bind (field x.mword 0 16) = bindOf (field x.mword 48 128) ∧
      tget 0 t.xl.xgen (field x.mword 0 16) = field x.mword 16 32 ∧ (∀ c, c ≠ field x.mword 0 16 → t.bind c = s.bind c) ∧ t.pool = s.pool) ∧
    (x.rsvd = 0 → x.mkind = 6 → s.sec.tableWait = [x.snode] → ∃ t, exec (.mgtMsg a x) s = .next t ∧ t.sec.tableReady = true ∧ t.sec.tableWait = [] ∧ t.xl = s.xl ∧ t.pool = s.pool) ∧
    (∀ n, x.rsvd = 0 → x.mkind = 6 → s.sec.tableWait = [x.snode, n] → n ≠ x.snode →
      ∃ t, exec (.mgtMsg a x) s = .next t ∧ t.sec.tableReady = false ∧ t.sec.tableWait = [n] ∧ t.xl = s.xl ∧ t.pool = s.pool))

-- Rings and movers

/-- RING.CFG and RING.CTL: ENABLE takes a DISABLED ring to RUNNING with every index zero, or is REFUSED where it asks for a reserved field; the same
record with ENABLE = 0 drains a RUNNING ring; a DISABLED ring takes a new configuration; RESTART of a ring that may restart is performed.
Doorbells: a TAIL within the depth of a RUNNING ring is set and starts the fetch, a CMPL_HEAD within it is set, and a doorbell of another width is
ignored and counted. -/
def Obligations.RingConfiguration : Prop :=
  (∀ (s : State) (v : VCtx) (n c : Nat), (s.epochRec (.ring n)).epoch = v.epoch →
    (Write s v (ringCfgObj n) (leBytes 32 (c / 2 * 2 + 1)) → ringRangeOk (ringCfgOf (c / 2 * 2 + 1)) = true → (ringCfgOf (c / 2 * 2 + 1)).rsvd = 0 →
      (s.ring n).st = .disabled → s.ringCfgOk n (ringCfgOf (c / 2 * 2 + 1)) = true → s.inService = true →
      Accepts (.ringEnable v n c) v s (s.modRing n (fun r => { r with
        cfg := ringCfgOf (c / 2 * 2 + 1), st := .running, head := 0, tail := 0, cmplTail := 0, cmplHead := 0, fetched := [], work := [], notifies := [] }) |>.clearWaits n)) ∧
    (Write s v (ringCfgObj n) (leBytes 32 (c / 2 * 2 + 1)) → ringRangeOk (ringCfgOf (c / 2 * 2 + 1)) = true → (ringCfgOf (c / 2 * 2 + 1)).rsvd ≠ 0 →
      Aborts (.ringEnable v n c) v s 0x0A) ∧
    (Write s v (ringCfgObj n) (leBytes 32 (c / 2 * 2)) → ringRangeOk (ringCfgOf (c / 2 * 2)) = true → (ringCfgOf (c / 2 * 2)).rsvd = 0 → (s.ring n).st = .running →
      ringCfgOf (c / 2 * 2) = { (s.ring n).cfg with enable := false } →
      ∃ w : State, Accepts (.ringDisable v n c) v s w ∧ (w.ring n).st = .draining ∧ (w.ring n).cfg = ringCfgOf (c / 2 * 2) ∧ w.pool = s.pool) ∧
    (Write s v (ringCfgObj n) (leBytes 32 (c / 2 * 2)) → ringRangeOk (ringCfgOf (c / 2 * 2)) = true → (ringCfgOf (c / 2 * 2)).rsvd = 0 → (s.ring n).st = .disabled →
      s.ringCfgOk n (ringCfgOf (c / 2 * 2)) = true →
      Accepts (.ringConfigure v n c) v s (s.modRing n (fun r => { r with cfg := ringCfgOf (c / 2 * 2) }))) ∧
    (∀ x, x < 2 ^ 32 → Write s v (ringCtlObj n) (leBytes 8 (1 + 2 ^ 32 * x)) → (s.ring n).st = .halted → idxSub (s.ring n).tail x ≤ (s.ring n).depth →
      idxSub x (s.ring n).cmplHead ≤ (s.ring n).depth → s.absent = [] →
      ∃ w : State, Accepts (.restart v n x) v s w ∧ (w.ring n).st = .running ∧ (w.ring n).cmplTail = x ∧ (w.ring n).work = [] ∧ (w.ring n).cfg = (s.ring n).cfg ∧
        w.pool = s.pool) ∧
    (∀ x, x < 2 ^ 32 → Write s v (ringCtlObj n) (leBytes 8 (1 + 2 ^ 32 * x)) → (s.ring n).st ≠ .halted → Aborts (.restart v n x) v s 0x0A)) ∧
  (∀ (s : State) (n x : Nat), (s.ring n).st = .running → (s.ctx (s.ring n).cfg.ctx).st = .active → x < 2 ^ 32 →
    (idxSub x (s.ring n).head ≤ (s.ring n).depth → exec (.tail n x 4) s = .next ((s.modRing n (fun y => { y with tail := x })).fetchNext n)) ∧
    (idxSub (s.ring n).cmplTail x ≤ (s.ring n).depth → exec (.cmplHead n x 8) s = .next (s.modRing n (fun y => { y with cmplHead := x }))) ∧
    (∀ w, w ≠ 4 → w ≠ 8 → exec (.tail n x w) s = .next { s with mov := { s.mov with dbIgnored := s.mov.dbIgnored + 1 } } ∧
      exec (.cmplHead n x w) s = .next { s with mov := { s.mov with dbIgnored := s.mov.dbIgnored + 1 } }))

/-- Descriptors. A NOP that its slice chooses is done, or leaves its signal to go. A COPY, a FILL and an ATOMIC take their snapshot once their operands are
translated, and write it to bytes 64 to 95 of their slot; a FILL of length 0 then ends OK. An ATOMIC that its slice chooses issues its one atomic at the
snapshot's address. An OP_LAUNCH that its slice chooses ends MALFORMED for no runs, begins run 0 under the built-in default, and arms its instance for the run-start
slot under an image. -/
def Obligations.DescriptorsBegin : Prop :=
  (∀ (s u : State) (n : Nat) (w : Work), s.picked n 0 = some (w, u) →
    (w.d.signal = false → exec (.nop n) s = .next (u.modWork n w.idx (fun y => { y with status := some .ok }))) ∧
    (w.d.signal = true → exec (.nop n) s = .next (u.modWork n w.idx (fun y => { y with next := 1 })))) ∧
  (∀ (s : State) (n : Nat) (w : Work) (a b : MTrans), (s.ring n).work = [w] → w.status = none → w.snapped = false → w.fails = [] → s.acquiring n = false →
    s.opFault n w 0 = none → s.operands n w 0 = (some a, some b) →
    ∀ c : Instr, (c = .copy n ∧ w.d.opcode = 1) ∨ (c = .fill n ∧ w.d.opcode = 2 ∧ w.next ≠ w.d.len) ∨ (c = .atomic n ∧ w.d.opcode = 3) →
      ∃ (t : State) (y : Work), exec c s = .next t ∧ (t.ring n).work = [y] ∧ y.idx = w.idx ∧ y.snapped = true ∧ y.snapSrc = a.fa ∧ y.snapDst = b.fa ∧ y.srcPg = a.pg ∧
        y.dstPg = b.pg ∧ y.status = none ∧ t.pool = s.pool ∧
        Issues s t { ty := .wr, size := 31, ctx := (s.ring n).cfg.ctx, flow := n % 8, addr := (s.ring n).cfg.descBase + 128 * (w.idx % (s.ring n).depth) + 64,
                     data := snapBytes y } (.snapWrite n w.idx)) ∧
  (∀ (s : State) (n : Nat) (w : Work) (b : MTrans), (s.ring n).work = [w] → w.status = none → w.snapped = false → w.fails = [] → s.acquiring n = false →
    s.opFault n w 0 = none → s.operand n (s.ring n).cfg.ctx w.d.dstKind w.d.dst 1 = some b → w.d.opcode = 2 → w.d.len = 0 → w.next = 0 → w.tiles = [] →
    w.d.signal = false →
    ∃ (t : State) (y : Work), exec (.fill n) s = .next t ∧ (t.ring n).work = [y] ∧ y.snapped = true ∧ y.status = some .ok ∧ t.pool = s.pool) ∧
  (∀ (s u : State) (n : Nat) (w : Work), (s.ring n).work.find? (fun w => w.d.opcode == 3 && w.status.isNone && !w.snapped) = none → s.picked n 3 = some (w, u) →
    w.snapOk = true →
    ∃ t, exec (.atomic n) s = .next t ∧ t.pool = s.pool ∧ Issues s t {
      ty := .atom, akind := if w.dstAt.isSome then 3 else 0, home := w.dstAt, size := w.d.atop, ctx := (s.ring n).cfg.ctx, flow := n % 8, addr := w.snapDst % 2 ^ 57,
      data := atomicPayload w.d } (.atomicDesc n w.idx)) ∧
  (∀ (s u : State) (n : Nat) (w : Work), s.picked n 0x10 = some (w, u) →
    (field w.d.oparg 16 16 = 0 → exec (.opLaunch n) s = .next (u.modWork n w.idx (fun y => { y with status := some .malformed }))) ∧
    (∀ (i : Nat) (en : OpsEntry), field w.d.oparg 0 12 = i → field w.d.oparg 12 4 = 0 → field w.d.oparg 72 24 = 0 → field w.d.oparg 128 128 = 0 →
      field w.d.oparg 16 16 ≠ 0 → opsEntryAt s.opsActive i = en → en.opkind ≠ 0 → en.opkind < 9 → (s.ring n).cfg.ctx = en.ctx → s.ops.enable = true →
      s.dev.phase ≠ .drain → (s.inst i).st = .idle →
      (s.opsActive.version = 0 → s.absent = [] → ∃ t, exec (.opLaunch n) s = .next t ∧ (t.inst i).st = .running ∧ (t.inst i).entry = en ∧
        (t.inst i).nruns = field w.d.oparg 16 16 ∧ (t.inst i).run = field w.d.oparg 96 32 ∧ (t.inst i).phase = 0 ∧ (t.inst i).credit = true ∧ (t.inst i).ring = n ∧
        t.pool = s.pool) ∧
      (∀ b, s.opsActive.version ≠ 0 → s.runStartSlot s.opsActive i (field w.d.oparg 32 40) = some b →
        ∃ t, exec (.opLaunch n) s = .next t ∧ (t.inst i).st = .armed ∧ (t.inst i).entry = en ∧ (t.inst i).nruns = field w.d.oparg 16 16 ∧
          (t.inst i).run = field w.d.oparg 96 32 ∧ (t.inst i).startSlot = b ∧ (t.inst i).ring = n ∧ t.pool = s.pool)))

/-- Engine tiles and their ends: a slice starts the next tile of the ring that it chooses, at the translated addresses and up to its boundary; a line that failed
RETRY_LATER is issued again after its wait; a descriptor's signal is released once its data is done and nothing of the ring is outstanding, and performed it ends the
descriptor OK; completion records are written in ring order, one at a time, once the slot is free; the vector is raised at its host port; a DRAINING
ring with every started descriptor finished is DISABLED. -/
def Obligations.DescriptorsEnd : Prop :=
  (∀ (s u : State) (g n : Nat) (w : Work) (a b : MTrans), s.pick g = some (n, w, u) → w.smallReady = false → w.tiles.find? (fun t => t.cut) = none →
    s.tileXlate n w w.next = some (a, b) → w.fails = [] →
    ∃ t, exec (.engineTileStart g) s = .next t ∧ t.pool = s.pool ∧ ∃ y ∈ (t.ring n).work, y.idx = w.idx ∧ y.next = tileEnd w a.pg b.pg w.next ∧
      ∃ e ∈ y.tiles, e.start = w.next ∧ e.len = tileEnd w a.pg b.pg w.next - w.next ∧ e.src = a.fa ∧ e.dst = b.fa) ∧
  (∀ (s : State) (g n i : Nat) (o : OutReq) (r : Txn), s.ownReq g = some o → o.resp = some r → o.who = .signal n i → r.status = 0 → (s.ring n).resuming = false →
    ∃ t, exec (.moverLineResponse g) s = .next t ∧ t.reqs = terase s.reqs (s.poolNode * 1048576 + g) ∧ t.pool = s.pool ∧
      ∀ w ∈ (t.ring n).work, w.idx = i → w.sig = 2 ∧ w.status = some .ok) ∧
  (∀ (s : State) (g x n i no pos len : Nat) (o : OutReq), s.ownReq g = some o → o.waitUntil = some x → x ≤ s.clk →
    (o.who = .moverRead n i no pos len ∨ o.who = .moverWrite n i no pos len) → s.staleLine o.who = false → s.acquiring n = false →
    ∃ t, exec (.moverRetry g) s = .next t ∧ t.pool = s.pool ∧ t.mov = s.mov ∧
      t.ownReq g = some { o with issuedAt := s.clk, resp := none, waitUntil := none, tries := o.tries + 1 }) ∧
  (∀ (s : State) (n a b : Nat) (w : Work), (s.ring n).st = .running → (s.ring n).work = [w] → w.d.signal = true → w.sig = 0 → w.dataDone = true →
    s.ringOut n = false → w.snapBad = none →
    s.operand n (s.ring n).cfg.ctx w.d.dstKind w.d.sigAddr (if w.d.sigAdd then 2 else 1) = some { fa := a, pg := b } →
    ∃ t, exec (.descriptorSignal n) s = .next t ∧ t.pool = s.pool ∧ (∀ y ∈ (t.ring n).work, y.sig = 1) ∧
      (w.d.sigAdd = false → Issues s t { storeTxn (s.ring n).cfg.ctx a w.d.sigValue 8 (n % 8) with home := none } (.signal n w.idx)) ∧
      (w.d.sigAdd = true → Issues s t { storeTxn (s.ring n).cfg.ctx a w.d.sigValue 8 (n % 8) with ty := .atom, size := 0x10, home := none } (.signal n w.idx))) ∧
  (∀ (s : State) (n : Nat) (w : Work) (st : Status), (s.ring n).st = .running → s.recording n = false → s.acquiring n = false → (s.ring n).nextRecord = some w →
    w.status = some st → idxSub w.idx (s.ring n).cmplHead < (s.ring n).depth →
    ∃ t, exec (.completionRecord n) s = .next t ∧ t.pool = s.pool ∧ t.mov = s.mov ∧ Issues s t {
      ty := .wr, size := 31, ctx := (s.ring n).cfg.ctx, flow := n % 8, addr := (s.ring n).cfg.cmplBase + 32 * (w.idx % (s.ring n).depth),
      data := recordBytes (s.ring n) w st } (.complWrite n w.idx)) ∧
  (∀ (s : State) (n i : Nat) (l : List Nat), (s.ring n).notifies = i :: l →
    ∃ t, exec (.notificationVector n) s = .next t ∧ t.out.getLast? = some (.msix (field (s.ring n).cfg.notifyVec 11 3) (field (s.ring n).cfg.notifyVec 0 11)) ∧
      tget 0 (t.host (field (s.ring n).cfg.notifyVec 11 3)).msix (field (s.ring n).cfg.notifyVec 0 11) =
        tget 0 (s.host (field (s.ring n).cfg.notifyVec 11 3)).msix (field (s.ring n).cfg.notifyVec 0 11) + 1 ∧ t.pool = s.pool) ∧
  (∀ (s : State) (n : Nat), (s.ring n).st = .draining → s.ringOut n = false → (∀ w ∈ (s.ring n).work, w.tiles = [] ∨ w.status ≠ none) →
    ∃ t, exec (.ringDrainEnd n) s = .next t ∧ (t.ring n).st = .disabled ∧ (t.ring n).work = [] ∧ (t.ring n).fetched = [] ∧ (∀ m, m ≠ n → t.ring m = s.ring m) ∧
      t.pool = s.pool)

-- Translation

/-- Bindings and withdrawals by command: a first binding takes effect at once (log 24); another binding of a bound context starts the withdrawal of the
whole context, after which it takes effect; one on a context whose change is under way is REFUSED. A withdrawal of a valid range runs at its home, raising the
generation of its context in the context form alone; one of length 0 is out of RANGE. -/
def Obligations.BindingsAndWithdrawals : Prop :=
  (∀ (s : State) (v : VCtx) (c r : Nat), Write s v (bindObj c) (leBytes 16 r) → (bindOf r).mode = 1 → bindFieldsOk r = true → (bindOf r).homeNode = s.poolNode →
    ((s.bind c).mode = 0 → s.bindBusy c = false → s.wdActive < 256 →
      ∃ w : State, Accepts (.ctxBind v c r) v s w ∧ w.bind c = bindOf r ∧ (∀ d, d ≠ c → w.bind d = s.bind d) ∧ w.xl.wds = s.xl.wds ∧ w.pool = s.pool) ∧
    ((s.bind c).mode ≠ 0 → (s.bind c).homeNode = s.poolNode → s.bind c ≠ bindOf r → s.bindBusy c = false → s.wdActive < 256 →
      ∃ (w : State) (x : Withdrawal), Accepts (.ctxBind v c r) v s w ∧ w.bind c = s.bind c ∧ w.xl.binding.contains c = true ∧ x ∈ w.xl.wds ∧ x.running = true ∧
        x.fa = false ∧ x.ctx = c ∧ x.base = 0 ∧ x.len2m = 2 ^ 36 ∧ x.cause = .bind c (bindOf r) ∧
        tget 0 w.xl.xgen c = (tget 0 s.xl.xgen c + 1) % 2 ^ 32 ∧ w.pool = s.pool) ∧
    ((s.bind c).mode = 0 → s.bindBusy c = true → Aborts (.ctxBind v c r) v s 0x0A)) ∧
  (∀ (s : State) (v : VCtx) (r : Nat), Write s v withdrawObj (leBytes 40 (r / 2 * 2)) →
    (1 ≤ field r 64 64 → field r 64 64 ≤ 2 ^ 36 → field r 1 7 = 0 → field r 24 40 = 0 → field r 128 64 % 2 ^ 21 = 0 → isFa (field r 192 64) = true →
      field r 192 64 % 8 = 0 → s.wdActive < 256 → (s.bind (field r 8 16)).mode ≠ 0 → (s.bind (field r 8 16)).homeNode = s.poolNode →
      ∃ (w : State) (x : Withdrawal), Accepts (.withdrawContext v r) v s w ∧ x ∈ w.xl.wds ∧ x.running = true ∧ x.fa = false ∧ x.ctx = field r 8 16 ∧
        x.base = field r 128 64 ∧ x.len2m = field r 64 64 ∧ x.nfa = field r 192 64 ∧ x.nval = field r 256 64 ∧ x.cause = .software ∧
        tget 0 w.xl.xgen (field r 8 16) = (tget 0 s.xl.xgen (field r 8 16) + 1) % 2 ^ 32 ∧ w.pool = s.pool) ∧
    (field r 64 64 = 0 → Aborts (.withdrawContext v r) v s 0x09)) ∧
  (∀ (s : State) (v : VCtx) (r : Nat), Write s v withdrawObj (leBytes 40 (r / 2 * 2 + 1)) → 1 ≤ field r 64 64 → field r 64 64 ≤ 2 ^ 36 → field r 1 7 = 0 →
    field r 24 40 = 0 → field r 128 64 % 2 ^ 21 = 0 → isFa (field r 192 64) = true → field r 192 64 % 8 = 0 → s.wdActive < 256 → field r 8 16 = 0 →
    isFa (field r 128 64) = true →
    ∃ (w : State) (x : Withdrawal), Accepts (.withdrawFa v r) v s w ∧ x ∈ w.xl.wds ∧ x.running = true ∧ x.fa = true ∧ x.base = field r 128 64 ∧
      x.len2m = field r 64 64 ∧ x.nfa = field r 192 64 ∧ x.nval = field r 256 64 ∧ x.cause = .software ∧ w.xl.xgen = s.xl.xgen ∧ w.pool = s.pool)

/-- Notices between packages: a context-form notice of another home sets the context's generation and, under no direct use of what it covers, removes every
translation that it covers from the tile caches and is noted until its done notice; at its time D a notice with no line of an affected tile outstanding is done, this
package's own at once; a done notice of the last package awaited completes a withdrawal of software without a store; one whose time is over is
FAILED and counted; a completion store's OK response ends it. -/
def Obligations.WithdrawalNotices : Prop :=
  (∀ (s : State) (h i c b l g : Nat), h ≠ s.poolNode → s.xact.held = [] →
    ∃ (t : State) (n : WdNotice), exec (.withdrawalNotice h i false c b l g none) s = .next t ∧ tget 0 t.xl.xgen c = g ∧ n ∈ t.xl.notices ∧ n.home = h ∧ n.id = i ∧
      s.clk ≤ n.d ∧ (∀ (k : Nat) (e : TEntry), e ∈ t.cacheOf k → e ∈ s.cacheOf k ∧ wdMatch false c b l e.ctx e.va e.fa (pageSize e.size) = false) ∧ t.pool = s.pool) ∧
  (∀ (s : State) (n : WdNotice) (h i : Nat), s.xl.notices = [n] → n.home = h → n.id = i → n.d ≤ s.clk → (∀ l ∈ n.lines, s.tileBusy l = false) →
    (h ≠ s.poolNode → ∃ t, exec (.doneNoticeSend h i) s = .next t ∧ t.xl.notices = [] ∧ t.pool = s.pool) ∧
    (∀ w, h = s.poolNode → s.xl.wds = [w] → w.id = i → w.running = true → w.finished = false → w.waiting = [h] → w.cause = .software → w.nfa = 0 →
      s.xl.invQueue = [] → ∃ t, exec (.doneNoticeSend h i) s = .next t ∧ t.xl.notices = [] ∧ t.xl.wds = [] ∧ t.pool = s.pool)) ∧
  (∀ (s : State) (f : Nat) (w : Withdrawal), s.xl.wds = [w] → w.running = true → w.finished = false →
    (∀ g, w.waiting = [f, g] → f ≠ g → ∃ t, exec (.doneNotice f w.id) s = .next t ∧ t.xl.wds = [{ w with waiting := [g] }] ∧ t.pool = s.pool) ∧
    (w.waiting = [f] → w.cause = .software → w.nfa = 0 → s.xl.invQueue = [] → ∃ t, exec (.doneNotice f w.id) s = .next t ∧ t.xl.wds = [] ∧ t.pool = s.pool) ∧
    (w.waiting = [f] → w.cause = .software → w.nfa ≠ 0 → s.xl.invQueue = [] → ∃ t, exec (.doneNotice f w.id) s = .next t ∧
      t.xl.wds = [{ w with waiting := [], finished := true }] ∧ t.pool = s.pool ∧ Issues s t (storeTxn 0 w.nfa w.nval 8 0) (.notify 0 w.id))) ∧
  (∀ (s : State) (w : Withdrawal), s.xl.wds = [w] → w.running = true → w.finished = false → w.since + s.xl.wdTimeout * 1000 ≤ s.clk → w.waiting = [] →
    w.cause = .software → s.xl.invQueue = [] →
    ∃ t, exec (.withdrawalTimeout w.id) s = .next t ∧ t.xl.wds = [] ∧ t.xl.wdFailed = s.xl.wdFailed + 1 ∧ t.pool = s.pool ∧ t.reqs = s.reqs) ∧
  (∀ (s : State) (g i : Nat) (o : OutReq) (r : Txn), s.ownReq g = some o → o.who = .notify 1 i → o.resp = some r → r.status = 0 →
    ∃ t, exec (.notifyStoreResponse g) s = .next t ∧ t.reqs = terase s.reqs (s.poolNode * 1048576 + g) ∧ t.xl = s.xl ∧ t.pool = s.pool)

/-- Walkers: a free walker with a miss of a TABLE binding of this home reads the entry of the first level; an entry read that returns a pointer has the next
level read, a leaf that no notice overtook fills the cache of the tile that waits and frees the walker, and one that failed is logged and ends the walk XLATE_FAULT;
a walk past `XL.XLATE_TIMEOUT` ends XLATE_FAULT for the mover that waits; a request held for `XL.HOLD_MAX` is completed RETRY_LATER and counted; a mover's wait
of `XL.SLOW_WAIT` for room in the queue of misses ends as a fault; a MOVING entry is read again at its time. -/
def Obligations.WalksProceed : Prop :=
  (∀ (s : State) (w : Nat) (m : Miss) (l : List Miss), w < 128 → s.walker w = none → s.missQ (w / 32) = m :: l → (s.bind m.ctx).mode = 1 →
    (s.bind m.ctx).homeNode = s.poolNode → s.xl.mwaits = [] → s.xl.wcache = [] →
    ∃ t k, exec (.walkStart w) s = .next t ∧ t.walker w = some k ∧ k.m = m ∧ k.level = 0 ∧ k.since = s.clk ∧ t.missQ (w / 32) = l ∧ t.pool = s.pool ∧
      Issues s t (readTxn 0 (walkEntryFa 0 (s.bind m.ctx).root m.va) 16 0 true) (.walk w m.ctx)) ∧
  (∀ (s : State) (w h : Nat) (m : Miss) (l : List Miss), w < 128 → s.walker w = none → s.missQ (w / 32) = m :: l → (s.bind m.ctx).mode = 2 →
    (s.bind m.ctx).homeNode = s.poolNode → s.xl.mwaits = [] → s.xl.wcache = [] → s.ownPort (s.bind m.ctx).hostNode = some h →
    ∃ t k, exec (.walkStart w) s = .next t ∧ t.walker w = some k ∧ k.m = m ∧ k.level = 4 ∧ t.out = s.out ++ [.atsReq h w (s.bind m.ctx).pasid m.va] ∧ t.pool = s.pool) ∧
  (∀ (s : State) (g w c : Nat) (o : OutReq) (r : Txn) (k : Walk), s.ownReq g = some o → o.who = .walk w c → o.resp = some r → s.walker w = some k → k.tag = some g →
    (r.status = 0 → k.level = 0 → k.wds = [] → nMalformed (rspWord r) 0 = false → (nEntry (rspWord r)).valid = true → (nEntry (rspWord r)).leaf = false →
      ∃ t k', exec (.walkEntryRead g) s = .next t ∧ t.walker w = some k' ∧ k'.m = k.m ∧ k'.level = 1 ∧
        k'.entryFa = walkEntryFa 1 (nEntry (rspWord r)).fa k.m.va ∧ t.pool = s.pool) ∧
    (∀ tile, r.status = 0 → k.level = 2 → k.wds = [] → k.ats = none → k.m.waiters = [.prefetch tile] → nMalformed (rspWord r) 2 = false →
      (nEntry (rspWord r)).valid = true → (nEntry (rspWord r)).leaf = true → (nEntry (rspWord r)).moving = false →
      ∃ t e, exec (.walkEntryRead g) s = .next t ∧ t.walker w = none ∧ e ∈ t.cacheOf tile ∧ e.ctx = k.m.ctx ∧
        e.va = k.m.va / pageSize (nEntry (rspWord r)).size * pageSize (nEntry (rspWord r)).size ∧ e.fa = (nEntry (rspWord r)).fa ∧ e.rd = (nEntry (rspWord r)).rd ∧
        e.wr = (nEntry (rspWord r)).wr ∧ e.at_ = (nEntry (rspWord r)).at_ ∧ e.attr = some ((nEntry (rspWord r)).pclass, (nEntry (rspWord r)).keySlot) ∧ t.pool = s.pool) ∧
    (r.status ≠ 0 → k.m.waiters = [] → ∃ t f, exec (.walkEntryRead g) s = .next t ∧ t.walker w = none ∧ t.xl.faultLog.getLast? = some f ∧ f.kind = 3 ∧
      f.status = r.status ∧ f.ctx = k.m.ctx ∧ f.fa = k.entryFa ∧ t.pool = s.pool)) ∧
  (∀ (s : State) (w : Nat) (k : Walk) (m : MWait), s.walker w = some k → k.level ≤ 4 → k.rereadAt = none → k.since + s.xl.xlateTimeout * 1000 ≤ s.clk →
    k.m.waiters = [.mover m.n m.idx m.va m.need] → s.xl.mwaits = [m] →
    ∃ t, exec (.walkTimeout w) s = .next t ∧ t.walker w = none ∧ t.xl.mwaits = [] ∧ t.xl.mfaults = s.xl.mfaults ++ [m] ∧ t.pool = s.pool ∧ t.reqs = s.reqs) ∧
  (∀ (s : State) (g : Nat) (x : Held), s.holdsOf g = [x] → x.since + s.xl.holdMax * 1000 ≤ s.clk → x.e.t.ty = .rd →
    s.egress x.e.adm x.e.t.snode (x.e.t.fail 10 s.poolNode).key = some 256 →
    ∃ t, exec (.holdExpired g) s = .next t ∧ t.holdsOf g = [] ∧ t.xl.holdExpired = s.xl.holdExpired + 1 ∧
      t.xact.inbox = s.xact.inbox ++ [x.e.t.fail 10 s.poolNode] ∧ t.pool = s.pool ∧ t.reqs = s.reqs) ∧
  (∀ (s : State) (m : MWait), s.xl.mwaits = [m] → m.since + s.xl.slowWait * 1000 ≤ s.clk → s.xl.walkers = [] → s.xl.misses_ = [] →
    exec (.slowWaitExpired m.n m.idx) s = .next { s with xl := { s.xl with mwaits := [], mfaults := s.xl.mfaults ++ [m] } }) ∧
  (∀ (s : State) (w x : Nat) (k : Walk), s.walker w = some k → k.rereadAt = some x → x ≤ s.clk →
    ∃ t k', exec (.movingReread w) s = .next t ∧ t.walker w = some k' ∧ k'.rereadAt = none ∧ k'.since = s.clk ∧ k'.m = k.m ∧ t.pool = s.pool ∧
      Issues s t (readTxn 0 k.entryFa 16 0 true) (.walk w k.m.ctx))

/-- ATS and PRI: a completion with neither right, for a context that asks for no pages, ends the walk with nothing cached; one for host memory below the
VA's top fills the cache of the tile that waits with the host's node; a Response Failure stops page requests; an Invalidate Request that meets no binding completes at
once (model's choice, log 34), one that meets a binding starts the withdrawal of its context; the host clearing ATS Enable ends the port's translations; a PRI reset
lets page requests be made again. -/
def Obligations.AtsAndPri : Prop :=
  (∀ (s : State) (w a n : Nat) (u : Bool) (k : Walk), tfind s.xl.exch w = none → s.walker w = some k → k.level = 4 → k.wds = [] → k.m.waiters = [] →
    s.asksPages (s.bind k.m.ctx) = false →
    ∃ t, exec (.atsCompletion w a n false false u) s = .next t ∧ t.walker w = none ∧ t.xl.wcache = s.xl.wcache ∧ t.xl.cache = s.xl.cache ∧ t.pool = s.pool) ∧
  (∀ (s : State) (w a n tile : Nat) (rd wr u : Bool) (k : Walk), tfind s.xl.exch w = none → s.walker w = some k → k.level = 4 → k.wds = [] →
    k.m.waiters = [.prefetch tile] → (rd || wr) = true → s.aptOf (s.bind k.m.ctx).hostNode = (0, 0) → k.m.va < 2 ^ 41 →
    ∃ t e, exec (.atsCompletion w a n rd wr u) s = .next t ∧ t.walker w = none ∧ e ∈ t.cacheOf tile ∧ e.ctx = k.m.ctx ∧ e.va = k.m.va ∧
      e.fa = (s.bind k.m.ctx).hostNode * 2 ^ 41 + k.m.va ∧ e.rd = rd ∧ e.wr = wr ∧ e.attr = none ∧ t.pool = s.pool) ∧
  (∀ (s : State) (h c x : Nat), s.xl.walkers = [] → (∀ q ∈ (s.host h).pageReqs, q.2.2 = s.poolNode) →
    ∃ t, exec (.prgResponse h c x 15) s = .next t ∧ (t.host h).pri = false ∧ t.pool = s.pool ∧
      ∀ q ∈ (t.host h).pageReqs, ¬ (q.1 = c ∧ q.2.1 / 2 ^ 21 = x / 2 ^ 21)) ∧
  (∀ (s : State) (h a i b n : Nat), s.xl.binds = [] → exec (.atsInvalidate h a i b n) s = .next (s.emit (.atsInvDone h i))) ∧
  (∀ (s : State) (h i b n c : Nat) (y : Bind), s.xl.binds = [(c, y)] → y.mode = 2 → y.hostNode = s.hpNode h → s.xl.wds = [] →
    ∃ (t : State) (x : Withdrawal), exec (.atsInvalidate h y.pasid i b n) s = .next t ∧ x ∈ t.xl.wds ∧ x.running = true ∧ x.fa = false ∧ x.ctx = c ∧ x.base = b ∧
      x.len2m = n ∧ x.cause = .invalidate h i ∧ tget 0 t.xl.xgen c = (tget 0 s.xl.xgen c + 1) % 2 ^ 32 ∧ t.pool = s.pool) ∧
  (∀ (s : State) (h c : Nat) (y : Bind), s.xl.binds = [(c, y)] → y.mode = 2 → y.hostNode = s.hpNode h → s.wdActive < 256 →
    ∃ t, exec (.atsEnableCleared h) s = .next t ∧ (t.host h).ats = false ∧ (t.bind c).mode = 0 ∧ t.pool = s.pool) ∧
  (∀ (s : State) (h : Nat), exec (.priReset h) s = .next (s.modHost h (fun p => { p with pri := true, pageReqs := [], pageWait := [] })))

-- The memory pool

/-- Drift: a scan reads the entry of each candidate page and no decay is left to scan; a finished copy writes the new frame address; the guard over, the page
becomes a hole and its landing frame counts as landed, and before that nothing changes.
The writes of drift, and holes: DRIFT.ENABLE lets moves start and, cleared, aborts a move that has not yet written the new address; LAND_RELEASE frees its frame, a BACKPTR of a page of
an ACTIVE extent is registered; a hole is zeroed, its bytes and no other. -/
def Obligations.DriftMoves : Prop :=
  ((∀ (s : State) (d : DriftCfg), s.tbl.active.drift = some d → s.pool.decayed = true → s.pool.driftEnable = true → s.inService = true → s.thm.stage = .normal →
    (s.pool.backptr = [] → exec .driftScan s = .next { s with pool := { s.pool with decayed := false } }) ∧
    (∀ g a, s.pool.backptr = [(g, a)] → s.driftCandidate d g = true → s.pool.scanned = [] →
      ∃ t, exec .driftScan s = .next t ∧ t.pool = { s.pool with decayed := false, scanned := [g] } ∧ Issues s t (readTxn 0 a 16 0 true) (.driftScan g))) ∧
  (∀ (s : State) (i : Nat) (m : Move), s.move i = some m → m.stage = 2 → m.aborting = false → m.done = 32768 →
    ∃ t, exec (.driftCopyDone i) s = .next t ∧ t.move i = some { m with stage := 3 } ∧ Issues s t (entryStore m.entry m.word m.land false) (.driftEntry i) ∧ t.pool.mem = s.pool.mem) ∧
  (∀ (s : State) (i : Nat) (m : Move), s.move i = some m → m.stage = 2 → m.done < 32768 → exec (.driftCopyDone i) s = .next s) ∧
  (∀ (s : State) (i : Nat) (m : Move), s.move i = some m → m.stage = 4 → s.clk < m.doneAt + s.xl.releaseGuard * 1000 → exec (.driftRelease i) s = .next s) ∧
  (∀ (s : State) (i : Nat) (m : Move), s.move i = some m → m.stage = 4 → m.doneAt + s.xl.releaseGuard * 1000 ≤ s.clk →
    exec (.driftRelease i) s = .next { s with pool := { s.pool with
      movesNow := s.pool.movesNow.filter (fun x => x.id != i), moves := s.pool.moves + 1, landed := s.pool.landed ++ [(m.land, m.page, m.entry)],
      counters := tmod {} s.pool.counters (m.page / 2 ^ 21) (fun c => { c with hole := true, zeroed := false }), backptr := terase s.pool.backptr (m.page / 2 ^ 21) } })) ∧
  ((∀ (s : State) (v : VCtx), Write s v (0x4000, 0x10) [1] → Accepts (.driftEnable v true) v s { s with pool := { s.pool with driftEnable := true } }) ∧
  (∀ (s : State) (v : VCtx) (m : Move), Write s v (0x4000, 0x10) [0] → s.pool.movesNow = [m] → m.stage < 2 →
    Accepts (.driftEnable v false) v s { s with pool := { s.pool with driftEnable := false, movesNow := [{ m with aborting := true }] } }) ∧
  (∀ (s : State) (v : VCtx) (a : Nat), Write s v (0x4000, 0x15) (leBytes 8 a) → isFa a = true →
    Accepts (.driftLandRelease v a) v s { s with pool := { s.pool with landed := s.pool.landed.filter (fun l => l.1 != a) } }) ∧
  (∀ (s : State) (v : VCtx) (g a e : Nat) (x : Ext), Write s v (0x4000, 0x0A) (leBytes 8 g ++ leBytes 8 a) → g / 2 ^ 41 = s.poolNode →
    extOfOff s (s.poolOff g) = some (e, x) → x.st = .active → isFa a = true → a % 16 = 0 → a ≠ 0 →
    Accepts (.poolBackptr v g a) v s { s with pool := { s.pool with backptr := tset s.pool.backptr (s.poolOff g / 2 ^ 21) a } }) ∧
  (∀ (s : State) (g : Nat), (tget {} s.pool.counters g).hole = true → (tget {} s.pool.counters g).zeroed = false →
    ∃ t, exec (.holeZeroed g) s = .next t ∧ (tget {} t.pool.counters g).zeroed = true ∧
      (∀ a, g * 2 ^ 21 ≤ a → a < (g + 1) * 2 ^ 21 → memGet t.pool.mem a = 0) ∧
      (∀ a, a < g * 2 ^ 21 ∨ (g + 1) * 2 ^ 21 ≤ a → memGet t.pool.mem a = memGet s.pool.mem a)))

/-- Extents: ACTIVATE of an UNUSED extent that may be activated makes it ACTIVE with all its granules, every byte of it zero and no other byte changed, and is REFUSED of one that may
not; RELEASE of an ACTIVE extent makes it RELEASING, recalls the line that a host holds and aborts a move of its pages, and is REFUSED of another; a RELEASING extent that has drained goes to
ZEROING with its granules waiting to be zeroed, each of which returns to its HEALTHY die, and with the last to UNUSED.
Grants: a record that may change its grants sets them; a REVOKE of a valid grant that is not revoked marks it and recalls a host's lines, and one of no grant is REFUSED; a
revocation with no back-invalidate outstanding, no line held by a host and nothing in the line queues completes. -/
def Obligations.ExtentsAndGrants : Prop :=
  ((∀ (s : State) (v : VCtx) (e : Nat), Write s v (extObj e 9) [1] → (s.epochRec (.ext e)).epoch = v.epoch →
    ((s.ext e).st = .unused → s.pool.st ≠ 0 → s.extShapeOk e = true → s.extKeyOk e = true → granCount (s.ext e) ≤ s.granFree →
      ∃ w, Accepts (.extActivate v e) v s w ∧ (w.ext e).st = .active ∧ (w.ext e).owner = (s.ext e).owner ∧ (w.ext e).granules.length = granCount (s.ext e) ∧ (w.ext e).node = s.poolNode ∧
        (∀ a, (s.ext e).base ≤ a → a < (s.ext e).base + (s.ext e).len → memGet w.pool.mem a = 0) ∧
        (∀ a, a < (s.ext e).base ∨ (s.ext e).base + (s.ext e).len ≤ a → memGet w.pool.mem a = memGet s.pool.mem a) ∧ (∀ f, f ≠ e → w.ext f = s.ext f)) ∧
    (s.extCanActivate e = false → Aborts (.extActivate v e) v s 0x0A)) ∧
  (∀ (s : State) (v : VCtx) (e : Nat), Write s v (extObj e 9) [2] → (s.epochRec (.ext e)).epoch = v.epoch →
    ((s.ext e).st = .active → s.pool.movesNow = [] → s.pool.dir = [] → Accepts (.extRelease v e) v s (s.modExt e (fun x => { x with st := .releasing }))) ∧
    (∀ (l h : Nat) (d : DirEnt), (s.ext e).st = .active → s.pool.movesNow = [] → s.pool.dir = [(l, d)] → d.excl = true → d.owner = h → (s.host h).st ≠ .dead →
      inExt (s.ext e) (64 * l) = true → ∃ w b, Accepts (.extRelease v e) v s w ∧ (w.ext e).st = .releasing ∧ b ∈ w.pool.backInvs ∧ b.line = l ∧ b.host = h ∧ b.discard = true ∧
        w.pool.mem = s.pool.mem) ∧
    (∀ m : Move, (s.ext e).st = .active → s.pool.dir = [] → s.pool.movesNow = [m] → m.stage < 2 → inExt (s.ext e) m.page = true →
      ∃ w, Accepts (.extRelease v e) v s w ∧ (w.ext e).st = .releasing ∧ w.pool.movesNow = [{ m with aborting := true }] ∧ w.pool.mem = s.pool.mem) ∧
    ((s.ext e).st ≠ .active → Aborts (.extRelease v e) v s 0x0A)) ∧
  (∀ (s : State) (e : Nat), (s.extDrained e = true → ∃ t, exec (.extentReleased e) s = .next t ∧ (t.ext e).st = .zeroing ∧ (t.ext e).granules = [] ∧
      tget [] t.pool.zeroing e = (s.ext e).granules ∧ t.pool.mem = s.pool.mem) ∧
    (s.extDrained e = false → exec (.extentReleased e) s = .next s)) ∧
  (∀ (s : State) (e : Nat) (g : Granule) (r : List Granule), (s.ext e).st = .zeroing → tget [] s.pool.zeroing e = g :: r → (s.die g.die).st = .healthy →
    ∃ t, exec (.granuleZeroed e) s = .next t ∧ tget [] t.pool.zeroing e = r ∧ (t.die g.die).returned = (s.die g.die).returned ++ [g.no] ∧
      (r = [] → (t.ext e).st = .unused) ∧ (r ≠ [] → (t.ext e).st = .zeroing) ∧ t.pool.mem = s.pool.mem)) ∧
  ((∀ (s : State) (v : VCtx) (e r : Nat), Write s v (extObj e 8) (leBytes 32 r) →
    (List.range 8).all (fun g => grantMayChange (tget {} (s.ext e).grants g) (field r (32 * g) 32)) = true →
    ∃ w, Accepts (.extGrants v e r) v s w ∧ (∀ g, g < 8 → ∃ n, n = grantOf (field r (32 * g) 32) ∧ (tget {} (w.ext e).grants g).id = n.id ∧
      (tget {} (w.ext e).grants g).valid = n.valid ∧ (tget {} (w.ext e).grants g).rd = n.rd ∧ (tget {} (w.ext e).grants g).wr = n.wr ∧
      (tget {} (w.ext e).grants g).at_ = n.at_ ∧ (tget {} (w.ext e).grants g).host = n.host) ∧ (∀ f, f ≠ e → w.ext f = s.ext f) ∧ w.pool.mem = s.pool.mem) ∧
  (∀ (s : State) (v : VCtx) (e g : Nat), Write s v (extObj e 0x0A) (leBytes 1 g) → (s.epochRec (.ext e)).epoch = v.epoch → g < 8 →
    ((tget {} (s.ext e).grants g).valid = true → (tget {} (s.ext e).grants g).revoked = false →
      ((tget {} (s.ext e).grants g).host = false →
        ∃ w, Accepts (.extRevoke v e g) v s w ∧ (tget {} (w.ext e).grants g).revoked = true ∧ (tget {} (w.ext e).grants g).rstate = 1 ∧ w.pool.mem = s.pool.mem) ∧
      (∀ (l h : Nat) (d : DirEnt), (tget {} (s.ext e).grants g).host = true → (tget {} (s.ext e).grants g).id = h → h < 8 → s.pool.dir = [(l, d)] → d.excl = true → d.owner = h →
        (s.host h).st ≠ .dead → inExt (s.ext e) (64 * l) = true →
        ∃ w b, Accepts (.extRevoke v e g) v s w ∧ (tget {} (w.ext e).grants g).revoked = true ∧ (tget {} (w.ext e).grants g).rstate = 1 ∧
          b ∈ w.pool.backInvs ∧ b.line = l ∧ b.host = h ∧ b.revoke = some (e, g) ∧ w.pool.mem = s.pool.mem)) ∧
    ((tget {} (s.ext e).grants g).valid = false → Aborts (.extRevoke v e g) v s 0x0A)) ∧
  (∀ (s : State) (e g : Nat), (tget {} (s.ext e).grants g).rstate = 1 → s.pool.backInvs = [] → s.pool.dir = [] → s.sw.lines = [] →
    ∃ t, exec (.revocationComplete e g) s = .next t ∧
      (tget {} (t.ext e).grants g).rstate = (if (tget {} (s.ext e).grants g).poisonedAny then 3 else 2) ∧ t.pool.mem = s.pool.mem))

/-- Stacks and dies: a channel that stays silent, and STACK.CTL FAIL, fail the stack of the channel, once: its die is REBUILDING from HEALTHY where P1 granules lie on it, else EXPOSED, or RETIRED
where none lies there, EXPOSED from REBUILDING, and the pool DEGRADED. A rebuild step treats the next stripe of a REBUILDING die, whose parity line is no more, and with the last stripe the die is EXPOSED; an evacuation
step moves a granule off an EXPOSED die, which with the last granule is RETIRED. No byte of the pool changes. -/
def Obligations.StacksFail : Prop :=
  (∀ (s : State) (c k : Nat), k = c / 32 → (s.stack k).st ≠ .failed →
    ∃ t, exec (.channelTimeout c) s = .next t ∧ (t.stack k).st = .failed ∧ (t.die (k / 6)).failed = (s.die (k / 6)).failed ++ [k] ∧ t.pool.mem = s.pool.mem ∧
      (s.pool.st ≠ 0 → t.pool.st = 2) ∧ ((s.die (k / 6)).st = .healthy → granulesOn s (k / 6) 1 = true → (t.die (k / 6)).st = .rebuilding) ∧
      ((s.die (k / 6)).st = .healthy → granulesOn s (k / 6) 1 = false → granulesOn s (k / 6) 0 = true → (t.die (k / 6)).st = .exposed) ∧
      ((s.die (k / 6)).st = .healthy → granulesOn s (k / 6) 1 = false → granulesOn s (k / 6) 0 = false → (t.die (k / 6)).st = .retired) ∧
      ((s.die (k / 6)).st = .rebuilding → granulesOn s (k / 6) 1 = true → (t.die (k / 6)).st = .exposed)) ∧
  (∀ (s : State) (c : Nat), (s.stack (c / 32)).st = .failed → exec (.channelTimeout c) s = .next s) ∧
  (∀ (s : State) (v : VCtx) (k : Nat), Write s v (0x4100 + k, 4) [1] → (s.epochRec (.stack k)).epoch = v.epoch → (s.stack k).st ≠ .failed →
    ∃ w, Accepts (.stackFail v k) v s w ∧ (w.stack k).st = .failed ∧ (w.die (k / 6)).failed = (s.die (k / 6)).failed ++ [k] ∧ w.pool.mem = s.pool.mem ∧ (s.pool.st ≠ 0 → w.pool.st = 2)) ∧
  (∀ (s : State) (d e q z : Nat) (x : Ext) (g : Granule), (s.die d).st = .rebuilding → (s.die d).failed.headD 0 % 6 = q → s.pool.exts = [(e, x)] → x.st = .active → x.pclass = 1 →
    x.granules = [g] → g.die = d → z = nextStripe q g.rebuilt → z < 32768 → s.sw.lines = [] → s.hp = [] →
    ∃ t, exec (.rebuildStripe d) s = .next t ∧ (t.ext e).granules = [{ g with rebuilt := z + 1 }] ∧ tfind t.pool.parity ((x.base + 320 * z) / 64) = none ∧ t.pool.mem = s.pool.mem ∧
      (nextStripe q (z + 1) < 32768 → (t.die d).st = .rebuilding) ∧ (32768 ≤ nextStripe q (z + 1) → (t.die d).st = .exposed)) ∧
  (∀ (s u : State) (d e : Nat) (x : Ext) (g n : Granule), s.pool.evacuate = true → (s.die d).st = .exposed → s.pool.exts = [(e, x)] → x.st = .active → x.pclass = 0 →
    x.granules = [g] → g.die = d → s.sw.lines = [] → s.hp = [] → s.takeGranule e = some (n, u) →
    ∃ t, exec (.evacuateGranule d) s = .next t ∧ (t.ext e).granules = [n] ∧ (t.die d).st = .retired ∧ t.pool.mem = s.pool.mem)

-- Host ports

/-- The state of a host port: a trained link with HP.MODE takes LINK_DOWN to ACTIVE; link down ends the port's streams and takes an ACTIVE port to DEAD, with its scan begun, its back-invalidates over
and its contexts unbound; DECLARE_DEAD does so too; REVIVE after the scan returns it to ACTIVE and is REFUSED before the link has trained; CLEAR_RID ends a stall; the scan's end frees the
lines that the port held and poisons those that it held exclusively. -/
def Obligations.HostPortStates : Prop :=
  (∀ (s : State) (h : Nat), (s.host h).st = .linkDown → (s.host h).mode ≠ 0 → Does (.hostLinkUp h) s
    (s.modHost h (fun p => { p with trained := true, modeActive := p.mode, st := .active }))) ∧
  (∀ (s : State) (h : Nat), (s.host h).st ≠ .active → exec (.hostLinkDown h) s = .next (s.modHost h (fun p => { p with
    trained := false, linkIde := none, ideSel := [], tdi := if p.tdi == .run then .error else p.tdi }))) ∧
  (∀ (s : State) (h : Nat), (s.host h).st = .active → (∀ q ∈ s.hp, ∀ a ∈ q.2.accs, a.kind < 4) →
    ∃ t, exec (.hostLinkDown h) s = .next t ∧ HostDies s t h ∧ (t.host h).trained = false ∧ (t.host h).linkIde = none ∧ (t.host h).ideSel = [] ∧
      (t.host h).tdi = (if (s.host h).tdi = .run then .error else (s.host h).tdi) ∧
      (∀ c y, s.xl.binds = [(c, y)] → y.mode = 2 → y.hostNode = s.hpNode h → s.xl.wds = [] → (t.bind c).mode = 0)) ∧
  (∀ (s : State) (v : VCtx) (h : Nat), Write s v (hpCtlObj h) (leBytes 8 1) → (s.epochRec (.host h)).epoch = v.epoch →
    ((s.host h).st = .active → (∀ q ∈ s.hp, ∀ a ∈ q.2.accs, a.kind < 4) → ∃ w, Accepts (.declareDead v h) v s w ∧ HostDies s w h) ∧
    ((s.host h).st ≠ .active → Aborts (.declareDead v h) v s 0x0A)) ∧
  (∀ (s : State) (v : VCtx) (h : Nat), Write s v (hpCtlObj h) (leBytes 8 2) → (s.epochRec (.host h)).epoch = v.epoch → (s.host h).st = .dead →
    ((s.host h).trained = true → (s.host h).scanning = false → Accepts (.revive v h) v s (s.modHost h (fun p => { p with st := .active }))) ∧
    ((s.host h).trained = false → Aborts (.revive v h) v s 0x0A)) ∧
  (∀ (s : State) (v : VCtx) (h r : Nat), r < 2 ^ 16 → Write s v (hpCtlObj h) (leBytes 8 (3 + 65536 * r)) → (s.epochRec (.host h)).epoch = v.epoch →
    Accepts (.clearRid v h r) v s (s.modHost h (fun p => { p with stalled := p.stalled.filter (· != r) }))) ∧
  (∀ (s : State) (h : Nat), (s.host h).st = .dead → (s.host h).scanning = true →
    (s.pool.dir = [] → Does (.deadScanDone h) s (s.modHost h (fun p => { p with scanning := false }))) ∧
    (∀ (l e : Nat) (d : DirEnt) (x : Ext), s.pool.dir = [(l, d)] → d.excl = true → d.owner = h → s.pool.exts = [(e, x)] → x.st = .active → inExt x (64 * l) = true →
      ∃ t, exec (.deadScanDone h) s = .next t ∧ t.pool.dir = [] ∧ tget 0 t.pool.poison l = 5 ∧ (t.host h).linesLost = (s.host h).linesLost + 1 ∧ (t.host h).scanning = false ∧
        t.pool.mem = s.pool.mem) ∧
    (∀ (l : Nat) (d : DirEnt), s.pool.dir = [(l, d)] → d.excl = false → d.sharers = [h] → ∃ t, exec (.deadScanDone h) s = .next t ∧ t.pool.dir = [] ∧
      t.pool.poison = s.pool.poison ∧ (t.host h).linesLost = (s.host h).linesLost ∧ (t.host h).scanning = false ∧ t.pool.mem = s.pool.mem))

/-- CXL.mem, of a host whose port runs in CXL mode, with no other access waiting: a read returns the line and leaves the directory as Table 11-6 says, a write stores the bytes that its mask
names and no other; an access that the port's grants deny is answered with poison or without effect, logged and signalled; one to a line that another host holds waits while that host is
back-invalidated. A write-back in answer to a back-invalidate is stored, or on RELEASE discarded; a BIRsp answers the home once; a back-invalidate that the host leaves unanswered
declares the port dead, and during a revocation ends with the line poisoned. -/
def Obligations.CxlRequests : Prop :=
  (∀ (s : State) (h d o e : Nat) (x : Ext), (s.host h).st = .active → (s.host h).modeActive = 2 → s.sw.lines = [] → (∀ q ∈ s.hp, q.2.accs = []) → o = d / 64 * 64 → inDoorbell o = false →
    extOfOff s o = some (e, x) → x.st = .active → (tget {} s.pool.counters (o / 2 ^ 21)).hole = false → (s.key x.keySlot).sealed = false → x.mac = false → s.linePoison x o = 0 →
    (s.pool.dir = [] → extCheck x .rd none (some h) = none →
      (∃ t, exec (.memRd h d .any) s = .next t ∧ t.out = s.out ++ [.cxlDrs h o false (s.poolRead o 64)] ∧ t.pool.mem = s.pool.mem ∧
        t.pool.dir = [(o / 64, { excl := true, sharers := [], owner := h, granted := s.slot % 2 ^ 32 })]) ∧
      (∃ t, exec (.memRd h d .shared) s = .next t ∧ t.out = s.out ++ [.cxlDrs h o false (s.poolRead o 64)] ∧ t.pool.mem = s.pool.mem ∧
        t.pool.dir = [(o / 64, { excl := false, sharers := [h], owner := 0, granted := s.slot % 2 ^ 32 })]) ∧
      (∃ t, exec (.memRd h d .invalid) s = .next t ∧ t.out = s.out ++ [.cxlDrs h o false (s.poolRead o 64)] ∧ t.pool.mem = s.pool.mem ∧ t.pool.dir = [])) ∧
    (∀ (c : Instr) (m : Nat) (b : Bytes), s.pool.dir = [] → s.pool.backInvs = [] → extCheck x .wr none (some h) = none → b.length = 64 → MemSafe s → m < 2 ^ 64 →
      c = .memWr h d .invalid m b ∨ c = .memWr h d .any m b ∨ (c = .rwd h d b ∧ m = 2 ^ 64 - 1) →
      ∃ t, exec c s = .next t ∧ t.out = s.out ++ [.cxlNdr h o] ∧ t.pool.dir = [] ∧
        (∀ i, i < 64 → memGet t.pool.mem (o + i) = if m.testBit i then b.getD i 0 else (s.poolRead o 64).getD i 0) ∧
        (∀ a, a < o ∨ o + 64 ≤ a → memGet t.pool.mem a = memGet s.pool.mem a)) ∧
    (∀ st, s.pool.dir = [] → extCheck x .rd none (some h) = some st → ∃ t b, exec (.memRd h d .any) s = .next t ∧ t.out = s.out ++ [.msix h 0, .cxlDrs h o true b] ∧
      (t.host h).cxlLog = (s.host h).cxlLog ++ [(o, st.code)] ∧ t.pool.mem = s.pool.mem ∧ t.pool.dir = []) ∧
    (∀ st m b, s.pool.dir = [] → extCheck x .wr none (some h) = some st → ∃ t, exec (.memWr h d .any m b) s = .next t ∧ t.out = s.out ++ [.msix h 0, .cxlNdr h o] ∧
      (t.host h).cxlLog = (s.host h).cxlLog ++ [(o, st.code)] ∧ t.pool.mem = s.pool.mem ∧ t.pool.dir = []) ∧
    (∀ (g : Nat) (y : DirEnt), s.pool.dir = [(o / 64, y)] → y.excl = true → y.owner = g → g ≠ h → (s.host g).st ≠ .dead → extCheck x .rd none (some h) = none →
      ∃ t a b, exec (.memRd h d .any) s = .next t ∧ (t.host h).accs = [a] ∧ a.kind = 4 ∧ a.off = o ∧ a.passed = true ∧ b ∈ t.pool.backInvs ∧ b.line = o / 64 ∧ b.host = g ∧
        t.out = s.out ∧ t.pool.mem = s.pool.mem)) ∧
  (∀ (s : State) (h d : Nat) (b : Bytes) (x : BackInv), s.pool.backInvs = [x] → x.line = d / 64 → x.host = h →
    (x.discard = true → exec (.rwd h d b) s = .next { s with pool := { s.pool with backInvs := [{ x with cleared := true }] } }) ∧
    (x.discard = false → b.length = 64 → MemSafe s → (extOfOff s (64 * (d / 64))).isSome = true →
      ∃ t, exec (.rwd h d b) s = .next t ∧ t.pool.backInvs = [{ x with cleared := true }] ∧ (∀ i, i < 64 → memGet t.pool.mem (64 * (d / 64) + i) = b.getD i 0) ∧
        (∀ a, a < 64 * (d / 64) ∨ 64 * (d / 64) + 64 ≤ a → memGet t.pool.mem a = memGet s.pool.mem a))) ∧
  (∀ (s : State) (h d q : Nat) (x : Txn), (s.host h).snoops = [(d / 64 * 64, x)] → s.egress (257 + h) x.snode (x.fail 0 (s.hpNode h)).key = some q → q < 256 →
    ∃ t, exec (.m2sBirsp h d) s = .next t ∧ (t.host h).snoops = [] ∧ Queued s t q 2 (x.fail 0 (s.hpNode h)) (257 + h) ∧ t.pool = s.pool) ∧
  (∀ (s : State) (h d : Nat), (s.host h).snoops = [] → exec (.m2sBirsp h d) s = .next s) ∧
  (∀ (s : State) (h l : Nat) (x : BackInv), s.pool.backInvs = [x] → x.line = l → x.host = h → (∀ q ∈ s.hp, ∀ a ∈ q.2.accs, a.kind < 4) →
    (s.clk < x.since + (s.host h).biTimeout * 1000 → exec (.biTimeout h l) s = .next s) ∧
    (x.since + (s.host h).biTimeout * 1000 ≤ s.clk → x.revoke = none → (s.host h).st = .active → ∃ t, exec (.biTimeout h l) s = .next t ∧ HostDies s t h) ∧
    (∀ e g y, x.since + (s.host h).biTimeout * 1000 ≤ s.clk → x.revoke = some (e, g) → x.cleared = false → s.pool.dir = [(l, y)] → y.excl = true → y.owner = h →
      ∃ t, exec (.biTimeout h l) s = .next t ∧ t.pool.backInvs = [] ∧ t.pool.dir = [] ∧ tget 0 t.pool.poison l = 6 ∧ (tget {} (t.ext e).grants g).poisonedAny = true ∧
        (t.host h).st = (s.host h).st ∧ t.pool.mem = s.pool.mem))

/-- Host memory requests and completions: a read, a write and an AtomicOp in the aperture of a bound PASID each become an access of their kind, for which the end-point reads the aperture
frame's entry; one without a context is answered as an unsupported request, and so is an AtomicOp that no atomic stands for; a request that waits for a moving frame is ended by its
deadline, and not before; a completion ends its fabric request with its data or status, a flush read's the writes that it covers; without one a read ends RETRY_LATER, an
atomic AGED and covered writes AGED with their flows marked. -/
def Obligations.HostRequests : Prop :=
  (∀ (s : State) (h r o : Nat) (p : Option Nat), (s.host h).st = .active → s.xl.aptLog2 ≠ 0 → (s.host h).tdi ≠ .error → (s.host h).stalled.contains r = false → (s.host h).accs = [] →
    (∀ c k g n ro b w op (i : Instr), s.hostCtx h p = some c → o + n ≤ 2 ^ (s.xl.aptLog2 + 21) →
      (i = .hostMemRead h r g p o n ∧ k = 0) ∨ (i = .hostMemWrite h r p ro o b ∧ k = 1 ∧ n = b.length) ∨ (i = .hostAtomicop h r g p o op w b ∧ k = 2 ∧ n = w ∧ (hostAtop op w).isSome = true) →
      ∃ t a, exec i s = .next t ∧ (t.host h).accs = [a] ∧ a.kind = k ∧ a.rid = r ∧ a.ctx = c ∧ a.off = o ∧ a.len = n ∧ a.issued = true ∧ a.since = s.clk ∧
        a.htag = (if k = 1 then none else some g) ∧ (k ≠ 0 → a.data = b) ∧ t.pool = s.pool ∧
        IssuesAs s t (s.hpNode h) (readTxn 0 (s.xl.aptBase + 16 * (o / 2 ^ 21)) 16 (r % 8) false) (.frame h a.id)) ∧
    (∀ g n, s.hostCtx h p = none → exec (.hostMemRead h r g p o n) s = .next (s.emit (.hostCpl h g 1 false []))) ∧
    (∀ b ro, s.hostCtx h p = none → exec (.hostMemWrite h r p ro o b) s = .next s)) ∧
  (∀ (s : State) (h r g o w : Nat) (p : Option Nat) (op : HostAtomic) (b : Bytes), hostAtop op w = none → (s.host h).st = .active →
    exec (.hostAtomicop h r g p o op w b) s = .next (s.emit (.hostCpl h g 1 false []))) ∧
  (∀ (s : State) (h g x : Nat) (a : HostAcc), (s.host h).accs = [a] → a.movingAt = some x → a.htag = some g →
    (x + s.xl.holdMax * 1000 ≤ s.clk → exec (.hostRetryDeadline h a.id) s = .next ((s.modHost h (fun p => { p with accs := [] })).emit (.hostCpl h g 2 false []))) ∧
    (s.clk < x + s.xl.holdMax * 1000 → s.clk < a.since + 1000000 → exec (.hostRetryDeadline h a.id) s = .next s)) ∧
  (∀ (s : State) (h g k : Nat) (a : HostAcc) (o : OutReq), (s.host h).accs = [a] → a.movingAt = none → a.htag = some g → a.left = 1 → a.fails = [] → o.who = .host h a.id 0 →
    s.reqs = [(k, o)] → o.waitUntil.isSome = true → a.since + 1000000 ≤ s.clk →
    ∃ t, exec (.hostRetryDeadline h a.id) s = .next t ∧ (t.host h).accs = [] ∧ t.reqs = [] ∧ t.out = s.out ++ [.hostCpl h g 2 false []] ∧ t.pool = s.pool) ∧
  (∀ (s : State) (h q : Nat) (f : HostFab), (s.host h).fabs = [f] → s.egress (257 + h) f.t.snode (hashKey (s.hpNode h) f.t.ctx f.t.flow f.t.snode) = some q → q < 256 → f.kind ≠ 2 →
    (∀ d, f.kind = 0 → f.t.ty = .rd → f.t.len ≤ d.length → ∃ t b, exec (.hostCompletion h f.htag (.success d)) s = .next t ∧ (t.host h).fabs = [] ∧
      Queued s t q 2 (f.t.reply 0 (s.hpNode h) b) (257 + h) ∧ slice b (f.t.addr % 8) f.t.len = slice d 0 f.t.len ∧ t.pool = s.pool) ∧
    (∀ c : HostCpl, c = .unsupported ∨ c = .abort → ∃ t, exec (.hostCompletion h f.htag c) s = .next t ∧ (t.host h).fabs = [] ∧
      Queued s t q 2 (f.t.reply 3 (s.hpNode h) []) (257 + h) ∧ t.pool = s.pool) ∧
    (f.since + 500000 ≤ s.clk → ∃ t, exec (.hostCompletionTimeout h f.htag) s = .next t ∧ (t.host h).fabs = [] ∧
      Queued s t q 2 (f.t.reply (if f.kind = 1 then 7 else 10) (s.hpNode h) []) (257 + h) ∧ t.pool = s.pool) ∧
    (s.clk < f.since + 500000 → exec (.hostCompletionTimeout h f.htag) s = .next s)) ∧
  (∀ (s : State) (h q : Nat) (f : HostFab) (e : QEntry), (s.host h).fabs = [f] → f.kind = 2 → f.covered = [e] → (s.host h).unflushed = [] → e.t.ty = .wr →
    s.egress (257 + h) e.t.snode (hashKey (s.hpNode h) e.t.ctx e.t.flow e.t.snode) = some q → q < 256 →
    (∀ d, ∃ t, exec (.hostCompletion h f.htag (.success d)) s = .next t ∧ (t.host h).fabs = [] ∧ Queued s t q 2 (e.t.reply 0 (s.hpNode h) []) (257 + h) ∧ t.pool = s.pool) ∧
    (f.since + 500000 ≤ s.clk → s.sw.flood = false → s.sw.marks = [] → (routeEnt s.tbl.active e.t.snode).wmode = false →
      ∃ t, exec (.hostCompletionTimeout h f.htag) s = .next t ∧ (t.host h).fabs = [] ∧ Queued s t q 2 (e.t.reply 7 (s.hpNode h) []) (257 + h) ∧
        t.marked e.t e.adm = true ∧ t.pool = s.pool))

/-- The mailbox, TDISP and IDE: a GO without an enabled ring in the group is REFUSED and counted; LOCK, START and STOP move the TDI in the states that allow them and are
answered with an error (log 19) elsewhere; the report and the state are told; an integrity failure makes its stream insecure and a running TDI ERROR. -/
def Obligations.TenantInterface : Prop :=
  (∀ (s : State) (h g : Nat) (b : Bytes) (c : Nat), (s.host h).st = .active → (s.host h).tdi ≠ .error → s.mov.rings = [] → (tget {} (s.host h).mail g).st ≠ 1 → c.testBit 31 = true →
    ∃ t, exec (.mailboxGo h g b c) s = .next t ∧ (tget {} (t.host h).mail g).st = 3 ∧ (tget {} (t.host h).mail g).req = b ∧
      (t.host h).mbRefused = (s.host h).mbRefused + 1 ∧ t.pool = s.pool) ∧
  (∀ (s : State) (h : Nat),
    ((s.host h).tdi = .unlocked → exec (.lockInterfaceRequest h) s = .next ((s.modHost h (fun p => { p with tdi := .locked })).emit (.tdisp h 0x83 []))) ∧
    ((s.host h).tdi = .locked → exec (.startInterfaceRequest h) s = .next ((s.modHost h (fun p => { p with tdi := .run })).emit (.tdisp h 0x86 []))) ∧
    exec (.stopInterfaceRequest h) s = .next ((s.modHost h (fun p => { p with tdi := .unlocked })).emit (.tdisp h 0x87 [])) ∧
    ((s.host h).tdi ≠ .unlocked → exec (.lockInterfaceRequest h) s = .next (s.emit (.tdisp h 0x7F [0x83]))) ∧
    ((s.host h).tdi ≠ .locked → exec (.startInterfaceRequest h) s = .next (s.emit (.tdisp h 0x7F [0x86]))) ∧
    ((s.host h).tdi = .locked ∨ (s.host h).tdi = .run → exec (.getDeviceInterfaceReport h) s = .next (s.emit (.tdisp h 0x84 [0, 2, 4]))) ∧
    ((s.host h).tdi = .unlocked ∨ (s.host h).tdi = .error → exec (.getDeviceInterfaceReport h) s = .next (s.emit (.tdisp h 0x7F [0x84]))) ∧
    exec (.getDeviceInterfaceState h) s = .next (s.emit (.tdisp h 0x85 [(s.host h).tdi.code]))) ∧
  (∀ (s : State) (h : Nat) (b : Bool), (s.host h).linkIde = some b → exec (.ideIntegrityFail h 0) s = .next (s.modHost h (fun p => { p with
    linkIde := p.linkIde.map (fun _ => false), tdi := if p.tdi == .run then .error else p.tdi }))) ∧
  (∀ (s : State) (h n : Nat), n ≠ 0 → (s.host h).ideSel = [(n, true)] → exec (.ideIntegrityFail h n) s = .next (s.modHost h (fun p => { p with
    ideSel := [(n, false)], tdi := if p.tdi == .run then .error else p.tdi }))) ∧
  (∀ (s : State) (h n : Nat), (s.host h).st = .active → n ≤ 65536 → s.spdmOpen (.doe h) = true → (s.host h).modeActive = 1 →
    exec (.doeRequest h n (.discovery 0)) s = .next (s.emit (.doe h [1, 0, 1])) ∧ exec (.doeRequest h n (.discovery 2)) s = .next (s.emit (.doe h [1, 2, 0])))

-- Contexts and keys

/-- Contexts: ACTIVATE of a FREE context that has waited gives it its next generation and its home here, and begins the change that the scope acknowledges; it is REFUSED of context 0 and of one that
is not FREE. STOP of an ACTIVE context of this home makes it STOPPING, erases its bundle keys, starts the withdrawal of its binding and waits for every package, and is REFUSED of a FREE one.
A notice of another home sets the state and the generation, a thaw empties the caches of the context, and the part of it done the acknowledgement leaves. An acknowledgement counts; the last
one takes the context to REVOKING, THAWING and FREE. -/
def Obligations.ContextsChange : Prop :=
  (∀ (s : State) (v : VCtx) (c n x k : Nat) (b : Bool), Write s v ctxCtlObj (ctxCtlBytes 1 c b n x) → (s.epochRec (.ctx c)).epoch = v.epoch →
    (c ≠ 0 → (s.ctx c).st = .free → k = ((s.ctx c).kgen + 1) % 16 → n % 8 = 0 → isFa n = true → s.sec.changes = [] → ((s.ctx c).mask.testBit k = false ∨ b = true) →
      ((s.ctx c).freeAt = none ∨ ∃ a, (s.ctx c).freeAt = some a ∧ a + s.ageLimit 0 + s.ageLimit 2 ≤ s.clk) →
      ∃ w, Accepts (.ctxActivate v c b n x) v s w ∧ (w.ctx c).st = .active ∧ (w.ctx c).kgen = k ∧ (w.ctx c).mask.testBit k = true ∧ (w.ctx c).home = s.poolNode ∧
        (∀ d, d ≠ c → w.ctx d = s.ctx d) ∧ w.pool = s.pool ∧
        (s.ctxScope ≠ [] → w.sec.changes = [{ c := c, to_ := .active, waiting := s.ctxScope, nfa := n, nval := x }]) ∧
        (s.ctxScope = [] → w.sec.changes = [] ∧ (n ≠ 0 → Issues s w (storeTxn 0 n x 8 0) (.notify 1 c)))) ∧
    (c = 0 → Aborts (.ctxActivate v c b n x) v s 0x0A) ∧ ((s.ctx c).st ≠ .free → Aborts (.ctxActivate v c b n x) v s 0x0A)) ∧
  (∀ (s : State) (v : VCtx) (c n x : Nat), Write s v ctxCtlObj (ctxCtlBytes 2 c false n x) → (s.epochRec (.ctx c)).epoch = v.epoch →
    (c ≠ 0 → (s.ctx c).st = .active → (s.ctx c).home = s.poolNode → n % 8 = 0 → isFa n = true →
      ∃ w, Accepts (.ctxStop v c n x) v s w ∧ (w.ctx c).st = .stopping ∧ (w.ctx c).home = s.poolNode ∧ (∀ k, (tget {} w.sec.bkeys k).used = true → (tget {} w.sec.bkeys k).ctx ≠ c) ∧
        ({ c := c, to_ := .stopping, waiting := s.poolNode :: s.ctxScope, nfa := n, nval := x } : CtxChange) ∈ w.sec.changes ∧
        ((s.bind c).mode ≠ 0 → (s.bind c).homeNode = s.poolNode → ∃ y ∈ w.xl.wds, y.ctx = c ∧ y.fa = false ∧ y.cause = .stop c) ∧ w.pool.mem = s.pool.mem) ∧
    ((s.ctx c).st = .free → Aborts (.ctxStop v c n x) v s 0x0A)) ∧
  (∀ (s : State) (h c k q : Nat) (b : Bool), h ≠ s.poolNode → c ≠ 0 →
    (s.xact.waits = [] → s.canReserve 265 4 (s.mgt h 7 c).cells = true → s.egress 265 h (s.mgt h 7 c).key = some q → q ≠ 256 →
      (∃ t, exec (.ctxStateNotice h c 1 k b) s = .next t ∧ (t.ctx c).st = .active ∧ (t.ctx c).kgen = k ∧ (t.ctx c).home = h ∧ Queued s t q 4 (s.mgt h 7 c) 265 ∧ t.pool = s.pool) ∧
      (∃ t, exec (.ctxStateNotice h c 4 k b) s = .next t ∧ (t.ctx c).st = .thawing ∧ (t.ctx c).kgen = k ∧ Queued s t q 4 (s.mgt h 7 c) 265 ∧ t.sec.thawCount = s.sec.thawCount + 256 ∧
        (∀ (i : Nat) (e : TEntry), e ∈ t.cacheOf i → e.ctx ≠ c) ∧ t.pool = s.pool)) ∧
    (∃ t, exec (.ctxStateNotice h c 0 k b) s = .next t ∧ (t.ctx c).st = .free ∧ (t.ctx c).kgen = k ∧ (t.ctx c).freeAt = some s.clk ∧ t.pool = s.pool) ∧
    (∃ t, exec (.ctxStateNotice h c 2 k b) s = .next t ∧ (t.ctx c).st = .stopping ∧ (t.ctx c).kgen = k ∧ t.pool.mem = s.pool.mem ∧
      ∀ j, (tget {} t.sec.bkeys j).used = true → (tget {} t.sec.bkeys j).ctx ≠ c)) ∧
  (∀ (s : State) (f c : Nat) (y : CtxChange), f ≠ s.poolNode → s.sec.changes = [y] → y.c = c →
    (∀ g, y.waiting = [f, g] → g ≠ f → exec (.ctxStateAck f c) s = .next { s with sec := { s.sec with changes := [{ y with waiting := [g] }] } }) ∧
    (y.waiting = [f] → y.to_ = .revoking → ∃ t, exec (.ctxStateAck f c) s = .next t ∧ (t.ctx c).st = .thawing ∧
      t.sec.changes = [{ y with to_ := .thawing, waiting := s.poolNode :: s.ctxScope }] ∧ (∀ (i : Nat) (e : TEntry), e ∈ t.cacheOf i → e.ctx ≠ c) ∧ t.pool = s.pool) ∧
    (y.waiting = [f] → y.to_ = .stopping → ∃ t, exec (.ctxStateAck f c) s = .next t ∧ (t.ctx c).st = .revoking ∧
      t.sec.changes = [{ y with to_ := .revoking, waiting := s.poolNode :: s.ctxScope }]) ∧
    (y.waiting = [f] → y.to_ = .thawing → ∃ t, exec (.ctxStateAck f c) s = .next t ∧ (t.ctx c).st = .free ∧ t.sec.changes = [] ∧
      (y.nfa ≠ 0 → c ≠ 0 → Issues s t (storeTxn 0 y.nfa y.nval 8 0) (.notify 1 c)) ∧ t.pool = s.pool))

/-- Keys and bundles: GENERATE loads an EMPTY slot for an ACTIVE context, DESTROY empties a slot that no extent names and is REFUSED of one in use; a bundle load with a used key of a current
context begins with the read of the header, and is REFUSED in DRAIN and with a key that is not used; a chunk that does not verify, or whose context has left ACTIVE, ends the load FAILED with its key
erased, one that verifies is written, one that has been written gives way to the next, and with the last the load is DONE; a bundle key goes when its EXPIRY has passed, with the
load that runs with it, and not before. -/
def Obligations.KeysAndBundles : Prop :=
  (∀ (s : State) (v : VCtx) (k c : Nat), Write s v keyCtlObj (keyCtlBytes 1 k false c) → (s.epochRec (.key k)).epoch = v.epoch → (s.key k).loaded = false →
    (s.ctx c).st = .active → ∃ w : State, Accepts (.keyGenerate v k false c) v s w ∧ (w.key k).loaded = true ∧ (w.key k).host = false ∧ (w.key k).owner = c ∧
      (w.key k).kgen = (s.ctx c).kgen ∧ (∀ j, j ≠ k → w.key j = s.key j) ∧ w.pool = s.pool) ∧
  (∀ (s : State) (v : VCtx) (k : Nat), Write s v keyCtlObj (keyCtlBytes 2 k false 0) → (s.epochRec (.key k)).epoch = v.epoch →
    (s.keyInUse k = false → ∃ w : State, Accepts (.keyDestroy v k) v s w ∧ (w.key k).loaded = false ∧ (∀ j, j ≠ k → w.key j = s.key j)) ∧
    (s.keyInUse k = true → Aborts (.keyDestroy v k) v s 0x0A)) ∧
  (∀ (s : State) (v : VCtx) (r : Nat), Write s v bundleObj (leBytes 40 r) →
    (∀ b : BKey, s.dev.phase ≠ .drain → s.pool.st ≠ 0 → b = tget {} s.sec.bkeys (field r 0 6) → b.used = true → (s.ctx b.ctx).st = .active → (s.ctx b.ctx).kgen = b.kgen →
      s.sec.bundle.st ≠ .running → field r 6 58 = 0 → isFa (field r 64 64) = true → field r 64 64 % 64 = 0 → field r 128 64 % 64 = 0 → isFa (field r 192 64) = true →
      field r 192 64 % 8 = 0 →
      ∃ w, Accepts (.bundleLoad v r) v s w ∧ w.sec.bundle.st = .running ∧ w.sec.bundle.bslot = field r 0 6 ∧ w.sec.bundle.src = field r 64 64 ∧ w.sec.bundle.dst = field r 128 64 ∧
        w.sec.bundle.nfa = field r 192 64 ∧ w.sec.bundle.nval = field r 256 64 ∧ w.sec.bundle.left = 1 ∧ Issues s w (readTxn 0 (field r 64 64) 64 0 false) (.bundleRead (field r 64 64)) ∧
        w.pool = s.pool) ∧
    (s.dev.phase = .drain → Aborts (.bundleLoad v r) v s 0x0A) ∧ ((tget {} s.sec.bkeys (field r 0 6)).used = false → Aborts (.bundleLoad v r) v s 0x0A)) ∧
  (∀ (s : State) (b : Bundle) (k : BKey), b = s.sec.bundle → k = tget {} s.sec.bkeys b.bslot → b.st = .running → b.left = 0 → b.hdr ≠ [] → b.nfa = 0 →
    ((s.ctx k.ctx).st ≠ .active → ∃ t, exec .bundleChunk s = .next t ∧ t.sec.bundle.st = .failed ∧ t.sec.bundle.cause = 5 ∧ (tget {} t.sec.bkeys b.bslot).used = false ∧ t.pool = s.pool) ∧
    (∀ r, (s.ctx k.ctx).st = .active → b.buf ≠ [] → chunkLen b.plainLen b.chunk = 64 → r = Config.bundleOpen k.key k.bundle b.chunk b.hdr (b.bytes (b.src + chunkAt b.chunk) 80) →
      ∃ t, exec .bundleChunk s = .next t ∧ t.pool = s.pool ∧
        (r = none → t.sec.bundle.st = .failed ∧ t.sec.bundle.cause = 2 ∧ (tget {} t.sec.bkeys b.bslot).used = false) ∧
        (∀ d, r = some d → t.sec.bundle.st = .running ∧ t.sec.bundle.written = b.written + 64 ∧ t.sec.bundle.left = 1 ∧
          Issues s t { ty := .wr, size := 63, ctx := k.ctx, addr := s.poolFa (b.dst + b.chunk * 1048576), data := slice d 0 64 } (.bundleWrite (b.dst + b.chunk * 1048576)))) ∧
    ((s.ctx k.ctx).st = .active → b.buf = [] → b.chunk + 1 < b.nchunks → ∃ t, exec .bundleChunk s = .next t ∧ t.sec.bundle.st = .running ∧ t.sec.bundle.chunk = b.chunk + 1 ∧ t.pool = s.pool) ∧
    ((s.ctx k.ctx).st = .active → b.buf = [] → b.nchunks ≤ b.chunk + 1 → ∃ t, exec .bundleChunk s = .next t ∧ t.sec.bundle.st = .done ∧ t.sec.bundle.cause = 0 ∧
      (tget {} t.sec.bkeys b.bslot).used = false ∧ (∀ e x, extOfOff s b.dst = some (e, x) → (t.key x.keySlot).sealed = true) ∧ t.pool = s.pool)) ∧
  (∀ s : State, s.sec.bundle.st ≠ .running → exec .bundleChunk s = .next s) ∧
  (∀ (s : State) (b : Nat), (tget {} s.sec.bkeys b).used = true → (tget {} s.sec.bkeys b).expiry ≠ 0 →
    ((tget {} s.sec.bkeys b).expiry < s.slot → s.sec.bundle.st ≠ .running → exec (.bundleKeyExpiry b) s = .next { s with sec := { s.sec with bkeys := tset s.sec.bkeys b {} } }) ∧
    ((tget {} s.sec.bkeys b).expiry < s.slot → s.sec.bundle.st = .running → s.sec.bundle.bslot = b →
      ∃ t, exec (.bundleKeyExpiry b) s = .next t ∧ t.sec.bundle.st = .failed ∧ t.sec.bundle.cause = 2 ∧ (tget {} t.sec.bkeys b).used = false ∧ t.pool = s.pool) ∧
    (s.slot ≤ (tget {} s.sec.bkeys b).expiry → exec (.bundleKeyExpiry b) s = .next s))

-- In-fabric arithmetic

/-- Collective packets for this package: one with a bad header is discarded and counted; one of a RUNNING instance's context and phase from a contributor of the
built-in default enters. A COL_DATA adds its element to the row and counts the arrival; a COL_SIDE of MOE_COMBINE keeps the weight for its token and contributor; a
COL_PART adds its partial to the row; an ABORT fails the run with the status it carries; a CREDIT makes the rest of the run credit-only. -/
def Obligations.CollectivePackets : Prop :=
  (∀ (s : State) (a : Nat) (c : Nat → Txn → Instr) (y : TType) (b : Nat) (x : Txn) (k : State → State),
    (c, y, b, k) ∈ [(Instr.colData, TType.colData, x.xb, State.colDataIn { x with ty := .colData }), (.colSide, .colSide, x.xb, State.colSideIn { x with ty := .colSide }),
      (.colPart, .colPart, x.xb, State.colPartIn { x with ty := .colPart }), (.colCtlAbort, .colCtl, 1, State.abortIn { x with ty := .colCtl, xb := 1 }),
      (.colCtlCredit, .colCtl, 2, State.creditIn { x with ty := .colCtl, xb := 2 })] →
    s.canArrive a = true → s.filtered a = false → x.dnode = s.poolNode →
    ∃ u : State, u = ((s.takeIn a { x with ty := y, xb := b }).release ((s.takeIn a { x with ty := y, xb := b }).entry { x with ty := y, xb := b } a (s.vcAt a 3))).advance x.inst ∧
      (colHeaderOk { x with ty := y, xb := b } = false → exec (c a x) s = .next u.colDiscard) ∧
      (colHeaderOk { x with ty := y, xb := b } = true → s.kgenCurrent x.ctx x.kgen = true → (u.inst x.inst).st = .running → (u.inst x.inst).entry.ctx = x.ctx →
        u.onDefault (u.inst x.inst) = true → x.phase = 0 → (u.inst x.inst).phase = 0 → x.contrib < (u.inst x.inst).entry.ncontrib → exec (c a x) s = .next (k u))) ∧
  (∀ (u : State) (x : Txn) (p : Inst), p = u.inst x.inst → p.entry.opkind = 1 → p.entry.entryProg = 0xFFF → p.st = .running → p.emitted = [] → 0 < p.entry.groups →
    u.phasesOf p = [] → x.fmt = p.entry.inFmt → x.fmt = 0 → x.dslots = 1 → x.eoff % 2 = 0 → x.eoff + 2 ≤ p.entry.nelem →
    (p.row x.eoff).arrived + 1 < p.entry.ncontrib → (p.row (x.eoff + 1)).arrived < p.entry.ncontrib →
    ((State.colDataIn x u).inst x.inst).row x.eoff = (((p.row x.eoff).add 1 (elemVal 0 (packed 0 (leNat x.data) 0))).arrive x.psn) ∧
    ((State.colDataIn x u).inst x.inst).row (x.eoff + 1) = (((p.row (x.eoff + 1)).add 1 (elemVal 0 (packed 0 (leNat x.data) 1))).arrive x.psn) ∧
    (State.colDataIn x u).pool = u.pool) ∧
  (∀ (u : State) (x : Txn) (p : Inst), p = u.inst x.inst → p.entry.opkind = 4 → p.st = .running → p.emitted = [] → 0 < p.entry.groups → u.phasesOf p = [] →
    x.xb = 1 → x.dslots = 1 → x.eoff + 2 ≤ p.entry.nelem →
    tget [] ((State.colSideIn x u).inst x.inst).side (sideKey x.eoff x.contrib) = [leAt x.data 0 4, 0, 0, boolNat x.psn] ∧
    ((State.colSideIn x u).inst x.inst).rows = p.rows ∧ (State.colSideIn x u).pool = u.pool) ∧
  (∀ (u : State) (x : Txn) (p : Inst) (q : Partial), p = u.inst x.inst → p.entry.opkind = 1 → p.st = .running → p.emitted = [] → 0 < p.entry.groups → u.phasesOf p = [] →
    partsOf x.xb 8 0 x.data = some [q] → x.eoff < p.entry.nelem → (p.row x.eoff).arrived < p.entry.ncontrib → ((p.row x.eoff).addPartial 1 q).arrived < p.entry.ncontrib →
    ((State.colPartIn x u).inst x.inst).row x.eoff = { (p.row x.eoff).addPartial 1 q with psn := (p.row x.eoff).psn || q.psn || x.psn } ∧
    (State.colPartIn x u).pool = u.pool) ∧
  (∀ (u : State) (x : Txn) (p : Inst), p = u.inst x.inst → p.fails = [] → p.revokedSeen = false → x.eoff = 3 → ((State.abortIn x u).inst x.inst).st = .idle ∧
    ((State.abortIn x u).inst x.inst).status = 3 ∧ (State.abortIn x u).ops.runsFailed = u.ops.runsFailed + 1 ∧ (State.abortIn x u).pool = u.pool) ∧
  (∀ (u : State) (x : Txn) (p : Inst), p = u.inst x.inst → p.st = .running → p.credit = false → u.phasesOf p = [] → ((State.creditIn x u).inst x.inst).credit = true ∧
    ((State.creditIn x u).inst x.inst).phaseSince = u.clk ∧ ((State.creditIn x u).inst x.inst).st = .running ∧ (State.creditIn x u).pool = u.pool)

/-- Runs: at its phase slot an ARMED instance of an image runs from phase 0, under the credits that rack time asks for; a DONE one is ARMED again with the next
run number, its rows reset, at its period; a deadline with rows missing fails the run AGED; the last result response ends the run OK. An entry of OPS.SLUSH_ENTRY is
taken in SLUSH and REFUSED elsewhere. -/
def Obligations.RunsProceed : Prop :=
  (∀ (s : State) (i : Nat), (s.inst i).st = .armed → s.onDefault (s.inst i) = false → s.absent = [] → s.rt.quality = .locked →
    (s.rt.scheduled = true → s.slot = (s.inst i).startSlot + ((s.phasesOf (s.inst i)).headD {}).start → s.rt.now % 1024 = 0 →
      exec (.runStart i) s = .next (s.modInst i (fun y => { y with credit := false, phaseSince := s.clk, phase := 0, st := .running, slot := s.slot }))) ∧
    (s.rt.scheduled = false → (s.inst i).startSlot ≤ s.slot →
      exec (.runStart i) s = .next (s.modInst i (fun y => { y with credit := true, phaseSince := s.clk, phase := 0, st := .running, slot := s.slot })))) ∧
  (∀ (s : State) (i : Nat), (s.inst i).st = .done → s.onDefault (s.inst i) = false → (s.inst i).startSlot + (tget (0, 0) s.opsActive.timing i).1 ≤ s.slot →
    (s.inst i).retiring = false → (s.inst i).credit = false → ∃ t, exec (.runPeriod i) s = .next t ∧ (t.inst i).st = .armed ∧
      (t.inst i).run = ((s.inst i).runBase + (s.inst i).done) % 2 ^ 32 ∧ (t.inst i).nruns = (s.inst i).nruns ∧ (t.inst i).rows = [] ∧ (t.inst i).emitted = [] ∧
      (t.inst i).startSlot = (s.inst i).startSlot + (tget (0, 0) s.opsActive.timing i).1 ∧ (∀ j, j ≠ i → t.inst j = s.inst j) ∧ t.pool = s.pool) ∧
  (∀ (s : State) (i : Nat), (s.inst i).st = .running → (s.inst i).credit = true → (s.inst i).phaseSince + s.ops.creditDeadline * 1000 ≤ s.clk →
    (s.inst i).revokedSeen = false → (s.inst i).fails = [] → s.phaseDone (s.inst i) = false →
    ∃ t, exec (.phaseDeadline i) s = .next t ∧ (t.inst i).st = .idle ∧ (t.inst i).status = 7 ∧ t.ops.runsFailed = s.ops.runsFailed + 1 ∧ t.pool = s.pool) ∧
  (∀ (s : State) (g i : Nat) (o : OutReq) (r : Txn), s.ownReq g = some o → o.resp = some r → o.who = .result i → r.status = 0 → (s.inst i).st = .delivering →
    (2 ≤ (s.inst i).out → ∃ t, exec (.resultWriteResponse g) s = .next t ∧ t.reqs = terase s.reqs (s.poolNode * 1048576 + g) ∧
      t.inst i = { s.inst i with out := (s.inst i).out - 1 } ∧ t.pool = s.pool) ∧
    ((s.inst i).out = 1 → (s.inst i).poisoned (s.opsImg (s.inst i)) = 0 → (s.inst i).entry.flagEn = false → (s.inst i).flags = 0 → (s.inst i).nruns ≤ (s.inst i).done + 1 →
      ∃ t, exec (.resultWriteResponse g) s = .next t ∧ (t.inst i).st = .idle ∧ (t.inst i).status = 0 ∧ t.ops.runsOk = s.ops.runsOk + 1 ∧ t.pool = s.pool)) ∧
  (∀ (s : State) (v : VCtx) (e : OpsEntry), Write s v (0x8000, 5) (leBytes 64 (opsEntryWord e)) →
    (s.dev.phase = .slush → (s.inst 0).st = .idle → slushEntryOk e = true → Accepts (.opsSlushEntry v e) v s { s with ops := { s.ops with slushEntry := e } }) ∧
    (s.dev.phase ≠ .slush → Aborts (.opsSlushEntry v e) v s 0x0A))
end

