-- ==== Sys2Proof/Laws/Dict.lean ====
section
/-! SUPPORT. Where the rows of the dictionary are found: the epoch record of every unit, and the unit that Table 14-10 gives it. -/

namespace Sys2Proof.Machine
open Sys2Proof

theorem findRow_hit {i t k : Nat} {r : ObjRow} {l : List ObjRow} (h : r.place.key i t = some k) : findRow i t (r :: l) = some (r, k) := by
  simp [findRow, h]
theorem findRow_miss {i t : Nat} {r : ObjRow} {l : List ObjRow} (h : r.place.key i t = none) : findRow i t (r :: l) = findRow i t l := by
  simp [findRow, h]
theorem findRow_append {i t : Nat} {x : ObjRow × Nat} (l m : List ObjRow) (h : findRow i t l = some x) : findRow i t (l ++ m) = some x := by
  induction l with
  | nil => cases h
  | cons r l ih =>
    simp only [List.cons_append, findRow] at h ⊢
    split at h
    · exact h
    · exact ih h
theorem objAt_dev {i t : Nat} {x : ObjRow × Nat} (h : findRow i t rowsDev = some x) : objAt i t = some x := by
  unfold objAt allRows
  simp only [List.append_assoc]
  exact findRow_append _ _ h
theorem at_miss {i s j t : Nat} (h : i ≠ j) : (Place.at_ i s).key j t = none := by simp [Place.key, h]
theorem split_low {b n j t : Nat} (h : j < b) : (Place.split b n).key j t = none := by simp [Place.key, Nat.not_le.mpr h]
theorem split_high {b n j t : Nat} (h : n ≤ (j - b) * 256 + t) : (Place.split b n).key j t = none := by simp [Place.key, Nat.not_lt.mpr h]
theorem split_hit {b n x : Nat} (h : x < n) : (Place.split b n).key (b + x / 256) (x % 256) = some x := by
  simp [Place.key, Nat.div_add_mod', h]
theorem each_low {b st n s j t : Nat} (h : j < b) : (Place.each b st n s).key j t = none := by simp [Place.key, Nat.not_le.mpr h]
theorem each_high {b st n s j t : Nat} (h : n ≤ (j - b) / st) : (Place.each b st n s).key j t = none := by simp [Place.key, Nat.not_lt.mpr h]
theorem each_sub {b st n s j t : Nat} (h : s ≠ t) : (Place.each b st n s).key j t = none := by simp [Place.key, h]
theorem each_hit {b st n s x : Nat} (hs : 0 < st) (h : x < n) : (Place.each b st n s).key (b + st * x) s = some x := by
  simp [Place.key, Nat.mul_div_cancel_left x hs, h]

theorem dev_skip {j t : Nat} (h : 0x1000 ≠ j) : findRow j t rowsDev = findRow j t
    [epochRow "RING.EPOCH" (.split 0x1C00 65536) .ring true ringOwner, epochRow "CTX.EPOCH" (.split 0x1D00 65536) .ctx true ctxSelf,
    epochRow "KEY.EPOCH" (.split 0x1F00 4096) .key, epochRow "PORT.EPOCH" (.each 0x2000 16 256 0xFE) .port,
    epochRow "STACK.EPOCH" (.each 0x4100 1 24 0xFE) .stack, epochRow "EXT.EPOCH" (.each 0x4A00 1 1024 0xFE) .ext,
    epochRow "RT.EPOCH" (.at_ 0x7000 0xFE) (fun _ => .rackTime), epochRow "TBL.EPOCH" (.at_ 0x7100 0xFE) (fun _ => .bank),
    epochRow "HP.EPOCH" (.each 0xA000 16 8 0xFE) .host] := by
  unfold rowsDev
  rw [findRow_miss (at_miss h), findRow_miss (at_miss h), findRow_miss (at_miss h), findRow_miss (at_miss h), findRow_miss (at_miss h),
    findRow_miss (at_miss h), findRow_miss (at_miss h), findRow_miss (at_miss h), findRow_miss (at_miss h), findRow_miss (at_miss h),
    findRow_miss (at_miss h), findRow_miss (at_miss h), findRow_miss (at_miss h), findRow_miss (at_miss h), findRow_miss (at_miss h),
    findRow_miss (at_miss h), findRow_miss (at_miss h)]
/-- The epoch record of a unit is a readable and writable record of 16 bytes, whose write is the acceptance of R430. -/
theorem objAt_epoch (u : EUnit) (h : u.ok = true) : ∃ r k, objAt u.obj.1 u.obj.2 = some (r, k) ∧ r.acc = .rw ∧ r.ty = .record 16 ∧ r.rng = none ∧
    (∀ s, r.locked s = false) ∧ ∀ e b s, r.write e k b s = .ok (epochAccept u s) := by
  have key : ∀ (n : String) (p : Place) (g : Nat → EUnit) (o : Bool) (w : Nat → State → Option Nat) (k : Nat), g k = u →
      findRow u.obj.1 u.obj.2 rowsDev = some (epochRow n p g o w, k) → ∃ r k, objAt u.obj.1 u.obj.2 = some (r, k) ∧ r.acc = .rw ∧ r.ty = .record 16 ∧
        r.rng = none ∧ (∀ s, r.locked s = false) ∧ ∀ e b s, r.write e k b s = .ok (epochAccept u s) :=
    fun n p g o w k hg hf => ⟨_, k, objAt_dev hf, rfl, rfl, rfl, fun _ => rfl, fun _ _ _ => by simp [epochRow, hg]⟩
  cases u with
  | device => exact key "DEV.EPOCH" (.at_ 0x1000 0x20) (fun _ => .device) false (fun _ _ => none) 0 rfl rfl
  | rackTime => exact key "RT.EPOCH" (.at_ 0x7000 0xFE) (fun _ => .rackTime) false (fun _ _ => none) 0 rfl rfl
  | bank => exact key "TBL.EPOCH" (.at_ 0x7100 0xFE) (fun _ => .bank) false (fun _ _ => none) 0 rfl rfl
  | ring n =>
    simp only [EUnit.ok, ringOk, decide_eq_true_eq] at h
    refine key "RING.EPOCH" (.split 0x1C00 65536) .ring true ringOwner n rfl ?_
    simp only [EUnit.obj]
    rw [dev_skip (by omega), findRow_hit (split_hit h)]
  | ctx c =>
    simp only [EUnit.ok, ctxOk, decide_eq_true_eq] at h
    refine key "CTX.EPOCH" (.split 0x1D00 65536) .ctx true ctxSelf c rfl ?_
    simp only [EUnit.obj]
    rw [dev_skip (by omega), findRow_miss (split_high (by omega)), findRow_hit (split_hit h)]
  | key k =>
    simp only [EUnit.ok, decide_eq_true_eq] at h
    refine key "KEY.EPOCH" (.split 0x1F00 4096) .key false (fun _ _ => none) k rfl ?_
    simp only [EUnit.obj]
    rw [dev_skip (by omega), findRow_miss (split_high (by omega)), findRow_miss (split_high (by omega)), findRow_hit (split_hit h)]
  | port p =>
    simp only [EUnit.ok, portOk, decide_eq_true_eq] at h
    refine key "PORT.EPOCH" (.each 0x2000 16 256 0xFE) .port false (fun _ _ => none) p rfl ?_
    simp only [EUnit.obj]
    rw [dev_skip (by omega), findRow_miss (split_high (by omega)), findRow_miss (split_high (by omega)), findRow_miss (split_high (by omega)),
      findRow_hit (each_hit (by omega) h)]
  | stack k =>
    simp only [EUnit.ok, decide_eq_true_eq] at h
    refine key "STACK.EPOCH" (.each 0x4100 1 24 0xFE) .stack false (fun _ _ => none) k rfl ?_
    simp only [EUnit.obj]
    rw [dev_skip (by omega), findRow_miss (split_high (by omega)), findRow_miss (split_high (by omega)), findRow_miss (split_high (by omega)),
      findRow_miss (each_high (by omega)), show 0x4100 + k = 0x4100 + 1 * k by omega, findRow_hit (each_hit (by omega) h)]
  | ext e =>
    simp only [EUnit.ok, extOk, decide_eq_true_eq] at h
    refine key "EXT.EPOCH" (.each 0x4A00 1 1024 0xFE) .ext false (fun _ _ => none) e rfl ?_
    simp only [EUnit.obj]
    rw [dev_skip (by omega), findRow_miss (split_high (by omega)), findRow_miss (split_high (by omega)), findRow_miss (split_high (by omega)),
      findRow_miss (each_high (by omega)), findRow_miss (each_high (by omega)), show 0x4A00 + e = 0x4A00 + 1 * e by omega,
      findRow_hit (each_hit (by omega) h)]
  | host x =>
    simp only [EUnit.ok, hostOk, decide_eq_true_eq] at h
    refine key "HP.EPOCH" (.each 0xA000 16 8 0xFE) .host false (fun _ _ => none) x rfl ?_
    simp only [EUnit.obj]
    rw [dev_skip (by omega), findRow_miss (split_high (by omega)), findRow_miss (split_high (by omega)), findRow_miss (split_high (by omega)),
      findRow_miss (each_high (by omega)), findRow_miss (each_high (by omega)), findRow_miss (each_high (by omega)), findRow_miss (at_miss (by omega)),
      findRow_miss (at_miss (by omega)), findRow_hit (each_hit (by omega) h)]
/-- Table 14-10 gives the epoch record of a unit to that unit. -/
theorem unitOf_epoch (u : EUnit) (h : u.ok = true) (f : VFrame) (hi : f.index = u.obj.1) (hs : f.sub = u.obj.2) : unitOf f = some u := by
  cases u with
  | device => simp [unitOf, hi, hs, EUnit.obj]
  | rackTime => simp [unitOf, hi, hs, EUnit.obj]
  | bank => simp [unitOf, hi, hs, EUnit.obj]
  | ring n =>
    simp only [EUnit.ok, ringOk, decide_eq_true_eq] at h
    simp only [unitOf, hi, hs, EUnit.obj]
    rw [if_neg (by simp only [Bool.and_eq_true, decide_eq_true_eq, beq_iff_eq]; omega), if_pos (by simp; omega)]
    exact congrArg (fun x => some (EUnit.ring x)) (by omega)
  | ctx c =>
    simp only [EUnit.ok, ctxOk, decide_eq_true_eq] at h
    simp only [unitOf, hi, hs, EUnit.obj]
    rw [if_neg (by simp only [Bool.and_eq_true, decide_eq_true_eq, beq_iff_eq]; omega), if_neg (by simp only [Bool.and_eq_true, decide_eq_true_eq, beq_iff_eq]; omega), if_pos (by simp; omega)]
    exact congrArg (fun x => some (EUnit.ctx x)) (by omega)
  | key k =>
    simp only [EUnit.ok, decide_eq_true_eq] at h
    simp only [unitOf, hi, hs, EUnit.obj]
    rw [if_neg (by simp only [Bool.and_eq_true, decide_eq_true_eq, beq_iff_eq]; omega), if_neg (by simp only [Bool.and_eq_true, decide_eq_true_eq, beq_iff_eq]; omega), if_neg (by simp only [Bool.and_eq_true, decide_eq_true_eq, beq_iff_eq]; omega), if_pos (by simp; omega)]
    exact congrArg (fun x => some (EUnit.key x)) (by omega)
  | port p =>
    simp only [EUnit.ok, portOk, decide_eq_true_eq] at h
    simp only [unitOf, hi, hs, EUnit.obj]
    rw [if_neg (by simp only [Bool.and_eq_true, decide_eq_true_eq, beq_iff_eq]; omega), if_neg (by simp only [Bool.and_eq_true, decide_eq_true_eq, beq_iff_eq]; omega), if_neg (by simp only [Bool.and_eq_true, decide_eq_true_eq, beq_iff_eq]; omega), if_neg (by simp only [Bool.and_eq_true, decide_eq_true_eq, beq_iff_eq]; omega), if_pos (by simp; omega)]
    exact congrArg (fun x => some (EUnit.port x)) (by omega)
  | stack k =>
    simp only [EUnit.ok, decide_eq_true_eq] at h
    simp only [unitOf, hi, hs, EUnit.obj]
    rw [if_neg (by simp only [Bool.and_eq_true, decide_eq_true_eq, beq_iff_eq]; omega), if_neg (by simp only [Bool.and_eq_true, decide_eq_true_eq, beq_iff_eq]; omega), if_neg (by simp only [Bool.and_eq_true, decide_eq_true_eq, beq_iff_eq]; omega), if_neg (by simp only [Bool.and_eq_true, decide_eq_true_eq, beq_iff_eq]; omega), if_neg (by simp only [Bool.and_eq_true, decide_eq_true_eq, beq_iff_eq]; omega), if_pos (by simp; omega)]
    exact congrArg (fun x => some (EUnit.stack x)) (by omega)
  | ext e =>
    simp only [EUnit.ok, extOk, decide_eq_true_eq] at h
    simp only [unitOf, hi, hs, EUnit.obj]
    rw [if_neg (by simp only [Bool.and_eq_true, decide_eq_true_eq, beq_iff_eq]; omega), if_neg (by simp only [Bool.and_eq_true, decide_eq_true_eq, beq_iff_eq]; omega), if_neg (by simp only [Bool.and_eq_true, decide_eq_true_eq, beq_iff_eq]; omega), if_neg (by simp only [Bool.and_eq_true, decide_eq_true_eq, beq_iff_eq]; omega), if_neg (by simp only [Bool.and_eq_true, decide_eq_true_eq, beq_iff_eq]; omega), if_neg (by simp only [Bool.and_eq_true, decide_eq_true_eq, beq_iff_eq]; omega), if_pos (by simp; omega)]
    exact congrArg (fun x => some (EUnit.ext x)) (by omega)
  | host x =>
    simp only [EUnit.ok, hostOk, decide_eq_true_eq] at h
    simp only [unitOf, hi, hs, EUnit.obj]
    repeat rw [if_neg (by simp only [Bool.and_eq_true, decide_eq_true_eq, beq_iff_eq]; omega)]
    rw [if_pos (by simp; omega)]
    exact congrArg (fun x => some (EUnit.host x)) (by omega)

end Sys2Proof.Machine
end

