-- ==== Sys2Proof/Laws/Flits.lean ====
section
/-! SUPPORT. The check of a flit fills 48 bits, so that a flit with a wider check passes under no sequence number. -/

namespace Sys2Proof.Machine
open Sys2Proof

theorem crc32cBit_lt {r : Nat} (h : r < 2 ^ 32) : crc32cBit r < 2 ^ 32 := by
  unfold crc32cBit
  split
  · exact Nat.xor_lt_two_pow (by omega) (by decide)
  · omega
theorem crc32cByte_lt {r : Nat} {b : Byte} (h : r < 2 ^ 32) : crc32cByte r b < 2 ^ 32 :=
  crc32cBit_lt (crc32cBit_lt (crc32cBit_lt (crc32cBit_lt (crc32cBit_lt (crc32cBit_lt (crc32cBit_lt (crc32cBit_lt
    (Nat.xor_lt_two_pow h (by have := b.isLt; omega)))))))))
theorem crc32cRun_lt {l : Bytes} {r : Nat} (h : r < 2 ^ 32) : crc32cRun r l < 2 ^ 32 := by
  induction l generalizing r with
  | nil => exact h
  | cons b l ih => exact ih (crc32cByte_lt h)
theorem crc32c_lt {l : Bytes} {r : Nat} (h : r < 2 ^ 32) : crc32c r l < 2 ^ 32 := Nat.xor_lt_two_pow (crc32cRun_lt h) (by decide)
theorem crc16Bit_lt (r : Nat) : crc16Bit r < 2 ^ 16 := by
  unfold crc16Bit
  split
  · exact Nat.xor_lt_two_pow (by omega) (by decide)
  · omega
theorem crc16_lt (l : Bytes) : crc16 l < 2 ^ 16 := by
  have h : ∀ (l : Bytes) (r : Nat), r < 2 ^ 16 → l.foldl crc16Byte r < 2 ^ 16 := by
    intro l
    induction l with
    | nil => exact fun _ h => h
    | cons b l ih => exact fun r _ => ih _ (crc16Bit_lt _)
  exact h l 0xFFFF (by decide)
theorem flitCheck_lt (pre lcb : Nat) (body : Bytes) : flitCheck pre lcb body < 2 ^ 48 := by
  have h1 := crc32c_lt (l := leBytes 2 pre ++ leBytes 2 lcb ++ slice body 0 56) (r := 0xFFFFFFFF) (by decide)
  have h2 := crc16_lt (leBytes 2 pre ++ leBytes 2 lcb ++ slice body 0 56)
  show crc32c _ _ + 2 ^ 32 * crc16 _ < 2 ^ 48
  omega
theorem flitPasses_wide {f : Flit} (h : 2 ^ 48 ≤ f.chk) (pre : Nat) : flitPasses f pre = false := by
  have := flitCheck_lt pre f.lcb f.body
  simp only [flitPasses, beq_eq_false_iff_ne]
  omega
theorem passesUnder_wide {f : Flit} (h : 2 ^ 48 ≤ f.chk) (n q : Nat) : passesUnder f n q = none := by
  induction n generalizing q with
  | zero => rfl
  | succ n ih => simp [passesUnder, flitPasses_wide h, ih]

end Sys2Proof.Machine
end

