-- ==== Sys2Proof/Laws/Tab.lean ====
section
/-! SUPPORT. What the table and memory operations do: a read after a write, everything else left alone, and the canonical form of memory kept. -/

namespace Sys2Proof.Machine
open Sys2Proof

theorem tget_tset_same {α : Type} (d : α) (t : Tab α) (i : Nat) (x : α) : tget d (tset t i x) i = x := by
  induction t with
  | nil => simp [tset, tget]
  | cons h r ih =>
    obtain ⟨k, v⟩ := h
    simp only [tset]
    split
    · simp [tget]
    · split
      · simp [tget]
      · simp [tget, ih, *]
theorem tget_tset_ne {α : Type} (d : α) (t : Tab α) (i j : Nat) (x : α) (h : j ≠ i) : tget d (tset t i x) j = tget d t j := by
  induction t with
  | nil => simp [tset, tget, Ne.symm h]
  | cons hd r ih =>
    obtain ⟨k, v⟩ := hd
    simp only [tset]
    split
    · simp [tget, Ne.symm h]
    · split
      · rename_i hk; subst hk; simp [tget, Ne.symm h]
      · simp only [tget, ih]
@[simp] theorem tget_tset {α : Type} (d : α) (t : Tab α) (i j : Nat) (x : α) : tget d (tset t i x) j = if j = i then x else tget d t j := by
  split
  · next h => subst h; exact tget_tset_same d t j x
  · next h => exact tget_tset_ne d t i j x h
@[simp] theorem tget_tmod {α : Type} (d : α) (t : Tab α) (i j : Nat) (f : α → α) :
    tget d (tmod d t i f) j = if j = i then f (tget d t i) else tget d t j := by
  simp [tmod]
@[simp] theorem tfind_tset {α : Type} (t : Tab α) (i j : Nat) (x : α) : tfind (tset t i x) j = if j = i then some x else tfind t j := by
  induction t with
  | nil => simp [tset, tfind, eq_comm]
  | cons hd r ih =>
    obtain ⟨k, v⟩ := hd
    simp only [tset]
    split
    · simp [tfind, eq_comm]
    · split
      · next h => subst h; by_cases hj : j = k <;> simp [tfind, hj, eq_comm]
      · simp only [tfind, ih]
        by_cases hj : j = i
        · subst hj; simp [*]
        · simp [hj]
@[simp] theorem tfind_terase {α : Type} (t : Tab α) (i j : Nat) : tfind (terase t i) j = if j = i then none else tfind t j := by
  induction t with
  | nil => simp [terase, tfind]
  | cons hd r ih =>
    obtain ⟨k, v⟩ := hd
    simp only [terase] at ih
    by_cases hk : k = i
    · subst hk
      simp only [terase, List.filter, bne_self_eq_false, ih, tfind]
      by_cases hj : j = k
      · simp [hj]
      · simp [hj, Ne.symm hj]
    · have : (k != i) = true := by simpa using hk
      simp only [terase, List.filter, this, tfind, ih]
      by_cases hj : k = j
      · subst hj; simp [hk]
      · simp [hj]
theorem tget_tmap {α : Type} (d : α) (t : Tab α) (f : Nat → α → α) (i : Nat) (h : f i d = d) : tget d (tmap t f) i = f i (tget d t i) := by
  induction t with
  | nil => simp [tmap, tget, h]
  | cons hd r ih =>
    obtain ⟨k, v⟩ := hd
    simp only [tmap, List.map_cons, tget] at ih ⊢
    split
    · next hk => subst hk; rfl
    · exact ih

@[simp] theorem tset_tset {α : Type} (t : Tab α) (i : Nat) (x y : α) : tset (tset t i x) i y = tset t i y := by
  induction t with
  | nil => simp [tset]
  | cons hd r ih =>
    obtain ⟨k, v⟩ := hd
    simp only [tset]
    split
    · simp [tset]
    · split
      · next h => subst h; simp [tset]
      · simp only [tset]
        rw [if_neg (by assumption), if_neg (by assumption), ih]
@[simp] theorem tmod_tmod {α : Type} (d : α) (t : Tab α) (i : Nat) (f g : α → α) : tmod d (tmod d t i f) i g = tmod d t i (fun x => g (f x)) := by
  simp [tmod]
theorem tmod_congr {α : Type} (d : α) (t : Tab α) (i : Nat) (f g : α → α) (h : f (tget d t i) = g (tget d t i)) : tmod d t i f = tmod d t i g := by
  unfold tmod; rw [h]

-- Memory
theorem memWfFrom_mono {lo lo' : Nat} {m : List Host.Cell} (h : lo' ≤ lo) (hm : memWfFrom lo m = true) : memWfFrom lo' m = true := by
  cases m with
  | nil => rfl
  | cons c r =>
    obtain ⟨k, v⟩ := c
    simp only [memWfFrom, Bool.and_eq_true, decide_eq_true_eq] at hm ⊢
    exact ⟨⟨by omega, hm.1.2⟩, hm.2⟩
theorem memSet_wfFrom {lo : Nat} (m : List Host.Cell) (a : Nat) (b : Byte) (h : lo ≤ a) (hm : memWfFrom lo m = true) :
    memWfFrom lo (memSet m a b) = true := by
  induction m generalizing lo with
  | nil =>
    simp only [memSet]
    split
    · rfl
    · next hb =>
      simp only [memWfFrom, Bool.and_eq_true, decide_eq_true_eq]
      exact ⟨⟨h, hb⟩, trivial⟩
  | cons c r ih =>
    obtain ⟨k, v⟩ := c
    simp only [memWfFrom, Bool.and_eq_true, decide_eq_true_eq] at hm
    simp only [memSet]
    split
    · next hk =>
      split
      · simp only [memWfFrom, Bool.and_eq_true, decide_eq_true_eq]
        exact hm
      · next hb =>
        simp only [memWfFrom, Bool.and_eq_true, decide_eq_true_eq]
        exact ⟨⟨h, hb⟩, ⟨by omega, hm.1.2⟩, hm.2⟩
    · split
      · next hk =>
        subst hk
        split
        · exact memWfFrom_mono (by omega) hm.2
        · next hb =>
          simp only [memWfFrom, Bool.and_eq_true, decide_eq_true_eq]
          exact ⟨⟨h, hb⟩, hm.2⟩
      · next h1 h2 =>
        simp only [memWfFrom, Bool.and_eq_true, decide_eq_true_eq]
        exact ⟨hm.1, ih (by omega) hm.2⟩
theorem memFilter_wfFrom {lo : Nat} (m : List Host.Cell) (p : Host.Cell → Bool) (hm : memWfFrom lo m = true) : memWfFrom lo (m.filter p) = true := by
  induction m generalizing lo with
  | nil => rfl
  | cons c r ih =>
    obtain ⟨k, v⟩ := c
    simp only [memWfFrom, Bool.and_eq_true, decide_eq_true_eq] at hm
    simp only [List.filter]
    split
    · simp only [memWfFrom, Bool.and_eq_true, decide_eq_true_eq]
      exact ⟨hm.1, ih hm.2⟩
    · exact memWfFrom_mono (by omega) (ih hm.2)
/-- Writing one byte keeps the canonical form. -/
theorem memSet_wf (m : List Host.Cell) (a : Nat) (b : Byte) (hm : Memory.wf m = true) : Memory.wf (memSet m a b) = true :=
  memSet_wfFrom m a b (Nat.zero_le a) hm
/-- Writing a byte string keeps the canonical form. -/
theorem memWrite_wf (m : List Host.Cell) (a : Nat) (bs : Bytes) (hm : Memory.wf m = true) : Memory.wf (memWrite m a bs) = true := by
  induction bs generalizing m a with
  | nil => exact hm
  | cons b r ih => exact ih _ _ (memSet_wf m a b hm)
/-- Zeroing a range keeps the canonical form. -/
theorem memZero_wf (m : List Host.Cell) (a n : Nat) (hm : Memory.wf m = true) : Memory.wf (memZero m a n) = true :=
  memFilter_wfFrom m _ hm
theorem memGet_below {lo a : Nat} {m : List Host.Cell} (h : a < lo) (hm : memWfFrom lo m = true) : memGet m a = 0 := by
  induction m generalizing lo with
  | nil => rfl
  | cons c r ih =>
    obtain ⟨k, v⟩ := c
    simp only [memWfFrom, Bool.and_eq_true, decide_eq_true_eq] at hm
    simp only [memGet]
    rw [if_neg (by omega)]
    exact ih (lo := k + 1) (by omega) hm.2
theorem memGet_memSet_from {lo : Nat} (m : List Host.Cell) (a : Nat) (b : Byte) (j : Nat) (hm : memWfFrom lo m = true) :
    memGet (memSet m a b) j = if j = a then b else memGet m j := by
  induction m generalizing lo with
  | nil =>
    simp only [memSet]
    split
    · next hb => simp [memGet, hb]
    · by_cases h : j = a
      · simp [memGet, h]
      · simp [memGet, h, Ne.symm h]
  | cons c r ih =>
    obtain ⟨k, v⟩ := c
    simp only [memWfFrom, Bool.and_eq_true, decide_eq_true_eq] at hm
    simp only [memSet]
    split
    · next hk =>
      split
      · next hb =>
        split
        · next hj =>
          subst hj hb
          simp only [memGet]
          rw [if_neg (by omega)]
          exact memGet_below (lo := k + 1) (by omega) hm.2
        · rfl
      · by_cases h : j = a
        · simp [memGet, h]
        · simp [memGet, h, Ne.symm h]
    · split
      · next hk =>
        subst hk
        split
        · next hb =>
          by_cases h : j = k
          · subst h hb
            rw [if_pos rfl]
            exact memGet_below (lo := j + 1) (Nat.lt_succ_self j) hm.2
          · simp [memGet, h, Ne.symm h]
        · by_cases h : j = k
          · simp [memGet, h]
          · simp [memGet, h, Ne.symm h]
      · next h1 h2 =>
        simp only [memGet, ih hm.2]
        split
        · next hk => subst hk; rw [if_neg h2]
        · rfl
/-- A read after a write of one byte. -/
theorem memGet_memSet (m : List Host.Cell) (a : Nat) (b : Byte) (j : Nat) (hm : Memory.wf m = true) :
    memGet (memSet m a b) j = if j = a then b else memGet m j :=
  memGet_memSet_from m a b j hm
/-- A write of a byte string leaves every byte outside it alone. -/
theorem memGet_memWrite_out (m : List Host.Cell) (a : Nat) (bs : Bytes) (j : Nat) (hm : Memory.wf m = true) (hj : j < a ∨ a + bs.length ≤ j) :
    memGet (memWrite m a bs) j = memGet m j := by
  induction bs generalizing m a with
  | nil => rfl
  | cons b r ih =>
    simp only [List.length_cons] at hj
    rw [memWrite, ih _ _ (memSet_wf m a b hm) (by omega), memGet_memSet m a b j hm, if_neg (by omega)]
/-- A byte that a string wrote reads as that byte of the string. -/
theorem memGet_memWrite_in (m : List Host.Cell) (a : Nat) (bs : Bytes) (i : Nat) (hm : Memory.wf m = true) (hi : i < bs.length) :
    memGet (memWrite m a bs) (a + i) = bs[i] := by
  induction bs generalizing m a i with
  | nil => simp at hi
  | cons b r ih =>
    rw [memWrite]
    cases i with
    | zero => rw [memGet_memWrite_out _ _ _ _ (memSet_wf m a b hm) (by omega), memGet_memSet m a b _ hm]; simp
    | succ i =>
      have := ih (memSet m a b) (a + 1) i (memSet_wf m a b hm) (by simpa using hi)
      rw [show a + (i + 1) = a + 1 + i by omega, this]; rfl

end Sys2Proof.Machine
end

