-- ==== Sys2Proof/Laws/State.lean ====
section
/-! SUPPORT. What each update of the state leaves alone, what it does to the field it is for, and what the management-side operations can touch. -/

namespace Sys2Proof.Machine
open Sys2Proof

-- Each update leaves every other field alone
@[simp] theorem emit_keeps (s : State) (o : Output) :
    (s.emit o).pending = s.pending ∧ (s.emit o).free = s.free ∧ (s.emit o).clk = s.clk ∧ (s.emit o).dev = s.dev ∧ (s.emit o).vane = s.vane ∧
    (s.emit o).evt = s.evt ∧ (s.emit o).thm = s.thm ∧ (s.emit o).tel = s.tel ∧ (s.emit o).rt = s.rt ∧ (s.emit o).tbl = s.tbl ∧
    (s.emit o).ports = s.ports ∧ (s.emit o).lanes = s.lanes ∧ (s.emit o).link = s.link ∧ (s.emit o).sw = s.sw ∧ (s.emit o).xact = s.xact ∧
    (s.emit o).reqs = s.reqs ∧ (s.emit o).mov = s.mov ∧ (s.emit o).xl = s.xl ∧ (s.emit o).win = s.win ∧ (s.emit o).pool = s.pool ∧
    (s.emit o).hp = s.hp ∧ (s.emit o).sec = s.sec ∧ (s.emit o).ops = s.ops ∧ (s.emit o).absent = s.absent ∧ (s.emit o).noticeSlot = s.noticeSlot ∧
    (s.emit o).departures = s.departures ∧ (s.emit o).excluded = s.excluded ∧ (s.emit o).farun = s.farun :=
  ⟨rfl, rfl, rfl, rfl, rfl, rfl, rfl, rfl, rfl, rfl, rfl, rfl, rfl, rfl, rfl, rfl, rfl, rfl, rfl, rfl, rfl, rfl, rfl, rfl, rfl, rfl, rfl, rfl⟩
@[simp] theorem fresh_keeps (s : State)  :
    (s.fresh.2).pending = s.pending ∧ (s.fresh.2).out = s.out ∧ (s.fresh.2).clk = s.clk ∧ (s.fresh.2).dev = s.dev ∧ (s.fresh.2).vane = s.vane ∧
    (s.fresh.2).evt = s.evt ∧ (s.fresh.2).thm = s.thm ∧ (s.fresh.2).tel = s.tel ∧ (s.fresh.2).rt = s.rt ∧ (s.fresh.2).tbl = s.tbl ∧
    (s.fresh.2).ports = s.ports ∧ (s.fresh.2).lanes = s.lanes ∧ (s.fresh.2).link = s.link ∧ (s.fresh.2).sw = s.sw ∧ (s.fresh.2).xact = s.xact ∧
    (s.fresh.2).reqs = s.reqs ∧ (s.fresh.2).mov = s.mov ∧ (s.fresh.2).xl = s.xl ∧ (s.fresh.2).win = s.win ∧ (s.fresh.2).pool = s.pool ∧
    (s.fresh.2).hp = s.hp ∧ (s.fresh.2).sec = s.sec ∧ (s.fresh.2).ops = s.ops ∧ (s.fresh.2).absent = s.absent ∧
    (s.fresh.2).noticeSlot = s.noticeSlot ∧ (s.fresh.2).departures = s.departures ∧ (s.fresh.2).excluded = s.excluded ∧ (s.fresh.2).farun = s.farun :=
  ⟨rfl, rfl, rfl, rfl, rfl, rfl, rfl, rfl, rfl, rfl, rfl, rfl, rfl, rfl, rfl, rfl, rfl, rfl, rfl, rfl, rfl, rfl, rfl, rfl, rfl, rfl, rfl, rfl⟩
@[simp] theorem freshBytes_keeps (s : State) (n : Nat) :
    ((s.freshBytes n).2).pending = s.pending ∧ ((s.freshBytes n).2).out = s.out ∧ ((s.freshBytes n).2).clk = s.clk ∧
    ((s.freshBytes n).2).dev = s.dev ∧ ((s.freshBytes n).2).vane = s.vane ∧ ((s.freshBytes n).2).evt = s.evt ∧ ((s.freshBytes n).2).thm = s.thm ∧
    ((s.freshBytes n).2).tel = s.tel ∧ ((s.freshBytes n).2).rt = s.rt ∧ ((s.freshBytes n).2).tbl = s.tbl ∧ ((s.freshBytes n).2).ports = s.ports ∧
    ((s.freshBytes n).2).lanes = s.lanes ∧ ((s.freshBytes n).2).link = s.link ∧ ((s.freshBytes n).2).sw = s.sw ∧ ((s.freshBytes n).2).xact = s.xact ∧
    ((s.freshBytes n).2).reqs = s.reqs ∧ ((s.freshBytes n).2).mov = s.mov ∧ ((s.freshBytes n).2).xl = s.xl ∧ ((s.freshBytes n).2).win = s.win ∧
    ((s.freshBytes n).2).pool = s.pool ∧ ((s.freshBytes n).2).hp = s.hp ∧ ((s.freshBytes n).2).sec = s.sec ∧ ((s.freshBytes n).2).ops = s.ops ∧
    ((s.freshBytes n).2).absent = s.absent ∧ ((s.freshBytes n).2).noticeSlot = s.noticeSlot ∧ ((s.freshBytes n).2).departures = s.departures ∧
    ((s.freshBytes n).2).excluded = s.excluded ∧ ((s.freshBytes n).2).farun = s.farun :=
  ⟨rfl, rfl, rfl, rfl, rfl, rfl, rfl, rfl, rfl, rfl, rfl, rfl, rfl, rfl, rfl, rfl, rfl, rfl, rfl, rfl, rfl, rfl, rfl, rfl, rfl, rfl, rfl, rfl⟩
@[simp] theorem modPort_keeps (s : State) (p : Nat) (f : Port → Port) :
    (s.modPort p f).pending = s.pending ∧ (s.modPort p f).out = s.out ∧ (s.modPort p f).free = s.free ∧ (s.modPort p f).clk = s.clk ∧
    (s.modPort p f).dev = s.dev ∧ (s.modPort p f).vane = s.vane ∧ (s.modPort p f).evt = s.evt ∧ (s.modPort p f).thm = s.thm ∧
    (s.modPort p f).tel = s.tel ∧ (s.modPort p f).rt = s.rt ∧ (s.modPort p f).tbl = s.tbl ∧ (s.modPort p f).lanes = s.lanes ∧
    (s.modPort p f).link = s.link ∧ (s.modPort p f).sw = s.sw ∧ (s.modPort p f).xact = s.xact ∧ (s.modPort p f).reqs = s.reqs ∧
    (s.modPort p f).mov = s.mov ∧ (s.modPort p f).xl = s.xl ∧ (s.modPort p f).win = s.win ∧ (s.modPort p f).pool = s.pool ∧
    (s.modPort p f).hp = s.hp ∧ (s.modPort p f).sec = s.sec ∧ (s.modPort p f).ops = s.ops ∧ (s.modPort p f).absent = s.absent ∧
    (s.modPort p f).noticeSlot = s.noticeSlot ∧ (s.modPort p f).departures = s.departures ∧ (s.modPort p f).excluded = s.excluded ∧
    (s.modPort p f).farun = s.farun :=
  ⟨rfl, rfl, rfl, rfl, rfl, rfl, rfl, rfl, rfl, rfl, rfl, rfl, rfl, rfl, rfl, rfl, rfl, rfl, rfl, rfl, rfl, rfl, rfl, rfl, rfl, rfl, rfl, rfl⟩
@[simp] theorem modLane_keeps (s : State) (l : Nat) (f : Lane → Lane) :
    (s.modLane l f).pending = s.pending ∧ (s.modLane l f).out = s.out ∧ (s.modLane l f).free = s.free ∧ (s.modLane l f).clk = s.clk ∧
    (s.modLane l f).dev = s.dev ∧ (s.modLane l f).vane = s.vane ∧ (s.modLane l f).evt = s.evt ∧ (s.modLane l f).thm = s.thm ∧
    (s.modLane l f).tel = s.tel ∧ (s.modLane l f).rt = s.rt ∧ (s.modLane l f).tbl = s.tbl ∧ (s.modLane l f).ports = s.ports ∧
    (s.modLane l f).link = s.link ∧ (s.modLane l f).sw = s.sw ∧ (s.modLane l f).xact = s.xact ∧ (s.modLane l f).reqs = s.reqs ∧
    (s.modLane l f).mov = s.mov ∧ (s.modLane l f).xl = s.xl ∧ (s.modLane l f).win = s.win ∧ (s.modLane l f).pool = s.pool ∧
    (s.modLane l f).hp = s.hp ∧ (s.modLane l f).sec = s.sec ∧ (s.modLane l f).ops = s.ops ∧ (s.modLane l f).absent = s.absent ∧
    (s.modLane l f).noticeSlot = s.noticeSlot ∧ (s.modLane l f).departures = s.departures ∧ (s.modLane l f).excluded = s.excluded ∧
    (s.modLane l f).farun = s.farun :=
  ⟨rfl, rfl, rfl, rfl, rfl, rfl, rfl, rfl, rfl, rfl, rfl, rfl, rfl, rfl, rfl, rfl, rfl, rfl, rfl, rfl, rfl, rfl, rfl, rfl, rfl, rfl, rfl, rfl⟩
@[simp] theorem modHost_keeps (s : State) (h : Nat) (f : HostPort → HostPort) :
    (s.modHost h f).pending = s.pending ∧ (s.modHost h f).out = s.out ∧ (s.modHost h f).free = s.free ∧ (s.modHost h f).clk = s.clk ∧
    (s.modHost h f).dev = s.dev ∧ (s.modHost h f).vane = s.vane ∧ (s.modHost h f).evt = s.evt ∧ (s.modHost h f).thm = s.thm ∧
    (s.modHost h f).tel = s.tel ∧ (s.modHost h f).rt = s.rt ∧ (s.modHost h f).tbl = s.tbl ∧ (s.modHost h f).ports = s.ports ∧
    (s.modHost h f).lanes = s.lanes ∧ (s.modHost h f).link = s.link ∧ (s.modHost h f).sw = s.sw ∧ (s.modHost h f).xact = s.xact ∧
    (s.modHost h f).reqs = s.reqs ∧ (s.modHost h f).mov = s.mov ∧ (s.modHost h f).xl = s.xl ∧ (s.modHost h f).win = s.win ∧
    (s.modHost h f).pool = s.pool ∧ (s.modHost h f).sec = s.sec ∧ (s.modHost h f).ops = s.ops ∧ (s.modHost h f).absent = s.absent ∧
    (s.modHost h f).noticeSlot = s.noticeSlot ∧ (s.modHost h f).departures = s.departures ∧ (s.modHost h f).excluded = s.excluded ∧
    (s.modHost h f).farun = s.farun :=
  ⟨rfl, rfl, rfl, rfl, rfl, rfl, rfl, rfl, rfl, rfl, rfl, rfl, rfl, rfl, rfl, rfl, rfl, rfl, rfl, rfl, rfl, rfl, rfl, rfl, rfl, rfl, rfl, rfl⟩
@[simp] theorem modRing_keeps (s : State) (n : Nat) (f : Ring → Ring) :
    (s.modRing n f).pending = s.pending ∧ (s.modRing n f).out = s.out ∧ (s.modRing n f).free = s.free ∧ (s.modRing n f).clk = s.clk ∧
    (s.modRing n f).dev = s.dev ∧ (s.modRing n f).vane = s.vane ∧ (s.modRing n f).evt = s.evt ∧ (s.modRing n f).thm = s.thm ∧
    (s.modRing n f).tel = s.tel ∧ (s.modRing n f).rt = s.rt ∧ (s.modRing n f).tbl = s.tbl ∧ (s.modRing n f).ports = s.ports ∧
    (s.modRing n f).lanes = s.lanes ∧ (s.modRing n f).link = s.link ∧ (s.modRing n f).sw = s.sw ∧ (s.modRing n f).xact = s.xact ∧
    (s.modRing n f).reqs = s.reqs ∧ (s.modRing n f).xl = s.xl ∧ (s.modRing n f).win = s.win ∧ (s.modRing n f).pool = s.pool ∧
    (s.modRing n f).hp = s.hp ∧ (s.modRing n f).sec = s.sec ∧ (s.modRing n f).ops = s.ops ∧ (s.modRing n f).absent = s.absent ∧
    (s.modRing n f).noticeSlot = s.noticeSlot ∧ (s.modRing n f).departures = s.departures ∧ (s.modRing n f).excluded = s.excluded ∧
    (s.modRing n f).farun = s.farun :=
  ⟨rfl, rfl, rfl, rfl, rfl, rfl, rfl, rfl, rfl, rfl, rfl, rfl, rfl, rfl, rfl, rfl, rfl, rfl, rfl, rfl, rfl, rfl, rfl, rfl, rfl, rfl, rfl, rfl⟩
@[simp] theorem modCtx_keeps (s : State) (c : Nat) (f : Ctx → Ctx) :
    (s.modCtx c f).pending = s.pending ∧ (s.modCtx c f).out = s.out ∧ (s.modCtx c f).free = s.free ∧ (s.modCtx c f).clk = s.clk ∧
    (s.modCtx c f).dev = s.dev ∧ (s.modCtx c f).vane = s.vane ∧ (s.modCtx c f).evt = s.evt ∧ (s.modCtx c f).thm = s.thm ∧
    (s.modCtx c f).tel = s.tel ∧ (s.modCtx c f).rt = s.rt ∧ (s.modCtx c f).tbl = s.tbl ∧ (s.modCtx c f).ports = s.ports ∧
    (s.modCtx c f).lanes = s.lanes ∧ (s.modCtx c f).link = s.link ∧ (s.modCtx c f).sw = s.sw ∧ (s.modCtx c f).xact = s.xact ∧
    (s.modCtx c f).reqs = s.reqs ∧ (s.modCtx c f).mov = s.mov ∧ (s.modCtx c f).xl = s.xl ∧ (s.modCtx c f).win = s.win ∧
    (s.modCtx c f).pool = s.pool ∧ (s.modCtx c f).hp = s.hp ∧ (s.modCtx c f).ops = s.ops ∧ (s.modCtx c f).absent = s.absent ∧
    (s.modCtx c f).noticeSlot = s.noticeSlot ∧ (s.modCtx c f).departures = s.departures ∧ (s.modCtx c f).excluded = s.excluded ∧
    (s.modCtx c f).farun = s.farun :=
  ⟨rfl, rfl, rfl, rfl, rfl, rfl, rfl, rfl, rfl, rfl, rfl, rfl, rfl, rfl, rfl, rfl, rfl, rfl, rfl, rfl, rfl, rfl, rfl, rfl, rfl, rfl, rfl, rfl⟩
@[simp] theorem modKey_keeps (s : State) (k : Nat) (f : KeySlot → KeySlot) :
    (s.modKey k f).pending = s.pending ∧ (s.modKey k f).out = s.out ∧ (s.modKey k f).free = s.free ∧ (s.modKey k f).clk = s.clk ∧
    (s.modKey k f).dev = s.dev ∧ (s.modKey k f).vane = s.vane ∧ (s.modKey k f).evt = s.evt ∧ (s.modKey k f).thm = s.thm ∧
    (s.modKey k f).tel = s.tel ∧ (s.modKey k f).rt = s.rt ∧ (s.modKey k f).tbl = s.tbl ∧ (s.modKey k f).ports = s.ports ∧
    (s.modKey k f).lanes = s.lanes ∧ (s.modKey k f).link = s.link ∧ (s.modKey k f).sw = s.sw ∧ (s.modKey k f).xact = s.xact ∧
    (s.modKey k f).reqs = s.reqs ∧ (s.modKey k f).mov = s.mov ∧ (s.modKey k f).xl = s.xl ∧ (s.modKey k f).win = s.win ∧
    (s.modKey k f).pool = s.pool ∧ (s.modKey k f).hp = s.hp ∧ (s.modKey k f).ops = s.ops ∧ (s.modKey k f).absent = s.absent ∧
    (s.modKey k f).noticeSlot = s.noticeSlot ∧ (s.modKey k f).departures = s.departures ∧ (s.modKey k f).excluded = s.excluded ∧
    (s.modKey k f).farun = s.farun :=
  ⟨rfl, rfl, rfl, rfl, rfl, rfl, rfl, rfl, rfl, rfl, rfl, rfl, rfl, rfl, rfl, rfl, rfl, rfl, rfl, rfl, rfl, rfl, rfl, rfl, rfl, rfl, rfl, rfl⟩
@[simp] theorem modSec_keeps (s : State) (f : Sec → Sec) :
    (s.modSec f).pending = s.pending ∧ (s.modSec f).out = s.out ∧ (s.modSec f).free = s.free ∧ (s.modSec f).clk = s.clk ∧ (s.modSec f).dev = s.dev ∧
    (s.modSec f).vane = s.vane ∧ (s.modSec f).evt = s.evt ∧ (s.modSec f).thm = s.thm ∧ (s.modSec f).tel = s.tel ∧ (s.modSec f).rt = s.rt ∧
    (s.modSec f).tbl = s.tbl ∧ (s.modSec f).ports = s.ports ∧ (s.modSec f).lanes = s.lanes ∧ (s.modSec f).link = s.link ∧ (s.modSec f).sw = s.sw ∧
    (s.modSec f).xact = s.xact ∧ (s.modSec f).reqs = s.reqs ∧ (s.modSec f).mov = s.mov ∧ (s.modSec f).xl = s.xl ∧ (s.modSec f).win = s.win ∧
    (s.modSec f).pool = s.pool ∧ (s.modSec f).hp = s.hp ∧ (s.modSec f).ops = s.ops ∧ (s.modSec f).absent = s.absent ∧
    (s.modSec f).noticeSlot = s.noticeSlot ∧ (s.modSec f).departures = s.departures ∧ (s.modSec f).excluded = s.excluded ∧
    (s.modSec f).farun = s.farun :=
  ⟨rfl, rfl, rfl, rfl, rfl, rfl, rfl, rfl, rfl, rfl, rfl, rfl, rfl, rfl, rfl, rfl, rfl, rfl, rfl, rfl, rfl, rfl, rfl, rfl, rfl, rfl, rfl, rfl⟩
@[simp] theorem modExt_keeps (s : State) (e : Nat) (f : Ext → Ext) :
    (s.modExt e f).pending = s.pending ∧ (s.modExt e f).out = s.out ∧ (s.modExt e f).free = s.free ∧ (s.modExt e f).clk = s.clk ∧
    (s.modExt e f).dev = s.dev ∧ (s.modExt e f).vane = s.vane ∧ (s.modExt e f).evt = s.evt ∧ (s.modExt e f).thm = s.thm ∧
    (s.modExt e f).tel = s.tel ∧ (s.modExt e f).rt = s.rt ∧ (s.modExt e f).tbl = s.tbl ∧ (s.modExt e f).ports = s.ports ∧
    (s.modExt e f).lanes = s.lanes ∧ (s.modExt e f).link = s.link ∧ (s.modExt e f).sw = s.sw ∧ (s.modExt e f).xact = s.xact ∧
    (s.modExt e f).reqs = s.reqs ∧ (s.modExt e f).mov = s.mov ∧ (s.modExt e f).xl = s.xl ∧ (s.modExt e f).win = s.win ∧ (s.modExt e f).hp = s.hp ∧
    (s.modExt e f).sec = s.sec ∧ (s.modExt e f).ops = s.ops ∧ (s.modExt e f).absent = s.absent ∧ (s.modExt e f).noticeSlot = s.noticeSlot ∧
    (s.modExt e f).departures = s.departures ∧ (s.modExt e f).excluded = s.excluded ∧ (s.modExt e f).farun = s.farun :=
  ⟨rfl, rfl, rfl, rfl, rfl, rfl, rfl, rfl, rfl, rfl, rfl, rfl, rfl, rfl, rfl, rfl, rfl, rfl, rfl, rfl, rfl, rfl, rfl, rfl, rfl, rfl, rfl, rfl⟩
@[simp] theorem modStack_keeps (s : State) (k : Nat) (f : Stack → Stack) :
    (s.modStack k f).pending = s.pending ∧ (s.modStack k f).out = s.out ∧ (s.modStack k f).free = s.free ∧ (s.modStack k f).clk = s.clk ∧
    (s.modStack k f).dev = s.dev ∧ (s.modStack k f).vane = s.vane ∧ (s.modStack k f).evt = s.evt ∧ (s.modStack k f).thm = s.thm ∧
    (s.modStack k f).tel = s.tel ∧ (s.modStack k f).rt = s.rt ∧ (s.modStack k f).tbl = s.tbl ∧ (s.modStack k f).ports = s.ports ∧
    (s.modStack k f).lanes = s.lanes ∧ (s.modStack k f).link = s.link ∧ (s.modStack k f).sw = s.sw ∧ (s.modStack k f).xact = s.xact ∧
    (s.modStack k f).reqs = s.reqs ∧ (s.modStack k f).mov = s.mov ∧ (s.modStack k f).xl = s.xl ∧ (s.modStack k f).win = s.win ∧
    (s.modStack k f).hp = s.hp ∧ (s.modStack k f).sec = s.sec ∧ (s.modStack k f).ops = s.ops ∧ (s.modStack k f).absent = s.absent ∧
    (s.modStack k f).noticeSlot = s.noticeSlot ∧ (s.modStack k f).departures = s.departures ∧ (s.modStack k f).excluded = s.excluded ∧
    (s.modStack k f).farun = s.farun :=
  ⟨rfl, rfl, rfl, rfl, rfl, rfl, rfl, rfl, rfl, rfl, rfl, rfl, rfl, rfl, rfl, rfl, rfl, rfl, rfl, rfl, rfl, rfl, rfl, rfl, rfl, rfl, rfl, rfl⟩
@[simp] theorem modDie_keeps (s : State) (d : Nat) (f : Die → Die) :
    (s.modDie d f).pending = s.pending ∧ (s.modDie d f).out = s.out ∧ (s.modDie d f).free = s.free ∧ (s.modDie d f).clk = s.clk ∧
    (s.modDie d f).dev = s.dev ∧ (s.modDie d f).vane = s.vane ∧ (s.modDie d f).evt = s.evt ∧ (s.modDie d f).thm = s.thm ∧
    (s.modDie d f).tel = s.tel ∧ (s.modDie d f).rt = s.rt ∧ (s.modDie d f).tbl = s.tbl ∧ (s.modDie d f).ports = s.ports ∧
    (s.modDie d f).lanes = s.lanes ∧ (s.modDie d f).link = s.link ∧ (s.modDie d f).sw = s.sw ∧ (s.modDie d f).xact = s.xact ∧
    (s.modDie d f).reqs = s.reqs ∧ (s.modDie d f).mov = s.mov ∧ (s.modDie d f).xl = s.xl ∧ (s.modDie d f).win = s.win ∧ (s.modDie d f).hp = s.hp ∧
    (s.modDie d f).sec = s.sec ∧ (s.modDie d f).ops = s.ops ∧ (s.modDie d f).absent = s.absent ∧ (s.modDie d f).noticeSlot = s.noticeSlot ∧
    (s.modDie d f).departures = s.departures ∧ (s.modDie d f).excluded = s.excluded ∧ (s.modDie d f).farun = s.farun :=
  ⟨rfl, rfl, rfl, rfl, rfl, rfl, rfl, rfl, rfl, rfl, rfl, rfl, rfl, rfl, rfl, rfl, rfl, rfl, rfl, rfl, rfl, rfl, rfl, rfl, rfl, rfl, rfl, rfl⟩
@[simp] theorem modPool_keeps (s : State) (f : Pool → Pool) :
    (s.modPool f).pending = s.pending ∧ (s.modPool f).out = s.out ∧ (s.modPool f).free = s.free ∧ (s.modPool f).clk = s.clk ∧
    (s.modPool f).dev = s.dev ∧ (s.modPool f).vane = s.vane ∧ (s.modPool f).evt = s.evt ∧ (s.modPool f).thm = s.thm ∧ (s.modPool f).tel = s.tel ∧
    (s.modPool f).rt = s.rt ∧ (s.modPool f).tbl = s.tbl ∧ (s.modPool f).ports = s.ports ∧ (s.modPool f).lanes = s.lanes ∧
    (s.modPool f).link = s.link ∧ (s.modPool f).sw = s.sw ∧ (s.modPool f).xact = s.xact ∧ (s.modPool f).reqs = s.reqs ∧ (s.modPool f).mov = s.mov ∧
    (s.modPool f).xl = s.xl ∧ (s.modPool f).win = s.win ∧ (s.modPool f).hp = s.hp ∧ (s.modPool f).sec = s.sec ∧ (s.modPool f).ops = s.ops ∧
    (s.modPool f).absent = s.absent ∧ (s.modPool f).noticeSlot = s.noticeSlot ∧ (s.modPool f).departures = s.departures ∧
    (s.modPool f).excluded = s.excluded ∧ (s.modPool f).farun = s.farun :=
  ⟨rfl, rfl, rfl, rfl, rfl, rfl, rfl, rfl, rfl, rfl, rfl, rfl, rfl, rfl, rfl, rfl, rfl, rfl, rfl, rfl, rfl, rfl, rfl, rfl, rfl, rfl, rfl, rfl⟩
@[simp] theorem modInst_keeps (s : State) (i : Nat) (f : Inst → Inst) :
    (s.modInst i f).pending = s.pending ∧ (s.modInst i f).out = s.out ∧ (s.modInst i f).free = s.free ∧ (s.modInst i f).clk = s.clk ∧
    (s.modInst i f).dev = s.dev ∧ (s.modInst i f).vane = s.vane ∧ (s.modInst i f).evt = s.evt ∧ (s.modInst i f).thm = s.thm ∧
    (s.modInst i f).tel = s.tel ∧ (s.modInst i f).rt = s.rt ∧ (s.modInst i f).tbl = s.tbl ∧ (s.modInst i f).ports = s.ports ∧
    (s.modInst i f).lanes = s.lanes ∧ (s.modInst i f).link = s.link ∧ (s.modInst i f).sw = s.sw ∧ (s.modInst i f).xact = s.xact ∧
    (s.modInst i f).reqs = s.reqs ∧ (s.modInst i f).mov = s.mov ∧ (s.modInst i f).xl = s.xl ∧ (s.modInst i f).win = s.win ∧
    (s.modInst i f).pool = s.pool ∧ (s.modInst i f).hp = s.hp ∧ (s.modInst i f).sec = s.sec ∧ (s.modInst i f).absent = s.absent ∧
    (s.modInst i f).noticeSlot = s.noticeSlot ∧ (s.modInst i f).departures = s.departures ∧ (s.modInst i f).excluded = s.excluded ∧
    (s.modInst i f).farun = s.farun :=
  ⟨rfl, rfl, rfl, rfl, rfl, rfl, rfl, rfl, rfl, rfl, rfl, rfl, rfl, rfl, rfl, rfl, rfl, rfl, rfl, rfl, rfl, rfl, rfl, rfl, rfl, rfl, rfl, rfl⟩
@[simp] theorem modOps_keeps (s : State) (f : Ops → Ops) :
    (s.modOps f).pending = s.pending ∧ (s.modOps f).out = s.out ∧ (s.modOps f).free = s.free ∧ (s.modOps f).clk = s.clk ∧ (s.modOps f).dev = s.dev ∧
    (s.modOps f).vane = s.vane ∧ (s.modOps f).evt = s.evt ∧ (s.modOps f).thm = s.thm ∧ (s.modOps f).tel = s.tel ∧ (s.modOps f).rt = s.rt ∧
    (s.modOps f).tbl = s.tbl ∧ (s.modOps f).ports = s.ports ∧ (s.modOps f).lanes = s.lanes ∧ (s.modOps f).link = s.link ∧ (s.modOps f).sw = s.sw ∧
    (s.modOps f).xact = s.xact ∧ (s.modOps f).reqs = s.reqs ∧ (s.modOps f).mov = s.mov ∧ (s.modOps f).xl = s.xl ∧ (s.modOps f).win = s.win ∧
    (s.modOps f).pool = s.pool ∧ (s.modOps f).hp = s.hp ∧ (s.modOps f).sec = s.sec ∧ (s.modOps f).absent = s.absent ∧
    (s.modOps f).noticeSlot = s.noticeSlot ∧ (s.modOps f).departures = s.departures ∧ (s.modOps f).excluded = s.excluded ∧
    (s.modOps f).farun = s.farun :=
  ⟨rfl, rfl, rfl, rfl, rfl, rfl, rfl, rfl, rfl, rfl, rfl, rfl, rfl, rfl, rfl, rfl, rfl, rfl, rfl, rfl, rfl, rfl, rfl, rfl, rfl, rfl, rfl, rfl⟩
@[simp] theorem modXl_keeps (s : State) (f : Xl → Xl) :
    (s.modXl f).pending = s.pending ∧ (s.modXl f).out = s.out ∧ (s.modXl f).free = s.free ∧ (s.modXl f).clk = s.clk ∧ (s.modXl f).dev = s.dev ∧
    (s.modXl f).vane = s.vane ∧ (s.modXl f).evt = s.evt ∧ (s.modXl f).thm = s.thm ∧ (s.modXl f).tel = s.tel ∧ (s.modXl f).rt = s.rt ∧
    (s.modXl f).tbl = s.tbl ∧ (s.modXl f).ports = s.ports ∧ (s.modXl f).lanes = s.lanes ∧ (s.modXl f).link = s.link ∧ (s.modXl f).sw = s.sw ∧
    (s.modXl f).xact = s.xact ∧ (s.modXl f).reqs = s.reqs ∧ (s.modXl f).mov = s.mov ∧ (s.modXl f).win = s.win ∧ (s.modXl f).pool = s.pool ∧
    (s.modXl f).hp = s.hp ∧ (s.modXl f).sec = s.sec ∧ (s.modXl f).ops = s.ops ∧ (s.modXl f).absent = s.absent ∧
    (s.modXl f).noticeSlot = s.noticeSlot ∧ (s.modXl f).departures = s.departures ∧ (s.modXl f).excluded = s.excluded ∧ (s.modXl f).farun = s.farun :=
  ⟨rfl, rfl, rfl, rfl, rfl, rfl, rfl, rfl, rfl, rfl, rfl, rfl, rfl, rfl, rfl, rfl, rfl, rfl, rfl, rfl, rfl, rfl, rfl, rfl, rfl, rfl, rfl, rfl⟩
@[simp] theorem modRt_keeps (s : State) (f : RackTime → RackTime) :
    (s.modRt f).pending = s.pending ∧ (s.modRt f).out = s.out ∧ (s.modRt f).free = s.free ∧ (s.modRt f).clk = s.clk ∧ (s.modRt f).dev = s.dev ∧
    (s.modRt f).vane = s.vane ∧ (s.modRt f).evt = s.evt ∧ (s.modRt f).thm = s.thm ∧ (s.modRt f).tel = s.tel ∧ (s.modRt f).tbl = s.tbl ∧
    (s.modRt f).ports = s.ports ∧ (s.modRt f).lanes = s.lanes ∧ (s.modRt f).link = s.link ∧ (s.modRt f).sw = s.sw ∧ (s.modRt f).xact = s.xact ∧
    (s.modRt f).reqs = s.reqs ∧ (s.modRt f).mov = s.mov ∧ (s.modRt f).xl = s.xl ∧ (s.modRt f).win = s.win ∧ (s.modRt f).pool = s.pool ∧
    (s.modRt f).hp = s.hp ∧ (s.modRt f).sec = s.sec ∧ (s.modRt f).ops = s.ops ∧ (s.modRt f).absent = s.absent ∧
    (s.modRt f).noticeSlot = s.noticeSlot ∧ (s.modRt f).departures = s.departures ∧ (s.modRt f).excluded = s.excluded ∧ (s.modRt f).farun = s.farun :=
  ⟨rfl, rfl, rfl, rfl, rfl, rfl, rfl, rfl, rfl, rfl, rfl, rfl, rfl, rfl, rfl, rfl, rfl, rfl, rfl, rfl, rfl, rfl, rfl, rfl, rfl, rfl, rfl, rfl⟩
@[simp] theorem modTbl_keeps (s : State) (f : Tables → Tables) :
    (s.modTbl f).pending = s.pending ∧ (s.modTbl f).out = s.out ∧ (s.modTbl f).free = s.free ∧ (s.modTbl f).clk = s.clk ∧ (s.modTbl f).dev = s.dev ∧
    (s.modTbl f).vane = s.vane ∧ (s.modTbl f).evt = s.evt ∧ (s.modTbl f).thm = s.thm ∧ (s.modTbl f).tel = s.tel ∧ (s.modTbl f).rt = s.rt ∧
    (s.modTbl f).ports = s.ports ∧ (s.modTbl f).lanes = s.lanes ∧ (s.modTbl f).link = s.link ∧ (s.modTbl f).sw = s.sw ∧ (s.modTbl f).xact = s.xact ∧
    (s.modTbl f).reqs = s.reqs ∧ (s.modTbl f).mov = s.mov ∧ (s.modTbl f).xl = s.xl ∧ (s.modTbl f).win = s.win ∧ (s.modTbl f).pool = s.pool ∧
    (s.modTbl f).hp = s.hp ∧ (s.modTbl f).sec = s.sec ∧ (s.modTbl f).ops = s.ops ∧ (s.modTbl f).absent = s.absent ∧
    (s.modTbl f).noticeSlot = s.noticeSlot ∧ (s.modTbl f).departures = s.departures ∧ (s.modTbl f).excluded = s.excluded ∧
    (s.modTbl f).farun = s.farun :=
  ⟨rfl, rfl, rfl, rfl, rfl, rfl, rfl, rfl, rfl, rfl, rfl, rfl, rfl, rfl, rfl, rfl, rfl, rfl, rfl, rfl, rfl, rfl, rfl, rfl, rfl, rfl, rfl, rfl⟩
@[simp] theorem modThm_keeps (s : State) (f : Therm → Therm) :
    (s.modThm f).pending = s.pending ∧ (s.modThm f).out = s.out ∧ (s.modThm f).free = s.free ∧ (s.modThm f).clk = s.clk ∧ (s.modThm f).dev = s.dev ∧
    (s.modThm f).vane = s.vane ∧ (s.modThm f).evt = s.evt ∧ (s.modThm f).tel = s.tel ∧ (s.modThm f).rt = s.rt ∧ (s.modThm f).tbl = s.tbl ∧
    (s.modThm f).ports = s.ports ∧ (s.modThm f).lanes = s.lanes ∧ (s.modThm f).link = s.link ∧ (s.modThm f).sw = s.sw ∧ (s.modThm f).xact = s.xact ∧
    (s.modThm f).reqs = s.reqs ∧ (s.modThm f).mov = s.mov ∧ (s.modThm f).xl = s.xl ∧ (s.modThm f).win = s.win ∧ (s.modThm f).pool = s.pool ∧
    (s.modThm f).hp = s.hp ∧ (s.modThm f).sec = s.sec ∧ (s.modThm f).ops = s.ops ∧ (s.modThm f).absent = s.absent ∧
    (s.modThm f).noticeSlot = s.noticeSlot ∧ (s.modThm f).departures = s.departures ∧ (s.modThm f).excluded = s.excluded ∧
    (s.modThm f).farun = s.farun :=
  ⟨rfl, rfl, rfl, rfl, rfl, rfl, rfl, rfl, rfl, rfl, rfl, rfl, rfl, rfl, rfl, rfl, rfl, rfl, rfl, rfl, rfl, rfl, rfl, rfl, rfl, rfl, rfl, rfl⟩
@[simp] theorem modDev_keeps (s : State) (f : Dev → Dev) :
    (s.modDev f).pending = s.pending ∧ (s.modDev f).out = s.out ∧ (s.modDev f).free = s.free ∧ (s.modDev f).clk = s.clk ∧
    (s.modDev f).vane = s.vane ∧ (s.modDev f).evt = s.evt ∧ (s.modDev f).thm = s.thm ∧ (s.modDev f).tel = s.tel ∧ (s.modDev f).rt = s.rt ∧
    (s.modDev f).tbl = s.tbl ∧ (s.modDev f).ports = s.ports ∧ (s.modDev f).lanes = s.lanes ∧ (s.modDev f).link = s.link ∧ (s.modDev f).sw = s.sw ∧
    (s.modDev f).xact = s.xact ∧ (s.modDev f).reqs = s.reqs ∧ (s.modDev f).mov = s.mov ∧ (s.modDev f).xl = s.xl ∧ (s.modDev f).win = s.win ∧
    (s.modDev f).pool = s.pool ∧ (s.modDev f).hp = s.hp ∧ (s.modDev f).sec = s.sec ∧ (s.modDev f).ops = s.ops ∧ (s.modDev f).absent = s.absent ∧
    (s.modDev f).noticeSlot = s.noticeSlot ∧ (s.modDev f).departures = s.departures ∧ (s.modDev f).excluded = s.excluded ∧
    (s.modDev f).farun = s.farun :=
  ⟨rfl, rfl, rfl, rfl, rfl, rfl, rfl, rfl, rfl, rfl, rfl, rfl, rfl, rfl, rfl, rfl, rfl, rfl, rfl, rfl, rfl, rfl, rfl, rfl, rfl, rfl, rfl, rfl⟩
@[simp] theorem modFarun_keeps (s : State) (n : Nat) (f : Farun → Farun) :
    (s.modFarun n f).pending = s.pending ∧ (s.modFarun n f).out = s.out ∧ (s.modFarun n f).free = s.free ∧ (s.modFarun n f).clk = s.clk ∧
    (s.modFarun n f).dev = s.dev ∧ (s.modFarun n f).vane = s.vane ∧ (s.modFarun n f).evt = s.evt ∧ (s.modFarun n f).thm = s.thm ∧
    (s.modFarun n f).tel = s.tel ∧ (s.modFarun n f).rt = s.rt ∧ (s.modFarun n f).tbl = s.tbl ∧ (s.modFarun n f).ports = s.ports ∧
    (s.modFarun n f).lanes = s.lanes ∧ (s.modFarun n f).link = s.link ∧ (s.modFarun n f).sw = s.sw ∧ (s.modFarun n f).xact = s.xact ∧
    (s.modFarun n f).reqs = s.reqs ∧ (s.modFarun n f).mov = s.mov ∧ (s.modFarun n f).xl = s.xl ∧ (s.modFarun n f).win = s.win ∧
    (s.modFarun n f).pool = s.pool ∧ (s.modFarun n f).hp = s.hp ∧ (s.modFarun n f).sec = s.sec ∧ (s.modFarun n f).ops = s.ops ∧
    (s.modFarun n f).absent = s.absent ∧ (s.modFarun n f).noticeSlot = s.noticeSlot ∧ (s.modFarun n f).departures = s.departures ∧
    (s.modFarun n f).excluded = s.excluded :=
  ⟨rfl, rfl, rfl, rfl, rfl, rfl, rfl, rfl, rfl, rfl, rfl, rfl, rfl, rfl, rfl, rfl, rfl, rfl, rfl, rfl, rfl, rfl, rfl, rfl, rfl, rfl, rfl, rfl⟩
@[simp] theorem modEpoch_keeps (s : State) (u : EUnit) (f : EpochRec → EpochRec) :
    (s.modEpoch u f).pending = s.pending ∧ (s.modEpoch u f).out = s.out ∧ (s.modEpoch u f).free = s.free ∧ (s.modEpoch u f).clk = s.clk ∧
    (s.modEpoch u f).dev = s.dev ∧ (s.modEpoch u f).evt = s.evt ∧ (s.modEpoch u f).thm = s.thm ∧ (s.modEpoch u f).tel = s.tel ∧
    (s.modEpoch u f).rt = s.rt ∧ (s.modEpoch u f).tbl = s.tbl ∧ (s.modEpoch u f).ports = s.ports ∧ (s.modEpoch u f).lanes = s.lanes ∧
    (s.modEpoch u f).link = s.link ∧ (s.modEpoch u f).sw = s.sw ∧ (s.modEpoch u f).xact = s.xact ∧ (s.modEpoch u f).reqs = s.reqs ∧
    (s.modEpoch u f).mov = s.mov ∧ (s.modEpoch u f).xl = s.xl ∧ (s.modEpoch u f).win = s.win ∧ (s.modEpoch u f).pool = s.pool ∧
    (s.modEpoch u f).hp = s.hp ∧ (s.modEpoch u f).sec = s.sec ∧ (s.modEpoch u f).ops = s.ops ∧ (s.modEpoch u f).absent = s.absent ∧
    (s.modEpoch u f).noticeSlot = s.noticeSlot ∧ (s.modEpoch u f).departures = s.departures ∧ (s.modEpoch u f).excluded = s.excluded ∧
    (s.modEpoch u f).farun = s.farun :=
  ⟨rfl, rfl, rfl, rfl, rfl, rfl, rfl, rfl, rfl, rfl, rfl, rfl, rfl, rfl, rfl, rfl, rfl, rfl, rfl, rfl, rfl, rfl, rfl, rfl, rfl, rfl, rfl, rfl⟩
@[simp] theorem setMg_keeps (s : State) (u : EUnit) (m : Option Nat) :
    (s.setMg u m).pending = s.pending ∧ (s.setMg u m).out = s.out ∧ (s.setMg u m).free = s.free ∧ (s.setMg u m).clk = s.clk ∧
    (s.setMg u m).dev = s.dev ∧ (s.setMg u m).evt = s.evt ∧ (s.setMg u m).thm = s.thm ∧ (s.setMg u m).tel = s.tel ∧ (s.setMg u m).rt = s.rt ∧
    (s.setMg u m).tbl = s.tbl ∧ (s.setMg u m).ports = s.ports ∧ (s.setMg u m).lanes = s.lanes ∧ (s.setMg u m).link = s.link ∧
    (s.setMg u m).sw = s.sw ∧ (s.setMg u m).xact = s.xact ∧ (s.setMg u m).reqs = s.reqs ∧ (s.setMg u m).mov = s.mov ∧ (s.setMg u m).xl = s.xl ∧
    (s.setMg u m).win = s.win ∧ (s.setMg u m).pool = s.pool ∧ (s.setMg u m).hp = s.hp ∧ (s.setMg u m).sec = s.sec ∧ (s.setMg u m).ops = s.ops ∧
    (s.setMg u m).absent = s.absent ∧ (s.setMg u m).noticeSlot = s.noticeSlot ∧ (s.setMg u m).departures = s.departures ∧
    (s.setMg u m).excluded = s.excluded ∧ (s.setMg u m).farun = s.farun :=
  ⟨rfl, rfl, rfl, rfl, rfl, rfl, rfl, rfl, rfl, rfl, rfl, rfl, rfl, rfl, rfl, rfl, rfl, rfl, rfl, rfl, rfl, rfl, rfl, rfl, rfl, rfl, rfl, rfl⟩
@[simp] theorem modSession_keeps (s : State) (i : Nat) (f : Session → Session) :
    (s.modSession i f).pending = s.pending ∧ (s.modSession i f).out = s.out ∧ (s.modSession i f).free = s.free ∧ (s.modSession i f).clk = s.clk ∧
    (s.modSession i f).dev = s.dev ∧ (s.modSession i f).evt = s.evt ∧ (s.modSession i f).thm = s.thm ∧ (s.modSession i f).tel = s.tel ∧
    (s.modSession i f).rt = s.rt ∧ (s.modSession i f).tbl = s.tbl ∧ (s.modSession i f).ports = s.ports ∧ (s.modSession i f).lanes = s.lanes ∧
    (s.modSession i f).link = s.link ∧ (s.modSession i f).sw = s.sw ∧ (s.modSession i f).xact = s.xact ∧ (s.modSession i f).reqs = s.reqs ∧
    (s.modSession i f).mov = s.mov ∧ (s.modSession i f).xl = s.xl ∧ (s.modSession i f).win = s.win ∧ (s.modSession i f).pool = s.pool ∧
    (s.modSession i f).hp = s.hp ∧ (s.modSession i f).sec = s.sec ∧ (s.modSession i f).ops = s.ops ∧ (s.modSession i f).absent = s.absent ∧
    (s.modSession i f).noticeSlot = s.noticeSlot ∧ (s.modSession i f).departures = s.departures ∧ (s.modSession i f).excluded = s.excluded ∧
    (s.modSession i f).farun = s.farun :=
  ⟨rfl, rfl, rfl, rfl, rfl, rfl, rfl, rfl, rfl, rfl, rfl, rfl, rfl, rfl, rfl, rfl, rfl, rfl, rfl, rfl, rfl, rfl, rfl, rfl, rfl, rfl, rfl, rfl⟩
@[simp] theorem modTransfers_keeps (s : State) (f : List Transfer → List Transfer) :
    (s.modTransfers f).pending = s.pending ∧ (s.modTransfers f).out = s.out ∧ (s.modTransfers f).free = s.free ∧ (s.modTransfers f).clk = s.clk ∧
    (s.modTransfers f).dev = s.dev ∧ (s.modTransfers f).evt = s.evt ∧ (s.modTransfers f).thm = s.thm ∧ (s.modTransfers f).tel = s.tel ∧
    (s.modTransfers f).rt = s.rt ∧ (s.modTransfers f).tbl = s.tbl ∧ (s.modTransfers f).ports = s.ports ∧ (s.modTransfers f).lanes = s.lanes ∧
    (s.modTransfers f).link = s.link ∧ (s.modTransfers f).sw = s.sw ∧ (s.modTransfers f).xact = s.xact ∧ (s.modTransfers f).reqs = s.reqs ∧
    (s.modTransfers f).mov = s.mov ∧ (s.modTransfers f).xl = s.xl ∧ (s.modTransfers f).win = s.win ∧ (s.modTransfers f).pool = s.pool ∧
    (s.modTransfers f).hp = s.hp ∧ (s.modTransfers f).sec = s.sec ∧ (s.modTransfers f).ops = s.ops ∧ (s.modTransfers f).absent = s.absent ∧
    (s.modTransfers f).noticeSlot = s.noticeSlot ∧ (s.modTransfers f).departures = s.departures ∧ (s.modTransfers f).excluded = s.excluded ∧
    (s.modTransfers f).farun = s.farun :=
  ⟨rfl, rfl, rfl, rfl, rfl, rfl, rfl, rfl, rfl, rfl, rfl, rfl, rfl, rfl, rfl, rfl, rfl, rfl, rfl, rfl, rfl, rfl, rfl, rfl, rfl, rfl, rfl, rfl⟩
@[simp] theorem dropFrame_keeps (s : State)  :
    (s.dropFrame).pending = s.pending ∧ (s.dropFrame).out = s.out ∧ (s.dropFrame).free = s.free ∧ (s.dropFrame).clk = s.clk ∧
    (s.dropFrame).dev = s.dev ∧ (s.dropFrame).evt = s.evt ∧ (s.dropFrame).thm = s.thm ∧ (s.dropFrame).tel = s.tel ∧ (s.dropFrame).rt = s.rt ∧
    (s.dropFrame).tbl = s.tbl ∧ (s.dropFrame).ports = s.ports ∧ (s.dropFrame).lanes = s.lanes ∧ (s.dropFrame).link = s.link ∧
    (s.dropFrame).sw = s.sw ∧ (s.dropFrame).xact = s.xact ∧ (s.dropFrame).reqs = s.reqs ∧ (s.dropFrame).mov = s.mov ∧ (s.dropFrame).xl = s.xl ∧
    (s.dropFrame).win = s.win ∧ (s.dropFrame).pool = s.pool ∧ (s.dropFrame).hp = s.hp ∧ (s.dropFrame).sec = s.sec ∧ (s.dropFrame).ops = s.ops ∧
    (s.dropFrame).absent = s.absent ∧ (s.dropFrame).noticeSlot = s.noticeSlot ∧ (s.dropFrame).departures = s.departures ∧
    (s.dropFrame).excluded = s.excluded ∧ (s.dropFrame).farun = s.farun :=
  ⟨rfl, rfl, rfl, rfl, rfl, rfl, rfl, rfl, rfl, rfl, rfl, rfl, rfl, rfl, rfl, rfl, rfl, rfl, rfl, rfl, rfl, rfl, rfl, rfl, rfl, rfl, rfl, rfl⟩
@[simp] theorem setQueue_keeps (s : State) (e v : Nat) (q : List QEntry) :
    (s.setQueue e v q).pending = s.pending ∧ (s.setQueue e v q).out = s.out ∧ (s.setQueue e v q).free = s.free ∧ (s.setQueue e v q).clk = s.clk ∧
    (s.setQueue e v q).dev = s.dev ∧ (s.setQueue e v q).vane = s.vane ∧ (s.setQueue e v q).evt = s.evt ∧ (s.setQueue e v q).thm = s.thm ∧
    (s.setQueue e v q).tel = s.tel ∧ (s.setQueue e v q).rt = s.rt ∧ (s.setQueue e v q).tbl = s.tbl ∧ (s.setQueue e v q).ports = s.ports ∧
    (s.setQueue e v q).lanes = s.lanes ∧ (s.setQueue e v q).link = s.link ∧ (s.setQueue e v q).xact = s.xact ∧ (s.setQueue e v q).reqs = s.reqs ∧
    (s.setQueue e v q).mov = s.mov ∧ (s.setQueue e v q).xl = s.xl ∧ (s.setQueue e v q).win = s.win ∧ (s.setQueue e v q).pool = s.pool ∧
    (s.setQueue e v q).hp = s.hp ∧ (s.setQueue e v q).sec = s.sec ∧ (s.setQueue e v q).ops = s.ops ∧ (s.setQueue e v q).absent = s.absent ∧
    (s.setQueue e v q).noticeSlot = s.noticeSlot ∧ (s.setQueue e v q).departures = s.departures ∧ (s.setQueue e v q).excluded = s.excluded ∧
    (s.setQueue e v q).farun = s.farun :=
  ⟨rfl, rfl, rfl, rfl, rfl, rfl, rfl, rfl, rfl, rfl, rfl, rfl, rfl, rfl, rfl, rfl, rfl, rfl, rfl, rfl, rfl, rfl, rfl, rfl, rfl, rfl, rfl, rfl⟩
@[simp] theorem setLineQ_keeps (s : State) (t : Nat) (q : List QEntry) :
    (s.setLineQ t q).pending = s.pending ∧ (s.setLineQ t q).out = s.out ∧ (s.setLineQ t q).free = s.free ∧ (s.setLineQ t q).clk = s.clk ∧
    (s.setLineQ t q).dev = s.dev ∧ (s.setLineQ t q).vane = s.vane ∧ (s.setLineQ t q).evt = s.evt ∧ (s.setLineQ t q).thm = s.thm ∧
    (s.setLineQ t q).tel = s.tel ∧ (s.setLineQ t q).rt = s.rt ∧ (s.setLineQ t q).tbl = s.tbl ∧ (s.setLineQ t q).ports = s.ports ∧
    (s.setLineQ t q).lanes = s.lanes ∧ (s.setLineQ t q).link = s.link ∧ (s.setLineQ t q).xact = s.xact ∧ (s.setLineQ t q).reqs = s.reqs ∧
    (s.setLineQ t q).mov = s.mov ∧ (s.setLineQ t q).xl = s.xl ∧ (s.setLineQ t q).win = s.win ∧ (s.setLineQ t q).pool = s.pool ∧
    (s.setLineQ t q).hp = s.hp ∧ (s.setLineQ t q).sec = s.sec ∧ (s.setLineQ t q).ops = s.ops ∧ (s.setLineQ t q).absent = s.absent ∧
    (s.setLineQ t q).noticeSlot = s.noticeSlot ∧ (s.setLineQ t q).departures = s.departures ∧ (s.setLineQ t q).excluded = s.excluded ∧
    (s.setLineQ t q).farun = s.farun :=
  ⟨rfl, rfl, rfl, rfl, rfl, rfl, rfl, rfl, rfl, rfl, rfl, rfl, rfl, rfl, rfl, rfl, rfl, rfl, rfl, rfl, rfl, rfl, rfl, rfl, rfl, rfl, rfl, rfl⟩

-- A read after an update
@[simp] theorem port_modPort (s : State) (i j : Nat) (f : Port → Port) : (s.modPort i f).port j = if j = i then f (s.port i) else s.port j := by
  simp [State.modPort, State.port]
@[simp] theorem lane_modLane (s : State) (i j : Nat) (f : Lane → Lane) : (s.modLane i f).lane j = if j = i then f (s.lane i) else s.lane j := by
  simp [State.modLane, State.lane]
@[simp] theorem host_modHost (s : State) (i j : Nat) (f : HostPort → HostPort) : (s.modHost i f).host j = if j = i then f (s.host i) else s.host j := by
  simp [State.modHost, State.host]
@[simp] theorem ring_modRing (s : State) (i j : Nat) (f : Ring → Ring) : (s.modRing i f).ring j = if j = i then f (s.ring i) else s.ring j := by
  simp [State.modRing, State.ring]
@[simp] theorem ctx_modCtx (s : State) (i j : Nat) (f : Ctx → Ctx) : (s.modCtx i f).ctx j = if j = i then f (s.ctx i) else s.ctx j := by
  simp [State.modCtx, State.ctx]
@[simp] theorem key_modKey (s : State) (i j : Nat) (f : KeySlot → KeySlot) : (s.modKey i f).key j = if j = i then f (s.key i) else s.key j := by
  simp [State.modKey, State.key]
@[simp] theorem ext_modExt (s : State) (i j : Nat) (f : Ext → Ext) : (s.modExt i f).ext j = if j = i then f (s.ext i) else s.ext j := by
  simp [State.modExt, State.ext]
@[simp] theorem stack_modStack (s : State) (i j : Nat) (f : Stack → Stack) : (s.modStack i f).stack j = if j = i then f (s.stack i) else s.stack j := by
  simp [State.modStack, State.stack]
@[simp] theorem die_modDie (s : State) (i j : Nat) (f : Die → Die) : (s.modDie i f).die j = if j = i then f (s.die i) else s.die j := by
  simp [State.modDie, State.die]
@[simp] theorem inst_modInst (s : State) (i j : Nat) (f : Inst → Inst) : (s.modInst i f).inst j = if j = i then f (s.inst i) else s.inst j := by
  simp [State.modInst, State.inst]
@[simp] theorem session_modSession (s : State) (i j : Nat) (f : Session → Session) :
    (s.modSession i f).session j = if j = i then f (s.session i) else s.session j := by
  simp [State.modSession, State.session]
theorem epochRec_modEpoch (s : State) (u : EUnit) (f : EpochRec → EpochRec) : (s.modEpoch u f).epochRec u = f (s.epochRec u) := by
  simp [State.modEpoch, State.epochRec]

-- Two updates of one object are one
@[simp] theorem modPort_modPort (s : State) (i : Nat) (f g : Port → Port) : (s.modPort i f).modPort i g = s.modPort i (fun x => g (f x)) := by
  simp [State.modPort]
@[simp] theorem modLane_modLane (s : State) (i : Nat) (f g : Lane → Lane) : (s.modLane i f).modLane i g = s.modLane i (fun x => g (f x)) := by
  simp [State.modLane]
@[simp] theorem modHost_modHost (s : State) (i : Nat) (f g : HostPort → HostPort) : (s.modHost i f).modHost i g = s.modHost i (fun x => g (f x)) := by
  simp [State.modHost]
@[simp] theorem modRing_modRing (s : State) (i : Nat) (f g : Ring → Ring) : (s.modRing i f).modRing i g = s.modRing i (fun x => g (f x)) := by
  simp [State.modRing]
@[simp] theorem modCtx_modCtx (s : State) (i : Nat) (f g : Ctx → Ctx) : (s.modCtx i f).modCtx i g = s.modCtx i (fun x => g (f x)) := by
  simp [State.modCtx]
@[simp] theorem modKey_modKey (s : State) (i : Nat) (f g : KeySlot → KeySlot) : (s.modKey i f).modKey i g = s.modKey i (fun x => g (f x)) := by
  simp [State.modKey]
@[simp] theorem modExt_modExt (s : State) (i : Nat) (f g : Ext → Ext) : (s.modExt i f).modExt i g = s.modExt i (fun x => g (f x)) := by
  simp [State.modExt]
@[simp] theorem modStack_modStack (s : State) (i : Nat) (f g : Stack → Stack) : (s.modStack i f).modStack i g = s.modStack i (fun x => g (f x)) := by
  simp [State.modStack]
@[simp] theorem modDie_modDie (s : State) (i : Nat) (f g : Die → Die) : (s.modDie i f).modDie i g = s.modDie i (fun x => g (f x)) := by
  simp [State.modDie]
@[simp] theorem modInst_modInst (s : State) (i : Nat) (f g : Inst → Inst) : (s.modInst i f).modInst i g = s.modInst i (fun x => g (f x)) := by
  simp [State.modInst]
@[simp] theorem modSession_modSession (s : State) (i : Nat) (f g : Session → Session) : (s.modSession i f).modSession i g = s.modSession i (fun x => g (f x)) := by
  simp [State.modSession]

-- Events, epochs and responses touch the management side alone
/-- A change of the management side: `vane`, `evt` and `out` alone, and of `vane` only the epochs, sessions and counters that `v` holds. -/
def Mgmt (s t : State) : Prop := ∃ v e o, t = { s with vane := v, evt := e, out := o }
theorem Mgmt.refl (s : State) : Mgmt s s := ⟨s.vane, s.evt, s.out, rfl⟩
theorem Mgmt.trans {s t u : State} (h : Mgmt s t) (g : Mgmt t u) : Mgmt s u := by
  obtain ⟨v, e, o, rfl⟩ := h
  obtain ⟨v', e', o', rfl⟩ := g
  exact ⟨v', e', o', rfl⟩
/-- What a change of the management side leaves alone. -/
theorem Mgmt.keeps {s t : State} (h : Mgmt s t) :
    t.pending = s.pending ∧ t.free = s.free ∧ t.clk = s.clk ∧ t.dev = s.dev ∧ t.thm = s.thm ∧ t.tel = s.tel ∧ t.rt = s.rt ∧ t.tbl = s.tbl ∧
    t.ports = s.ports ∧ t.lanes = s.lanes ∧ t.link = s.link ∧ t.sw = s.sw ∧ t.xact = s.xact ∧ t.reqs = s.reqs ∧ t.mov = s.mov ∧ t.xl = s.xl ∧
    t.win = s.win ∧ t.pool = s.pool ∧ t.hp = s.hp ∧ t.sec = s.sec ∧ t.ops = s.ops ∧ t.absent = s.absent ∧ t.noticeSlot = s.noticeSlot ∧
    t.departures = s.departures ∧ t.excluded = s.excluded ∧ t.farun = s.farun := by
  obtain ⟨v, e, o, rfl⟩ := h
  exact ⟨rfl, rfl, rfl, rfl, rfl, rfl, rfl, rfl, rfl, rfl, rfl, rfl, rfl, rfl, rfl, rfl, rfl, rfl, rfl, rfl, rfl, rfl, rfl, rfl, rfl, rfl⟩
theorem emit_mgmt (s : State) (o : Output) : Mgmt s (s.emit o) := ⟨s.vane, s.evt, _, rfl⟩
theorem modEpoch_mgmt (s : State) (u : EUnit) (f : EpochRec → EpochRec) : Mgmt s (s.modEpoch u f) := ⟨_, s.evt, s.out, rfl⟩
theorem setMg_mgmt (s : State) (u : EUnit) (m : Option Nat) : Mgmt s (s.setMg u m) := ⟨_, s.evt, s.out, rfl⟩
theorem modSession_mgmt (s : State) (i : Nat) (f : Session → Session) : Mgmt s (s.modSession i f) := ⟨_, s.evt, s.out, rfl⟩
theorem notifyOne_mgmt (e : Event) (s : State) (i : Nat × Session) : Mgmt s (notifyOne e s i) := by
  unfold notifyOne
  split
  · exact ⟨_, s.evt, _, rfl⟩
  · exact Mgmt.refl s
theorem foldl_mgmt {α : Type} (f : State → α → State) (h : ∀ s x, Mgmt s (f s x)) (l : List α) (s : State) : Mgmt s (l.foldl f s) := by
  induction l generalizing s with
  | nil => exact Mgmt.refl s
  | cons x r ih => exact (h s x).trans (ih _)
theorem event_mgmt (s : State) (cls code sev unit detail aux : Nat) : Mgmt s (s.event cls code sev unit detail aux) := by
  unfold State.event
  split
  · exact Mgmt.refl s
  · exact Mgmt.trans ⟨s.vane, _, s.out, rfl⟩ (foldl_mgmt _ (notifyOne_mgmt _) _ _)
theorem noteChange_mgmt (old s : State) (u : EUnit) (self force : Bool) : Mgmt s (State.noteChange old s u self force) := by
  unfold State.noteChange
  extract_lets moved s1
  have h1 : Mgmt s s1 := by
    unfold s1
    split
    · exact modEpoch_mgmt _ _ _
    · exact Mgmt.refl s
  refine h1.trans ?_
  split
  · exact modEpoch_mgmt _ _ _
  · split
    · exact (modEpoch_mgmt _ _ _).trans (event_mgmt _ _ _ _ _ _ _)
    · exact Mgmt.refl _
theorem accept_mgmt (s : State) (u : Option EUnit) : Mgmt s (s.accept u) := by
  cases u with
  | none => exact Mgmt.refl s
  | some u => exact modEpoch_mgmt _ _ _
theorem countDatagram_mgmt (s : State) (i : Nat) : Mgmt s (s.countDatagram i) := by
  unfold State.countDatagram
  split
  · exact Mgmt.refl s
  · exact modSession_mgmt _ _ _
theorem respond_mgmt (s : State) (i : Nat) (f r : VFrame) : Mgmt s (s.respond i f r) := by
  unfold State.respond
  extract_lets s1 src s2
  have h1 : Mgmt s s1 := by
    unfold s1
    split
    · exact Mgmt.refl s
    · exact modSession_mgmt _ _ _
  have h2 : Mgmt s1 s2 := by
    unfold s2
    split
    · exact Mgmt.refl s1
    · exact ⟨_, s1.evt, s1.out, rfl⟩
  exact (h1.trans h2).trans (emit_mgmt _ _)
theorem noteRefused_mgmt (s : State) (f : VFrame) (a : Nat) : Mgmt s (s.noteRefused f a) := by
  unfold State.noteRefused
  split
  · exact ⟨_, s.evt, s.out, rfl⟩
  · exact Mgmt.refl s
@[simp] theorem noteRefused_out (s : State) (f : VFrame) (a : Nat) : (s.noteRefused f a).out = s.out := by
  unfold State.noteRefused; split <;> rfl
@[simp] theorem noteRefused_epochs (s : State) (f : VFrame) (a : Nat) : (s.noteRefused f a).vane.epochs = s.vane.epochs := by
  unfold State.noteRefused; split <;> rfl
theorem respond_out (s : State) (i : Nat) (f r : VFrame) : (s.respond i f r).out = s.out ++ [.vane i r] := by
  unfold State.respond State.emit
  dsimp only
  split <;> split <;> rfl
theorem respond_epochs (s : State) (i : Nat) (f r : VFrame) : (s.respond i f r).vane.epochs = s.vane.epochs := by
  unfold State.respond State.emit
  dsimp only
  split <;> split <;> rfl
theorem refuse_mgmt (s : State) (i : Nat) (f : VFrame) (a : Nat) : Mgmt s (s.refuse i f a) := (noteRefused_mgmt _ _ _).trans (respond_mgmt _ _ _ _)
/-- The last output of a response is the response. -/
theorem refuse_out (s : State) (i : Nat) (f : VFrame) (a : Nat) : (s.refuse i f a).out = s.out ++ [.vane i (s.rspFrame f a false [])] := by
  rw [State.refuse, respond_out, noteRefused_out]
theorem refuse_epochs (s : State) (i : Nat) (f : VFrame) (a : Nat) : (s.refuse i f a).vane.epochs = s.vane.epochs := by
  rw [State.refuse, respond_epochs, noteRefused_epochs]

-- The fields that the management-side operations leave alone
@[simp] theorem event_keeps (s : State) (a b c d e f : Nat) :
    (s.event a b c d e f).pending = s.pending ∧ (s.event a b c d e f).free = s.free ∧ (s.event a b c d e f).clk = s.clk ∧
    (s.event a b c d e f).dev = s.dev ∧ (s.event a b c d e f).thm = s.thm ∧ (s.event a b c d e f).tel = s.tel ∧ (s.event a b c d e f).rt = s.rt ∧
    (s.event a b c d e f).tbl = s.tbl ∧ (s.event a b c d e f).ports = s.ports ∧ (s.event a b c d e f).lanes = s.lanes ∧
    (s.event a b c d e f).link = s.link ∧ (s.event a b c d e f).sw = s.sw ∧ (s.event a b c d e f).xact = s.xact ∧
    (s.event a b c d e f).reqs = s.reqs ∧ (s.event a b c d e f).mov = s.mov ∧ (s.event a b c d e f).xl = s.xl ∧ (s.event a b c d e f).win = s.win ∧
    (s.event a b c d e f).pool = s.pool ∧ (s.event a b c d e f).hp = s.hp ∧ (s.event a b c d e f).sec = s.sec ∧ (s.event a b c d e f).ops = s.ops ∧
    (s.event a b c d e f).absent = s.absent ∧ (s.event a b c d e f).noticeSlot = s.noticeSlot ∧ (s.event a b c d e f).departures = s.departures ∧
    (s.event a b c d e f).excluded = s.excluded ∧ (s.event a b c d e f).farun = s.farun :=
  (event_mgmt s a b c d e f).keeps
@[simp] theorem noteChange_keeps (s : State) (old : State) (u : EUnit) (a b : Bool) :
    (State.noteChange old s u a b).pending = s.pending ∧ (State.noteChange old s u a b).free = s.free ∧ (State.noteChange old s u a b).clk = s.clk ∧
    (State.noteChange old s u a b).dev = s.dev ∧ (State.noteChange old s u a b).thm = s.thm ∧ (State.noteChange old s u a b).tel = s.tel ∧
    (State.noteChange old s u a b).rt = s.rt ∧ (State.noteChange old s u a b).tbl = s.tbl ∧ (State.noteChange old s u a b).ports = s.ports ∧
    (State.noteChange old s u a b).lanes = s.lanes ∧ (State.noteChange old s u a b).link = s.link ∧ (State.noteChange old s u a b).sw = s.sw ∧
    (State.noteChange old s u a b).xact = s.xact ∧ (State.noteChange old s u a b).reqs = s.reqs ∧ (State.noteChange old s u a b).mov = s.mov ∧
    (State.noteChange old s u a b).xl = s.xl ∧ (State.noteChange old s u a b).win = s.win ∧ (State.noteChange old s u a b).pool = s.pool ∧
    (State.noteChange old s u a b).hp = s.hp ∧ (State.noteChange old s u a b).sec = s.sec ∧ (State.noteChange old s u a b).ops = s.ops ∧
    (State.noteChange old s u a b).absent = s.absent ∧ (State.noteChange old s u a b).noticeSlot = s.noticeSlot ∧
    (State.noteChange old s u a b).departures = s.departures ∧ (State.noteChange old s u a b).excluded = s.excluded ∧
    (State.noteChange old s u a b).farun = s.farun :=
  (noteChange_mgmt old s u a b).keeps
@[simp] theorem accept_keeps (s : State) (u : Option EUnit) :
    (s.accept u).pending = s.pending ∧ (s.accept u).free = s.free ∧ (s.accept u).clk = s.clk ∧ (s.accept u).dev = s.dev ∧ (s.accept u).thm = s.thm ∧
    (s.accept u).tel = s.tel ∧ (s.accept u).rt = s.rt ∧ (s.accept u).tbl = s.tbl ∧ (s.accept u).ports = s.ports ∧ (s.accept u).lanes = s.lanes ∧
    (s.accept u).link = s.link ∧ (s.accept u).sw = s.sw ∧ (s.accept u).xact = s.xact ∧ (s.accept u).reqs = s.reqs ∧ (s.accept u).mov = s.mov ∧
    (s.accept u).xl = s.xl ∧ (s.accept u).win = s.win ∧ (s.accept u).pool = s.pool ∧ (s.accept u).hp = s.hp ∧ (s.accept u).sec = s.sec ∧
    (s.accept u).ops = s.ops ∧ (s.accept u).absent = s.absent ∧ (s.accept u).noticeSlot = s.noticeSlot ∧ (s.accept u).departures = s.departures ∧
    (s.accept u).excluded = s.excluded ∧ (s.accept u).farun = s.farun :=
  (accept_mgmt s u).keeps
@[simp] theorem countDatagram_keeps (s : State) (i : Nat) :
    (s.countDatagram i).pending = s.pending ∧ (s.countDatagram i).free = s.free ∧ (s.countDatagram i).clk = s.clk ∧ (s.countDatagram i).dev = s.dev ∧
    (s.countDatagram i).thm = s.thm ∧ (s.countDatagram i).tel = s.tel ∧ (s.countDatagram i).rt = s.rt ∧ (s.countDatagram i).tbl = s.tbl ∧
    (s.countDatagram i).ports = s.ports ∧ (s.countDatagram i).lanes = s.lanes ∧ (s.countDatagram i).link = s.link ∧ (s.countDatagram i).sw = s.sw ∧
    (s.countDatagram i).xact = s.xact ∧ (s.countDatagram i).reqs = s.reqs ∧ (s.countDatagram i).mov = s.mov ∧ (s.countDatagram i).xl = s.xl ∧
    (s.countDatagram i).win = s.win ∧ (s.countDatagram i).pool = s.pool ∧ (s.countDatagram i).hp = s.hp ∧ (s.countDatagram i).sec = s.sec ∧
    (s.countDatagram i).ops = s.ops ∧ (s.countDatagram i).absent = s.absent ∧ (s.countDatagram i).noticeSlot = s.noticeSlot ∧
    (s.countDatagram i).departures = s.departures ∧ (s.countDatagram i).excluded = s.excluded ∧ (s.countDatagram i).farun = s.farun :=
  (countDatagram_mgmt s i).keeps
@[simp] theorem respond_keeps (s : State) (i : Nat) (f r : VFrame) :
    (s.respond i f r).pending = s.pending ∧ (s.respond i f r).free = s.free ∧ (s.respond i f r).clk = s.clk ∧ (s.respond i f r).dev = s.dev ∧
    (s.respond i f r).thm = s.thm ∧ (s.respond i f r).tel = s.tel ∧ (s.respond i f r).rt = s.rt ∧ (s.respond i f r).tbl = s.tbl ∧
    (s.respond i f r).ports = s.ports ∧ (s.respond i f r).lanes = s.lanes ∧ (s.respond i f r).link = s.link ∧ (s.respond i f r).sw = s.sw ∧
    (s.respond i f r).xact = s.xact ∧ (s.respond i f r).reqs = s.reqs ∧ (s.respond i f r).mov = s.mov ∧ (s.respond i f r).xl = s.xl ∧
    (s.respond i f r).win = s.win ∧ (s.respond i f r).pool = s.pool ∧ (s.respond i f r).hp = s.hp ∧ (s.respond i f r).sec = s.sec ∧
    (s.respond i f r).ops = s.ops ∧ (s.respond i f r).absent = s.absent ∧ (s.respond i f r).noticeSlot = s.noticeSlot ∧
    (s.respond i f r).departures = s.departures ∧ (s.respond i f r).excluded = s.excluded ∧ (s.respond i f r).farun = s.farun :=
  (respond_mgmt s i f r).keeps
@[simp] theorem refuse_keeps (s : State) (i : Nat) (f : VFrame) (a : Nat) :
    (s.refuse i f a).pending = s.pending ∧ (s.refuse i f a).free = s.free ∧ (s.refuse i f a).clk = s.clk ∧ (s.refuse i f a).dev = s.dev ∧
    (s.refuse i f a).thm = s.thm ∧ (s.refuse i f a).tel = s.tel ∧ (s.refuse i f a).rt = s.rt ∧ (s.refuse i f a).tbl = s.tbl ∧
    (s.refuse i f a).ports = s.ports ∧ (s.refuse i f a).lanes = s.lanes ∧ (s.refuse i f a).link = s.link ∧ (s.refuse i f a).sw = s.sw ∧
    (s.refuse i f a).xact = s.xact ∧ (s.refuse i f a).reqs = s.reqs ∧ (s.refuse i f a).mov = s.mov ∧ (s.refuse i f a).xl = s.xl ∧
    (s.refuse i f a).win = s.win ∧ (s.refuse i f a).pool = s.pool ∧ (s.refuse i f a).hp = s.hp ∧ (s.refuse i f a).sec = s.sec ∧
    (s.refuse i f a).ops = s.ops ∧ (s.refuse i f a).absent = s.absent ∧ (s.refuse i f a).noticeSlot = s.noticeSlot ∧
    (s.refuse i f a).departures = s.departures ∧ (s.refuse i f a).excluded = s.excluded ∧ (s.refuse i f a).farun = s.farun :=
  (refuse_mgmt s i f a).keeps

-- An update of one kind of object leaves the others as they read
@[simp] theorem emit_reads (s : State) (o : Output) (z : Nat) :
    (s.emit o).port z = s.port z ∧ (s.emit o).lane z = s.lane z ∧ (s.emit o).host z = s.host z ∧ (s.emit o).ring z = s.ring z ∧
    (s.emit o).ctx z = s.ctx z ∧ (s.emit o).key z = s.key z ∧ (s.emit o).ext z = s.ext z ∧ (s.emit o).stack z = s.stack z ∧
    (s.emit o).die z = s.die z ∧ (s.emit o).inst z = s.inst z ∧ (s.emit o).session z = s.session z :=
  ⟨rfl, rfl, rfl, rfl, rfl, rfl, rfl, rfl, rfl, rfl, rfl⟩
@[simp] theorem emit_epochRec (s : State) (o : Output) (w : EUnit) : (s.emit o).epochRec w = s.epochRec w := rfl
@[simp] theorem fresh_reads (s : State)  (z : Nat) :
    (s.fresh.2).port z = s.port z ∧ (s.fresh.2).lane z = s.lane z ∧ (s.fresh.2).host z = s.host z ∧ (s.fresh.2).ring z = s.ring z ∧
    (s.fresh.2).ctx z = s.ctx z ∧ (s.fresh.2).key z = s.key z ∧ (s.fresh.2).ext z = s.ext z ∧ (s.fresh.2).stack z = s.stack z ∧
    (s.fresh.2).die z = s.die z ∧ (s.fresh.2).inst z = s.inst z ∧ (s.fresh.2).session z = s.session z :=
  ⟨rfl, rfl, rfl, rfl, rfl, rfl, rfl, rfl, rfl, rfl, rfl⟩
@[simp] theorem fresh_epochRec (s : State)  (w : EUnit) : (s.fresh.2).epochRec w = s.epochRec w := rfl
@[simp] theorem freshBytes_reads (s : State) (n : Nat) (z : Nat) :
    ((s.freshBytes n).2).port z = s.port z ∧ ((s.freshBytes n).2).lane z = s.lane z ∧ ((s.freshBytes n).2).host z = s.host z ∧
    ((s.freshBytes n).2).ring z = s.ring z ∧ ((s.freshBytes n).2).ctx z = s.ctx z ∧ ((s.freshBytes n).2).key z = s.key z ∧
    ((s.freshBytes n).2).ext z = s.ext z ∧ ((s.freshBytes n).2).stack z = s.stack z ∧ ((s.freshBytes n).2).die z = s.die z ∧
    ((s.freshBytes n).2).inst z = s.inst z ∧ ((s.freshBytes n).2).session z = s.session z :=
  ⟨rfl, rfl, rfl, rfl, rfl, rfl, rfl, rfl, rfl, rfl, rfl⟩
@[simp] theorem freshBytes_epochRec (s : State) (n : Nat) (w : EUnit) : ((s.freshBytes n).2).epochRec w = s.epochRec w := rfl
@[simp] theorem modPort_reads (s : State) (p : Nat) (f : Port → Port) (z : Nat) :
    (s.modPort p f).lane z = s.lane z ∧ (s.modPort p f).host z = s.host z ∧ (s.modPort p f).ring z = s.ring z ∧ (s.modPort p f).ctx z = s.ctx z ∧
    (s.modPort p f).key z = s.key z ∧ (s.modPort p f).ext z = s.ext z ∧ (s.modPort p f).stack z = s.stack z ∧ (s.modPort p f).die z = s.die z ∧
    (s.modPort p f).inst z = s.inst z ∧ (s.modPort p f).session z = s.session z :=
  ⟨rfl, rfl, rfl, rfl, rfl, rfl, rfl, rfl, rfl, rfl⟩
@[simp] theorem modPort_epochRec (s : State) (p : Nat) (f : Port → Port) (w : EUnit) : (s.modPort p f).epochRec w = s.epochRec w := rfl
@[simp] theorem modLane_reads (s : State) (l : Nat) (f : Lane → Lane) (z : Nat) :
    (s.modLane l f).port z = s.port z ∧ (s.modLane l f).host z = s.host z ∧ (s.modLane l f).ring z = s.ring z ∧ (s.modLane l f).ctx z = s.ctx z ∧
    (s.modLane l f).key z = s.key z ∧ (s.modLane l f).ext z = s.ext z ∧ (s.modLane l f).stack z = s.stack z ∧ (s.modLane l f).die z = s.die z ∧
    (s.modLane l f).inst z = s.inst z ∧ (s.modLane l f).session z = s.session z :=
  ⟨rfl, rfl, rfl, rfl, rfl, rfl, rfl, rfl, rfl, rfl⟩
@[simp] theorem modLane_epochRec (s : State) (l : Nat) (f : Lane → Lane) (w : EUnit) : (s.modLane l f).epochRec w = s.epochRec w := rfl
@[simp] theorem modHost_reads (s : State) (h : Nat) (f : HostPort → HostPort) (z : Nat) :
    (s.modHost h f).port z = s.port z ∧ (s.modHost h f).lane z = s.lane z ∧ (s.modHost h f).ring z = s.ring z ∧ (s.modHost h f).ctx z = s.ctx z ∧
    (s.modHost h f).key z = s.key z ∧ (s.modHost h f).ext z = s.ext z ∧ (s.modHost h f).stack z = s.stack z ∧ (s.modHost h f).die z = s.die z ∧
    (s.modHost h f).inst z = s.inst z ∧ (s.modHost h f).session z = s.session z :=
  ⟨rfl, rfl, rfl, rfl, rfl, rfl, rfl, rfl, rfl, rfl⟩
@[simp] theorem modHost_epochRec (s : State) (h : Nat) (f : HostPort → HostPort) (w : EUnit) : (s.modHost h f).epochRec w = s.epochRec w := rfl
@[simp] theorem modRing_reads (s : State) (n : Nat) (f : Ring → Ring) (z : Nat) :
    (s.modRing n f).port z = s.port z ∧ (s.modRing n f).lane z = s.lane z ∧ (s.modRing n f).host z = s.host z ∧ (s.modRing n f).ctx z = s.ctx z ∧
    (s.modRing n f).key z = s.key z ∧ (s.modRing n f).ext z = s.ext z ∧ (s.modRing n f).stack z = s.stack z ∧ (s.modRing n f).die z = s.die z ∧
    (s.modRing n f).inst z = s.inst z ∧ (s.modRing n f).session z = s.session z :=
  ⟨rfl, rfl, rfl, rfl, rfl, rfl, rfl, rfl, rfl, rfl⟩
@[simp] theorem modRing_epochRec (s : State) (n : Nat) (f : Ring → Ring) (w : EUnit) : (s.modRing n f).epochRec w = s.epochRec w := rfl
@[simp] theorem modCtx_reads (s : State) (c : Nat) (f : Ctx → Ctx) (z : Nat) :
    (s.modCtx c f).port z = s.port z ∧ (s.modCtx c f).lane z = s.lane z ∧ (s.modCtx c f).host z = s.host z ∧ (s.modCtx c f).ring z = s.ring z ∧
    (s.modCtx c f).key z = s.key z ∧ (s.modCtx c f).ext z = s.ext z ∧ (s.modCtx c f).stack z = s.stack z ∧ (s.modCtx c f).die z = s.die z ∧
    (s.modCtx c f).inst z = s.inst z ∧ (s.modCtx c f).session z = s.session z :=
  ⟨rfl, rfl, rfl, rfl, rfl, rfl, rfl, rfl, rfl, rfl⟩
@[simp] theorem modCtx_epochRec (s : State) (c : Nat) (f : Ctx → Ctx) (w : EUnit) : (s.modCtx c f).epochRec w = s.epochRec w := rfl
@[simp] theorem modKey_reads (s : State) (k : Nat) (f : KeySlot → KeySlot) (z : Nat) :
    (s.modKey k f).port z = s.port z ∧ (s.modKey k f).lane z = s.lane z ∧ (s.modKey k f).host z = s.host z ∧ (s.modKey k f).ring z = s.ring z ∧
    (s.modKey k f).ctx z = s.ctx z ∧ (s.modKey k f).ext z = s.ext z ∧ (s.modKey k f).stack z = s.stack z ∧ (s.modKey k f).die z = s.die z ∧
    (s.modKey k f).inst z = s.inst z ∧ (s.modKey k f).session z = s.session z :=
  ⟨rfl, rfl, rfl, rfl, rfl, rfl, rfl, rfl, rfl, rfl⟩
@[simp] theorem modKey_epochRec (s : State) (k : Nat) (f : KeySlot → KeySlot) (w : EUnit) : (s.modKey k f).epochRec w = s.epochRec w := rfl
@[simp] theorem modSec_reads (s : State) (f : Sec → Sec) (z : Nat) :
    (s.modSec f).port z = s.port z ∧ (s.modSec f).lane z = s.lane z ∧ (s.modSec f).host z = s.host z ∧ (s.modSec f).ring z = s.ring z ∧
    (s.modSec f).ext z = s.ext z ∧ (s.modSec f).stack z = s.stack z ∧ (s.modSec f).die z = s.die z ∧ (s.modSec f).inst z = s.inst z ∧
    (s.modSec f).session z = s.session z :=
  ⟨rfl, rfl, rfl, rfl, rfl, rfl, rfl, rfl, rfl⟩
@[simp] theorem modSec_epochRec (s : State) (f : Sec → Sec) (w : EUnit) : (s.modSec f).epochRec w = s.epochRec w := rfl
@[simp] theorem modExt_reads (s : State) (e : Nat) (f : Ext → Ext) (z : Nat) :
    (s.modExt e f).port z = s.port z ∧ (s.modExt e f).lane z = s.lane z ∧ (s.modExt e f).host z = s.host z ∧ (s.modExt e f).ring z = s.ring z ∧
    (s.modExt e f).ctx z = s.ctx z ∧ (s.modExt e f).key z = s.key z ∧ (s.modExt e f).stack z = s.stack z ∧ (s.modExt e f).die z = s.die z ∧
    (s.modExt e f).inst z = s.inst z ∧ (s.modExt e f).session z = s.session z :=
  ⟨rfl, rfl, rfl, rfl, rfl, rfl, rfl, rfl, rfl, rfl⟩
@[simp] theorem modExt_epochRec (s : State) (e : Nat) (f : Ext → Ext) (w : EUnit) : (s.modExt e f).epochRec w = s.epochRec w := rfl
@[simp] theorem modStack_reads (s : State) (k : Nat) (f : Stack → Stack) (z : Nat) :
    (s.modStack k f).port z = s.port z ∧ (s.modStack k f).lane z = s.lane z ∧ (s.modStack k f).host z = s.host z ∧
    (s.modStack k f).ring z = s.ring z ∧ (s.modStack k f).ctx z = s.ctx z ∧ (s.modStack k f).key z = s.key z ∧ (s.modStack k f).ext z = s.ext z ∧
    (s.modStack k f).die z = s.die z ∧ (s.modStack k f).inst z = s.inst z ∧ (s.modStack k f).session z = s.session z :=
  ⟨rfl, rfl, rfl, rfl, rfl, rfl, rfl, rfl, rfl, rfl⟩
@[simp] theorem modStack_epochRec (s : State) (k : Nat) (f : Stack → Stack) (w : EUnit) : (s.modStack k f).epochRec w = s.epochRec w := rfl
@[simp] theorem modDie_reads (s : State) (d : Nat) (f : Die → Die) (z : Nat) :
    (s.modDie d f).port z = s.port z ∧ (s.modDie d f).lane z = s.lane z ∧ (s.modDie d f).host z = s.host z ∧ (s.modDie d f).ring z = s.ring z ∧
    (s.modDie d f).ctx z = s.ctx z ∧ (s.modDie d f).key z = s.key z ∧ (s.modDie d f).ext z = s.ext z ∧ (s.modDie d f).stack z = s.stack z ∧
    (s.modDie d f).inst z = s.inst z ∧ (s.modDie d f).session z = s.session z :=
  ⟨rfl, rfl, rfl, rfl, rfl, rfl, rfl, rfl, rfl, rfl⟩
@[simp] theorem modDie_epochRec (s : State) (d : Nat) (f : Die → Die) (w : EUnit) : (s.modDie d f).epochRec w = s.epochRec w := rfl
@[simp] theorem modPool_reads (s : State) (f : Pool → Pool) (z : Nat) :
    (s.modPool f).port z = s.port z ∧ (s.modPool f).lane z = s.lane z ∧ (s.modPool f).host z = s.host z ∧ (s.modPool f).ring z = s.ring z ∧
    (s.modPool f).ctx z = s.ctx z ∧ (s.modPool f).key z = s.key z ∧ (s.modPool f).inst z = s.inst z ∧ (s.modPool f).session z = s.session z :=
  ⟨rfl, rfl, rfl, rfl, rfl, rfl, rfl, rfl⟩
@[simp] theorem modPool_epochRec (s : State) (f : Pool → Pool) (w : EUnit) : (s.modPool f).epochRec w = s.epochRec w := rfl
@[simp] theorem modInst_reads (s : State) (i : Nat) (f : Inst → Inst) (z : Nat) :
    (s.modInst i f).port z = s.port z ∧ (s.modInst i f).lane z = s.lane z ∧ (s.modInst i f).host z = s.host z ∧ (s.modInst i f).ring z = s.ring z ∧
    (s.modInst i f).ctx z = s.ctx z ∧ (s.modInst i f).key z = s.key z ∧ (s.modInst i f).ext z = s.ext z ∧ (s.modInst i f).stack z = s.stack z ∧
    (s.modInst i f).die z = s.die z ∧ (s.modInst i f).session z = s.session z :=
  ⟨rfl, rfl, rfl, rfl, rfl, rfl, rfl, rfl, rfl, rfl⟩
@[simp] theorem modInst_epochRec (s : State) (i : Nat) (f : Inst → Inst) (w : EUnit) : (s.modInst i f).epochRec w = s.epochRec w := rfl
@[simp] theorem modOps_reads (s : State) (f : Ops → Ops) (z : Nat) :
    (s.modOps f).port z = s.port z ∧ (s.modOps f).lane z = s.lane z ∧ (s.modOps f).host z = s.host z ∧ (s.modOps f).ring z = s.ring z ∧
    (s.modOps f).ctx z = s.ctx z ∧ (s.modOps f).key z = s.key z ∧ (s.modOps f).ext z = s.ext z ∧ (s.modOps f).stack z = s.stack z ∧
    (s.modOps f).die z = s.die z ∧ (s.modOps f).session z = s.session z :=
  ⟨rfl, rfl, rfl, rfl, rfl, rfl, rfl, rfl, rfl, rfl⟩
@[simp] theorem modOps_epochRec (s : State) (f : Ops → Ops) (w : EUnit) : (s.modOps f).epochRec w = s.epochRec w := rfl
@[simp] theorem modXl_reads (s : State) (f : Xl → Xl) (z : Nat) :
    (s.modXl f).port z = s.port z ∧ (s.modXl f).lane z = s.lane z ∧ (s.modXl f).host z = s.host z ∧ (s.modXl f).ring z = s.ring z ∧
    (s.modXl f).ctx z = s.ctx z ∧ (s.modXl f).key z = s.key z ∧ (s.modXl f).ext z = s.ext z ∧ (s.modXl f).stack z = s.stack z ∧
    (s.modXl f).die z = s.die z ∧ (s.modXl f).inst z = s.inst z ∧ (s.modXl f).session z = s.session z :=
  ⟨rfl, rfl, rfl, rfl, rfl, rfl, rfl, rfl, rfl, rfl, rfl⟩
@[simp] theorem modXl_epochRec (s : State) (f : Xl → Xl) (w : EUnit) : (s.modXl f).epochRec w = s.epochRec w := rfl
@[simp] theorem modRt_reads (s : State) (f : RackTime → RackTime) (z : Nat) :
    (s.modRt f).port z = s.port z ∧ (s.modRt f).lane z = s.lane z ∧ (s.modRt f).host z = s.host z ∧ (s.modRt f).ring z = s.ring z ∧
    (s.modRt f).ctx z = s.ctx z ∧ (s.modRt f).key z = s.key z ∧ (s.modRt f).ext z = s.ext z ∧ (s.modRt f).stack z = s.stack z ∧
    (s.modRt f).die z = s.die z ∧ (s.modRt f).inst z = s.inst z ∧ (s.modRt f).session z = s.session z :=
  ⟨rfl, rfl, rfl, rfl, rfl, rfl, rfl, rfl, rfl, rfl, rfl⟩
@[simp] theorem modRt_epochRec (s : State) (f : RackTime → RackTime) (w : EUnit) : (s.modRt f).epochRec w = s.epochRec w := rfl
@[simp] theorem modTbl_reads (s : State) (f : Tables → Tables) (z : Nat) :
    (s.modTbl f).port z = s.port z ∧ (s.modTbl f).lane z = s.lane z ∧ (s.modTbl f).host z = s.host z ∧ (s.modTbl f).ring z = s.ring z ∧
    (s.modTbl f).ctx z = s.ctx z ∧ (s.modTbl f).key z = s.key z ∧ (s.modTbl f).ext z = s.ext z ∧ (s.modTbl f).stack z = s.stack z ∧
    (s.modTbl f).die z = s.die z ∧ (s.modTbl f).inst z = s.inst z ∧ (s.modTbl f).session z = s.session z :=
  ⟨rfl, rfl, rfl, rfl, rfl, rfl, rfl, rfl, rfl, rfl, rfl⟩
@[simp] theorem modTbl_epochRec (s : State) (f : Tables → Tables) (w : EUnit) : (s.modTbl f).epochRec w = s.epochRec w := rfl
@[simp] theorem modThm_reads (s : State) (f : Therm → Therm) (z : Nat) :
    (s.modThm f).port z = s.port z ∧ (s.modThm f).lane z = s.lane z ∧ (s.modThm f).host z = s.host z ∧ (s.modThm f).ring z = s.ring z ∧
    (s.modThm f).ctx z = s.ctx z ∧ (s.modThm f).key z = s.key z ∧ (s.modThm f).ext z = s.ext z ∧ (s.modThm f).stack z = s.stack z ∧
    (s.modThm f).die z = s.die z ∧ (s.modThm f).inst z = s.inst z ∧ (s.modThm f).session z = s.session z :=
  ⟨rfl, rfl, rfl, rfl, rfl, rfl, rfl, rfl, rfl, rfl, rfl⟩
@[simp] theorem modThm_epochRec (s : State) (f : Therm → Therm) (w : EUnit) : (s.modThm f).epochRec w = s.epochRec w := rfl
@[simp] theorem modDev_reads (s : State) (f : Dev → Dev) (z : Nat) :
    (s.modDev f).port z = s.port z ∧ (s.modDev f).lane z = s.lane z ∧ (s.modDev f).host z = s.host z ∧ (s.modDev f).ring z = s.ring z ∧
    (s.modDev f).ctx z = s.ctx z ∧ (s.modDev f).key z = s.key z ∧ (s.modDev f).ext z = s.ext z ∧ (s.modDev f).stack z = s.stack z ∧
    (s.modDev f).die z = s.die z ∧ (s.modDev f).inst z = s.inst z ∧ (s.modDev f).session z = s.session z :=
  ⟨rfl, rfl, rfl, rfl, rfl, rfl, rfl, rfl, rfl, rfl, rfl⟩
@[simp] theorem modDev_epochRec (s : State) (f : Dev → Dev) (w : EUnit) : (s.modDev f).epochRec w = s.epochRec w := rfl
@[simp] theorem modFarun_reads (s : State) (n : Nat) (f : Farun → Farun) (z : Nat) :
    (s.modFarun n f).port z = s.port z ∧ (s.modFarun n f).lane z = s.lane z ∧ (s.modFarun n f).host z = s.host z ∧
    (s.modFarun n f).ring z = s.ring z ∧ (s.modFarun n f).ctx z = s.ctx z ∧ (s.modFarun n f).key z = s.key z ∧ (s.modFarun n f).ext z = s.ext z ∧
    (s.modFarun n f).stack z = s.stack z ∧ (s.modFarun n f).die z = s.die z ∧ (s.modFarun n f).inst z = s.inst z ∧
    (s.modFarun n f).session z = s.session z :=
  ⟨rfl, rfl, rfl, rfl, rfl, rfl, rfl, rfl, rfl, rfl, rfl⟩
@[simp] theorem modFarun_epochRec (s : State) (n : Nat) (f : Farun → Farun) (w : EUnit) : (s.modFarun n f).epochRec w = s.epochRec w := rfl
@[simp] theorem modEpoch_reads (s : State) (u : EUnit) (f : EpochRec → EpochRec) (z : Nat) :
    (s.modEpoch u f).port z = s.port z ∧ (s.modEpoch u f).lane z = s.lane z ∧ (s.modEpoch u f).host z = s.host z ∧
    (s.modEpoch u f).ring z = s.ring z ∧ (s.modEpoch u f).ctx z = s.ctx z ∧ (s.modEpoch u f).key z = s.key z ∧ (s.modEpoch u f).ext z = s.ext z ∧
    (s.modEpoch u f).stack z = s.stack z ∧ (s.modEpoch u f).die z = s.die z ∧ (s.modEpoch u f).inst z = s.inst z ∧
    (s.modEpoch u f).session z = s.session z :=
  ⟨rfl, rfl, rfl, rfl, rfl, rfl, rfl, rfl, rfl, rfl, rfl⟩
@[simp] theorem setMg_reads (s : State) (u : EUnit) (m : Option Nat) (z : Nat) :
    (s.setMg u m).port z = s.port z ∧ (s.setMg u m).lane z = s.lane z ∧ (s.setMg u m).host z = s.host z ∧ (s.setMg u m).ring z = s.ring z ∧
    (s.setMg u m).ctx z = s.ctx z ∧ (s.setMg u m).key z = s.key z ∧ (s.setMg u m).ext z = s.ext z ∧ (s.setMg u m).stack z = s.stack z ∧
    (s.setMg u m).die z = s.die z ∧ (s.setMg u m).inst z = s.inst z ∧ (s.setMg u m).session z = s.session z :=
  ⟨rfl, rfl, rfl, rfl, rfl, rfl, rfl, rfl, rfl, rfl, rfl⟩
@[simp] theorem modSession_reads (s : State) (i : Nat) (f : Session → Session) (z : Nat) :
    (s.modSession i f).port z = s.port z ∧ (s.modSession i f).lane z = s.lane z ∧ (s.modSession i f).host z = s.host z ∧
    (s.modSession i f).ring z = s.ring z ∧ (s.modSession i f).ctx z = s.ctx z ∧ (s.modSession i f).key z = s.key z ∧
    (s.modSession i f).ext z = s.ext z ∧ (s.modSession i f).stack z = s.stack z ∧ (s.modSession i f).die z = s.die z ∧
    (s.modSession i f).inst z = s.inst z :=
  ⟨rfl, rfl, rfl, rfl, rfl, rfl, rfl, rfl, rfl, rfl⟩
@[simp] theorem modSession_epochRec (s : State) (i : Nat) (f : Session → Session) (w : EUnit) : (s.modSession i f).epochRec w = s.epochRec w := rfl
@[simp] theorem modTransfers_reads (s : State) (f : List Transfer → List Transfer) (z : Nat) :
    (s.modTransfers f).port z = s.port z ∧ (s.modTransfers f).lane z = s.lane z ∧ (s.modTransfers f).host z = s.host z ∧
    (s.modTransfers f).ring z = s.ring z ∧ (s.modTransfers f).ctx z = s.ctx z ∧ (s.modTransfers f).key z = s.key z ∧
    (s.modTransfers f).ext z = s.ext z ∧ (s.modTransfers f).stack z = s.stack z ∧ (s.modTransfers f).die z = s.die z ∧
    (s.modTransfers f).inst z = s.inst z ∧ (s.modTransfers f).session z = s.session z :=
  ⟨rfl, rfl, rfl, rfl, rfl, rfl, rfl, rfl, rfl, rfl, rfl⟩
@[simp] theorem modTransfers_epochRec (s : State) (f : List Transfer → List Transfer) (w : EUnit) : (s.modTransfers f).epochRec w = s.epochRec w := rfl
@[simp] theorem dropFrame_reads (s : State)  (z : Nat) :
    (s.dropFrame).port z = s.port z ∧ (s.dropFrame).lane z = s.lane z ∧ (s.dropFrame).host z = s.host z ∧ (s.dropFrame).ring z = s.ring z ∧
    (s.dropFrame).ctx z = s.ctx z ∧ (s.dropFrame).key z = s.key z ∧ (s.dropFrame).ext z = s.ext z ∧ (s.dropFrame).stack z = s.stack z ∧
    (s.dropFrame).die z = s.die z ∧ (s.dropFrame).inst z = s.inst z ∧ (s.dropFrame).session z = s.session z :=
  ⟨rfl, rfl, rfl, rfl, rfl, rfl, rfl, rfl, rfl, rfl, rfl⟩
@[simp] theorem dropFrame_epochRec (s : State)  (w : EUnit) : (s.dropFrame).epochRec w = s.epochRec w := rfl
@[simp] theorem setQueue_reads (s : State) (e v : Nat) (q : List QEntry) (z : Nat) :
    (s.setQueue e v q).port z = s.port z ∧ (s.setQueue e v q).lane z = s.lane z ∧ (s.setQueue e v q).host z = s.host z ∧
    (s.setQueue e v q).ring z = s.ring z ∧ (s.setQueue e v q).ctx z = s.ctx z ∧ (s.setQueue e v q).key z = s.key z ∧
    (s.setQueue e v q).ext z = s.ext z ∧ (s.setQueue e v q).stack z = s.stack z ∧ (s.setQueue e v q).die z = s.die z ∧
    (s.setQueue e v q).inst z = s.inst z ∧ (s.setQueue e v q).session z = s.session z :=
  ⟨rfl, rfl, rfl, rfl, rfl, rfl, rfl, rfl, rfl, rfl, rfl⟩
@[simp] theorem setQueue_epochRec (s : State) (e v : Nat) (q : List QEntry) (w : EUnit) : (s.setQueue e v q).epochRec w = s.epochRec w := rfl
@[simp] theorem setLineQ_reads (s : State) (t : Nat) (q : List QEntry) (z : Nat) :
    (s.setLineQ t q).port z = s.port z ∧ (s.setLineQ t q).lane z = s.lane z ∧ (s.setLineQ t q).host z = s.host z ∧
    (s.setLineQ t q).ring z = s.ring z ∧ (s.setLineQ t q).ctx z = s.ctx z ∧ (s.setLineQ t q).key z = s.key z ∧ (s.setLineQ t q).ext z = s.ext z ∧
    (s.setLineQ t q).stack z = s.stack z ∧ (s.setLineQ t q).die z = s.die z ∧ (s.setLineQ t q).inst z = s.inst z ∧
    (s.setLineQ t q).session z = s.session z :=
  ⟨rfl, rfl, rfl, rfl, rfl, rfl, rfl, rfl, rfl, rfl, rfl⟩
@[simp] theorem setLineQ_epochRec (s : State) (t : Nat) (q : List QEntry) (w : EUnit) : (s.setLineQ t q).epochRec w = s.epochRec w := rfl
@[simp] theorem event_reads (s : State) (a b c d e f : Nat) (z : Nat) :
    (s.event a b c d e f).port z = s.port z ∧ (s.event a b c d e f).lane z = s.lane z ∧ (s.event a b c d e f).host z = s.host z ∧
    (s.event a b c d e f).ring z = s.ring z ∧ (s.event a b c d e f).ctx z = s.ctx z ∧ (s.event a b c d e f).key z = s.key z ∧
    (s.event a b c d e f).ext z = s.ext z ∧ (s.event a b c d e f).stack z = s.stack z ∧ (s.event a b c d e f).die z = s.die z ∧
    (s.event a b c d e f).inst z = s.inst z :=
  ⟨by simp [State.port], by simp [State.lane], by simp [State.host], by simp [State.ring], by simp [State.ctx], by simp [State.key], by simp [State.ext], by simp [State.stack], by simp [State.die], by simp [State.inst]⟩
@[simp] theorem noteChange_reads (s : State) (old : State) (u : EUnit) (a b : Bool) (z : Nat) :
    (State.noteChange old s u a b).port z = s.port z ∧ (State.noteChange old s u a b).lane z = s.lane z ∧
    (State.noteChange old s u a b).host z = s.host z ∧ (State.noteChange old s u a b).ring z = s.ring z ∧
    (State.noteChange old s u a b).ctx z = s.ctx z ∧ (State.noteChange old s u a b).key z = s.key z ∧
    (State.noteChange old s u a b).ext z = s.ext z ∧ (State.noteChange old s u a b).stack z = s.stack z ∧
    (State.noteChange old s u a b).die z = s.die z ∧ (State.noteChange old s u a b).inst z = s.inst z :=
  ⟨by simp [State.port], by simp [State.lane], by simp [State.host], by simp [State.ring], by simp [State.ctx], by simp [State.key], by simp [State.ext], by simp [State.stack], by simp [State.die], by simp [State.inst]⟩
@[simp] theorem accept_reads (s : State) (u : Option EUnit) (z : Nat) :
    (s.accept u).port z = s.port z ∧ (s.accept u).lane z = s.lane z ∧ (s.accept u).host z = s.host z ∧ (s.accept u).ring z = s.ring z ∧
    (s.accept u).ctx z = s.ctx z ∧ (s.accept u).key z = s.key z ∧ (s.accept u).ext z = s.ext z ∧ (s.accept u).stack z = s.stack z ∧
    (s.accept u).die z = s.die z ∧ (s.accept u).inst z = s.inst z :=
  ⟨by simp [State.port], by simp [State.lane], by simp [State.host], by simp [State.ring], by simp [State.ctx], by simp [State.key], by simp [State.ext], by simp [State.stack], by simp [State.die], by simp [State.inst]⟩
@[simp] theorem countDatagram_reads (s : State) (i : Nat) (z : Nat) :
    (s.countDatagram i).port z = s.port z ∧ (s.countDatagram i).lane z = s.lane z ∧ (s.countDatagram i).host z = s.host z ∧
    (s.countDatagram i).ring z = s.ring z ∧ (s.countDatagram i).ctx z = s.ctx z ∧ (s.countDatagram i).key z = s.key z ∧
    (s.countDatagram i).ext z = s.ext z ∧ (s.countDatagram i).stack z = s.stack z ∧ (s.countDatagram i).die z = s.die z ∧
    (s.countDatagram i).inst z = s.inst z :=
  ⟨by simp [State.port], by simp [State.lane], by simp [State.host], by simp [State.ring], by simp [State.ctx], by simp [State.key], by simp [State.ext], by simp [State.stack], by simp [State.die], by simp [State.inst]⟩
@[simp] theorem respond_reads (s : State) (i : Nat) (f r : VFrame) (z : Nat) :
    (s.respond i f r).port z = s.port z ∧ (s.respond i f r).lane z = s.lane z ∧ (s.respond i f r).host z = s.host z ∧
    (s.respond i f r).ring z = s.ring z ∧ (s.respond i f r).ctx z = s.ctx z ∧ (s.respond i f r).key z = s.key z ∧ (s.respond i f r).ext z = s.ext z ∧
    (s.respond i f r).stack z = s.stack z ∧ (s.respond i f r).die z = s.die z ∧ (s.respond i f r).inst z = s.inst z :=
  ⟨by simp [State.port], by simp [State.lane], by simp [State.host], by simp [State.ring], by simp [State.ctx], by simp [State.key], by simp [State.ext], by simp [State.stack], by simp [State.die], by simp [State.inst]⟩
@[simp] theorem refuse_reads (s : State) (i : Nat) (f : VFrame) (a : Nat) (z : Nat) :
    (s.refuse i f a).port z = s.port z ∧ (s.refuse i f a).lane z = s.lane z ∧ (s.refuse i f a).host z = s.host z ∧
    (s.refuse i f a).ring z = s.ring z ∧ (s.refuse i f a).ctx z = s.ctx z ∧ (s.refuse i f a).key z = s.key z ∧ (s.refuse i f a).ext z = s.ext z ∧
    (s.refuse i f a).stack z = s.stack z ∧ (s.refuse i f a).die z = s.die z ∧ (s.refuse i f a).inst z = s.inst z :=
  ⟨by simp [State.port], by simp [State.lane], by simp [State.host], by simp [State.ring], by simp [State.ctx], by simp [State.key], by simp [State.ext], by simp [State.stack], by simp [State.die], by simp [State.inst]⟩

end Sys2Proof.Machine
end

