-- ==== Sys2Proof/Laws/Issue.lean ====
section
/-! SUPPORT. What carrying a packet through the package can touch, and what issuing a request does: it is outstanding under a tag of its node. -/

namespace Sys2Proof.Machine
open Sys2Proof

/-- The device is as before, or by FLOOD or its end moved between FULL and DEGRADED. -/
def FloodOnly (d e : Dev) : Prop :=
  e = d ∨ ((d.phase = .full ∨ d.phase = .degraded) ∧ ∃ p x, (p = .full ∨ p = .degraded) ∧ e = { d with phase := p, phaseSince := x })
theorem FloodOnly.trans {d e f : Dev} (h : FloodOnly d e) (g : FloodOnly e f) : FloodOnly d f := by
  rcases h with rfl | ⟨h, p, x, hp, rfl⟩
  · exact g
  · rcases g with rfl | ⟨_, q, y, hq, rfl⟩
    · exact .inr ⟨h, p, x, hp, rfl⟩
    · exact .inr ⟨h, q, y, hq, rfl⟩
/-- `t` differs from `s` only where the carriage of packets reaches: the switch core, the credits and counters of ports, windows, requesters' boxes and counters,
and by FLOOD the device's phase with its event. -/
def Carried (s t : State) : Prop :=
  ∃ dev vane evt out tel ports sw xact win, FloodOnly s.dev dev ∧ (∀ p, (tget {} ports p).st = (s.port p).st) ∧
    t = { s with dev := dev, vane := vane, evt := evt, out := out, tel := tel, ports := ports, sw := sw, xact := xact, win := win }
theorem Carried.refl (s : State) : Carried s s := ⟨s.dev, s.vane, s.evt, s.out, s.tel, s.ports, s.sw, s.xact, s.win, .inl rfl, fun _ => rfl, rfl⟩
theorem Carried.trans {s t u : State} (h : Carried s t) (g : Carried t u) : Carried s u := by
  obtain ⟨a, b, c, d, e, f, i, j, k, hd, hp, rfl⟩ := h
  obtain ⟨a', b', c', d', e', f', i', j', k', hd', hp', rfl⟩ := g
  exact ⟨a', b', c', d', e', f', i', j', k', hd.trans hd', fun p => (hp' p).trans (hp p), rfl⟩
theorem Carried.of_mgmt {s t : State} (h : Mgmt s t) : Carried s t := by
  obtain ⟨v, e, o, rfl⟩ := h
  exact ⟨s.dev, v, e, o, s.tel, s.ports, s.sw, s.xact, s.win, .inl rfl, fun _ => rfl, rfl⟩
/-- A port stays in its state while packets are carried. -/
theorem Carried.port_st {s t : State} (h : Carried s t) (p : Nat) : (t.port p).st = (s.port p).st := by
  obtain ⟨a, b, c, d, e, f, i, j, k, hd, hp, rfl⟩ := h
  exact hp p
/-- Outside FULL and DEGRADED the phase stays while packets are carried. -/
theorem Carried.dev_eq {s t : State} (h : Carried s t) (h1 : s.dev.phase ≠ .full) (h2 : s.dev.phase ≠ .degraded) : t.dev = s.dev := by
  obtain ⟨a, b, c, d, e, f, i, j, k, hd | ⟨hd, _⟩, hp, rfl⟩ := h
  · exact hd
  · rcases hd with hd | hd
    · exact absurd hd h1
    · exact absurd hd h2
/-- What carriage leaves alone. -/
theorem Carried.keeps {s t : State} (h : Carried s t) :
    t.pending = s.pending ∧ t.free = s.free ∧ t.clk = s.clk ∧ t.thm = s.thm ∧ t.rt = s.rt ∧ t.tbl = s.tbl ∧ t.lanes = s.lanes ∧ t.link = s.link ∧
    t.reqs = s.reqs ∧ t.mov = s.mov ∧ t.xl = s.xl ∧ t.pool = s.pool ∧ t.hp = s.hp ∧ t.sec = s.sec ∧ t.ops = s.ops ∧ t.absent = s.absent ∧
    t.noticeSlot = s.noticeSlot ∧ t.departures = s.departures ∧ t.excluded = s.excluded ∧ t.farun = s.farun := by
  obtain ⟨a, b, c, d, e, f, i, j, k, _, _, rfl⟩ := h
  exact ⟨rfl, rfl, rfl, rfl, rfl, rfl, rfl, rfl, rfl, rfl, rfl, rfl, rfl, rfl, rfl, rfl, rfl, rfl, rfl, rfl⟩

theorem sw_carried (s : State) (x : Switch) : Carried s { s with sw := x } := ⟨s.dev, s.vane, s.evt, s.out, s.tel, s.ports, x, s.xact, s.win, .inl rfl, fun _ => rfl, rfl⟩
theorem xact_carried (s : State) (x : Xact) : Carried s { s with xact := x } := ⟨s.dev, s.vane, s.evt, s.out, s.tel, s.ports, s.sw, x, s.win, .inl rfl, fun _ => rfl, rfl⟩
theorem modPort_carried (s : State) (p : Nat) (f : Port → Port) (h : ∀ x, (f x).st = x.st) : Carried s (s.modPort p f) := by
  refine ⟨s.dev, s.vane, s.evt, s.out, s.tel, _, s.sw, s.xact, s.win, .inl rfl, fun q => ?_, rfl⟩
  have := port_modPort s p q f
  show ((s.modPort p f).port q).st = _
  rw [this]; split
  · next e => rw [h, e]
  · rfl
theorem emit_carried (s : State) (o : Output) : Carried s (s.emit o) := .of_mgmt (emit_mgmt s o)
theorem setAdm_carried (s : State) (a v h o : Nat) : Carried s (s.setAdm a v h o) := sw_carried _ _
theorem grant_carried (s : State) (a v n : Nat) : Carried s (s.grant a v n) := (setAdm_carried _ _ _ _ _).trans (modPort_carried _ _ _ (fun _ => rfl))
theorem grantMore_carried (a v n : Nat) (s : State) : Carried s (grantMore a v n s) := by
  induction n generalizing s with
  | zero => exact .refl s
  | succ n ih =>
    unfold grantMore
    dsimp only
    split
    · exact (grant_carried _ _ _ _).trans (ih _)
    · exact .refl s
theorem charge_carried (s : State) (a v n : Nat) : Carried s (s.charge a v n) := by
  unfold State.charge
  dsimp only
  split
  · exact (setAdm_carried _ _ _ _ _).trans (grantMore_carried _ _ _ _)
  · exact setAdm_carried _ _ _ _ _
theorem freeCells_carried (s : State) (a v n : Nat) : Carried s (s.freeCells a v n) := by
  unfold State.freeCells
  dsimp only
  split
  · exact ((setAdm_carried _ _ _ _ _).trans (sw_carried _ _)).trans (grant_carried _ _ _ _)
  · exact (setAdm_carried _ _ _ _ _).trans (sw_carried _ _)
theorem setQueue_carried (s : State) (g v : Nat) (q : List QEntry) : Carried s (s.setQueue g v q) := sw_carried _ _
theorem setLineQ_carried (s : State) (g : Nat) (q : List QEntry) : Carried s (s.setLineQ g q) := sw_carried _ _
theorem toPhase_carried (s : State) (p : Phase) (b : Bool) (h : s.dev.phase = .full ∨ s.dev.phase = .degraded) (g : p = .full ∨ p = .degraded) : Carried s (s.toPhase p b) := by
  unfold State.toPhase
  exact Carried.trans ⟨_, s.vane, s.evt, s.out, s.tel, s.ports, s.sw, s.xact, s.win, .inr ⟨h, p, s.clk, g, rfl⟩, fun _ => rfl, rfl⟩
    (.of_mgmt (noteChange_mgmt _ _ _ _ _))
theorem settlePhase_carried (s : State) : Carried s s.settlePhase := by
  unfold State.settlePhase
  split
  · next h => simp at h; exact toPhase_carried _ _ _ (.inl h.1) (.inr rfl)
  · split
    · next h => simp at h; exact toPhase_carried _ _ _ (.inr h.1) (.inl rfl)
    · exact .refl s
theorem event_carried (s : State) (a b c d e f : Nat) : Carried s (s.event a b c d e f) := .of_mgmt (event_mgmt _ _ _ _ _ _ _)
theorem enterFlood_carried (s : State) : Carried s s.enterFlood := by
  unfold State.enterFlood
  split
  · exact .refl s
  · exact ((sw_carried _ _).trans (event_carried _ _ _ _ _ _ _)).trans (settlePhase_carried _)
theorem addRepin_carried (s : State) (c : RepinCause) (d : Nat) : Carried s (s.addRepin c d) := sw_carried _ _
theorem floodCheck_carried (s : State) : Carried s s.floodCheck := by
  unfold State.floodCheck
  split
  · exact (((sw_carried _ _).trans (event_carried _ _ _ _ _ _ _)).trans (addRepin_carried _ _ _)).trans (settlePhase_carried _)
  · exact .refl s
theorem addMark_carried (s : State) (m : Mark) : Carried s (s.addMark m) := by
  unfold State.addMark
  split
  · exact .refl s
  · split
    · exact enterFlood_carried _
    · exact sw_carried _ _
theorem markFlow_carried (s : State) (t : Txn) (a : Nat) : Carried s (s.markFlow t a) := addMark_carried _ _
theorem dropMarks_carried (s : State) (p : Mark → Bool) : Carried s (s.dropMarks p) := (sw_carried _ _).trans (floodCheck_carried _)
theorem release_carried (s : State) (e : QEntry) : Carried s (s.release e) := freeCells_carried _ _ _ _
theorem toInbox_carried (s : State) (t : Txn) : Carried s (s.toInbox t) := xact_carried _ _
theorem sendRsp_carried (s : State) (e : QEntry) : Carried s (s.sendRsp e) := by
  unfold State.sendRsp
  split
  · exact (release_carried _ _).trans (sw_carried _ _)
  · exact (release_carried _ _).trans (toInbox_carried _ _)
  · exact setQueue_carried _ _ _ _
theorem failEntry_carried (s : State) (e : QEntry) (st : Nat) (r : Bool) : Carried s (s.failEntry e st r) :=
  (freeCells_carried _ _ _ _).trans (sendRsp_carried _ _)
theorem failContribs_carried (st : Nat) (m : MarkOf) (l : List Contrib) (s : State) : Carried s (failContribs st m l s) := by
  induction l generalizing s with
  | nil => exact .refl s
  | cons c r ih =>
    unfold failContribs
    extract_lets s1 s2 e
    have h : Carried s s1 := by
      unfold s1
      split
      · exact markFlow_carried _ _ _
      · exact .refl s
    exact ((h.trans (freeCells_carried _ _ _ _)).trans ((freeCells_carried _ _ _ _).trans (sendRsp_carried _ _))).trans (ih _)
theorem discard_carried (s : State) (e : QEntry) (m : MarkOf) : Carried s (s.discard e m) := by
  unfold State.discard
  split
  · exact failContribs_carried _ _ _ _
  · refine Carried.trans ?_ (failEntry_carried _ _ _ _)
    split
    · exact markFlow_carried _ _ _
    · exact .refl s
theorem markDiscard_carried (s : State) (e : QEntry) : Carried s (s.markDiscard e) := (sw_carried _ _).trans (discard_carried _ _ _)
theorem accretePut_carried (s : State) (q : List QEntry) (e : QEntry) (tile home : Nat) : Carried s (s.accretePut q e tile home).2 := by
  unfold State.accretePut
  split
  · exact .refl s
  · split
    · split
      · exact ((release_carried _ _).trans (charge_carried _ _ _ _)).trans ⟨_, _, _, _, _, _, _, _, _, .inl rfl, fun _ => rfl, rfl⟩
      · dsimp only
        split <;> split <;> exact xact_carried _ _
    · dsimp only
      split
      · exact .refl s
      · exact xact_carried _ _
theorem winDeny_carried (s : State) (e : Nat) : Carried s (s.winDeny e) := ⟨s.dev, s.vane, s.evt, s.out, s.tel, s.ports, s.sw, s.xact, _, .inl rfl, fun _ => rfl, rfl⟩
theorem putTurn_carried (s : State) (e : QEntry) : Carried s (s.putTurn e) := by
  unfold State.putTurn
  split
  · refine Carried.trans ?_ (setLineQ_carried _ _ _)
    split
    · exact winDeny_carried _ _
    · exact .refl s
  · dsimp only
    split
    · exact setLineQ_carried _ _ _
    · split
      · exact setLineQ_carried _ _ _
      · exact (accretePut_carried _ _ _ _ _).trans (setLineQ_carried _ _ _)
theorem putLine_carried (s : State) (e : QEntry) : Carried s (s.putLine e) := (sw_carried _ _).trans (putTurn_carried _ _)
theorem putReq_carried (s : State) (e : QEntry) (eg : Nat) : Carried s (s.putReq e eg) := by
  unfold State.putReq
  split
  · exact putLine_carried _ _
  · dsimp only
    split
    · exact (accretePut_carried _ _ _ _ _).trans (setQueue_carried _ _ _ _)
    · exact setQueue_carried _ _ _ _
theorem agedOrPut_carried (s : State) (e : QEntry) (eg : Nat) : Carried s (s.agedOrPut e eg) := by
  unfold State.agedOrPut
  split
  · refine Carried.trans ?_ (putReq_carried _ _ _)
    split
    · exact (dropMarks_carried _ _).trans (addMark_carried _ _)
    · exact dropMarks_carried _ _
  · split
    · exact discard_carried _ _ _
    · split
      · exact markDiscard_carried _ _
      · exact putReq_carried _ _ _
theorem forward_carried (s : State) (e : QEntry) : Carried s (s.forward e) := by
  unfold State.forward
  dsimp only
  split
  · exact failEntry_carried _ _ _ _
  · split
    · exact (sw_carried _ _).trans (failEntry_carried _ _ _ _)
    · split
      · exact failEntry_carried _ _ _ _
      · exact agedOrPut_carried _ _ _
theorem launch_carried (s : State) (k : Nat) (t : Txn) : Carried s (s.launch k t) := by
  unfold State.launch
  split
  · exact xact_carried _ _
  · exact (charge_carried _ _ _ _).trans (forward_carried _ _)
theorem enqueue_carried (s : State) (eg v : Nat) (e : QEntry) : Carried s (s.enqueue eg v e) := setQueue_carried _ _ _ _
/-- A message or packet of the package itself goes into a queue, or waits for cells. -/
theorem sendOut_carried (s : State) (t : Txn) : Carried s (s.sendOut t) := by
  unfold State.sendOut
  split
  · exact sw_carried _ _
  · split
    · exact .refl s
    · split
      · exact xact_carried _ _
      · exact (charge_carried _ _ _ _).trans (enqueue_carried _ _ _ _)
theorem foldl_carried {α : Type} (f : State → α → State) (h : ∀ s x, Carried s (f s x)) (l : List α) (s : State) : Carried s (l.foldl f s) := by
  induction l generalizing s with
  | nil => exact .refl s
  | cons x r ih => exact (h s x).trans (ih _)
/-- The request that `issueAs` records under a tag: with its node, the context's generation, and the node in place of 0xFFF (R36, R124, R340). -/
def issuedTxn (s : State) (node g : Nat) (t : Txn) : Txn := { ownFa node t with snode := node, kgen := (s.ctx t.ctx).kgen, tag := g }
/-- A request issued is outstanding under a tag that no other request of its node holds, and nothing else of the package's engines changes. -/
theorem issueAs_spec (s : State) (node : Nat) (t : Txn) (who : Purpose) (timeout : Nat) :
    ∃ g, Carried { s with reqs := tset s.reqs (node * 1048576 + g) { t := issuedTxn s node g t, who := who, issuedAt := s.clk, timeout := timeout } }
      (s.issueAs node t who timeout) := by
  refine ⟨freeTag s.reqs node s.reqs.length s.xact.nextTag, ?_⟩
  unfold State.issueAs
  exact Carried.trans ⟨s.dev, s.vane, s.evt, s.out, s.tel, s.ports, s.sw, _, s.win, .inl rfl, fun _ => rfl, rfl⟩ (launch_carried _ _ _)
/-- A request issued again is outstanding from now, without a response. -/
theorem reissue_spec (s : State) (key : Nat) (r : OutReq) :
    Carried { s with reqs := tset s.reqs key { r with issuedAt := s.clk, resp := none, waitUntil := none, tries := r.tries + 1 } } (s.reissue key r) :=
  launch_carried _ _ _

end Sys2Proof.Machine
end

