-- ==== Sys2Proof/Laws/Queue.lean ====
section
/-! SUPPORT. Admission moves no transaction: routes, queues, marks and windows are as before, so a response that a hop forms stands at the end of its queue. -/

namespace Sys2Proof.Machine
open Sys2Proof

/-- `t` differs from `s` only in the charges at admission points and in the credits and admission counts of ports. -/
def Charged (s t : State) : Prop :=
  ∃ ports adm sh b, (∀ p, ∃ c n, tget {} ports p = { s.port p with ccOut := c, cellsAdmitted := n }) ∧
    t = { s with ports := ports, sw := { s.sw with adm := adm, shared := sh, busyAt := b } }
theorem Charged.refl (s : State) : Charged s s := ⟨s.ports, s.sw.adm, s.sw.shared, s.sw.busyAt, fun p => ⟨(s.port p).ccOut, (s.port p).cellsAdmitted, rfl⟩, rfl⟩
theorem Charged.trans {s t u : State} (h : Charged s t) (g : Charged t u) : Charged s u := by
  obtain ⟨a, b, c, d, hp, rfl⟩ := h
  obtain ⟨a', b', c', d', hp', rfl⟩ := g
  refine ⟨a', b', c', d', fun p => ?_, rfl⟩
  obtain ⟨x, y, h1⟩ := hp p
  obtain ⟨x', y', h2⟩ := hp' p
  refine ⟨x', y', h2.trans ?_⟩
  show { tget {} a p with ccOut := x', cellsAdmitted := y' } = _
  rw [h1]
theorem setAdm_charged (s : State) (a v h o : Nat) : Charged s (s.setAdm a v h o) :=
  ⟨s.ports, _, _, s.sw.busyAt, fun p => ⟨(s.port p).ccOut, (s.port p).cellsAdmitted, rfl⟩, rfl⟩
theorem modPort_charged (s : State) (p : Nat) (f : Port → Port) (h : ∃ c n, f (s.port p) = { s.port p with ccOut := c, cellsAdmitted := n }) : Charged s (s.modPort p f) := by
  refine ⟨_, s.sw.adm, s.sw.shared, s.sw.busyAt, fun q => ?_, rfl⟩
  have := port_modPort s p q f
  show ∃ c n, (s.modPort p f).port q = _
  rw [this]; split
  · next e => subst e; exact h
  · exact ⟨(s.port q).ccOut, (s.port q).cellsAdmitted, rfl⟩
theorem grant_charged (s : State) (a v n : Nat) : Charged s (s.grant a v n) :=
  (setAdm_charged _ _ _ _ _).trans (modPort_charged _ _ _ ⟨_, _, rfl⟩)
theorem grantMore_charged (a v n : Nat) (s : State) : Charged s (grantMore a v n s) := by
  induction n generalizing s with
  | zero => exact .refl s
  | succ n ih =>
    unfold grantMore; dsimp only; split
    · exact (grant_charged s a v 1).trans (ih _)
    · exact .refl s
theorem charge_charged (s : State) (a v n : Nat) : Charged s (s.charge a v n) := by
  unfold State.charge; dsimp only; split
  · exact (setAdm_charged _ _ _ _ _).trans (grantMore_charged _ _ _ _)
  · exact setAdm_charged _ _ _ _ _
theorem freeCells_charged (s : State) (a v n : Nat) : Charged s (s.freeCells a v n) := by
  have h : Charged s { s.setAdm a v ((s.admOf a v).held - n) (s.admOf a v).out with sw := { (s.setAdm a v ((s.admOf a v).held - n) (s.admOf a v).out).sw with busyAt := s.clk } } :=
    ⟨s.ports, _, _, s.clk, fun p => ⟨(s.port p).ccOut, (s.port p).cellsAdmitted, rfl⟩, rfl⟩
  unfold State.freeCells; dsimp only; split
  · exact h.trans (grant_charged _ _ _ _)
  · exact h
theorem release_charged (s : State) (e : QEntry) : Charged s (s.release e) := freeCells_charged _ _ _ _

/-- What a charge leaves alone: every field but the ports and the switch core, and in the switch core all but the charges. -/
theorem Charged.keeps {s t : State} (h : Charged s t) : ∃ ports sw, t = { s with ports := ports, sw := sw } ∧ sw.queues = s.sw.queues ∧ sw.lines = s.sw.lines ∧
    sw.marks = s.sw.marks ∧ sw.repins = s.sw.repins ∧ sw.flood = s.sw.flood ∧ sw.melted = s.sw.melted ∧ sw.markDiscards = s.sw.markDiscards ∧
    sw.ageLimit = s.sw.ageLimit ∧ sw.hops = s.sw.hops := by
  obtain ⟨a, b, c, d, _, rfl⟩ := h
  exact ⟨a, _, rfl, rfl, rfl, rfl, rfl, rfl, rfl, rfl, rfl, rfl⟩
theorem Charged.port {s t : State} (h : Charged s t) (p : Nat) : ∃ c n, t.port p = { s.port p with ccOut := c, cellsAdmitted := n } := by
  obtain ⟨a, b, c, d, hp, rfl⟩ := h; exact hp p
theorem Charged.queue {s t : State} (h : Charged s t) (g v : Nat) : t.queue g v = s.queue g v := by
  obtain ⟨a, b, c, d, _, rfl⟩ := h; rfl
theorem Charged.lineQ {s t : State} (h : Charged s t) (g : Nat) : t.lineQ g = s.lineQ g := by
  obtain ⟨a, b, c, d, _, rfl⟩ := h; rfl
theorem Charged.clk {s t : State} (h : Charged s t) : t.clk = s.clk := by
  obtain ⟨a, b, c, d, _, rfl⟩ := h; rfl
theorem Charged.pool {s t : State} (h : Charged s t) : t.pool = s.pool := by
  obtain ⟨a, b, c, d, _, rfl⟩ := h; rfl
theorem Charged.reqs {s t : State} (h : Charged s t) : t.reqs = s.reqs := by
  obtain ⟨a, b, c, d, _, rfl⟩ := h; rfl
/-- Whether ports are up and which ALT entries stand decide routes; a charge changes neither. -/
theorem Charged.egress {s t : State} (h : Charged s t) (a n k : Nat) : t.egress a n k = s.egress a n k := by
  have h1 : t.portUp = s.portUp := by funext p; unfold State.portUp; obtain ⟨c, n, e⟩ := h.port p; rw [e]
  have h2 : ∀ p, (t.port p).altOn = (s.port p).altOn := fun p => by obtain ⟨c, n, e⟩ := h.port p; rw [e]
  have h3 : t.tbl = s.tbl := by obtain ⟨a, b, c, d, _, rfl⟩ := h; rfl
  unfold State.egress
  rw [h3, h1]
  split
  · rfl
  · rw [h2]
theorem setQueue_queue (s : State) (g v g' v' : Nat) (q : List QEntry) :
    (s.setQueue g v q).queue g' v' = if 10 * g' + v' = 10 * g + v then q else s.queue g' v' := by
  unfold State.queue State.setQueue
  dsimp only
  split
  · next e => rw [e, tget_tset_same]
  · next e => rw [tget_tset_ne _ _ _ _ _ e]
theorem queue_setQueue (s : State) (g v : Nat) (q : List QEntry) : (s.setQueue g v q).queue g v = q := by rw [setQueue_queue]; simp
/-- A response with a route out of the package goes to the end of its queue. -/
theorem sendRsp_enqueue {s : State} {e : QEntry} {q : Nat} (h : s.egress e.adm e.t.dnode e.t.key = some q) (hq : q ≠ 256) :
    s.sendRsp e = s.enqueue q e.queueVc e := by
  unfold State.sendRsp
  rw [h]
  split
  · next e => cases e
  · next e => exact absurd (Option.some.inj e) hq
  · next e => rw [Option.some.inj e]
theorem enqueue_queued {s u : State} (h : Charged s u) (q v : Nat) (e : QEntry) (hs : e.since = s.clk) : Queued s (u.enqueue q v e) q v e.t e.adm := by
  refine ⟨s.queue q v, e, ?_, rfl, rfl, rfl, hs⟩
  unfold State.enqueue
  rw [queue_setQueue, h.queue]
/-- The answer of a hop that does not perform a transaction stands at the end of its queue. -/
theorem failEntry_spec (s : State) (e : QEntry) (st : Nat) (r : Bool) {q : Nat} (h : s.egress e.adm e.t.snode (e.t.fail st s.poolNode).key = some q) (hq : q ≠ 256) :
    ∃ u x, Charged s u ∧ s.failEntry e st r = u.enqueue q (2 + 5 * (e.vc / 5)) x ∧ x.t = e.t.fail st s.poolNode ∧ x.adm = e.adm ∧ x.since = s.clk := by
  unfold State.failEntry
  dsimp only
  rw [sendRsp_enqueue (q := q) (by rw [(freeCells_charged s e.adm e.vc (e.cells - 1)).egress]; exact h) hq]
  refine ⟨_, { e with t := e.t.fail st s.poolNode, cells := 1, since := s.clk,
                      hlim := s.hopLimit 2, repl := r, ready := false, acc := none },
    freeCells_charged s e.adm e.vc (e.cells - 1), ?_, rfl, rfl, rfl⟩
  congr 1
  unfold QEntry.queueVc Txn.fail
  dsimp only
  split <;> rfl
/-- What marking a flow can touch: the marks, and by FLOOD its flag and the management side with the device's phase. -/
theorem addMark_spec (s : State) (x : Mark) :
    ∃ m f d v ev o, s.addMark x = { s with dev := d, vane := v, evt := ev, out := o, sw := { s.sw with marks := m, flood := f } } := by
  unfold State.addMark
  split
  · exact ⟨s.sw.marks, s.sw.flood, s.dev, s.vane, s.evt, s.out, rfl⟩
  · split
    · unfold State.enterFlood
      split
      · exact ⟨s.sw.marks, s.sw.flood, s.dev, s.vane, s.evt, s.out, rfl⟩
      · obtain ⟨v, ev, o, h⟩ := event_mgmt { s with sw := { s.sw with flood := true } } 8 0x01 1 0 0 0
        rw [h]
        unfold State.settlePhase
        split
        · obtain ⟨v', e', o', h'⟩ := noteChange_mgmt { s with sw := { s.sw with flood := true }, vane := v, evt := ev, out := o }
            { s with sw := { s.sw with flood := true }, vane := v, evt := ev, out := o, dev := { s.dev with phase := .degraded, phaseSince := s.clk } } .device true false
          exact ⟨s.sw.marks, true, _, v', e', o', h'⟩
        · split
          · obtain ⟨v', e', o', h'⟩ := noteChange_mgmt { s with sw := { s.sw with flood := true }, vane := v, evt := ev, out := o }
              { s with sw := { s.sw with flood := true }, vane := v, evt := ev, out := o, dev := { s.dev with phase := .full, phaseSince := s.clk } } .device true false
            exact ⟨s.sw.marks, true, _, v', e', o', h'⟩
          · exact ⟨s.sw.marks, true, s.dev, v, ev, o, rfl⟩
    · exact ⟨_, s.sw.flood, s.dev, s.vane, s.evt, s.out, rfl⟩
theorem markFlow_spec (s : State) (x : Txn) (a : Nat) :
    ∃ m f d v ev o, s.markFlow x a = { s with dev := d, vane := v, evt := ev, out := o, sw := { s.sw with marks := m, flood := f } } := addMark_spec _ _
/-- A flow marked while FLOOD does not reign and no mark stands is marked; a window-mode source is never (R193). -/
theorem markFlow_marked {s : State} (x : Txn) (a : Nat) (hf : s.sw.flood = false) (hm : s.sw.marks = []) (hw : (routeEnt s.tbl.active x.snode).wmode = false) :
    s.markFlow x a = { s with sw := { s.sw with marks := [{ snode := x.snode, ctx := x.ctx, flow := x.flow, dest := x.dest, tile := if x.dest.isSome then 0 else a, pass := false }] } } := by
  unfold State.markFlow State.addMark
  simp [hf, hm, hw]

end Sys2Proof.Machine
end

