-- ==== Sys2Proof/Laws/Vane.lean ====
section
/-! SUPPORT. What a Vane write that comes to its object can do: one lemma for a write that is accepted, one for a write that is aborted. -/

namespace Sys2Proof.Machine
open Sys2Proof

theorem MgmtOnly.of {s t : State} (h : Mgmt s t) : MgmtOnly s t := h
/-- A response is the last output. -/
theorem refuse_answered (s : State) (v : VCtx) (i j : Nat) (p : Bytes) (a : Nat) :
    Answered (s.refuse v.sess (writeFrame v i j p) a) v a := by
  refine ⟨s.rspFrame (writeFrame v i j p) a false [], ?_, rfl, rfl, rfl, rfl⟩
  rw [refuse_out, List.getLast?_concat]
theorem vaneServe_reaches {s : State} {sess : Nat} {f : VFrame} (h : Reaches s sess f) (k : State → State) :
    s.vaneServe sess f k = k (s.countDatagram sess) := by
  unfold State.vaneServe
  simp [h.awake, h.served, h.inRate, h.prv, h.unseen]
theorem vaneWrite_reaches {s : State} {v : VCtx} {obj : Nat × Nat} {p : Bytes} (h : Write s v obj p) (u : Option EUnit) (eff : State → Except Nat State) :
    s.vaneWrite v obj p u eff = .next ((s.countDatagram v.sess).vaneJudge v.sess (writeFrame v obj.1 obj.2 p) u eff) := by
  unfold State.vaneWrite
  rw [vaneServe_reaches h]
theorem countDatagram_epochRec (s : State) (i : Nat) (u : EUnit) : (s.countDatagram i).epochRec u = s.epochRec u := by
  unfold State.countDatagram State.epochRec
  split <;> rfl
/-- An accepted write: the response says so, and the rest is the effect. -/
theorem vaneWrite_accepts {s w : State} {v : VCtx} {obj : Nat × Nat} {p : Bytes} {u : Option EUnit} {eff : State → Except Nat State}
    (h : Write s v obj p) (hu : ∀ x, u = some x → (s.epochRec x).epoch = v.epoch) (he : eff (s.countDatagram v.sess) = .ok w) :
    ∃ t, s.vaneWrite v obj p u eff = .next t ∧ Answered t v 0 ∧ MgmtOnly w t := by
  have hj : (s.countDatagram v.sess).judge (writeFrame v obj.1 obj.2 p) u eff = (0, w.accept u) := by
    unfold State.judge
    have : (u.any fun x => ((s.countDatagram v.sess).epochRec x).epoch != (writeFrame v obj.1 obj.2 p).epoch) = false := by
      cases u with
      | none => rfl
      | some x => simp [countDatagram_epochRec, hu x rfl, writeFrame]
    rw [this, he]; simp
  refine ⟨_, vaneWrite_reaches h u eff, ?_, ?_⟩
  · unfold State.vaneJudge; rw [hj]; exact refuse_answered _ _ _ _ _ _
  · unfold State.vaneJudge; rw [hj]; exact (accept_mgmt _ _).trans (refuse_mgmt _ _ _ _)
/-- A write whose object aborts it: nothing but the management side changes. -/
theorem vaneWrite_aborts {s : State} {v : VCtx} {obj : Nat × Nat} {p : Bytes} {u : Option EUnit} {eff : State → Except Nat State} {a : Nat}
    (h : Write s v obj p) (hu : ∀ x, u = some x → (s.epochRec x).epoch = v.epoch) (he : eff (s.countDatagram v.sess) = .error a) :
    ∃ t, s.vaneWrite v obj p u eff = .next t ∧ Answered t v a ∧ MgmtOnly s t := by
  have hj : (s.countDatagram v.sess).judge (writeFrame v obj.1 obj.2 p) u eff = (a, s.countDatagram v.sess) := by
    unfold State.judge
    have : (u.any fun x => ((s.countDatagram v.sess).epochRec x).epoch != (writeFrame v obj.1 obj.2 p).epoch) = false := by
      cases u with
      | none => rfl
      | some x => simp [countDatagram_epochRec, hu x rfl, writeFrame]
    rw [this, he]; simp
  refine ⟨_, vaneWrite_reaches h u eff, ?_, ?_⟩
  · unfold State.vaneJudge; rw [hj]; exact refuse_answered _ _ _ _ _ _
  · unfold State.vaneJudge; rw [hj]; exact (countDatagram_mgmt _ _).trans (refuse_mgmt _ _ _ _)
/-- A write with another epoch than the unit's: STALE, and nothing else. -/
theorem vaneWrite_stale {s : State} {v : VCtx} {obj : Nat × Nat} {p : Bytes} {u : EUnit} {eff : State → Except Nat State}
    (h : Write s v obj p) (hu : (s.epochRec u).epoch ≠ v.epoch) :
    ∃ t, s.vaneWrite v obj p (some u) eff = .next t ∧ Answered t v abortStale ∧ MgmtOnly s t := by
  have hj : (s.countDatagram v.sess).judge (writeFrame v obj.1 obj.2 p) (some u) eff = (abortStale, s.countDatagram v.sess) := by
    unfold State.judge
    simp [countDatagram_epochRec, hu, writeFrame]
  refine ⟨_, vaneWrite_reaches h (some u) eff, ?_, ?_⟩
  · unfold State.vaneJudge; rw [hj]; exact refuse_answered _ _ _ _ _ _
  · unfold State.vaneJudge; rw [hj]; exact (countDatagram_mgmt _ _).trans (refuse_mgmt _ _ _ _)

end Sys2Proof.Machine
end

