-- ==== Sys2Proof/Tests/Slice0.lean ====
section
/-! SUPPORT. The model's own tests: ill-formed commands refused, the worked frame of chapter 14, single steps with results worked out from the spec, and for
every statement a state and operands that meet its hypotheses, clause by clause. -/

namespace Sys2Proof
open Sys2Proof.Machine

-- Well-formedness: an ill-formed command for each check, which the check refuses; and commands that pass every check

def z (n : Nat) : Bytes := List.replicate n 0
theorem test_illformed_1 : ([
  .read 0 { op := 8 }, .write 0 { op := 8 }, .describe 0 { op := 8 }, .epochRecordWrite ⟨0, 65536, 0⟩ .device, .epochRecordWrite ⟨0, 0, 2 ^ 32⟩ .device,
  .epochRecordWrite ⟨0, 0, 0⟩ (.host 8), .segmentTimeout 0 (2 ^ 16) 0, .segmentTimeout 0 0 (2 ^ 8), .settleTimeout (.host 8), .mctpAssemblyTimeout 8,
  .arpRequest (2 ^ 32), .neighbourSolicitation (2 ^ 128), .icmpEcho false (2 ^ 32) [], .bkeyDeliver 0 0 (2 ^ 16), .strapSample [],
  .packageReset ⟨0, 65536, 0⟩, .packageReset ⟨0, 0, 2 ^ 32⟩, .drain ⟨0, 65536, 0⟩, .drain ⟨0, 0, 2 ^ 32⟩, .hbmTrainingDone [24],
  .thmFlowWrite ⟨0, 65536, 0⟩ 0, .thmFlowWrite ⟨0, 0, 2 ^ 32⟩ 0, .thmFlowWrite ⟨0, 0, 0⟩ (2 ^ 16), .tjSample [] (List.replicate 24 0),
  .tjSample (List.replicate 80 0) [], .sramUe (2 ^ 8) .markTable, .hpRefclkLost 8, .rtSet ⟨0, 65536, 0⟩ 0, .rtSet ⟨0, 0, 2 ^ 32⟩ 0, .rtSet ⟨0, 0, 0⟩ (2 ^ 64)] : List Instr).all (fun c => !c.wellFormed) = true := by decide
theorem test_illformed_2 : ([
  .rtSource ⟨0, 65536, 0⟩ 0, .rtSource ⟨0, 0, 2 ^ 32⟩ 0, .rtSource ⟨0, 0, 0⟩ (2 ^ 8), .rtSrcPort ⟨0, 65536, 0⟩ 0, .rtSrcPort ⟨0, 0, 2 ^ 32⟩ 0,
  .rtSrcPort ⟨0, 0, 0⟩ (2 ^ 16), .time 256 {}, .time 0 { quality := 16 }, .rtResumeSlot ⟨0, 65536, 0⟩ 0, .rtResumeSlot ⟨0, 0, 2 ^ 32⟩ 0,
  .rtResumeSlot ⟨0, 0, 0⟩ (2 ^ 64), .tblImage ⟨0, 65536, 0⟩ 0 false [], .tblImage ⟨0, 0, 2 ^ 32⟩ 0 false [], .tblImage ⟨0, 0, 0⟩ (2 ^ 32) false [],
  .tblArm ⟨0, 65536, 0⟩ 0 0, .tblArm ⟨0, 0, 2 ^ 32⟩ 0 0, .tblArm ⟨0, 0, 0⟩ (2 ^ 64) 0, .tblArm ⟨0, 0, 0⟩ 0 (2 ^ 64), .tblCancel ⟨0, 65536, 0⟩ 0,
  .tblCancel ⟨0, 0, 2 ^ 32⟩ 0, .tblCancel ⟨0, 0, 0⟩ (2 ^ 64), .eyeScanWindow (2 ^ 8), .bitErrorWindow (2 ^ 8), .bitErrorWindowEnd 256 0 0 0,
  .bitErrorWindowEnd 0 4 0 0, .scrubWindow (2 ^ 8) 0 [], .portEnable ⟨0, 65536, 0⟩ 0 false, .portEnable ⟨0, 0, 2 ^ 32⟩ 0 false,
  .portEnable ⟨0, 0, 0⟩ 256 false, .portCtlRetrain ⟨0, 65536, 0⟩ 0] : List Instr).all (fun c => !c.wellFormed) = true := by decide
theorem test_illformed_3 : ([
  .portCtlRetrain ⟨0, 0, 2 ^ 32⟩ 0, .portCtlRetrain ⟨0, 0, 0⟩ 256, .portTest ⟨0, 65536, 0⟩ 0, .portTest ⟨0, 0, 2 ^ 32⟩ 0, .portTest ⟨0, 0, 0⟩ 256,
  .rewiden ⟨0, 65536, 0⟩ 0, .rewiden ⟨0, 0, 2 ^ 32⟩ 0, .rewiden ⟨0, 0, 0⟩ 256, .laneSlip ⟨0, 65536, 0⟩ 0, .laneSlip ⟨0, 0, 2 ^ 32⟩ 0,
  .laneSlip ⟨0, 0, 0⟩ 1024, .laneScan ⟨0, 65536, 0⟩ 0, .laneScan ⟨0, 0, 2 ^ 32⟩ 0, .laneScan ⟨0, 0, 0⟩ 1024, .rebase ⟨0, 65536, 0⟩ 0,
  .rebase ⟨0, 0, 2 ^ 32⟩ 0, .rebase ⟨0, 0, 0⟩ 1024, .signalDetected 256 0, .signalDetected 0 16, .laneLock 1024 0 false, .deskew 256 [] 0, .deskew 0 [24] 0,
  .train 256 {}, .train 0 { role := 4 }, .trainRepeat 256, .equaliseConverged 256 0, .equaliseConverged 0 (2 ^ 64), .verifyEnd 256 [0, 0, 0, 0] false,
  .verifyEnd 0 [] false, .trainingTimeout 256] : List Instr).all (fun c => !c.wellFormed) = true := by decide
theorem test_illformed_4 : ([
  .cap 256 {}, .cap 0 { kind := 8 }, .capRepeat 256, .joiningWaitEnd 256, .spdm 256 ⟨0, 0, false, []⟩, .spdm 0 ⟨0, 0, false, z 57⟩, .spdmAck 256 0,
  .spdmAck 0 (2 ^ 8), .spdmRepeat 256, .data 256 ⟨0, z 56, 0⟩, .data 0 ⟨0, z 55, 0⟩, .idle 256 ⟨0, z 56, 0⟩, .idle 0 ⟨0, z 55, 0⟩, .tag 256 ⟨0, z 56, 0⟩,
  .tag 0 ⟨0, z 55, 0⟩, .nakRepeat 256, .replayTimeout 256, .ackTimeout 256, .creditRefresh 256 0, .creditRefresh 0 10, .keyUpdate 256, .laneFault 1024 0,
  .serWindow 1024 0, .serWindow 0 (2 ^ 32), .narrow 256 0 false 0, .narrow 0 16 false 0, .narrowRepeat 256, .narrowSwitch 256, .narrowTimeout 256,
  .signalLost 256 false] : List Instr).all (fun c => !c.wellFormed) = true := by decide
theorem test_illformed_5 : ([
  .downIdleEnd 256, .retrain 256, .diagStart 256 0 0, .diagStart 0 16 0, .diagAck 256 0, .diagAck 0 16, .diagAckTimeout 256, .diagStop 256,
  .diagResult 256 0 0 0, .diagResult 0 4 0 0, .diagResultRepeat 256, .diagResultTimeout 256 0, .diagResultTimeout 0 4,
  .testEnd 256 (List.replicate 4 (0, 0)), .testEnd 0 [], .rd 266 {}, .rd 0 { akind := 4 }, .wr 266 {}, .wr 0 { akind := 4 }, .atom 266 {},
  .atom 0 { akind := 4 }, .resync 266 {}, .resync 0 { akind := 4 }, .bisnp 266 {}, .bisnp 0 { akind := 4 }, .rspData 266 {}, .rspData 0 { akind := 4 },
  .rspAtom 266 {}, .rspAtom 0 { akind := 4 }, .rspDone 266 {}] : List Instr).all (fun c => !c.wellFormed) = true := by decide
theorem test_illformed_6 : ([
  .rspDone 0 { akind := 4 }, .birsp 266 {}, .birsp 0 { akind := 4 }, .queueHead 265 0, .queueHead 0 10, .portTransmit 256, .accHoldExpired 265 0,
  .accHoldExpired 0 (2 ^ 8), .accretionTimeout 1048576, .accEnable ⟨0, 65536, 0⟩ false, .accEnable ⟨0, 0, 2 ^ 32⟩ false, .lineQueueHead (2 ^ 8) false,
  .nodeLeave 266 {}, .nodeLeave 0 { akind := 4 }, .requestTimeout 0 1048576, .resyncIssue ⟨4096, 0⟩ 0 0 0, .resyncIssue ⟨0, 0⟩ 65536 0 0, .resyncIssue ⟨0, 0⟩ 0 8 0, .resyncIssue ⟨0, 0⟩ 0 0 4096,
  .farunIssue 0 0 { txn := { akind := 4 } }, .ringEnable ⟨0, 65536, 0⟩ 0 0, .ringEnable ⟨0, 0, 2 ^ 32⟩ 0 0, .ringEnable ⟨0, 0, 0⟩ 65536 0,
  .ringEnable ⟨0, 0, 0⟩ 0 (2 ^ 256), .ringDisable ⟨0, 65536, 0⟩ 0 0, .ringDisable ⟨0, 0, 2 ^ 32⟩ 0 0, .ringDisable ⟨0, 0, 0⟩ 65536 0,
  .ringDisable ⟨0, 0, 0⟩ 0 (2 ^ 256), .ringConfigure ⟨0, 65536, 0⟩ 0 0, .ringConfigure ⟨0, 0, 2 ^ 32⟩ 0 0, .ringConfigure ⟨0, 0, 0⟩ 65536 0] : List Instr).all (fun c => !c.wellFormed) = true := by decide
theorem test_illformed_7 : ([
  .ringConfigure ⟨0, 0, 0⟩ 0 (2 ^ 256), .restart ⟨0, 65536, 0⟩ 0 0, .restart ⟨0, 0, 2 ^ 32⟩ 0 0, .restart ⟨0, 0, 0⟩ 65536 0, .restart ⟨0, 0, 0⟩ 0 (2 ^ 32),
  .tail 65536 0 0, .tail 0 (2 ^ 64) 0, .tail 0 0 (2 ^ 8), .cmplHead 65536 0 0, .cmplHead 0 (2 ^ 64) 0, .cmplHead 0 0 (2 ^ 8), .nop 65536, .copy 65536,
  .fill 65536, .atomic 65536, .opLaunch 65536, .engineTileStart (2 ^ 8), .moverLineResponse 1048576, .moverRetry 1048576, .descriptorSignal 65536,
  .completionRecord 65536, .notificationVector 65536, .ringDrainEnd 65536, .ctxBind ⟨0, 65536, 0⟩ 0 0, .ctxBind ⟨0, 0, 2 ^ 32⟩ 0 0,
  .ctxBind ⟨0, 0, 0⟩ 65536 0, .ctxBind ⟨0, 0, 0⟩ 0 (2 ^ 128), .withdrawContext ⟨0, 65536, 0⟩ 0, .withdrawContext ⟨0, 0, 2 ^ 32⟩ 0,
  .withdrawContext ⟨0, 0, 0⟩ (2 ^ 160 * 2 ^ 160)] : List Instr).all (fun c => !c.wellFormed) = true := by decide
theorem test_illformed_8 : ([
  .withdrawFa ⟨0, 65536, 0⟩ 0, .withdrawFa ⟨0, 0, 2 ^ 32⟩ 0, .withdrawFa ⟨0, 0, 0⟩ (2 ^ 160 * 2 ^ 160), .withdrawalNotice 0 (2 ^ 32) false 0 0 0 0 none,
  .withdrawalNotice 0 0 false 65536 0 0 0 none, .withdrawalNotice 0 0 false 0 0 0 (2 ^ 32) none, .doneNoticeSend 0 (2 ^ 32), .doneNotice 0 (2 ^ 32),
  .withdrawalTimeout (2 ^ 32), .notifyStoreResponse 1048576, .walkStart 128, .walkEntryRead 1048576, .walkTimeout 128, .holdExpired 266,
  .atsCompletion 128 0 0 false false false, .atsCompletion 0 (2 ^ 64) 0 false false false, .prgResponse 8 0 0 0, .prgResponse 0 65536 0 0,
  .prgResponse 0 0 (2 ^ 64) 0, .prgResponse 0 0 0 16, .slowWaitExpired 65536 0, .slowWaitExpired 0 (2 ^ 32), .movingReread 128, .atsInvalidate 8 0 0 0 0,
  .atsInvalidate 0 (2 ^ 20) 0 0 0, .atsInvalidate 0 0 32 0 0, .atsInvalidate 0 0 0 (2 ^ 64) 0, .atsEnableCleared 8, .driftEnable ⟨0, 65536, 0⟩ false,
  .driftEnable ⟨0, 0, 2 ^ 32⟩ false] : List Instr).all (fun c => !c.wellFormed) = true := by decide
theorem test_illformed_9 : ([
  .driftLandRelease ⟨0, 65536, 0⟩ 0, .driftLandRelease ⟨0, 0, 2 ^ 32⟩ 0, .driftLandRelease ⟨0, 0, 0⟩ (2 ^ 64), .poolBackptr ⟨0, 65536, 0⟩ 0 0,
  .poolBackptr ⟨0, 0, 2 ^ 32⟩ 0 0, .poolBackptr ⟨0, 0, 0⟩ (2 ^ 64) 0, .poolBackptr ⟨0, 0, 0⟩ 0 (2 ^ 64), .extActivate ⟨0, 65536, 0⟩ 0,
  .extActivate ⟨0, 0, 2 ^ 32⟩ 0, .extActivate ⟨0, 0, 0⟩ 1024, .extRelease ⟨0, 65536, 0⟩ 0, .extRelease ⟨0, 0, 2 ^ 32⟩ 0, .extRelease ⟨0, 0, 0⟩ 1024,
  .extentReleased 1024, .granuleZeroed 1024, .extGrants ⟨0, 65536, 0⟩ 0 0, .extGrants ⟨0, 0, 2 ^ 32⟩ 0 0, .extGrants ⟨0, 0, 0⟩ 1024 0,
  .extGrants ⟨0, 0, 0⟩ 0 (2 ^ 256), .extRevoke ⟨0, 65536, 0⟩ 0 0, .extRevoke ⟨0, 0, 2 ^ 32⟩ 0 0, .extRevoke ⟨0, 0, 0⟩ 1024 0, .extRevoke ⟨0, 0, 0⟩ 0 8,
  .revocationComplete 1024 0, .revocationComplete 0 8, .channelTimeout 768, .stackFail ⟨0, 65536, 0⟩ 0, .stackFail ⟨0, 0, 2 ^ 32⟩ 0, .stackFail ⟨0, 0, 0⟩ 24,
  .rebuildStripe 4] : List Instr).all (fun c => !c.wellFormed) = true := by decide
theorem test_illformed_10 : ([
  .evacuateGranule 4, .hostLinkUp 8, .hostLinkDown 8, .declareDead ⟨0, 65536, 0⟩ 0, .declareDead ⟨0, 0, 2 ^ 32⟩ 0, .declareDead ⟨0, 0, 0⟩ 8,
  .revive ⟨0, 65536, 0⟩ 0, .revive ⟨0, 0, 2 ^ 32⟩ 0, .revive ⟨0, 0, 0⟩ 8, .clearRid ⟨0, 65536, 0⟩ 0 0, .clearRid ⟨0, 0, 2 ^ 32⟩ 0 0, .clearRid ⟨0, 0, 0⟩ 8 0,
  .clearRid ⟨0, 0, 0⟩ 0 (2 ^ 16), .deadScanDone 8, .memRd 8 0 .any, .memRd 0 1 .any, .memWr 8 0 .any 0 (z 64), .memWr 0 1 .any 0 (z 64),
  .memWr 0 0 .any (2 ^ 64) (z 64), .memWr 0 0 .any 0 [], .rwd 8 0 (z 64), .rwd 0 1 (z 64), .rwd 0 0 [], .m2sBirsp 8 0, .m2sBirsp 0 1, .biTimeout 8 0,
  .hostMemRead 8 0 0 none 0 0, .hostMemRead 0 (2 ^ 16) 0 none 0 0, .hostMemRead 0 0 0 none 0 4097, .hostMemWrite 8 0 none false 0 []] : List Instr).all (fun c => !c.wellFormed) = true := by decide
theorem test_illformed_11 : ([
  .hostMemWrite 0 (2 ^ 16) none false 0 [], .hostAtomicop 8 0 0 none 0 .swap 8 [], .hostAtomicop 0 (2 ^ 16) 0 none 0 .swap 8 [],
  .hostAtomicop 0 0 0 none 0 .swap 5 [], .hostAtomicop 0 0 0 none 0 .swap 8 (List.replicate 33 0), .hostRetryDeadline 8 0, .hostCompletion 8 0 .abort,
  .hostCompletionTimeout 8 0, .mailboxGo 8 0 [] 0, .mailboxGo 0 4096 [] 0, .mailboxGo 0 0 [] (2 ^ 32), .lockInterfaceRequest 8, .startInterfaceRequest 8,
  .stopInterfaceRequest 8, .getDeviceInterfaceReport 8, .getDeviceInterfaceState 8, .ideIntegrityFail 8 0, .doeRequest 8 0 (.discovery 0),
  .ctxActivate ⟨0, 65536, 0⟩ 0 false 0 0, .ctxActivate ⟨0, 0, 2 ^ 32⟩ 0 false 0 0, .ctxActivate ⟨0, 0, 0⟩ 65536 false 0 0,
  .ctxActivate ⟨0, 0, 0⟩ 0 false (2 ^ 64) 0, .ctxActivate ⟨0, 0, 0⟩ 0 false 0 (2 ^ 64), .ctxStop ⟨0, 65536, 0⟩ 0 0 0, .ctxStop ⟨0, 0, 2 ^ 32⟩ 0 0 0,
  .ctxStop ⟨0, 0, 0⟩ 65536 0 0, .ctxStop ⟨0, 0, 0⟩ 0 (2 ^ 64) 0, .ctxStop ⟨0, 0, 0⟩ 0 0 (2 ^ 64), .ctxStateNotice 0 65536 0 0 false, .ctxStateNotice 0 0 5 0 false] : List Instr).all (fun c => !c.wellFormed) = true := by decide
theorem test_illformed_12 : ([
  .ctxStateNotice 0 0 0 16 false, .ctxStateAck 0 65536, .keyGenerate ⟨0, 65536, 0⟩ 0 false 0, .keyGenerate ⟨0, 0, 2 ^ 32⟩ 0 false 0,
  .keyGenerate ⟨0, 0, 0⟩ 4096 false 0, .keyGenerate ⟨0, 0, 0⟩ 0 false 65536, .keyDestroy ⟨0, 65536, 0⟩ 0, .keyDestroy ⟨0, 0, 2 ^ 32⟩ 0,
  .keyDestroy ⟨0, 0, 0⟩ 4096, .bundleLoad ⟨0, 65536, 0⟩ 0, .bundleLoad ⟨0, 0, 2 ^ 32⟩ 0, .bundleLoad ⟨0, 0, 0⟩ (2 ^ 160 * 2 ^ 160), .colData 266 {},
  .colData 0 { akind := 4 }, .colSide 266 {}, .colSide 0 { akind := 4 }, .colPart 266 {}, .colPart 0 { akind := 4 }, .colCtlAbort 266 {},
  .colCtlAbort 0 { akind := 4 }, .colCtlCredit 266 {}, .colCtlCredit 0 { akind := 4 }, .runStart 4096, .runPeriod 4096, .phaseDeadline 4096,
  .resultWriteResponse 1048576, .opsSlushEntry ⟨0, 65536, 0⟩ {}, .opsSlushEntry ⟨0, 0, 2 ^ 32⟩ {}, .mgtMsg 266 {}, .mgtMsg 0 { akind := 4 }] : List Instr).all (fun c => !c.wellFormed) = true := by decide
theorem test_illformed_13 : ([
  .bundleKeyExpiry 64, .priReset 8] : List Instr).all (fun c => !c.wellFormed) = true := by decide
theorem test_illformed_lengths : (Instr.tblImage ⟨0, 0, 0⟩ 0 false (z 65536)).wellFormed = false ∧ (Instr.eyeScanComplete 0 0 0 0 0 []).wellFormed = false ∧
    (Instr.hostMemWrite 0 0 none false 0 (z 4097)).wellFormed = false ∧
    (Instr.mailboxGo 0 0 (z 2049) 0).wellFormed = false := by
  refine ⟨?_, ?_, ?_, ?_⟩ <;> simp only [Instr.wellFormed, z, List.length_replicate] <;> decide
theorem test_illformed_txn : ([{ akind := 4 }, { size := 64 }, { snode := 4096 }, { kgen := 16 }, { ctx := 65536 }, { tag := 1048576 }, { flow := 8 }, { addr := 2 ^ 57 },
  { status := 16 }, { dslots := 16 }, { dnode := 4096 }, { hnode := 4096 }, { tnode := 4096 }, { fmt := 16 }, { inst := 4096 }, { phase := 16 }, { eoff := 2 ^ 32 },
  { contrib := 4096 }, { xb := 256 }, { lnode := 4096 }, { data := z 65 }] : List Txn).all (fun t => !t.ok) = true := by decide
theorem test_illformed_frame : ([{ ver := 16 }, { op := 8 }, { seq := 2 ^ 16 }, { index := 2 ^ 16 }, { sub := 256 }, { abort := 256 }, { epoch := 2 ^ 32 },
  { offset := 2 ^ 32 }, { len := 2 ^ 16 }] : List VFrame).all (fun f => !f.ok) = true := by decide
theorem test_illformed_records : ([{ nonce := 2 ^ 16 }, { echo := 2 ^ 16 }, { role := 4 }, { rates := 256 }] : List TrainRec).all (fun r => !r.ok) = true ∧
  ([{ cfver := 256 }, { kind := 8 }, { status := 4 }, { cseq := 2 ^ 16 }, { echo := 2 ^ 16 }, { node := 4096 }, { uid := 2 ^ 64 }] : List CapFrame).all (fun f => !f.ok) = true ∧
  ([{ txTime := 2 ^ 64 }, { echo := 2 ^ 64 }, { turn := 2 ^ 32 }, { quality := 16 }, { stratum := 16 }, { err := 2 ^ 24 }] : List TimeRec).all (fun r => !r.ok) = true ∧
  Flit.ok ⟨0, z 55, 0⟩ = false ∧ Flit.ok ⟨0, z 56, 2 ^ 48⟩ = false ∧ Frag.ok ⟨0, 0, false, z 57⟩ = false := by decide
theorem test_illformed_units : ([.ring 65536, .ctx 65536, .key 4096, .port 256, .stack 24, .ext 1024, .host 8] : List EUnit).all (fun u => !u.ok) = true := by decide
theorem test_wellformed_1 : ([
  .read 0 {}, .write 0 {}, .describe 0 {}, .epochRecordWrite ⟨0, 0, 0⟩ .device, .segmentTimeout 0 0 0, .settleTimeout .device, .mctpAssemblyTimeout 0,
  .arpRequest 0, .neighbourSolicitation 0, .icmpEcho false 0 [], .bkeyDeliver 0 0 0, .strapSample (List.replicate 16 0), .packageReset ⟨0, 0, 0⟩,
  .drain ⟨0, 0, 0⟩, .hbmTrainingDone [], .thmFlowWrite ⟨0, 0, 0⟩ 0, .tjSample (List.replicate 80 0) (List.replicate 24 0), .sramUe 0 .markTable,
  .hpRefclkLost 0, .rtSet ⟨0, 0, 0⟩ 0, .rtSource ⟨0, 0, 0⟩ 0, .rtSrcPort ⟨0, 0, 0⟩ 0, .time 0 {}, .rtResumeSlot ⟨0, 0, 0⟩ 0, .tblImage ⟨0, 0, 0⟩ 0 false [],
  .tblArm ⟨0, 0, 0⟩ 0 0, .tblCancel ⟨0, 0, 0⟩ 0, .eyeScanWindow 0, .bitErrorWindow 0, .bitErrorWindowEnd 0 0 0 0, .scrubWindow 0 0 [],
  .portEnable ⟨0, 0, 0⟩ 0 false, .portCtlRetrain ⟨0, 0, 0⟩ 0, .portTest ⟨0, 0, 0⟩ 0, .rewiden ⟨0, 0, 0⟩ 0, .laneSlip ⟨0, 0, 0⟩ 0, .laneScan ⟨0, 0, 0⟩ 0,
  .rebase ⟨0, 0, 0⟩ 0, .signalDetected 0 0, .laneLock 0 0 false] : List Instr).all Instr.wellFormed = true := by decide
theorem test_wellformed_2 : ([
  .deskew 0 [] 0, .train 0 {}, .trainRepeat 0, .equaliseConverged 0 0, .verifyEnd 0 [0, 0, 0, 0] false, .trainingTimeout 0, .cap 0 {}, .capRepeat 0,
  .joiningWaitEnd 0, .spdm 0 ⟨0, 0, false, []⟩, .spdmAck 0 0, .spdmRepeat 0, .data 0 ⟨0, z 56, 0⟩, .idle 0 ⟨0, z 56, 0⟩, .tag 0 ⟨0, z 56, 0⟩, .nakRepeat 0,
  .replayTimeout 0, .ackTimeout 0, .creditRefresh 0 0, .keyUpdate 0, .laneFault 0 0, .serWindow 0 0, .narrow 0 0 false 0, .narrowRepeat 0, .narrowSwitch 0,
  .narrowTimeout 0, .signalLost 0 false, .downIdleEnd 0, .retrain 0, .diagStart 0 0 0, .diagAck 0 0, .diagAckTimeout 0, .diagStop 0, .diagResult 0 0 0 0,
  .diagResultRepeat 0, .diagResultTimeout 0 0, .testEnd 0 (List.replicate 4 (0, 0)), .rd 0 {}, .wr 0 {}, .atom 0 {}] : List Instr).all Instr.wellFormed = true := by decide
theorem test_wellformed_3 : ([
  .resync 0 {}, .bisnp 0 {}, .rspData 0 {}, .rspAtom 0 {}, .rspDone 0 {}, .birsp 0 {}, .queueHead 0 0, .portTransmit 0, .accHoldExpired 0 0,
  .accretionTimeout 0, .accEnable ⟨0, 0, 0⟩ false, .lineQueueHead 0 false, .nodeLeave 0 {}, .requestTimeout 0 0, .resyncIssue ⟨0, 0⟩ 0 0 0, .fence 0 0,
  .farunIssue 0 0 {}, .ringEnable ⟨0, 0, 0⟩ 0 0, .ringDisable ⟨0, 0, 0⟩ 0 0, .ringConfigure ⟨0, 0, 0⟩ 0 0, .restart ⟨0, 0, 0⟩ 0 0, .tail 0 0 0,
  .cmplHead 0 0 0, .nop 0, .copy 0, .fill 0, .atomic 0, .opLaunch 0, .engineTileStart 0, .moverLineResponse 0, .moverRetry 0, .descriptorSignal 0,
  .completionRecord 0, .notificationVector 0, .ringDrainEnd 0, .ctxBind ⟨0, 0, 0⟩ 0 0, .withdrawContext ⟨0, 0, 0⟩ 0, .withdrawFa ⟨0, 0, 0⟩ 0,
  .withdrawalNotice 0 0 false 0 0 0 0 none, .doneNoticeSend 0 0] : List Instr).all Instr.wellFormed = true := by decide
theorem test_wellformed_4 : ([
  .doneNotice 0 0, .withdrawalTimeout 0, .notifyStoreResponse 0, .walkStart 0, .walkEntryRead 0, .walkTimeout 0, .holdExpired 0,
  .atsCompletion 0 0 0 false false false, .prgResponse 0 0 0 0, .slowWaitExpired 0 0, .movingReread 0, .atsInvalidate 0 0 0 0 0, .atsEnableCleared 0,
  .driftEnable ⟨0, 0, 0⟩ false, .driftLandRelease ⟨0, 0, 0⟩ 0, .poolBackptr ⟨0, 0, 0⟩ 0 0, .extActivate ⟨0, 0, 0⟩ 0, .extRelease ⟨0, 0, 0⟩ 0,
  .extentReleased 0, .granuleZeroed 0, .extGrants ⟨0, 0, 0⟩ 0 0, .extRevoke ⟨0, 0, 0⟩ 0 0, .revocationComplete 0 0, .channelTimeout 0,
  .stackFail ⟨0, 0, 0⟩ 0, .rebuildStripe 0, .evacuateGranule 0, .hostLinkUp 0, .hostLinkDown 0, .declareDead ⟨0, 0, 0⟩ 0, .revive ⟨0, 0, 0⟩ 0,
  .clearRid ⟨0, 0, 0⟩ 0 0, .deadScanDone 0, .memRd 0 0 .any, .memWr 0 0 .any 0 (z 64), .rwd 0 0 (z 64), .m2sBirsp 0 0, .biTimeout 0 0,
  .hostMemRead 0 0 0 none 0 0, .hostMemWrite 0 0 none false 0 []] : List Instr).all Instr.wellFormed = true := by decide
theorem test_wellformed_5 : ([
  .hostAtomicop 0 0 0 none 0 .swap 8 [], .hostRetryDeadline 0 0, .hostCompletion 0 0 .abort, .hostCompletionTimeout 0 0, .mailboxGo 0 0 [] 0,
  .lockInterfaceRequest 0, .startInterfaceRequest 0, .stopInterfaceRequest 0, .getDeviceInterfaceReport 0, .getDeviceInterfaceState 0, .ideIntegrityFail 0 0,
  .doeRequest 0 0 (.discovery 0), .ctxActivate ⟨0, 0, 0⟩ 0 false 0 0, .ctxStop ⟨0, 0, 0⟩ 0 0 0, .ctxStateNotice 0 0 0 0 false, .ctxStateAck 0 0,
  .keyGenerate ⟨0, 0, 0⟩ 0 false 0, .keyDestroy ⟨0, 0, 0⟩ 0, .bundleLoad ⟨0, 0, 0⟩ 0, .colData 0 {}, .colSide 0 {}, .colPart 0 {}, .colCtlAbort 0 {},
  .colCtlCredit 0 {}, .runStart 0, .runPeriod 0, .phaseDeadline 0, .resultWriteResponse 0, .opsSlushEntry ⟨0, 0, 0⟩ {}, .mgtMsg 0 {}, .bundleKeyExpiry 0,
  .priReset 0] : List Instr).all Instr.wellFormed = true := by decide

-- The worked frames of chapter 14, and witnesses: the machine, the dictionary and Vane
/-- A device in SLUSH, one in FULL; a frame that comes to its object over clear I3C before any administrator key. -/
def sl : State := { dev := { phase := .slush } }
def fu : State := { dev := { phase := .full } }
theorem reach {s : State} {f : VFrame} (h : (s.vaneOpen 0 f && s.prvView 0 && (s.keptOf 0 f.seq).isNone) = true) : Reaches s 0 f := by
  simp only [Bool.and_eq_true, Option.isNone_iff_eq_none] at h
  exact ⟨h.1.1, rfl, rfl, h.1.2, h.2⟩
theorem put {s : State} {v : VCtx} {obj : Nat × Nat} {p : Bytes} (h0 : v.sess = 0)
    (h : (s.vaneOpen 0 (writeFrame v obj.1 obj.2 p) && s.prvView 0 && (s.keptOf 0 v.seq).isNone) = true) : Write s v obj p := by
  unfold Write
  rw [h0]
  exact reach h

/-- The request and the response of chapter 14's example: REWIDEN of port 64 under the epoch 0x131, answered STALE with the epoch 0x132. -/
theorem test_frame_bytes : VFrame.bytes { op := 2, seq := 0x57, index := 0x2400, sub := 8, epoch := 0x131, len := 1, payload := [3] } =
    [0x21, 0x00, 0x57, 0x00, 0x00, 0x24, 0x08, 0x00, 0x31, 0x01, 0x00, 0x00, 0x00, 0x00, 0x00, 0x00, 0x01, 0x00, 0x00, 0x00, 0x03] := by decide
theorem test_frame_decodes : frameOf [0x21, 0x00, 0x57, 0x00, 0x00, 0x24, 0x08, 0x00, 0x31, 0x01, 0x00, 0x00, 0x00, 0x00, 0x00, 0x00, 0x01, 0x00, 0x00, 0x00, 0x03] =
    { op := 2, seq := 0x57, index := 0x2400, sub := 8, epoch := 0x131, len := 1, payload := [3] } := by decide
theorem test_example_response : ∃ t f, exec (.rewiden ⟨0, 0x57, 0x131⟩ 64) ((fu.modPort 64 (fun p => { p with st := .inService, lanesIn := 15 })).modEpoch (.port 64)
      (fun r => { r with epoch := 0x132, self := true })) = .next t ∧ t.out = [.vane 0 f] ∧
    VFrame.bytes f = [0xA1, 0x00, 0x57, 0x00, 0x00, 0x24, 0x08, 0x08, 0x32, 0x01, 0x00, 0x00, 0x00, 0x00, 0x00, 0x00, 0x00, 0x00, 0x00, 0x00] :=
  ⟨_, _, rfl, rfl, by decide⟩

theorem wit_StepRunsFront : ∃ (c : Instr) (q : List Instr) (s : State), s.pending = c :: q := ⟨.epochStart, [], { pending := [.epochStart] }, rfl⟩
theorem wit_EmptyQueuePassesTime : (∃ s : State, s.pending = [] ∧ s.thm.stage ≠ .trip ∧ s.settled = true ∧ (∀ q ∈ s.hp, ∀ a ∈ q.2.accs, a.kind < 4) ∧ s.hp ≠ [] ∧ s.rt.hold = 0 ∧
      s.rt.slew = 0) ∧ (∃ s : State, s.pending = [] ∧ s.thm.stage = .trip) := ⟨⟨{ sl with hp := [(7, {})] }, by decide⟩, ⟨{ thm := { stage := .trip } }, by decide⟩⟩
theorem wit_StepKeepsMemory : ∃ s t : State, MemSafe s ∧ step s = .next t ∧ s.pending ≠ [] :=
  ⟨{ pending := [.holeZeroed 0], pool := { mem := [⟨5, 1⟩], counters := [(0, { hole := true })] } }, _, rfl, rfl, by decide⟩
theorem wit_StepKeepsConst : ∃ s t : State, ConstSafe s ∧ step s = .next t ∧ s.pending ≠ [] :=
  ⟨{ State.reset with pending := [.coldReset] }, _, ⟨rfl, rfl, rfl, rfl, rfl⟩, rfl, by decide⟩
theorem wit_ExecKeepsQueue : ∃ (c : Instr) (s t : State), exec c s = .next t ∧ s.pending ≠ [] := ⟨.coldReset, { pending := [.epochStart] }, _, rfl, by decide⟩
theorem wit_EveryCommandCompletes : ∃ s : State, s.dev.factoryTest = 0 := ⟨sl, rfl⟩
theorem wit_OtherCommandsKeepMemory : ∃ (c : Instr) (s t : State), mayStore c = false ∧ exec c s = .next t := ⟨.flowStale, sl, _, rfl, rfl⟩
theorem wit_FrameRoundTrip : ∃ f : VFrame, f.ver = 15 ∧ f.op = 7 ∧ f.rsvd = 0 ∧ f.seq = 2 ^ 16 - 1 ∧ f.index = 2 ^ 16 - 1 ∧ f.sub = 2 ^ 8 - 1 ∧ f.abort = 2 ^ 8 - 1 ∧
    f.epoch = 2 ^ 32 - 1 ∧ f.offset = 2 ^ 32 - 1 ∧ f.len = 2 ^ 16 - 1 :=
  ⟨{ ver := 15, op := 7, seq := 2 ^ 16 - 1, index := 2 ^ 16 - 1, sub := 2 ^ 8 - 1, abort := 2 ^ 8 - 1, epoch := 2 ^ 32 - 1, offset := 2 ^ 32 - 1, len := 2 ^ 16 - 1 }, by decide⟩
theorem wit_ReadAndDescribe : (∃ (s : State) (f : VFrame) (r : ObjRow) (k : Nat), Reaches s 0 f ∧ f.op = 1 ∧ malformedReq f (s.frameMax 0) = false ∧
      factoryIndex f.index = false ∧ objAt f.index f.sub = some (r, k) ∧ r.acc ≠ .wo ∧ r.ty.isDomain = false ∧ f.index ≠ 0x9000) ∧
    (∃ (s : State) (f : VFrame) (r : ObjRow) (k : Nat), Reaches s 0 f ∧ f.op = 3 ∧ malformedReq f (s.frameMax 0) = false ∧
      factoryIndex f.index = false ∧ objAt f.index f.sub = some (r, k)) :=
  ⟨⟨sl, { op := 1, index := 0x1000, sub := 5 }, _, _, reach rfl, rfl, rfl, rfl, rfl, by decide, rfl, by decide⟩,
   ⟨sl, { op := 3, index := 0xBFFF - 0xC00, sub := 1 }, _, _, reach rfl, rfl, rfl, rfl, rfl⟩⟩
theorem wit_WriteTakesEffect : ∃ (s w : State) (f : VFrame) (r : ObjRow) (k : Nat), Reaches s 0 f ∧ f.op = 2 ∧ malformedReq f (s.frameMax 0) = false ∧
    factoryIndex f.index = false ∧ objAt f.index f.sub = some (r, k) ∧ r.acc ≠ .const ∧ r.acc ≠ .ro ∧ r.locked (s.countDatagram 0) = false ∧
    r.ty.isDomain = false ∧ f.payload.length = r.ty.len ∧ r.inRange f.payload = true ∧ unitOf f = none ∧ r.write 0 k f.payload (s.countDatagram 0) = .ok w :=
  ⟨sl, _, { op := 2, index := 0x1000, sub := 0x10, len := 4, payload := leBytes 4 10000 }, _, _, reach rfl, rfl, rfl, rfl, rfl, by decide, by decide, rfl, rfl, rfl, rfl, rfl, rfl⟩
set_option maxRecDepth 20000 in
/-- One witness for each way in which a write is bad; 10,001 lies just above the range of DEV.DRAIN_MAX. -/
theorem wit_BadWriteHasNoEffect : (∃ f : VFrame, Reaches sl 0 f ∧ f.op = 2 ∧ malformedReq f (sl.frameMax 0) = false ∧ factoryIndex f.index = false ∧ objAt f.index f.sub = none) ∧
    (∃ (f : VFrame) (r : ObjRow) (k : Nat), Reaches sl 0 f ∧ f.op = 2 ∧ malformedReq f (sl.frameMax 0) = false ∧ objAt f.index f.sub = some (r, k) ∧ r.acc = .const) ∧
    (∃ (f : VFrame) (r : ObjRow) (k : Nat), Reaches sl 0 f ∧ f.op = 2 ∧ malformedReq f (sl.frameMax 0) = false ∧ objAt f.index f.sub = some (r, k) ∧ r.acc = .ro) ∧
    (∃ (f : VFrame) (r : ObjRow) (k : Nat), Reaches sl 0 f ∧ f.op = 2 ∧ malformedReq f (sl.frameMax 0) = false ∧ objAt f.index f.sub = some (r, k) ∧ r.acc = .rw ∧
      r.locked (sl.countDatagram 0) = false ∧ r.ty.isDomain = false ∧ f.payload.length ≠ r.ty.len) ∧
    (∃ (f : VFrame) (r : ObjRow) (k : Nat), Reaches sl 0 f ∧ f.op = 2 ∧ malformedReq f (sl.frameMax 0) = false ∧ objAt f.index f.sub = some (r, k) ∧ r.acc = .rw ∧
      r.locked (sl.countDatagram 0) = false ∧ r.ty.isDomain = false ∧ f.payload.length = r.ty.len ∧ unitOf f = none ∧ r.inRange f.payload = false) ∧
    (∃ f : VFrame, Reaches sl 0 f ∧ f.op = 2 ∧ malformedReq f (sl.frameMax 0) = false ∧ f.index = 0xF000 ∧ sl.dev.factoryTest = 0) ∧
    (∃ f : VFrame, Reaches sl 0 f ∧ f.op = 2 ∧ malformedReq f (sl.frameMax 0) = false ∧ f.index = 0xFFFF ∧ sl.dev.factoryTest = 0) :=
  ⟨⟨{ op := 2, index := 0xEFFF, sub := 1 }, reach rfl, rfl, rfl, rfl, rfl⟩,
   ⟨{ op := 2, index := 0x1000, sub := 1 }, _, _, reach rfl, rfl, rfl, rfl, rfl⟩,
   ⟨{ op := 2, index := 0x1000, sub := 5 }, _, _, reach rfl, rfl, rfl, rfl, rfl⟩,
   ⟨{ op := 2, index := 0x1000, sub := 0x10, len := 3, payload := z 3 }, _, _, reach rfl, rfl, rfl, rfl, rfl, rfl, rfl, by decide⟩,
   ⟨{ op := 2, index := 0x1000, sub := 0x10, len := 4, payload := leBytes 4 10001 }, _, _, reach rfl, rfl, rfl, rfl, rfl, rfl, rfl, rfl, rfl, rfl⟩,
   ⟨{ op := 2, index := 0xF000, sub := 0 }, reach rfl, rfl, rfl, rfl, rfl⟩, ⟨{ op := 2, index := 0xFFFF, sub := 255 }, reach rfl, rfl, rfl, rfl, rfl⟩⟩
/-- Each kind of unit, with a write under an epoch that is not its current one. -/
theorem wit_StaleWriteHasNoEffect : ∃ v : VCtx, (Write sl v EUnit.device.obj (sl.epochBytes .device) ∧ (sl.epochRec .device).epoch ≠ v.epoch) ∧
    (Write sl v (0x7000, 3) (leBytes 8 1) ∧ (sl.epochRec .rackTime).epoch ≠ v.epoch) ∧
    (Write sl v (0x7100, 4) (leBytes 8 1 ++ leBytes 8 1) ∧ (sl.epochRec .bank).epoch ≠ v.epoch) ∧
    (Write sl v (portObj 255, 1) (leBytes 1 (boolNat true)) ∧ (sl.epochRec (.port 255)).epoch ≠ v.epoch) ∧
    (Write sl v (ringCfgObj 65535) (leBytes 32 (4 / 2 * 2 + 1)) ∧ (sl.epochRec (.ring 65535)).epoch ≠ v.epoch) ∧
    (Write sl v ctxCtlObj (ctxCtlBytes 1 65535 true 8 1) ∧ (sl.epochRec (.ctx 65535)).epoch ≠ v.epoch) ∧
    (Write sl v keyCtlObj (keyCtlBytes 1 4095 false 1) ∧ (sl.epochRec (.key 4095)).epoch ≠ v.epoch) ∧
    (Write sl v (extObj 1023 9) (leBytes 1 1) ∧ (sl.epochRec (.ext 1023)).epoch ≠ v.epoch) ∧
    (Write sl v (0x4100 + 23, 4) (leBytes 1 1) ∧ (sl.epochRec (.stack 23)).epoch ≠ v.epoch) ∧
    (Write sl v (hpCtlObj 7) (leBytes 8 1) ∧ (sl.epochRec (.host 7)).epoch ≠ v.epoch) :=
  ⟨⟨0, 1, 2 ^ 32 - 1⟩, ⟨put rfl rfl, by decide⟩, ⟨put rfl rfl, by decide⟩, ⟨put rfl rfl, by decide⟩, ⟨put rfl rfl, by decide⟩, ⟨put rfl rfl, by decide⟩,
   ⟨put rfl rfl, by decide⟩, ⟨put rfl rfl, by decide⟩, ⟨put rfl rfl, by decide⟩, ⟨put rfl rfl, by decide⟩, ⟨put rfl rfl, by decide⟩⟩
theorem wit_EpochRecordWriteSettles : (∃ (v : VCtx) (u : EUnit), Write sl v u.obj (sl.epochBytes u) ∧ (sl.epochRec u).epoch = v.epoch) ∧
    (∃ (f : VFrame) (u : EUnit), u.ok = true ∧ f.index = u.obj.1 ∧ f.sub = u.obj.2 ∧ Reaches sl 0 f ∧ f.op = 2 ∧ malformedReq f (sl.frameMax 0) = false ∧
      (sl.epochRec u).epoch = f.epoch ∧ f.payload.length = 16) ∧
    (∃ (f : VFrame) (u : EUnit), u.ok = true ∧ f.index = u.obj.1 ∧ f.sub = u.obj.2 ∧ Reaches sl 0 f ∧ f.op = 2 ∧ malformedReq f (sl.frameMax 0) = false ∧
      (sl.epochRec u).epoch = f.epoch ∧ f.payload.length = 15) :=
  ⟨⟨⟨0, 1, 0⟩, .port 255, put rfl rfl, rfl⟩,
   ⟨{ op := 2, index := 0xA070, sub := 0xFE, len := 16, payload := z 16 }, .host 7, rfl, rfl, rfl, reach rfl, rfl, rfl, rfl, rfl⟩,
   ⟨{ op := 2, index := 0x1CFF, sub := 0xFF, len := 15, payload := z 15 }, .ring 65535, rfl, rfl, rfl, reach rfl, rfl, rfl, rfl, rfl⟩⟩
theorem wit_SessionRules :
    (∃ (s : State) (f : VFrame) (kp : Kept), s.vaneOpen 0 f = true ∧ s.answers 0 = true ∧ s.rateOk 0 = true ∧ s.prvView 0 = true ∧
      malformedReq f (s.frameMax 0) = false ∧ s.keptOf 0 f.seq = some kp ∧ kp.req = f) ∧
    (∃ (s : State) (f : VFrame) (kp : Kept), s.vaneOpen 0 f = true ∧ s.answers 0 = true ∧ s.rateOk 0 = true ∧ s.prvView 0 = true ∧
      malformedReq f (s.frameMax 0) = false ∧ s.keptOf 0 f.seq = some kp ∧ kp.req ≠ f ∧ objectAbort f (s.countDatagram 0) = none) ∧
    (∃ (s : State) (f : VFrame), s.vaneOpen 1 f = true ∧ s.answers 1 = false) ∧
    (∃ (s : State) (f : VFrame), s.vaneOpen 0 f = true ∧ s.prvView 0 = false ∧ malformedReq f (s.frameMax 0) = false) :=
  ⟨⟨{ sl with vane := { sessions := [(0, { kept := [⟨{ op := 1, index := 0x1000, sub := 5 }, {}⟩] })] } }, { op := 1, index := 0x1000, sub := 5 }, _, rfl, rfl, rfl, rfl, rfl, rfl, rfl⟩,
   ⟨{ sl with vane := { sessions := [(0, { kept := [⟨{ op := 1, index := 0x1000, sub := 5 }, {}⟩] })] } }, { op := 1, index := 0x1000, sub := 6 }, _, rfl, rfl, rfl, rfl, rfl, rfl, by decide, rfl⟩,
   ⟨sl, {}, rfl, rfl⟩, ⟨{ sl with vane := { admin := [(3, 7)] } }, { op := 1, index := 0x1000, sub := 5 }, rfl, rfl, rfl⟩⟩
theorem wit_TransportEvents :
    (∃ (s : State) (x : Transfer) (l : List Transfer), s.vane.transfers = x :: l ∧ x.at_ + s.vane.segTimeout * 1000000 = s.clk) ∧
    (∃ (s : State) (u : EUnit), (s.epochRec u).since ≠ 0 ∧ (s.epochRec u).since + s.vane.settle * 1000000 = s.clk ∧ s.dpState u ≠ s.mgState u ∧ (s.epochRec u).disagree = false) ∧
    (∃ s : State, s.netOpen = true ∧ s.vane.ipv4 ≠ 0 ∧ s.vane.ipv6 ≠ 0) :=
  ⟨⟨{ clk := 1000000005, vane := { transfers := [⟨0, 0x7100, 1, [], 5, false⟩] } }, _, _, rfl, rfl⟩,
   ⟨({ clk := 5000000001 } : State).modEpoch .device (fun r => { r with since := 1, mg := some 9 }), .device, by decide⟩, ⟨{ sl with vane := { ipv4 := 1, ipv6 := 1 } }, by decide⟩⟩
/-- A broker's mutually authenticated session 1, a bundle-key slot 63 used or free, and context 9 ACTIVE or not under its generation 3. -/
def bks (used : Bool) (st : CtxState) : State := { sl with vane := { sessions := [(1, { isOpen := true, established := true, mutAuth := true, leafKey := 7, chan := .udp })] }, sec := { brokers := [(0, 7)], bkeys := [(63, { used := used })], ctxs := [(9, { st := st, kgen := 3 })] } }
def bkRec : Nat := 1 + 63 * 2 ^ 8 + 9 * 2 ^ 16 + 3 * 2 ^ 32
theorem wit_SpdmSessions : (∃ (s : State), s.spdmOpen .udp = true) ∧
    (∃ (s : State) (i : Nat), s.spdmOpen .udp = true ∧ s.sessionOn .udp i = true ∧ (s.session i).established = true) ∧
    (∀ u st, (bks u st).spdmOpen ((bks u st).session 1).chan = true ∧ (bks u st).answers 1 = true ∧ (bks u st).brokerSession 1 = true) ∧
    (field bkRec 0 8 = 1 ∧ field bkRec 8 8 = 63 ∧ field bkRec 36 28 = 0 ∧ ((bks false .active).ctx (field bkRec 16 16)).st = .active ∧
      ((bks false .active).ctx (field bkRec 16 16)).kgen = field bkRec 32 4 ∧ (tget {} (bks false .active).sec.bkeys (field bkRec 8 8)).used = false) ∧
    (tget {} (bks true .active).sec.bkeys (field bkRec 8 8)).used = true ∧
    ((tget {} (bks false .stopping).sec.bkeys (field bkRec 8 8)).used = false ∧ ((bks false .stopping).ctx (field bkRec 16 16)).st ≠ .active) :=
  ⟨⟨sl, rfl⟩, ⟨{ sl with vane := { sessions := [(1, { isOpen := true, established := true, chan := .udp })] } }, 1, rfl, rfl, rfl⟩,
   fun u st => ⟨rfl, rfl, rfl⟩, by decide, by decide, by decide⟩

-- Witnesses: bring-up, resets, power and heat
theorem wit_ColdResetClears : ∃ c : Instr, c = .coldReset ∨ ∃ r, c = .railsOutOfTolerance r := ⟨.railsOutOfTolerance 8, .inr ⟨8, rfl⟩⟩
theorem wit_BootsThroughStrap : (∃ s : State, s.dev.phase = .cold) ∧
    (∃ (s : State) (w : Nat), s.dev.phase = .strap ∧ s.dev.bootStatus = 0 ∧ s.dev.strapsSampled = false ∧ s.dev.phaseSince + 1960000 = s.clk ∧ w = 2 ^ 14 - 1 ∧ s.dev.fwRunning = false) ∧
    (∃ (s : State) (a b : Nat), s.dev.phase = .strap ∧ s.dev.bootStatus = 0 ∧ s.dev.strapsSampled = false ∧ s.dev.phaseSince + 1960000 = s.clk ∧ a % 2 ^ 14 ≠ b % 2 ^ 14) ∧
    (∃ s : State, s.dev.phase = .strap ∧ s.dev.bootStatus = 0 ∧ s.dev.fwRunning = false ∧ s.dev.strapsSampled = false) ∧
    (∃ s : State, s.dev.phase = .strap ∧ s.dev.bootStatus ≠ 0) ∧
    (∃ s : State, s.dev.phase = .strap ∧ s.dev.bootStatus = 0 ∧ s.dev.fwRunning = false ∧ s.dev.strapsSampled = true ∧ s.dev.powerWarned = none) :=
  ⟨⟨{}, rfl⟩, ⟨{ clk := 1960000, dev := { phase := .strap } }, 2 ^ 14 - 1, by decide⟩, ⟨{ clk := 1960000, dev := { phase := .strap } }, 0, 1, by decide⟩,
   ⟨{ dev := { phase := .strap } }, by decide⟩, ⟨{ dev := { phase := .strap, bootStatus := 2 } }, by decide⟩, ⟨{ dev := { phase := .strap, strapsSampled := true } }, by decide⟩⟩
theorem wit_PackageResetEntersSlush : (∃ (s : State) (n : Nat), n = 1000 ∧ s.dev.phase ≠ .cold ∧ s.thm.stage ≠ .trip) ∧
    (∃ (s : State) (v : VCtx), Write s v devCtlObj [2] ∧ s.thm.stage ≠ .trip) := ⟨⟨fu, 1000, by decide⟩, ⟨fu, ⟨0, 1, 0⟩, put rfl rfl, by decide⟩⟩
theorem wit_DrainAndPowerLoss : (∃ (s : State) (v : VCtx), Write s v devCtlObj [1] ∧ s.dev.phase = .tables) ∧ (∃ (s : State) (v : VCtx), Write s v devCtlObj [1] ∧ s.inService = true) ∧
    (∃ (s : State) (v : VCtx), Write s v devCtlObj [1] ∧ s.dev.phase ≠ .tables ∧ s.inService = false) ∧
    (∃ s : State, s.dev.phase = .drain ∧ s.drained = true ∧ s.clk = 100000) ∧ (∃ s : State, s.dev.phase = .drain ∧ s.dev.drainSince + s.dev.drainMax * 1000000 = s.clk) ∧
    (∃ s : State, s.dev.phase = .drain ∧ s.drained = false ∧ s.clk < s.dev.drainSince + s.dev.drainMax * 1000000) ∧
    (∃ (s : State) (n : Nat), n = 2000 ∧ s.dev.phase ≠ .cold ∧ s.dev.phase ≠ .off ∧ s.dev.powerWarned.isSome = true) ∧
    (∃ (s : State) (n m : Nat), n = 2000 ∧ s.dev.powerWarned = none ∧ s.inService = true ∧ (s.ring m).st = .running) ∧
    (∃ (s : State) (x : Nat), s.dev.powerWarned = some x ∧ s.dev.phase = .drain ∧ x + s.dev.offAfter * 1000 = s.clk) ∧
    (∃ (s : State) (x : Nat), s.dev.powerWarned = some x ∧ s.dev.phase = .drain ∧ s.clk + 1 = x + s.dev.offAfter * 1000) :=
  ⟨⟨{ dev := { phase := .tables } }, ⟨0, 1, 0⟩, put rfl rfl, rfl⟩, ⟨fu, ⟨0, 1, 0⟩, put rfl rfl, rfl⟩, ⟨sl, ⟨0, 1, 0⟩, put rfl rfl, by decide⟩,
   ⟨{ clk := 100000, dev := { phase := .drain } }, by decide⟩, ⟨{ clk := 100000000, dev := { phase := .drain } }, by decide⟩, ⟨{ clk := 99999, dev := { phase := .drain } }, by decide⟩,
   ⟨{ dev := { phase := .full, powerWarned := some 3 } }, 2000, by decide⟩, ⟨{ fu with mov := { rings := [(65535, { st := .running })] } }, 2000, 65535, by decide⟩,
   ⟨{ clk := 4000003, dev := { phase := .drain, powerWarned := some 3 } }, 3, by decide⟩, ⟨{ clk := 4000002, dev := { phase := .drain, powerWarned := some 3 } }, 3, by decide⟩⟩
theorem wit_DeviceEvents : (∃ s : State, s.dev.hbmTrained = false ∧ s.dev.phase = .slush ∧ ∀ k, k < 24 → (s.stack k).st = .untrained) ∧
    (∃ s : State, s.dev.hbmTrained = true ∧ s.pool.st = 0 ∧ 2 ≤ s.dev.phase.code ∧ s.dev.phase ≠ .off ∧ s.dev.afterReset = false) ∧
    (∃ (s : State) (q k : Nat) (e : QEntry), (tget [] s.sw.queues q)[k]? = some e ∧ k = 1) ∧ (∃ s : State, s.sw.flood = false) ∧
    (∃ s : State, (s.host 7).st = .active) ∧ (∃ s : State, (s.host 7).st ≠ .active) ∧
    (∃ (s : State) (b : Bool), 2 ≤ s.dev.phase.code ∧ b ≠ s.dev.rolePin) ∧ (∃ s : State, s.snapDue = true) :=
  ⟨⟨sl, by decide⟩, ⟨{ dev := { phase := .slush, hbmTrained := true } }, by decide⟩,
   ⟨{ sl with sw := { queues := [(2553, [{ t := {}, adm := 0, vc := 0, cells := 1, since := 0, hlim := 9 }, { t := {}, adm := 9, vc := 0, cells := 1, since := 0, hlim := 9 }])] } }, 2553, 1, _, rfl, rfl⟩,
   ⟨sl, rfl⟩, ⟨{ sl with hp := [(7, { st := .active })] }, rfl⟩, ⟨sl, by decide⟩, ⟨sl, true, by decide⟩,
   ⟨{ rt := { quality := .locked, now := 2048 }, tbl := { active := { events := [(0, { kind := 1, period := 4, offset := 2 })] } } }, by decide⟩⟩
set_option maxRecDepth 20000 in
theorem wit_ThermalStages : (∃ (v : VCtx), Write sl v (0x9000, 0x12) (leBytes 2 10000)) ∧ (∃ (v : VCtx), Write sl v (0x9000, 0x12) (leBytes 2 10001)) ∧
    (∃ s : State, s.thm.flowStale = false ∧ s.thm.flowAt + 1000000000 = s.clk ∧ s.dev.phase ≠ .cold ∧ s.thm.stage ≠ .trip) ∧
    (∃ (s : State) (d k : List Int), s.dev.phase ≠ .cold ∧ s.thm.stage ≠ .trip ∧ s.thm.tjPrev = none ∧ tjStage (maxInt (tjReadings d k)) = .normal) ∧
    (∃ (s : State) (x : Nat), s.dev.phase ≠ .cold ∧ s.thm.low1000 = some x ∧ x + 2000000000 = s.clk ∧ s.thm.stage.code < 2) ∧
    (∃ (s : State) (x : Nat), s.thm.backSince = some x ∧ x + 10000000000 = s.clk ∧ s.thm.stage = .alert) ∧
    (∃ (s : State) (x : Nat), s.thm.backSince = some x ∧ x + 10000000000 = s.clk ∧ s.thm.stage = .shed) ∧ (∃ (s : State) (tj : Int), tj = 115000 ∧ s.thm.stage ≠ .trip) :=
  ⟨⟨⟨0, 1, 0⟩, put rfl rfl⟩, ⟨⟨0, 1, 0⟩, put rfl rfl⟩, ⟨{ sl with clk := 1000000000 }, by decide⟩, ⟨sl, List.replicate 80 94999, List.replicate 24 84999, by decide⟩,
   ⟨{ sl with clk := 2000000001, thm := { low1000 := some 1 } }, 1, by decide⟩, ⟨{ clk := 10000000001, thm := { backSince := some 1, stage := .alert } }, 1, by decide⟩,
   ⟨{ clk := 10000000001, thm := { backSince := some 1, stage := .shed } }, 1, by decide⟩, ⟨sl, 115000, by decide⟩⟩

-- Witnesses: rack time, images, windows
theorem wit_ReferenceLoss : (∃ s : State, s.rt.quality = .locked ∧ s.rt.source = 0 ∧ s.refSilent = true) ∧ (∃ s : State, s.rt.quality = .locked ∧ s.rt.source ≠ 0) ∧
    (∃ s : State, s.rt.quality = .locked ∧ s.rt.source = 1 ∧ s.refSilent = true) ∧
    (∃ s : State, s.rt.quality = .holdover ∧ s.rt.holdSince + s.holdLimit ≤ s.clk ∧ s.rt.scheduled = false) ∧ (∃ s : State, s.rt.quality ≠ .unset) :=
  ⟨⟨{ clk := 3145779, rt := { quality := .locked, lastPulseAt := some 0 } }, by decide⟩, ⟨{ rt := { quality := .locked, source := 1 } }, by decide⟩,
   ⟨{ clk := 3145779, rt := { quality := .locked, source := 1, lastPulseAt := some 0 } }, by decide⟩,
   ⟨{ clk := 10 ^ 15, rt := { quality := .holdover } }, by decide⟩, ⟨{ rt := { quality := .locked } }, by decide⟩⟩
def ul : State := { sl with rt := { quality := .unlocked } }
def lk : State := { fu with rt := { quality := .locked } }
theorem wit_RackTimeWrites : ∃ v : VCtx, (ul.epochRec .rackTime).epoch = v.epoch ∧ (lk.epochRec .rackTime).epoch = v.epoch ∧ ul.rt.quality = .unlocked ∧ lk.rt.quality = .locked ∧
    Write ul v (0x7000, 3) (leBytes 8 (2 ^ 44 - 1)) ∧ Write ul v (0x7000, 3) (leBytes 8 (2 ^ 44)) ∧ Write ul v (0x7000, 1) (leBytes 1 1) ∧
    Write ul v (0x7000, 2) (leBytes 2 255) ∧ (Write lk v (0x7000, 9) (leBytes 8 1024) ∧ lk.slot + lk.tbl.minLead = 1024) ∧ Write ul v (0x7000, 9) (leBytes 8 1024) :=
  ⟨⟨0, 1, 0⟩, rfl, rfl, rfl, rfl, put rfl rfl, put rfl rfl, put rfl rfl, put rfl rfl, ⟨put rfl rfl, rfl⟩, put rfl rfl⟩
theorem wit_PulsesNeedRefclk : ∃ s : State, s.rt.refclk = false ∧ s.rt.source = 1 := ⟨{ rt := { source := 1 } }, by decide⟩
theorem wit_RackTimeFollows :
    (∃ s : State, s.rt.source = 0 ∧ s.rt.refclk = true ∧ s.rt.quality = .locked ∧ s.pulseOff = -20) ∧
    (∃ s : State, s.rt.source = 0 ∧ s.rt.refclk = true ∧ s.rt.quality = .locked ∧ s.pulseOff = 50 ∧ s.rt.hold = 0) ∧
    (∃ s : State, s.rt.source = 0 ∧ s.rt.refclk = true ∧ s.rt.quality = .locked ∧ s.pulseOff = -21 ∧ s.rt.hold = 0) ∧
    (∃ s : State, s.rt.source = 0 ∧ s.rt.refclk = true ∧ s.rt.quality = .locked ∧ s.pulseOff.natAbs = 51) ∧
    (∃ (s : State) (r : TimeRec), r.rsvd = 0 ∧ r.quality = 4 ∧ s.rt.source = 0 ∧ r.echo ≠ 0 ∧ r.echo = (tget {} s.rt.ports 255).lastTx) ∧
    (∃ (s : State) (r : TimeRec), r.rsvd = 0 ∧ r.quality = 4 ∧ s.rt.source = 0 ∧ r.echo = 0) ∧ (∃ r : TimeRec, r.quality = 5) ∧
    (∃ s : State, s.rt.now % 2 ^ 20 = 0 ∧ s.pool.st = 0 ∧ (s.port 255).st = .linked ∧ (s.port 255).partner.format ≠ 0 ∧ (s.port 255).partner.role ≠ 3) ∧
    (∃ s : State, s.rt.resumeSlot ≠ 0 ∧ s.slot = s.rt.resumeSlot ∧ s.rt.quality = .locked) :=
  ⟨⟨{ rt := { refclk := true, quality := .locked, now := 2 ^ 20 - 20 } }, by decide⟩, ⟨{ rt := { refclk := true, quality := .locked, now := 50 } }, by decide⟩,
   ⟨{ rt := { refclk := true, quality := .locked, now := 2 ^ 20 - 21 } }, by decide⟩, ⟨{ rt := { refclk := true, quality := .locked, now := 51 } }, by decide⟩,
   ⟨{ rt := { ports := [(255, { lastTx := 9 })] } }, { quality := 4, echo := 9 }, by decide⟩, ⟨{}, { quality := 4 }, by decide⟩, ⟨{ quality := 5 }, rfl⟩,
   ⟨{ rt := { now := 2 ^ 20 }, ports := [(255, { st := .linked, partner := { format := 1 } })] }, by decide⟩, ⟨{ rt := { quality := .locked, now := 2048, resumeSlot := 2 } }, by decide⟩⟩
/-- The first segment of an image that a device in SLUSH takes: twelve bytes, IMG_LEN among them. -/
def seg : VFrame := { writeFrame ⟨0, 1, 0⟩ 0x7100 1 (z 12) with offset := 0, last := false }
theorem wit_ImageSegment : Reaches sl 0 seg ∧ (sl.epochRec .bank).epoch = seg.epoch ∧ sl.bankBusy = false := ⟨reach rfl, rfl, rfl⟩
theorem wit_ImageSegment_good : sl.segmentBad 0 seg 4194304 sl.tbl.stdBytes.length = none := by decide
theorem wit_ImageLoads : ∃ s : State, s.tbl.stdState = .checking := ⟨{ tbl := { stdState := .checking } }, rfl⟩
/-- A device whose standby bank holds an image of version 5 in this state, armed for slot `a`, with a switch-over in its history. -/
def bnk (st : BankState) (a : Nat) : State := { lk with tbl := { history := [(0, [])], stdState := st, std := { version := 5 }, armSlot := a } }
theorem wit_ImageSwitches : ∃ v : VCtx, (∀ st a, ((bnk st a).epochRec .bank).epoch = v.epoch) ∧
    (Write (bnk .ready 0) v (0x7100, 4) (leBytes 8 1024 ++ leBytes 8 5) ∧ (bnk .ready 0).slot + (bnk .ready 0).tbl.minLead = 1024 ∧ (bnk .ready 0).assignOk (1024 * 1024) = true) ∧
    Write (bnk .ready 0) v (0x7100, 4) (leBytes 8 1024 ++ leBytes 8 6) ∧
    (Write (bnk .armed 16) v (0x7100, 5) (leBytes 8 5) ∧ (bnk .armed 16).slot + 16 = 16) ∧ Write (bnk .armed 15) v (0x7100, 5) (leBytes 8 5) ∧
    ((bnk .armed 0).tbl.armSlot ≤ (bnk .armed 0).slot ∧ (bnk .armed 0).rt.now % 1024 = 0 ∧ (bnk .armed 0).rt.quality = .locked ∧ (bnk .armed 0).assignOk 0 = true) ∧
    (∃ s : State, s.builtIn = false ∧ s.tbl.stdState = .armed ∧ s.tbl.armSlot = s.slot ∧ s.rt.now % 1024 = 0 ∧ s.rt.quality = .locked ∧ s.assignOk (s.tbl.armSlot * 1024) = true) ∧
    (∃ s : State, s.tbl.stdState = .retiring ∧ s.tbl.retiringSince + s.ageLimit 0 = s.clk ∧ ∀ x ∈ s.ops.insts, x.2.retiring = false) ∧
    (∃ s : State, s.tbl.stdState = .retiring ∧ s.clk < s.tbl.retiringSince + s.ageLimit 0 ∧ ∀ x ∈ s.ops.insts, x.2.retiring = false) :=
  ⟨⟨0, 1, 0⟩, fun _ _ => rfl, ⟨put rfl rfl, by decide⟩, put rfl rfl, ⟨put rfl rfl, by decide⟩, put rfl rfl, by decide,
   ⟨{ bnk .armed 0 with tbl := { (bnk .armed 0).tbl with active := { version := 4 } } }, by decide⟩,
   ⟨{ lk with clk := 2000000, tbl := { stdState := .retiring } }, by decide⟩, ⟨{ lk with clk := 1999999, tbl := { stdState := .retiring } }, by decide⟩⟩
/-- An image whose one event entry has this kind and works on port (or stack count) 1, in force from slot 0; port 1 is in this state. -/
def win (kind : Nat) (p : Port) : State := { lk with tbl := { active := { events := [(0, { kind := kind, period := 4, len := 1, target := 1 })] } }, ports := [(1, p)] }
theorem wit_EventWindows : (∃ e, (win 2 {}).eventNow 0 2 = some e ∧ (win 2 {}).thm.stage = .normal) ∧
    (∃ (s : State) (e : EventEnt), s.eventNow 0 3 = some e ∧ e.target = 1 ∧ s.thm.stage = .normal ∧ (s.port 1).utgeod = false ∧ (s.port 1).test = none ∧ (s.port 1).narrowing = none ∧
      s.leads 1 = true ∧ (s.port 1).st = .linked) ∧
    (∃ (s : State) (e : EventEnt), s.eventNow 0 3 = some e ∧ e.target = 1 ∧ s.thm.stage = .normal ∧ (s.port 1).utgeod = false ∧ (s.port 1).test = none ∧ (s.port 1).narrowing = none ∧
      s.leads 1 = true ∧ (s.port 1).st = .inService ∧ (bitsOf 4 ((s.port 1).lanesIn ||| (s.port 1).lanesOut)).find? (s.laneDue 1) = some 3 ∧ (s.port 1).lanesOut.testBit 3 = true) ∧
    (∃ (s : State) (e : EventEnt), s.eventNow 0 3 = some e ∧ e.target = 1 ∧ s.thm.stage = .normal ∧ (s.port 1).utgeod = false ∧ (s.port 1).test = none ∧ (s.port 1).narrowing = none ∧ s.leads 1 = false) ∧
    (∃ e, (win 4 {}).eventNow 0 4 = some e ∧ (win 4 {}).thm.stage = .normal ∧ e.target = 1 ∧ ((win 4 {}).stack 0).st ≠ .online) ∧
    (∃ (s : State) (p l : Nat) (x : Test), (s.port p).test = some x ∧ x.window = true ∧ x.acked = true ∧ x.lanes.testBit l = true ∧ x.ended = false ∧
      (s.port p).st = .inService ∧ s.rt.quality = .locked ∧ tfind x.peers l = none ∧ l = 3) ∧ (∃ s : State, s.thm.stage ≠ .normal) :=
  ⟨⟨_, rfl, rfl⟩, ⟨win 3 { st := .linked, partner := {} }, { kind := 3, period := 4, len := 1, target := 1 }, by decide⟩,
   ⟨{ win 3 { st := .inService, lanesIn := 7, lanesOut := 8, partner := {} } with lanes := [(4, { st := 1, bertPass := some 0 }), (5, { st := 1, bertPass := some 0 }), (6, { st := 1, bertPass := some 0 }), (7, { st := 2 })] },
    { kind := 3, period := 4, len := 1, target := 1 }, by decide⟩,
   ⟨win 3 { partner := { role := 1 } }, { kind := 3, period := 4, len := 1, target := 1 }, by decide⟩, ⟨_, rfl, rfl, rfl, by decide⟩,
   ⟨lk.modPort 255 (fun p => { p with st := .inService, test := some ⟨8, 1, true, true, true, true, 0, false, 0, [], []⟩ }), 255, 3, _, rfl, rfl, rfl, rfl, rfl, rfl, rfl, rfl, rfl⟩,
   ⟨{ thm := { stage := .alert } }, by decide⟩⟩

-- Witnesses: links
def pt (f : Port → Port) : State := lk.modPort 255 (fun p => f { p with partner := {} })
def tr : TrainRec := { rates := 3, target := 1, lanes := 15, echo := 5, nonce := 6 }
theorem wit_PortAndLaneWrites : ∃ v : VCtx,
    (∃ s : State, (s.epochRec (.port 255)).epoch = v.epoch ∧ s.dev.stepGroup = none ∧ Write s v (portObj 255, 1) [1] ∧ (s.port 255).st = .disabled) ∧
    (∃ s : State, (s.epochRec (.port 255)).epoch = v.epoch ∧ s.dev.stepGroup = none ∧ Write s v (portObj 255, 8) [1] ∧ (s.port 255).st = .lock ∧ (s.port 255).test = none ∧ 0 < s.link.trainTries) ∧
    (∃ s : State, (s.epochRec (.port 255)).epoch = v.epoch ∧ s.dev.stepGroup = none ∧ Write s v (portObj 255, 8) [1] ∧ (s.port 255).st = .disabled) ∧
    (∃ s : State, (s.epochRec (.port 255)).epoch = v.epoch ∧ Write s v (portObj 255, 8) [2] ∧ (s.port 255).st = .linked ∧ (s.port 255).utgeod = false ∧ (s.port 255).test = none) ∧
    (∃ s : State, (s.epochRec (.port 255)).epoch = v.epoch ∧ Write s v (portObj 255, 8) [3] ∧ (s.port 255).st = .inService ∧ (s.port 255).lanesOut ≠ 0 ∧ (s.port 255).lanesOut = 15 ∧ ∀ i : Nat, (s.lane (4 * 255 + i)).st ≠ 3) ∧
    (∃ s : State, Write s v (laneObj 1023, 3) [1] ∧ (s.port (1023 / 4)).st = .lock) ∧
    (∃ s : State, Write s v (laneObj 1023, 3) [1] ∧ (s.port (1023 / 4)).st = .inService ∧ (s.lane 1023).st = 1) ∧
    (∃ s : State, Write s v (laneObj 1023, 9) [1] ∧ (s.lane 1023).st ≠ 0) ∧ (∃ s : State, Write s v (laneObj 1023, 9) [2]) :=
  ⟨⟨0, 1, 0⟩, ⟨lk, rfl, rfl, put rfl rfl, rfl⟩, ⟨pt (fun p => { p with st := .lock }), rfl, rfl, put rfl rfl, rfl, rfl, by decide⟩, ⟨lk, rfl, rfl, put rfl rfl, rfl⟩,
   ⟨pt (fun p => { p with st := .linked }), rfl, put rfl rfl, rfl, rfl, rfl⟩, ⟨pt (fun p => { p with st := .inService, lanesOut := 15 }), rfl, put rfl rfl, rfl, by decide, rfl, fun _ h => by cases h⟩,
   ⟨pt (fun p => { p with st := .lock }), put rfl rfl, rfl⟩,
   ⟨(pt (fun p => { p with st := .inService })).modLane 1023 (fun l => { l with st := 1 }), put rfl rfl, rfl, rfl⟩,
   ⟨lk.modLane 1023 (fun l => { l with st := 2 }), put rfl rfl, by decide⟩, ⟨lk, put rfl rfl⟩⟩
theorem wit_TrainingAdvances :
    (∃ (s : State) (p m : Nat), (s.port p).st = .detect ∧ (s.port p).idling = false ∧ m % 16 ≠ 0) ∧
    (∃ (s : State) (l n : Nat), n = 8 ∧ (s.port (l / 4)).st = .lock ∧ (s.port (l / 4)).deskewed = false ∧ (s.port (l / 4)).signalled.testBit (l % 4) = true) ∧
    (∃ (s : State) (p k : Nat), (s.port p).st = .lock ∧ k = 4 ∧ (s.port p).locked ≠ (s.port p).signalled) ∧
    (∃ (s : State) (p : Nat) (r : TrainRec), (s.port p).st = .exchange ∧ r.rsvd = 0 ∧ r.format = 1 ∧ r.role = 0 ∧ r.rates.testBit 0 = true ∧
      trainMismatch (s.port p) r = false ∧ r.echo = (s.port p).sent.nonce ∧ (s.port p).lastTrain = some r ∧ (s.port p).sameTrain = 7 ∧ s.agreed p r ≠ 0) ∧
    (∃ (s : State) (p : Nat), (s.port p).st = .exchange) ∧ (∃ (s : State) (p : Nat), (s.port p).st = .equalise) ∧
    (∃ (s : State) (p : Nat), s.dev.stepGroup = none ∧ (s.port p).st = .verify ∧ (s.port p).eqTries = 0) ∧
    (∃ (s : State) (p : Nat), s.dev.stepGroup = none ∧ (s.port p).st = .equalise ∧ (s.port p).eqTries = 0 ∧ (s.port p).stSince + 40000000 = s.clk) :=
  ⟨⟨pt (fun p => { p with st := .detect }), 255, 15, rfl, rfl, by decide⟩, ⟨pt (fun p => { p with st := .lock, signalled := 8 }), 1023, 8, rfl, rfl, rfl, rfl⟩,
   ⟨pt (fun p => { p with st := .lock, signalled := 15 }), 255, 4, rfl, rfl, by decide⟩,
   ⟨pt (fun p => { p with st := .exchange, locked := 15, maxRate := 1, sent := { rates := 3, nonce := 5 }, sameTrain := 7, lastTrain := some tr }), 255, tr,
    rfl, rfl, rfl, rfl, rfl, rfl, rfl, rfl, rfl, by decide⟩,
   ⟨pt (fun p => { p with st := .exchange }), 255, rfl⟩, ⟨pt (fun p => { p with st := .equalise }), 255, rfl⟩, ⟨pt (fun p => { p with st := .verify }), 255, rfl, rfl, rfl⟩,
   ⟨{ pt (fun p => { p with st := .equalise }) with clk := 40000000 }, 255, rfl, rfl, rfl, rfl⟩⟩
theorem wit_LinkRecords :
    (∃ (s : State) (p : Nat) (f : CapFrame), s.linkUsed p = true ∧ s.capBad p f = true) ∧
    (∃ (s : State) (p : Nat) (f : CapFrame), s.linkUsed p = true ∧ s.capBad p f = false ∧ s.dev.stepGroup = none ∧ (s.port p).lastUid ≠ 0 ∧ (s.port p).lastUid ≠ f.uid) ∧
    (∃ (s : State) (p : Nat) (f : CapFrame), s.linkUsed p = true ∧ (s.port p).utgeod = false ∧ (s.port p).capTxAck = false ∧ (s.port p).capSent = some f ∧
      (s.port p).capSent.map (fun g => { g with cseq := 0, echo := 0 }) = some (s.capContent p)) ∧
    (∃ (s : State) (p : Nat), (s.port p).joinUntil ≠ 0 ∧ (s.port p).joinUntil = s.clk ∧ s.linkUsed p = true ∧ s.dev.stepGroup = none ∧ s.dev.phase ≠ .drain ∧ s.portHasVcs p = true) ∧
    (∃ (s : State) (p : Nat) (f : Frag), s.linkUsed p = true ∧ f.body.length = 48 ∧ f.frag = 1023 ∧ f.last = false ∧ (s.port p).spdmRx = []) ∧
    (∃ (s : State) (p : Nat) (f : Frag), s.linkUsed p = true ∧ f.body.length = 48 ∧ f.frag = 0 ∧ f.last = true ∧ (s.port p).spdmRx = [] ∧ s.leads p = false ∧
      (s.port p).cryptState = 1 ∧ (s.port p).spdmStage = 0 ∧ leAt f.body 1 1 = 0x84 ∧ (s.port p).spdmMseq = 255 ∧ s.dev.stepGroup = none) ∧
    (∃ (s : State) (p m n a : Nat), s.linkUsed p = true ∧ (s.port p).spdmTx = some (m, n, a)) ∧
    (∃ (s : State) (p m n a : Nat), (s.port p).spdmTx = some (m, n, a) ∧ a + 10000 = s.clk ∧ n = 7) ∧
    (∃ (s : State) (p m n a : Nat), (s.port p).spdmTx = some (m, n, a) ∧ a + 10000 = s.clk ∧ n = 8 ∧ s.dev.stepGroup = none) :=
  ⟨⟨pt (fun p => { p with st := .linked }), 255, { kind := 7 }, rfl, rfl⟩,
   ⟨pt (fun p => { p with st := .linked, lastUid := 8 }), 255, { status := 1, uid := 9, cseq := 1, memBytes := 2 ^ 20, engines := 1, atblEntries := 256 }, rfl, rfl, rfl, by decide⟩,
   ⟨pt (fun p => { p with st := .linked, capSent := some (lk.capContent 255) }), 255, _, rfl, rfl, rfl, rfl, by decide⟩,
   ⟨{ lk.modPort 0 (fun p => { p with st := .linked, joinUntil := 4, partner := {} }) with clk := 4, tbl := { active := { version := 5, nodes := [(0, { kind := 1 })], routes := [(0, { kind := 1 })] } } }, 0, by decide⟩,
   ⟨pt (fun p => { p with st := .linked }), 255, ⟨1, 1023, false, z 48⟩, rfl, rfl, rfl, rfl, rfl⟩,
   ⟨(pt (fun p => { p with st := .linked, cryptState := 1, spdmMseq := 255 })).modPort 255 (fun p => { p with partner := { role := 1 } }), 255, ⟨1, 0, true, 0 :: 0x84 :: z 46⟩,
    rfl, rfl, rfl, rfl, rfl, rfl, rfl, rfl, rfl, rfl, rfl⟩,
   ⟨pt (fun p => { p with st := .linked, spdmTx := some (1, 2, 3) }), 255, _, _, _, rfl, rfl⟩, ⟨{ pt (fun p => { p with spdmTx := some (1, 7, 3) }) with clk := 10003 }, 255, _, _, _, rfl, rfl, rfl⟩,
   ⟨{ pt (fun p => { p with spdmTx := some (1, 8, 3) }) with clk := 10003 }, 255, _, _, _, rfl, rfl, rfl, rfl⟩⟩
def chkFlit (pre : Nat) : Flit := ⟨0, z 56, flitCheck pre 0 (z 56)⟩
theorem chkFlit_passes (pre : Nat) : flitPasses (chkFlit pre) pre = true := beq_self_eq_true _
/-- An IDLE flit with these link-control bytes, whose check holds. -/
def idleFlit (l : Nat) : Flit := ⟨l, z 56, flitCheck 0xFFFF l (z 56)⟩
theorem idleFlit_passes (l : Nat) : flitPasses (idleFlit l) 0xFFFF = true := beq_self_eq_true _
/-- A tag flit for a group of `n` flits, with this tag. -/
def tagFlit (pre tag n : Nat) : Flit := ⟨0, leBytes 16 tag ++ BitVec.ofNat 8 n :: z 39, flitCheck pre 0 (leBytes 16 tag ++ BitVec.ofNat 8 n :: z 39)⟩
theorem tagFlit_passes (pre tag n : Nat) : flitPasses (tagFlit pre tag n) pre = true := beq_self_eq_true _
/-- Port 255 in service, ON, with a group of one flit received. -/
def onPt : State := pt (fun p => { p with st := .inService, cryptState := 2, group := [(0, z 56)] })
def onU : State := (onPt.modPort 255 (fun y => { y with rxSeq := (y.rxSeq + 1) % 2048, nak := false })).lcbIn 255 0
theorem onU_ok : (onU.port 255).cryptState = 2 ∧ (onU.port 255).oldRx = none ∧ (onU.port 255).group = [(0, z 56)] ∧ (onU.port 255).tagFailAt = [] := ⟨rfl, rfl, rfl, rfl⟩
theorem leNat_leBytes : ∀ n v : Nat, leNat (leBytes n v) = v % 256 ^ n
  | 0, v => by simp [leBytes, leNat, Nat.mod_one]
  | n + 1, v => by
    rw [leBytes, leNat, leNat_leBytes n, pow_succ', Nat.mod_mul, BitVec.toNat_ofNat]
theorem leBytes_length : ∀ n v : Nat, (leBytes n v).length = n
  | 0, _ => rfl
  | n + 1, v => by rw [leBytes, List.length_cons, leBytes_length n]
theorem tag_in_body (m n : Nat) (h : m < 2 ^ 128) (hn : n < 256) : leAt (leBytes 16 m ++ BitVec.ofNat 8 n :: z 39) 0 16 = m ∧ leAt (leBytes 16 m ++ BitVec.ofNat 8 n :: z 39) 16 1 = n ∧
    leAt (leBytes 16 m ++ BitVec.ofNat 8 n :: z 39) 17 39 = 0 := by
  have hl := leBytes_length 16 m
  have hv : leNat (leBytes 16 m) = m := by rw [leNat_leBytes]; exact Nat.mod_eq_of_lt h
  generalize leBytes 16 m = b at hl hv
  refine ⟨?_, ?_, ?_⟩
  · rw [leAt, slice, List.drop_zero, List.take_append_of_le_length (by rw [hl]), List.take_of_length_le (by rw [hl]), hl, Nat.sub_self, List.replicate_zero, List.append_nil, hv]
  · rw [leAt, slice, List.drop_append_of_le_length (by rw [hl]), List.drop_of_length_le (by rw [hl])]
    simp [leNat]
    omega
  · rw [leAt, slice, show b ++ BitVec.ofNat 8 n :: z 39 = (b ++ [BitVec.ofNat 8 n]) ++ z 39 by simp,
      List.drop_append_of_le_length (by simp [hl]), List.drop_of_length_le (by simp [hl])]
    decide
theorem wit_FlitsInSequence :
    (∃ (s : State) (p : Nat) (f : Flit), (s.port p).st = .inService ∧ flitPasses f (s.port p).rxSeq = true ∧
      (((s.modPort p (fun y => { y with rxSeq := (y.rxSeq + 1) % 2048, nak := false })).lcbIn p f.lcb).port p).cryptState = 2) ∧
    (∃ (s : State) (p : Nat) (f : Flit), (s.port p).st = .inService ∧ flitPasses f (s.port p).rxSeq = true ∧
      (((s.modPort p (fun y => { y with rxSeq := (y.rxSeq + 1) % 2048, nak := false })).lcbIn p f.lcb).port p).cryptState ≠ 2 ∧
      (takeSlots (slotsOf f.body) { open_ := (((s.modPort p (fun y => { y with rxSeq := (y.rxSeq + 1) % 2048, nak := false })).lcbIn p f.lcb).port p).rxSlots }).framing = false) ∧
    (∃ (s : State) (p : Nat) (f : Flit), (s.port p).st = .inService ∧ flitPasses f (s.port p).rxSeq = false ∧ passesUnder f 2047 ((s.port p).rxSeq + 1) = none ∧ (s.port p).nak = false) ∧
    (∃ (s : State) (p v n : Nat) (f : Flit), (s.port p).st = .inService ∧ flitPasses f 0xFFFF = true ∧ f.lcb = lcbCredit 1 v n ∧ v = 9 ∧ n = 511) ∧
    (∃ (s : State) (p n : Nat) (r : RetryFlit) (l : List RetryFlit) (f : Flit), (s.port p).st = .inService ∧ flitPasses f 0xFFFF = true ∧ f.lcb = lcbAck 1 n false ∧ n = 2047 ∧
      (s.port p).retry = r :: l ∧ r.seq = n) ∧
    ((onPt.port 255).st = .inService ∧ (onPt.port 255).rxSeq = 0 ∧ ∃ f g : Flit, flitPasses f 0 = true ∧ f.lcb = 0 ∧ flitPasses g 0 = true ∧ g.lcb = 0 ∧
      leAt f.body 16 1 = 1 ∧ leAt f.body 17 39 = 0 ∧
      leAt f.body 0 16 = (Config.gcmTag (onU.port 255).rxKey.key ((onU.port 255).rxKey.groupIv (onU.port 255).rxGroupNo) (onU.port 255).group).toNat ∧
      leAt g.body 16 1 = 1 ∧ leAt g.body 17 39 = 0 ∧
      leAt g.body 0 16 ≠ (Config.gcmTag (onU.port 255).rxKey.key ((onU.port 255).rxKey.groupIv (onU.port 255).rxGroupNo) (onU.port 255).group).toNat) ∧
    (∃ (s : State) (p : Nat), (s.port p).st = .inService ∧ (s.port p).nak = true ∧ (s.port p).nakAt + 200 = s.clk) ∧
    (∃ (s : State) (p : Nat), (s.port p).st = .inService ∧ (s.port p).retry ≠ [] ∧ (s.port p).ackAt + 1000 = s.clk) ∧
    (∃ (s : State) (p : Nat) (r : RetryFlit) (l : List RetryFlit), (s.port p).st = .inService ∧ (s.port p).retry = r :: l ∧ r.sentAt + 4000 = s.clk) ∧
    (∃ (s : State) (p c : Nat), (s.port p).st = .inService ∧ c = 9) ∧
    (∃ (s : State) (p : Nat), (s.port p).cryptState = 2 ∧ 2 ^ 40 = (s.port p).txFlits ∧ s.leads p = false) := by
  refine ⟨⟨pt (fun p => { p with st := .inService, rxSeq := 2047, cryptState := 2 }), 255, chkFlit 2047, rfl, chkFlit_passes 2047, rfl⟩,
   ⟨pt (fun p => { p with st := .inService, rxSeq := 2047, cryptState := 1 }), 255, chkFlit 2047, rfl, chkFlit_passes 2047, Nat.succ_ne_zero 0 ∘ (fun h => by cases h), rfl⟩,
   ⟨pt (fun p => { p with st := .inService, rxSeq := 2047 }), 255, ⟨0, z 56, 2 ^ 48⟩, rfl, flitPasses_wide (by decide) _, passesUnder_wide (by decide) _ _, rfl⟩,
   ⟨pt (fun p => { p with st := .inService }), 255, 9, 511, idleFlit (lcbCredit 1 9 511), rfl, idleFlit_passes _, rfl, rfl, rfl⟩,
   ⟨pt (fun p => { p with st := .inService, retry := [⟨2047, false, [], none, 0, 5⟩] }), 255, 2047, _, _, idleFlit (lcbAck 1 2047 false), rfl, idleFlit_passes _, rfl, rfl, rfl, rfl⟩,
   ⟨rfl, rfl, ?_⟩,
   ⟨{ pt (fun p => { p with st := .inService, nak := true, nakAt := 5 }) with clk := 205 }, 255, by decide⟩,
   ⟨{ pt (fun p => { p with st := .inService, ackAt := 5, retry := [⟨0, false, [], none, 0, 5⟩] }) with clk := 1005 }, 255, by decide⟩,
   ⟨{ pt (fun p => { p with st := .inService, ackAt := 5, retry := [⟨0, false, [], none, 0, 5⟩] }) with clk := 4005 }, 255, _, _, rfl, rfl, by decide⟩,
   ⟨pt (fun p => { p with st := .inService }), 255, 9, rfl, rfl⟩, ⟨pt (fun p => { p with cryptState := 2, txFlits := 2 ^ 40, partner := { role := 1 } }), 255, by decide⟩⟩
  generalize (Config.gcmTag (onU.port 255).rxKey.key ((onU.port 255).rxKey.groupIv (onU.port 255).rxGroupNo) (onU.port 255).group) = m
  have h1 := tag_in_body m.toNat 1 m.isLt (by decide)
  have h2 := tag_in_body ((m.toNat + 1) % 2 ^ 128) 1 (Nat.mod_lt _ (by decide)) (by decide)
  refine ⟨tagFlit 0 m.toNat 1, tagFlit 0 ((m.toNat + 1) % 2 ^ 128) 1, tagFlit_passes _ _ _, rfl, tagFlit_passes _ _ _, rfl, h1.2.1, h1.2.2, h1.1, h2.2.1, h2.2.2, ?_⟩
  rw [show (tagFlit 0 ((m.toNat + 1) % 2 ^ 128) 1).body = leBytes 16 ((m.toNat + 1) % 2 ^ 128) ++ BitVec.ofNat 8 1 :: z 39 from rfl, h2.1]
  have := m.isLt
  omega
theorem wit_LaneCare :
    (∃ (s : State) (l : Nat), (s.port (l / 4)).st ≠ .inService) ∧
    (∃ (s : State) (l : Nat), l = 1023 ∧ (s.port (l / 4)).st = .inService ∧ (s.port (l / 4)).lanesIn &&& 2 ^ (l % 4) ≠ 0 ∧ (s.port (l / 4)).narrowing = none ∧ (s.port (l / 4)).test = none ∧
      max 1 (s.port (l / 4)).minWidth = popc 4 ((s.port (l / 4)).lanesIn &&& (15 ^^^ 2 ^ (l % 4)))) ∧
    (∃ (s : State) (l : Nat), l = 1023 ∧ (s.port (l / 4)).st = .inService ∧ (s.port (l / 4)).lanesIn &&& 2 ^ (l % 4) ≠ 0 ∧ (s.port (l / 4)).narrowing = none ∧ (s.port (l / 4)).test = none ∧
      popc 4 ((s.port (l / 4)).lanesIn &&& (15 ^^^ 2 ^ (l % 4))) + 1 = max 1 (s.port (l / 4)).minWidth) ∧
    (∃ (s : State) (l b : Nat), (s.lane l).st = 1 ∧ (s.port (l / 4)).st = .inService ∧ (s.lane l).winSince + 10000000 = s.clk ∧ b = s.link.serAlarm ∧ f32Above b s.link.serAlarm = false ∧
      f32Above b s.link.serLimit = false) ∧
    (∃ (s : State) (p m : Nat), (s.port p).st = .inService ∧ m = 15 ∧ (s.port p).narrowing = none ∧ max 1 (s.port p).minWidth = popc 4 m) ∧
    (∃ (s : State) (p m : Nat), (s.port p).st = .inService ∧ m ≤ 15 ∧ (s.port p).narrowing = none ∧ popc 4 m + 1 = max 1 (s.port p).minWidth) ∧
    (∃ (s : State) (p : Nat) (n : Narrow), (s.port p).narrowing = some n ∧ n.acked = false ∧ n.sentAt + 200 = s.clk) ∧
    (∃ (s : State) (p : Nat) (n : Narrow), (s.port p).narrowing = some n ∧ (s.port p).st = .inService ∧ n.mask = 15 ∧ n.switched = false ∧ n.acked = false) ∧
    (∃ (s : State) (p : Nat) (n : Narrow), (s.port p).narrowing = some n ∧ n.switched = false ∧ n.since + 2000 = s.clk) ∧
    (∃ (s : State) (p : Nat), (s.port p).st = .inService ∧ s.dev.stepGroup = none) ∧ (∃ (s : State) (p : Nat), (s.port p).idling = true ∧ (s.port p).downAt + 100000 = s.clk) :=
  ⟨⟨lk, 1023, by decide⟩, ⟨pt (fun p => { p with st := .inService, minWidth := 3, lanesIn := 15 }), 1023, by decide⟩,
   ⟨pt (fun p => { p with st := .inService, minWidth := 4, lanesIn := 15 }), 1023, by decide⟩,
   ⟨{ (pt (fun p => { p with st := .inService })).modLane 1023 (fun l => { l with st := 1 }) with clk := 10000000 }, 1023, 0x3727C5AC, by decide⟩,
   ⟨pt (fun p => { p with st := .inService, minWidth := 4 }), 255, 15, by decide⟩, ⟨pt (fun p => { p with st := .inService, minWidth := 4 }), 255, 7, by decide⟩,
   ⟨{ pt (fun p => { p with narrowing := some ⟨7, 16, false, false, 0, 5⟩ }) with clk := 205 }, 255, _, rfl, rfl, rfl⟩,
   ⟨pt (fun p => { p with st := .inService, narrowing := some ⟨15, 16, false, false, 0, 5⟩ }), 255, _, rfl, rfl, rfl, rfl, rfl⟩,
   ⟨{ pt (fun p => { p with narrowing := some ⟨7, 16, false, false, 5, 5⟩ }) with clk := 2005 }, 255, _, rfl, rfl, rfl⟩,
   ⟨pt (fun p => { p with st := .inService }), 255, rfl, rfl⟩, ⟨{ pt (fun p => { p with idling := true, downAt := 5 }) with clk := 100005 }, 255, rfl, rfl⟩⟩
def tst (x : Test) (st : PortState) : State := pt (fun p => { p with st := st, test := some x })
theorem wit_DiagMessages :
    (∃ (s : State) (p m : Nat), (s.port p).st = .linked ∧ (s.port p).test = none ∧ 0 < m ∧ m = 15) ∧
    (∃ (s : State) (p : Nat) (x : Test), (s.port p).test = some x ∧ s.diagUsed p = true ∧ x.leader = true ∧ x.sent = true ∧ x.acked = false ∧ x.window = false) ∧
    (∃ (s : State) (p : Nat) (x : Test), (s.port p).test = some x ∧ (s.port p).st ≠ .inService ∧ 0 < s.link.trainTries ∧ x.leader = true ∧ x.sent = true ∧ x.acked = false ∧ x.since + 10000 = s.clk) ∧
    (∃ (s : State) (p : Nat) (x : Test), (s.port p).test = some x ∧ (s.port p).st ≠ .inService ∧ 0 < s.link.trainTries ∧ s.diagUsed p = true ∧ x.ended = false) ∧
    (∃ (s : State) (p l : Nat) (x : Test), (s.port p).test = some x ∧ (s.port p).st = .inService ∧ l = 3 ∧ x.lanes.testBit l = true ∧ tfind x.results l = none) ∧
    (∃ (s : State) (p l : Nat) (x : Test) (a : Nat × Nat), (s.port p).test = some x ∧ (s.port p).st = .inService ∧ l = 3 ∧ x.lanes.testBit l = true ∧ tfind x.results l = some a) ∧
    (∃ (s : State) (p : Nat) (x : Test), s.linkUsed p = true ∧ (s.port p).test = some x ∧ x.ended = true ∧ x.peers = [] ∧ x.lanes = 15) ∧
    (∃ (s : State) (p l : Nat) (x : Test), (s.port p).test = some x ∧ x.ended = true ∧ s.linkUsed p = true ∧ x.lanes.testBit l = true ∧ tfind x.peers l = none ∧
      x.endAt + 1000000 = s.clk ∧ x.lanes &&& (15 ^^^ 2 ^ l) = 0) ∧
    (∃ (s : State) (p : Nat) (x : Test), (s.port p).test = some x ∧ (s.port p).st = .test ∧ x.since + x.dur * 1000 = s.clk ∧ 0 < s.link.trainTries) ∧
    (∃ (s : State) (l a : Nat), (s.lane l).scanning = some a ∧ (s.port (l / 4)).rate = 0) :=
  ⟨⟨pt (fun p => { p with st := .linked }), 255, 15, by decide⟩, ⟨tst ⟨15, 1, true, false, false, true, 0, false, 0, [], []⟩ .linked, 255, _, rfl, rfl, rfl, rfl, rfl, rfl⟩,
   ⟨{ tst ⟨15, 1, true, false, false, true, 5, false, 0, [], []⟩ .linked with clk := 10005 }, 255, _, rfl, by decide, by decide, rfl, rfl, rfl, rfl⟩,
   ⟨tst ⟨15, 1, true, false, true, true, 5, false, 0, [], []⟩ .test, 255, _, rfl, by decide, by decide, rfl, rfl⟩,
   ⟨tst ⟨8, 1, true, true, true, true, 0, false, 0, [], []⟩ .inService, 255, 3, _, rfl, rfl, rfl, rfl, rfl⟩,
   ⟨tst ⟨8, 1, true, true, true, true, 0, true, 0, [(3, (9, 1))], []⟩ .inService, 255, 3, _, _, rfl, rfl, rfl, rfl, rfl⟩,
   ⟨tst ⟨15, 1, true, false, true, true, 0, true, 5, [], []⟩ .linked, 255, _, rfl, rfl, rfl, rfl, rfl⟩,
   ⟨{ tst ⟨8, 1, true, false, true, true, 0, true, 5, [], []⟩ .linked with clk := 1000005 }, 255, 3, _, rfl, rfl, rfl, rfl, rfl, rfl, rfl⟩,
   ⟨{ tst ⟨8, 2, true, false, true, true, 5, false, 0, [], []⟩ .test with clk := 2005 }, 255, _, rfl, rfl, rfl, by decide⟩,
   ⟨lk.modLane 1023 (fun l => { l with scanning := some 3 }), 1023, 3, rfl, rfl⟩⟩

-- Witnesses: the fabric
/-- A LEAF whose image names itself 0xC00, a host port 0x200, and an accelerator 0 at port 0; port 0 is in service. -/
def nd : State := { (lk.modPort 0 (fun p => { p with st := .inService, allow := [0], partner := {} })) with tbl := { active := {
  nodes := [(0xC00, { kind := 2 }), (0x200, { kind := 4 }), (0, { kind := 1 })], routes := [(0xC00, { kind := 2 }), (0x200, { kind := 2, target := 1 }), (0, { kind := 1 })] } } }
def rdT : Txn := { ty := .rd, size := 63, addr := 0xC00 * 2 ^ 41 }
/-- The package with combining off, the context table ready or not, and node 0 gone or not. -/
def hop (ready gone : Bool) (m : List Mark) : State :=
  { nd with xact := { accEnable := false }, sec := { tableReady := ready }, absent := if gone then [0] else [], sw := { marks := m } }
/-- What the hop asks of a request before it looks at its route. -/
def fresh (s : State) (a : Nat) (x : Txn) : Bool := s.canArrive a && !s.malformedAt a x && s.sec.tableReady && !s.retired x && !flowHeld (s.holdsOf a) x && x.akind != 1
theorem wit_TransactionsArrive :
    (∃ (s : State) (a : Nat) (x : Txn), x.ty = .rd ∧ a = 265 ∧ fresh s a x = true ∧ s.absent.contains (x.dest.getD 0xFFF) = false ∧ s.vcAt a 0 < 5 ∧
      s.egress a (x.dest.getD 0xFFF) x.key = some 0 ∧ s.sw.marks = [] ∧ s.sw.repins = [] ∧ s.sw.flood = false ∧ s.xact.accEnable = false) ∧
    (∃ (s : State) (a : Nat) (x : Txn), x.ty = .wr ∧ s.canArrive a = true ∧ s.egress a x.snode (x.fail 9 s.poolNode).key = some 0 ∧ s.malformedAt a x = true) ∧
    (∃ (s : State) (a : Nat) (x : Txn), x.ty = .rd ∧ s.canArrive a = true ∧ s.egress a x.snode (x.fail 10 s.poolNode).key = some 0 ∧ s.malformedAt a x = false ∧ s.sec.tableReady = false) ∧
    (∃ (s : State) (a : Nat) (x : Txn), x.ty = .resync ∧ s.canArrive a = true ∧ s.egress a x.snode (x.fail 7 s.poolNode).key = some 0 ∧ s.malformedAt a x = false ∧ s.sec.tableReady = false ∧
      s.sw.flood = false ∧ s.sw.marks = [] ∧ (routeEnt s.tbl.active x.snode).wmode = false) ∧
    (∃ (s : State) (a : Nat) (x : Txn), x.ty = .rd ∧ s.canArrive a = true ∧ s.egress a x.snode (x.fail 4 s.poolNode).key = some 0 ∧ s.malformedAt a x = false ∧ s.sec.tableReady = true ∧
      s.retired x = true) ∧
    (∃ (s : State) (a : Nat) (x : Txn), x.ty = .rd ∧ fresh s a x = true ∧ s.egress a x.snode (x.fail 2 s.poolNode).key = some 0 ∧ s.absent.contains (x.dest.getD 0xFFF) = true) ∧
    (∃ (s : State) (a : Nat) (x : Txn), x.ty = .rd ∧ fresh s a x = true ∧ s.egress a x.snode (x.fail 7 s.poolNode).key = some 0 ∧ s.absent.contains (x.dest.getD 0xFFF) = false ∧ s.vcAt a 0 < 5 ∧
      (s.egress a (x.dest.getD 0xFFF) x.key).isSome = true ∧ s.sw.flood = false ∧ s.marked x a = true) ∧
    (∃ (s : State) (a : Nat) (x : Txn), x.ty = .rspDone ∧ s.canArrive a = true ∧ s.retired x = false ∧ s.vcAt a 2 < 5 ∧ s.absent.contains x.dnode = false ∧ s.egress a x.dnode x.key = some 0) ∧
    (∃ (s : State) (a : Nat) (x : Txn), x.ty = .rspData ∧ s.canArrive a = true ∧ s.retired x = false ∧ s.vcAt a 2 < 5 ∧ s.absent.contains x.dnode = false ∧ s.egress a x.dnode x.key = some 256) ∧
    (∃ (s : State) (a : Nat) (x : Txn), x.ty = .bisnp ∧ s.canArrive a = true ∧ reqShapeOk x = true ∧ s.vcAt a 1 < 5 ∧ s.absent.contains x.dnode = false ∧ s.egress a x.dnode x.key = some 257) ∧
    (∃ (s : State) (a : Nat) (x : Txn) (o : OutReq) (b : BackInv), s.canArrive a = true ∧ x.dnode = s.poolNode ∧ s.reqs = [(s.poolNode * 1048576 + x.tag, o)] ∧ o.who = .backInv 3 7 ∧
      s.pool.backInvs = [b] ∧ b.line = 3 ∧ b.host = 7 ∧ s.hp = [] ∧ x.status = 0) :=
  ⟨⟨hop true false [], 265, { ty := .rd, size := 63, addr := 0 }, by decide⟩, ⟨hop true false [], 0, { ty := .wr, size := 64 }, by decide⟩,
   ⟨hop false false [], 0, rdT, by decide⟩, ⟨hop false false [], 0, { ty := .resync, addr := 0xC00 * 2 ^ 41 }, by decide⟩,
   ⟨hop true false [], 0, { rdT with kgen := 15 }, by decide⟩, ⟨hop true true [], 265, { ty := .rd, size := 63, addr := 0 }, by decide⟩,
   ⟨hop true false [⟨0, 0, 0, some 0xC00, 0, false⟩], 0, rdT, by decide⟩, ⟨nd, 0, { ty := .rspDone, dnode := 0 }, by decide⟩, ⟨nd, 0, { ty := .rspData, dnode := 0xC00 }, by decide⟩,
   ⟨nd, 0, { ty := .bisnp, dnode := 0x200 }, by decide⟩,
   ⟨{ nd with reqs := [(0xC00 * 1048576 + 7, { t := {}, who := .backInv 3 7, issuedAt := 0, timeout := 1 })], pool := { backInvs := [⟨3, 7, 0, true, false, none, false⟩] } }, 0, { dnode := 0xC00, tag := 7 },
    { t := {}, who := .backInv 3 7, issuedAt := 0, timeout := 1 }, ⟨3, 7, 0, true, false, none, false⟩, by decide⟩⟩
def qe (t : Txn) : QEntry := { t := t, adm := 0, vc := 0, cells := 1, since := 0, hlim := 1000 }
theorem wit_QueuesMove_head :
    (∃ (s : State) (g c : Nat) (e : QEntry) (l : List QEntry), s.queue g c = e :: l ∧ e.ready = false ∧ e.acc = none ∧ g < 256 ∧ s.retired e.t = false ∧ s.tooOld e = false ∧ s.sw.marks = [] ∧ s.sw.repins = []) ∧
    (∃ (s : State) (g c : Nat) (e : QEntry) (l : List QEntry), s.queue g c = e :: l ∧ e.ready = false ∧ e.acc = none ∧ g < 256 ∧ s.retired e.t = false ∧ s.tooOld e = false ∧ e.t.ty = .rd ∧
      s.marked e.t e.adm = true ∧ s.egress e.adm e.t.snode (e.t.fail 7 s.poolNode).key = some 0 ∧ c = 1) ∧
    (∃ (s : State) (g c : Nat) (e : QEntry) (l : List QEntry), s.queue g c = e :: l ∧ e.ready = false ∧ e.acc = none ∧ g < 256 ∧ s.retired e.t = false ∧ s.tooOld e = true ∧ e.t.ty = .rd ∧
      s.egress e.adm e.t.snode (e.t.fail 7 s.poolNode).key = some 0 ∧ c = 0 ∧ s.sw.melted.length = 5) :=
  ⟨⟨nd.setQueue 0 9 [qe rdT], 0, 9, qe rdT, [], by decide⟩, ⟨(hop true false [⟨0, 0, 0, some 0xC00, 0, false⟩]).setQueue 255 1 [qe rdT], 255, 1, qe rdT, [], by decide⟩,
   ⟨{ nd.setQueue 255 0 [qe rdT] with clk := 1001 }, 255, 0, qe rdT, [], by decide⟩⟩
theorem wit_QueuesMove_sweep : ∃ (s : State) (g : Nat) (e f : QEntry), s.sw.queues = [(10 * g, [e, f])] ∧ s.sw.lines = [] ∧ s.tooOld e = true ∧ s.tooOld f = false ∧ e.t.ty = .rd ∧ e.acc = none ∧
    s.egress e.adm e.t.snode (e.t.fail 7 s.poolNode).key = some 0 ∧ s.sw.melted.length = 5 ∧ s.sw.flood = false ∧ s.sw.marks = [] ∧ (routeEnt s.tbl.active e.t.snode).wmode = false :=
  ⟨{ nd with clk := 1001, sw := { queues := [(2550, [qe rdT, { qe rdT with since := 1 }])] } }, 255, qe rdT, { qe rdT with since := 1 }, by decide⟩
theorem wit_QueuesMove_send : ∃ (s : State) (p c : Nat) (e : QEntry) (l : List QEntry), (s.port p).st = .inService ∧ (s.port p).retry.length ≤ 1012 ∧ (s.port p).cryptState ≠ 2 ∧
    (s.port p).utgeod = false ∧ c = 4 ∧ s.queue p c = e :: l ∧ (∀ v, v < 10 → v ≠ c → s.queue p v = []) ∧ e.ready = true ∧ s.tooOld e = false ∧ e.acc = none ∧ s.farun = [] ∧
    e.t.cells = tget 0 (s.port p).txCredit (s.partnerVc c) ∧ e.t.words ≠ [] ∧ e.t.words.length ≤ 7 :=
  ⟨({ nd with sw := { queues := [(4, [{ qe { ty := .mgtMsg } with ready := true }])] } } : State).modPort 0 (fun p => { p with txCredit := [(4, 1)] }), 0, 4, { qe { ty := .mgtMsg } with ready := true }, [],
   by decide, by decide, by decide, by decide, by decide, by decide, by decide, by decide, by decide, by decide, by decide, by decide, by decide, by decide⟩
theorem wit_QueuesMove_repin : (∃ (s : State) (r : Repin), s.sw.repins = [r] ∧ r.until_ = s.clk ∧ r.cause ≠ .switchOver ∧ s.sw.marks = [] ∧ s.sw.flood = false) ∧
    (∃ (s : State) (r : Repin), s.sw.repins = [r] ∧ s.clk + 1 = r.until_) :=
  ⟨⟨{ nd with clk := 8, sw := { repins := [⟨.port 3, 8⟩] } }, _, rfl, rfl, by decide, rfl, rfl⟩, ⟨{ nd with clk := 7, sw := { repins := [⟨.port 3, 8⟩] } }, _, rfl, rfl⟩⟩
/-- An accretion entry of two contributors, from points 0 and 265, with a hold of 40 ns from 5 on. -/
def acE : AccEntry := ⟨[⟨rdT, 0, 0, 1, 0, 0, 0⟩, ⟨{ rdT with snode := 1 }, 0, 0, 1, 0, 0, 0⟩], 5, false, some 40, 255⟩
/-- The package with a second accelerator, node 1, at port 1, in service. -/
def nd2 : State := { nd.modPort 1 (fun p => { p with st := .inService, allow := [1], partner := {} }) with tbl := { active := { nd.tbl.active with
  nodes := (1, { kind := 1 }) :: nd.tbl.active.nodes, routes := (1, { kind := 1, target := 1 }) :: nd.tbl.active.routes } } }
theorem wit_QueuesMove_hold :
    (∃ (s : State) (g h : Nat) (e : QEntry) (a : AccEntry) (l : List QEntry), e.acc = some a ∧ a.hold = some h ∧ a.openedAt + h = s.clk ∧ s.lineQ g = e :: l) ∧
    (∃ (s : State) (g c h : Nat) (e : QEntry) (a : AccEntry) (l : List QEntry), e.acc = some a ∧ a.hold = some h ∧ a.openedAt + h = s.clk ∧ s.queue g c = e :: l ∧ g = 255 ∧ e.ready = false ∧
      s.tooOld e = false ∧ s.retired e.t = false ∧ s.sw.marks = [] ∧ s.sw.repins = []) :=
  ⟨⟨{ nd.setLineQ 255 [{ qe rdT with acc := some acE }] with clk := 45 }, 255, 40, { qe rdT with acc := some acE }, acE, [], by decide⟩,
   ⟨{ nd.setQueue 255 0 [{ qe rdT with acc := some acE }] with clk := 45 }, 255, 0, 40, { qe rdT with acc := some acE }, acE, [], by decide⟩⟩
theorem wit_QueuesMove_accretion : ∃ (s : State) (g : Nat) (o : OutReq) (a : AccEntry) (x y : Contrib), s.ownReq g = some o ∧ o.who = .accretion a ∧ a.contribs = [x, y] ∧
    s.egress x.adm x.t.snode (x.t.fail 7 s.poolNode).key = some 0 ∧ s.egress y.adm y.t.snode (y.t.fail 7 s.poolNode).key = some 1 ∧
    o.issuedAt + s.ageLimit 0 + s.ageLimit 2 = s.clk :=
  ⟨{ nd2 with clk := 4000005, reqs := [(0xC00 * 1048576 + 7, { t := {}, who := .accretion acE, issuedAt := 5, timeout := 1 })] }, 7,
   { t := {}, who := .accretion acE, issuedAt := 5, timeout := 1 }, acE, ⟨rdT, 0, 0, 1, 0, 0, 0⟩, ⟨{ rdT with snode := 1 }, 0, 0, 1, 0, 0, 0⟩, by decide⟩
theorem wit_QueuesMove_writes : ∃ v : VCtx, Write nd v (0x1100, 1) [1] ∧ Write nd v (0x1100, 1) [0] := ⟨⟨0, 1, 0⟩, put rfl rfl, put rfl rfl⟩
/-- The same package with its pool ONLINE and one ACTIVE extent of 12 MiB from offset 0. -/
def po : State := { nd with pool := { st := 1, exts := [(0, { st := .active, len := 12582912, granules := [⟨0, 0, 0⟩] })] }, tbl := { active := { nd.tbl.active with admTab := [(2562, (4, 4))] } } }
def wrT : Txn := { ty := .wr, size := 0, addr := 0xC00 * 2 ^ 41 + 12582911, data := z 8 }
/-- What the statement asks of the head of a line queue, with room for its response. -/
def headOk (s : State) (g : Nat) (e : QEntry) : Bool := e.acc.isNone && e.accepted.isNone && !s.cxlBefore g e.turn && !s.retired e.t && !s.tooOld e && s.sw.marks.isEmpty && s.sw.repins.isEmpty &&
  decide (s.egress 256 e.t.snode (hashKey (e.t.dest.getD s.poolNode) e.t.ctx e.t.flow e.t.snode) = some 0)
/-- What it asks of the request's place: an extent, no hole, no seal. -/
def placeOk (s : State) (e : QEntry) (o : Nat) (y : Ext) : Bool := e.gate.isNone && decide (e.homeTxn.ty = e.t.ty) && decide (e.homeTxn.size = e.t.size) && !inDoorbell e.homeTxn.off &&
  decide (o = s.poolOff e.homeTxn.addr) && decide (extOfOff s o = some (0, y)) && !s.holeFor e.homeTxn o && s.sealOk y e.homeTxn && !y.mac
def ext0 : Ext := { st := .active, len := 12582912, granules := [⟨0, 0, 0⟩] }
/-- A line queue of four requests whose head is a request for the pool; the line is POISONED or not, or a host holds it exclusively. -/
def hm (t : Txn) (po_ : Tab Nat) (d : Tab DirEnt) : State := { po.setLineQ 255 [qe t, qe rdT, qe rdT, qe rdT] with pool := { po.pool with poison := po_, dir := d } }
def atT : Txn := { ty := .atom, size := 0x10, addr := 0xC00 * 2 ^ 41 + 12582904, data := z 8 }
theorem wit_HomePerforms :
    (headOk (hm { ty := .resync } [] []) 255 (qe { ty := .resync }) = true ∧ (hm { ty := .resync } [] []).canReserve 256 2 1 = true) ∧
    (∃ (s : State) (e : QEntry) (r : Status), s.lineQ 255 = [e] ∧ headOk s 255 e = true ∧ s.canReserve 256 2 (rspCells e.t) = true ∧ e.t.ty ≠ .resync ∧ e.gate = some r ∧ 2 ≤ r.code) ∧
    (∃ s : State, s.lineQ 255 = [qe wrT, qe rdT, qe rdT, qe rdT] ∧ headOk s 255 (qe wrT) = true ∧ s.canReserve 256 2 (rspCells wrT) = true ∧ placeOk s (qe wrT) 12582911 ext0 = true ∧
      s.dirOf (12582911 / 64) = none ∧ s.linePoison ext0 12582911 = 0 ∧ Memory.wf s.pool.mem = true ∧ wrT.len = 1) ∧
    (∃ s : State, s.lineQ 255 = [qe rdT, qe rdT, qe rdT, qe rdT] ∧ headOk s 255 (qe rdT) = true ∧ s.canReserve 256 2 (rspCells rdT) = true ∧ placeOk s (qe rdT) 0 ext0 = true ∧
      s.dirOf 0 = none ∧ s.linePoison ext0 0 = 0) ∧
    (∃ s : State, s.lineQ 255 = [qe atT, qe rdT, qe rdT, qe rdT] ∧ headOk s 255 (qe atT) = true ∧ s.canReserve 256 2 (rspCells atT) = true ∧ placeOk s (qe atT) 12582904 ext0 = true ∧
      s.dirOf (12582904 / 64) = none ∧ s.linePoison ext0 12582904 = 0 ∧ Memory.wf s.pool.mem = true ∧ atT.len = 8) ∧
    (∃ s : State, s.lineQ 255 = [qe rdT, qe rdT, qe rdT, qe rdT] ∧ headOk s 255 (qe rdT) = true ∧ s.canReserve 256 2 (rspCells rdT) = true ∧ placeOk s (qe rdT) 0 ext0 = true ∧
      s.dirOf 0 = none ∧ s.linePoison ext0 0 ≠ 0) ∧
    (∃ s : State, s.lineQ 255 = [qe wrT, qe rdT, qe rdT, qe rdT] ∧ headOk s 255 (qe wrT) = true ∧ s.canReserve 256 2 (rspCells wrT) = true ∧ placeOk s (qe wrT) 12582911 ext0 = true ∧
      s.dirOf (12582911 / 64) = none ∧ s.linePoison ext0 12582911 ≠ 0 ∧ wholeLine wrT = false) ∧
    (∃ (s : State) (d : DirEnt), s.lineQ 255 = [qe rdT, qe rdT, qe rdT, qe rdT] ∧ headOk s 255 (qe rdT) = true ∧ s.canReserve 256 2 (rspCells rdT) = true ∧ placeOk s (qe rdT) 0 ext0 = true ∧
      s.dirOf 0 = some d ∧ d.excl = true ∧ d.owner = 7 ∧ (s.host 7).st ≠ .dead ∧ s.linePoison ext0 0 = 0) ∧
    (∃ (s : State) (e : QEntry), s.lineQ 255 = [e] ∧ headOk s 255 e = true ∧ s.canReserve 256 2 (rspCells e.t) = false ∧ e.t.ty ≠ .resync ∧
      s.egress e.adm e.t.snode (e.t.fail 10 s.poolNode).key = some 0) := by
  refine ⟨by decide, ⟨po.setLineQ 255 [{ qe rdT with gate := some .ctxDenied }], { qe rdT with gate := some .ctxDenied }, .ctxDenied, by decide⟩, ⟨hm wrT [] [], ?_⟩, ⟨hm rdT [] [], ?_⟩,
   ⟨hm atT [] [], ?_⟩, ⟨hm rdT [(0, 1)] [], ?_⟩, ⟨hm wrT [(12582911 / 64, 1)] [], ?_⟩, ⟨hm rdT [] [(0, ⟨true, [], 7, 0⟩)], ⟨true, [], 7, 0⟩, ?_⟩, ⟨nd.setLineQ 255 [qe rdT], qe rdT, by decide⟩⟩ <;>
  decide
def fa1 : Farun := { ports := [3], gives := [(3, 5)] }
/-- The Farun end-point 5 of engine 0, behind port 3, with one more request outstanding or none. -/
def fr (f : Farun) (q : Tab OutReq) : State := { nd with farun := [(5, f)], reqs := q }
def out5 (who : Purpose) (r : Option Txn) : Tab OutReq := [(5 * 1048576 + 7, { t := { tag := 7 }, who := who, issuedAt := 5, timeout := 1, resp := r })]
theorem wit_RequestersMatch :
    (∃ (s : State) (r : Txn) (l : List Txn), s.xact.inbox = r :: l ∧ tfind s.reqs (r.dnode * 1048576 + r.tag) = none ∧ s.isFarun r.dnode = false) ∧
    (∃ (s : State) (r : Txn) (l : List Txn) (o : OutReq), s.xact.inbox = r :: l ∧ tfind s.reqs (r.dnode * 1048576 + r.tag) = some o ∧ o.resp ≠ none ∧ s.isFarun r.dnode = false) ∧
    (∃ (s : State) (n g i : Nat) (o : OutReq), tfind s.reqs (n * 1048576 + g) = some o ∧ o.resp = none ∧ o.waitUntil = none ∧ o.issuedAt + o.timeout = s.clk ∧ o.who = .farun i ∧ g < 1048576 ∧
      o.t.tag = g ∧ s.isFarun n = true ∧ s.settled = true ∧ (s.farunOf n).releases = []) ∧
    (∃ (s : State) (n e c k d p : Nat), (s.farunOf n).broken.contains (c, k, d) = true ∧ d = 4095 ∧ e < (s.farunOf n).engines ∧ (s.farunOf n).fencing.contains e = false ∧
      (s.farunOf n).acquiring.contains e = false ∧ s.reqs = [] ∧ (s.farunOf n).absent.contains d = false ∧ (s.farunOf n).releases = [] ∧
      s.farunPort n (s.farunPorts n (some d)) { resyncTxn c k d with kgen := (s.ctx c).kgen } (some d) = some p) ∧
    (∃ (s : State) (n i : Nat), s.isFarun n = true ∧ i < (s.farunOf n).engines ∧ (s.farunOf n).releases = [] ∧ s.farunOutstanding n i = false ∧ (s.farunOf n).failedW.contains i = false ∧
      (s.farunOf n).unsync = []) ∧
    (∃ (s : State) (n i : Nat), s.isFarun n = true ∧ i < (s.farunOf n).engines ∧ (s.farunOf n).releases = [] ∧ s.farunOutstanding n i = false ∧ (s.farunOf n).failedW.contains i = true) ∧
    (∃ (s : State) (n i : Nat), s.isFarun n = true ∧ i < (s.farunOf n).engines ∧ (s.farunOf n).releases = [] ∧ s.farunOutstanding n i = true) ∧
    (∃ (s : State) (n i p d : Nat) (x : Txn), s.isFarun n = true ∧ s.farunNode n = n ∧ x.ty = .rd ∧ x.akind = 0 ∧ i < (s.farunOf n).engines ∧ (s.farunOf n).fencing = [] ∧ (s.farunOf n).acquiring = [] ∧
      (s.farunOf n).releases = [] ∧ s.farunWaits n { ownFa n x with snode := n } = false ∧ s.farunDest n { ownFa n x with snode := n } = some d ∧ d ≠ n ∧ (s.farunOf n).absent.contains d = false ∧
      s.farunPort n (s.farunPorts n (some d)) { ownFa n x with snode := n } (some d) = some p) :=
  ⟨⟨{ nd with xact := { inbox := [{ dnode := 5, tag := 1048575 }] } }, _, _, rfl, rfl, rfl⟩,
   ⟨{ nd with xact := { inbox := [{ dnode := 5, tag := 7 }] }, reqs := out5 (.farun 0) (some {}) }, _, _, _, rfl, rfl, by decide, rfl⟩,
   ⟨{ fr fa1 (out5 (.farun 0) none) with clk := 6 }, 5, 7, 0, { t := { tag := 7 }, who := .farun 0, issuedAt := 5, timeout := 1 }, by decide⟩,
   ⟨fr { fa1 with broken := [(1, 2, 4095)], pools := [(3, [4095])] } [], 5, 0, 1, 2, 4095, 3, by decide⟩, ⟨fr fa1 [], 5, 0, by decide⟩, ⟨fr { fa1 with failedW := [0] } [], 5, 0, by decide⟩,
   ⟨fr fa1 (out5 (.farun 0) none), 5, 0, by decide⟩, ⟨fr fa1 [], 5, 0, 3, 9, { ty := .rd, addr := 9 * 2 ^ 41 }, by decide⟩⟩
theorem wit_NoticesArrive :
    (∃ (s : State) (a : Nat) (x : Txn), s.canArrive a = true ∧ x.dnode = s.poolNode ∧ x.rsvd = 0 ∧ s.ownNodes.contains x.lnode = false ∧ tget 0 s.noticeSlot x.lnode = x.slot ∧ x.mkind = 4 ∧
      s.ops.insts = [] ∧ s.pool.landed = [] ∧ s.xl.wds = [] ∧ s.sec.changes = [] ∧ s.nodePkg x.lnode = some 1) ∧
    (∃ (s : State) (a : Nat) (x : Txn), s.canArrive a = true ∧ x.dnode = s.poolNode ∧ x.rsvd = 0 ∧ s.ownNodes.contains x.lnode = false ∧ tget 0 s.noticeSlot x.lnode = x.slot ∧ x.mkind = 8 ∧
      s.nodePkg x.lnode = some 1 ∧ s.nodePkg x.snode = some 1) ∧
    (∃ (s : State) (a : Nat) (x : Txn), s.canArrive a = true ∧ x.dnode = s.poolNode ∧ x.rsvd = 0 ∧ s.ownNodes.contains x.lnode = false ∧ tget 0 s.noticeSlot x.lnode = x.slot ∧ x.mkind = 8 ∧
      s.nodePkg x.lnode = some 1 ∧ s.nodePkg x.snode ≠ some 1) ∧
    (∃ (s : State) (a : Nat) (x : Txn), s.canArrive a = true ∧ x.dnode = s.poolNode ∧ x.rsvd = 0 ∧ x.mkind ≤ 4 ∧ x.slot + 1 = tget 0 s.noticeSlot x.lnode) ∧
    (∃ (s : State) (a : Nat) (x : Txn), s.canArrive a = true ∧ x.dnode = s.poolNode ∧ x.rsvd = 1) ∧
    (∃ (s : State) (a : Nat) (x : Txn), s.canArrive a = true ∧ x.dnode = s.poolNode ∧ x.mkind = 5) ∧
    (∃ (s : State) (a : Nat) (x : Txn), s.canArrive a = true ∧ x.dnode = s.poolNode ∧ x.mkind = 13) ∧
    (∃ (s : State) (a : Nat) (x : Txn), s.canArrive a = true ∧ x.dnode = s.poolNode ∧ x.rsvd = 0 ∧ x.mkind = 5 ∧ field x.mword 0 16 = 65535) ∧
    (∃ (s : State) (a : Nat) (x : Txn), s.canArrive a = true ∧ x.dnode = s.poolNode ∧ x.rsvd = 0 ∧ x.mkind = 6 ∧ s.sec.tableWait = [x.snode]) ∧
    (∃ (s : State) (a n : Nat) (x : Txn), s.canArrive a = true ∧ x.dnode = s.poolNode ∧ x.rsvd = 0 ∧ x.mkind = 6 ∧ s.sec.tableWait = [x.snode, n] ∧ n ≠ x.snode) :=
  ⟨⟨{ nd with tbl := { active := { nd.tbl.active with nodes := (9, { kind := 2, pkg := 1 }) :: nd.tbl.active.nodes } } }, 0, { dnode := 0xC00, lnode := 9, mkind := 4 }, by decide⟩,
   ⟨{ nd with tbl := { active := { nd.tbl.active with nodes := (9, { kind := 2, pkg := 1 }) :: nd.tbl.active.nodes } } }, 0, { dnode := 0xC00, snode := 9, lnode := 9, mkind := 8 }, by decide⟩, ⟨{ nd with tbl := { active := { nd.tbl.active with nodes := (9, { kind := 2, pkg := 1 }) :: nd.tbl.active.nodes } } }, 0, { dnode := 0xC00, snode := 8, lnode := 9, mkind := 8 }, by decide⟩, ⟨{ nd with noticeSlot := [(9, 4)] }, 0, { dnode := 0xC00, lnode := 9, mkind := 4, slot := 3 }, by decide⟩,
   ⟨nd, 0, { dnode := 0xC00, rsvd := 1 }, by decide⟩, ⟨nd, 0, { dnode := 0xC00, mkind := 5 }, by decide⟩, ⟨nd, 0, { dnode := 0xC00, mkind := 13 }, by decide⟩,
   ⟨nd, 0, { dnode := 0xC00, mkind := 5, mword := 65535 }, by decide⟩, ⟨{ nd with sec := { tableReady := false, tableWait := [0xC01] } }, 0, { dnode := 0xC00, snode := 0xC01, mkind := 6 }, by decide⟩,
   ⟨{ nd with sec := { tableReady := false, tableWait := [0xC01, 0xC02] } }, 0, 0xC02, { dnode := 0xC00, snode := 0xC01, mkind := 6 }, by decide⟩⟩

-- Witnesses: rings, movers and translation
/-- A word of RING.CFG: depth 2^8, weight 1, no notification; ENABLE and a reserved field by argument. -/
def rcfg (en rsv : Nat) : Nat := en + 2 * rsv + 8 * 2 ^ 8 + 2 ^ 24 + 0xFFFF * 2 ^ 48
def rg (f : Ring → Ring) : State := nd.modRing 65535 f
theorem wit_RingConfiguration : ∃ v : VCtx, (∀ f, ((rg f).epochRec (.ring 65535)).epoch = v.epoch) ∧ (nd.epochRec (.ring 65535)).epoch = v.epoch ∧
    (nd.inService = true ∧ Write nd v (ringCfgObj 65535) (leBytes 32 (rcfg 0 0 / 2 * 2 + 1)) ∧ ringRangeOk (ringCfgOf (rcfg 0 0 / 2 * 2 + 1)) = true ∧
      (ringCfgOf (rcfg 0 0 / 2 * 2 + 1)).rsvd = 0 ∧ (nd.ring 65535).st = .disabled ∧ nd.ringCfgOk 65535 (ringCfgOf (rcfg 0 0 / 2 * 2 + 1)) = true) ∧
    (Write nd v (ringCfgObj 65535) (leBytes 32 (rcfg 0 127 / 2 * 2 + 1)) ∧ ringRangeOk (ringCfgOf (rcfg 0 127 / 2 * 2 + 1)) = true ∧ (ringCfgOf (rcfg 0 127 / 2 * 2 + 1)).rsvd ≠ 0) ∧
    (∃ f, Write (rg f) v (ringCfgObj 65535) (leBytes 32 (rcfg 1 0 / 2 * 2)) ∧ ringRangeOk (ringCfgOf (rcfg 1 0 / 2 * 2)) = true ∧
      (ringCfgOf (rcfg 1 0 / 2 * 2)).rsvd = 0 ∧ ((rg f).ring 65535).st = .running ∧ ringCfgOf (rcfg 1 0 / 2 * 2) = { ((rg f).ring 65535).cfg with enable := false }) ∧
    (Write nd v (ringCfgObj 65535) (leBytes 32 (rcfg 0 0 / 2 * 2)) ∧ ringRangeOk (ringCfgOf (rcfg 0 0 / 2 * 2)) = true ∧ (ringCfgOf (rcfg 0 0 / 2 * 2)).rsvd = 0 ∧
      nd.ringCfgOk 65535 (ringCfgOf (rcfg 0 0 / 2 * 2)) = true) ∧
    (∃ (f : Ring → Ring) (x : Nat), x = 2 ^ 32 - 1 ∧ Write (rg f) v (ringCtlObj 65535) (leBytes 8 (1 + 2 ^ 32 * x)) ∧ ((rg f).ring 65535).st = .halted ∧
      idxSub ((rg f).ring 65535).tail x = ((rg f).ring 65535).depth ∧ idxSub x ((rg f).ring 65535).cmplHead = ((rg f).ring 65535).depth ∧ (rg f).absent = []) ∧
    (Write nd v (ringCtlObj 65535) (leBytes 8 (1 + 2 ^ 32 * (2 ^ 32 - 1))) ∧ (nd.ring 65535).st ≠ .halted) ∧
    (∃ (s : State) (x : Nat), (s.ring 65535).st = .running ∧ (s.ctx (s.ring 65535).cfg.ctx).st = .active ∧ x < 2 ^ 32 ∧ idxSub x (s.ring 65535).head = (s.ring 65535).depth) ∧
    (∃ (s : State) (x : Nat), (s.ring 65535).st = .running ∧ (s.ctx (s.ring 65535).cfg.ctx).st = .active ∧ x < 2 ^ 32 ∧ idxSub (s.ring 65535).cmplTail x = (s.ring 65535).depth) :=
  ⟨⟨0, 1, 0⟩, fun _ => rfl, rfl, ⟨rfl, put rfl rfl, by decide⟩, ⟨put rfl rfl, by decide⟩,
   ⟨fun r => { r with st := .running, cfg := { enable := true, level := 0 } }, put rfl rfl, by decide⟩, ⟨put rfl rfl, by decide⟩,
   ⟨fun r => { r with st := .halted, tail := 255, cmplHead := 2 ^ 32 - 257 }, 2 ^ 32 - 1, rfl, put rfl rfl, by decide⟩, ⟨put rfl rfl, by decide⟩,
   ⟨{ rg (fun r => { r with st := .running, head := 2 ^ 32 - 1 }) with sec := { ctxs := [(0, { st := .active })] } }, 255, by decide⟩,
   ⟨{ rg (fun r => { r with st := .running, cmplTail := 255 }) with sec := { ctxs := [(0, { st := .active })] } }, 2 ^ 32 - 1, by decide⟩⟩
/-- A RUNNING ring with one descriptor. -/
def wk (w : Work) : State := rg (fun r => { r with st := .running, work := [w] })
/-- Bytes of an OP_LAUNCH of one run of instance 0. -/
def launch1 : Work := { idx := 3, d := { opcode := 0x10, oparg := 65536 } }
/-- What an OP_LAUNCH needs of its words and the instance's entry. -/
def launchOk (s : State) (w : Work) (en : OpsEntry) : Bool := decide (field w.d.oparg 0 12 = 0) && decide (field w.d.oparg 12 4 = 0) && decide (field w.d.oparg 72 24 = 0) &&
  decide (field w.d.oparg 128 128 = 0) && decide (field w.d.oparg 16 16 ≠ 0) && decide (opsEntryAt s.opsActive 0 = en) && decide (en.opkind ≠ 0) && decide (en.opkind < 9) &&
  decide ((s.ring 65535).cfg.ctx = en.ctx) && s.ops.enable && s.dev.phase != .drain && decide ((s.inst 0).st = .idle)
/-- A descriptor that has yet to take its snapshot, and may. -/
def unsnapped (s : State) (w : Work) : Bool := decide ((s.ring 65535).work = [w]) && w.status.isNone && !w.snapped && w.fails.isEmpty && !s.acquiring 65535 && (s.opFault 65535 w 0).isNone
theorem wit_DescriptorsBegin :
    (∃ (s : State) (w : Work) (u : State), s.picked 65535 0 = some (w, u) ∧ w.d.signal = false) ∧ (∃ (s : State) (w : Work) (u : State), s.picked 65535 0 = some (w, u) ∧ w.d.signal = true) ∧
    (∃ (w : Work) (a b : MTrans), unsnapped (wk w) w = true ∧ (wk w).operands 65535 w 0 = (some a, some b) ∧ w.d.opcode = 1) ∧
    (∃ (w : Work) (a b : MTrans), unsnapped (wk w) w = true ∧ (wk w).operands 65535 w 0 = (some a, some b) ∧ w.d.opcode = 2 ∧ w.next ≠ w.d.len) ∧
    (∃ (w : Work) (a b : MTrans), unsnapped (wk w) w = true ∧ (wk w).operands 65535 w 0 = (some a, some b) ∧ w.d.opcode = 3) ∧
    (∃ (w : Work) (b : MTrans), unsnapped (wk w) w = true ∧ (wk w).operand 65535 ((wk w).ring 65535).cfg.ctx w.d.dstKind w.d.dst 1 = some b ∧ w.d.opcode = 2 ∧ w.d.len = 0 ∧ w.next = 0 ∧ w.tiles = [] ∧
      w.d.signal = false) ∧
    (∃ (s : State) (w : Work) (u : State), (s.ring 65535).work.find? (fun w => w.d.opcode == 3 && w.status.isNone && !w.snapped) = none ∧ s.picked 65535 3 = some (w, u) ∧ w.snapOk = true) ∧
    (∃ (s : State) (w : Work) (u : State), s.picked 65535 0x10 = some (w, u) ∧ field w.d.oparg 16 16 = 0) ∧
    (∃ (s : State) (w : Work) (u : State), s.picked 65535 0x10 = some (w, u) ∧ launchOk s w { opkind := 8 } = true ∧ s.opsActive.version = 0 ∧ s.absent = []) ∧
    (∃ (s : State) (w : Work) (u : State) (b : Nat), s.picked 65535 0x10 = some (w, u) ∧ launchOk s w { opkind := 8 } = true ∧ s.opsActive.version ≠ 0 ∧
      s.runStartSlot s.opsActive 0 (field w.d.oparg 32 40) = some b) :=
  ⟨⟨wk { idx := 3, d := {} }, { idx := 3, d := {} }, _, rfl, rfl⟩, ⟨wk { idx := 3, d := { signal := true } }, { idx := 3, d := { signal := true } }, _, rfl, rfl⟩,
   ⟨{ idx := 3, d := { opcode := 1, len := 9 } }, { fa := 0 }, { fa := 0 }, by decide⟩, ⟨{ idx := 3, d := { opcode := 2, len := 9 } }, { fa := 0 }, { fa := 0 }, by decide⟩,
   ⟨{ idx := 3, d := { opcode := 3, len := 8 } }, { fa := 0 }, { fa := 0 }, by decide⟩, ⟨{ idx := 3, d := { opcode := 2 } }, { fa := 0 }, by decide⟩,
   ⟨wk { idx := 3, d := { opcode := 3, len := 8 }, snapped := true, snapOk := true }, { idx := 3, d := { opcode := 3, len := 8 }, snapped := true, snapOk := true }, _, rfl, rfl, rfl⟩,
   ⟨wk { idx := 3, d := { opcode := 0x10 } }, { idx := 3, d := { opcode := 0x10 } }, _, rfl, by decide⟩,
   ⟨{ wk launch1 with ops := { slushEntry := { opkind := 8 } } }, launch1, _, rfl, by decide⟩,
   ⟨{ wk launch1 with tbl := { active := { nd.tbl.active with version := 5, ops := [(0, { opkind := 8 })], timing := [(0, (8, 3))] } } }, launch1, _, 3, rfl, by decide⟩⟩
def cp : Work := { idx := 3, d := { opcode := 1, len := 4096 }, snapped := true, snapOk := true }
def mq (who : Purpose) (r : Option Txn) (w : Option Nat) : OutReq := { t := {}, who := who, issuedAt := 5, timeout := 1, resp := r, waitUntil := w }
theorem wit_DescriptorsEnd_tile : ∃ (s : State) (w : Work) (u : State) (a b : MTrans), s.pick 255 = some (65535, w, u) ∧ w.smallReady = false ∧ w.tiles.find? (fun t => t.cut) = none ∧
    s.tileXlate 65535 w w.next = some (a, b) ∧ w.fails = [] := ⟨wk cp, cp, _, { fa := 0 }, { fa := 0 }, rfl, by decide⟩
theorem wit_DescriptorsEnd :
    (∃ (s : State) (g n i : Nat) (o : OutReq) (r : Txn), s.ownReq g = some o ∧ o.resp = some r ∧ o.who = .signal n i ∧ r.status = 0 ∧ (s.ring n).resuming = false) ∧
    (∃ (s : State) (g x n : Nat) (o : OutReq), s.ownReq g = some o ∧ o.waitUntil = some x ∧ x = s.clk ∧ o.who = .moverRead n 3 0 0 64 ∧ s.staleLine o.who = false ∧ s.acquiring n = false) ∧
    (∃ (s : State) (g x n : Nat) (o : OutReq), s.ownReq g = some o ∧ o.waitUntil = some x ∧ x = s.clk ∧ o.who = .moverWrite n 3 0 0 64 ∧ s.staleLine o.who = false ∧ s.acquiring n = false) ∧
    (∀ add : Bool, ∃ (s : State) (n a b : Nat) (w : Work), (s.ring n).st = .running ∧ (s.ring n).work = [w] ∧ w.d.signal = true ∧ w.sig = 0 ∧ w.dataDone = true ∧ s.ringOut n = false ∧
      w.snapBad = none ∧ w.d.sigAdd = add ∧ s.operand n (s.ring n).cfg.ctx w.d.dstKind w.d.sigAddr (if w.d.sigAdd then 2 else 1) = some { fa := a, pg := b }) ∧
    (∃ (s : State) (n : Nat) (w : Work) (st : Status), (s.ring n).st = .running ∧ s.recording n = false ∧ s.acquiring n = false ∧ (s.ring n).nextRecord = some w ∧ w.status = some st ∧
      idxSub w.idx (s.ring n).cmplHead + 1 = (s.ring n).depth) ∧
    (∃ (s : State) (n i : Nat) (l : List Nat), (s.ring n).notifies = i :: l) ∧
    (∃ (s : State) (n : Nat), (s.ring n).st = .draining ∧ s.ringOut n = false ∧ (s.ring n).work ≠ [] ∧ (∀ w ∈ (s.ring n).work, w.tiles = [] ∨ w.status ≠ none)) :=
  ⟨⟨{ nd with reqs := [(0xC00 * 1048576 + 7, mq (.signal 1 2) (some {}) none)] }, 7, 1, 2, mq (.signal 1 2) (some {}) none, {}, by decide⟩,
   ⟨{ nd with clk := 9, reqs := [(0xC00 * 1048576 + 7, mq (.moverRead 1 3 0 0 64) none (some 9))] }, 7, 9, 1, mq (.moverRead 1 3 0 0 64) none (some 9), by decide⟩,
   ⟨{ nd with clk := 9, reqs := [(0xC00 * 1048576 + 7, mq (.moverWrite 1 3 0 0 64) none (some 9))] }, 7, 9, 1, mq (.moverWrite 1 3 0 0 64) none (some 9), by decide⟩,
   fun add => ⟨wk { idx := 3, d := { signal := true, sigAdd := add, sigAddr := 64 }, next := 1 }, 65535, 64, 0, { idx := 3, d := { signal := true, sigAdd := add, sigAddr := 64 }, next := 1 },
    rfl, rfl, rfl, rfl, rfl, rfl, rfl, rfl, rfl⟩,
   ⟨rg (fun r => { r with st := .running, cmplTail := 255, work := [{ idx := 255, d := {}, status := some .ok }] }), 65535, { idx := 255, d := {}, status := some .ok }, .ok, by decide⟩,
   ⟨rg (fun r => { r with notifies := [1] }), 65535, 1, [], by decide⟩, ⟨rg (fun r => { r with st := .draining, work := [{ idx := 3, d := {} }] }), 65535, by decide⟩⟩
/-- A word of XL.CTX_BIND: NATIVE at home 0xC00, root 0; a word of XL.WITHDRAW for a context or an FA, of one 2 MiB, with a store to node 0xC00. -/
def bword : Nat := 1 + 0xC00 * 2 ^ 8
def wword (fa ctx len : Nat) : Nat := fa + ctx * 2 ^ 8 + len * 2 ^ 64 + 0xC00 * 2 ^ 41 * 2 ^ 192
theorem wit_BindingsAndWithdrawals : ∃ v : VCtx,
    ((bindOf bword).mode = 1 ∧ bindFieldsOk bword = true ∧ (bindOf bword).homeNode = nd.poolNode) ∧
    (∃ s : State, s.poolNode = nd.poolNode ∧ Write s v (bindObj 65535) (leBytes 16 bword) ∧ (s.bind 65535).mode = 0 ∧ s.bindBusy 65535 = false ∧ s.wdActive < 256) ∧
    (∃ s : State, s.poolNode = nd.poolNode ∧ Write s v (bindObj 65535) (leBytes 16 bword) ∧ (s.bind 65535).mode ≠ 0 ∧ (s.bind 65535).homeNode = s.poolNode ∧ s.bind 65535 ≠ bindOf bword ∧
      s.bindBusy 65535 = false ∧ s.wdActive < 256) ∧
    (∃ s : State, s.poolNode = nd.poolNode ∧ Write s v (bindObj 65535) (leBytes 16 bword) ∧ (s.bind 65535).mode = 0 ∧ s.bindBusy 65535 = true) ∧
    (∃ (s : State) (r : Nat), Write s v withdrawObj (leBytes 40 (r / 2 * 2)) ∧ 1 ≤ field r 64 64 ∧ field r 64 64 = 2 ^ 36 ∧ field r 1 7 = 0 ∧ field r 24 40 = 0 ∧
      field r 128 64 % 2 ^ 21 = 0 ∧ isFa (field r 192 64) = true ∧ field r 192 64 % 8 = 0 ∧ s.wdActive < 256 ∧ (s.bind (field r 8 16)).mode ≠ 0 ∧ (s.bind (field r 8 16)).homeNode = s.poolNode) ∧
    (∃ (s : State) (r : Nat), Write s v withdrawObj (leBytes 40 (r / 2 * 2)) ∧ field r 64 64 = 0) ∧
    (∃ (s : State) (r : Nat), Write s v withdrawObj (leBytes 40 (r / 2 * 2 + 1)) ∧ 1 = field r 64 64 ∧ field r 64 64 ≤ 2 ^ 36 ∧ field r 1 7 = 0 ∧ field r 24 40 = 0 ∧
      field r 128 64 % 2 ^ 21 = 0 ∧ isFa (field r 192 64) = true ∧ field r 192 64 % 8 = 0 ∧ s.wdActive < 256 ∧ field r 8 16 = 0 ∧ isFa (field r 128 64) = true) :=
  ⟨⟨0, 1, 0⟩, by decide, ⟨nd, rfl, put rfl rfl, by decide⟩, ⟨{ nd with xl := { binds := [(65535, { mode := 1, homeNode := 0xC00, root := 4096 })] } }, rfl, put rfl rfl, by decide⟩,
   ⟨{ nd with xl := { binding := [65535] } }, rfl, put rfl rfl, by decide⟩,
   ⟨{ nd with xl := { binds := [(9, { mode := 1, homeNode := 0xC00 })] } }, wword 0 9 (2 ^ 36), put rfl rfl, by decide⟩, ⟨nd, wword 0 9 0, put rfl rfl, by decide⟩,
   ⟨nd, wword 1 0 1, put rfl rfl, by decide⟩⟩
/-- A withdrawal of context 9 by software that still waits for these packages, with a completion store or none. -/
def wdr (waiting : List Nat) (nfa : Nat) : Withdrawal := { id := 4, fa := false, ctx := 9, base := 0, len2m := 1, nfa := nfa, cause := .software, running := true, since := 5, waiting := waiting }
theorem wit_WithdrawalNotices :
    (∃ (s : State) (h : Nat), h ≠ s.poolNode ∧ s.xact.held = []) ∧
    (∃ (s : State) (n : WdNotice) (h i : Nat), s.xl.notices = [n] ∧ n.home = h ∧ n.id = i ∧ n.d = s.clk ∧ (∀ l ∈ n.lines, s.tileBusy l = false) ∧ n.lines ≠ [] ∧ h ≠ s.poolNode) ∧
    (∃ (s : State) (n : WdNotice) (w : Withdrawal), s.xl.notices = [n] ∧ n.home = s.poolNode ∧ n.id = w.id ∧ n.d = s.clk ∧ (∀ l ∈ n.lines, s.tileBusy l = false) ∧ s.xl.wds = [w] ∧ w.running = true ∧
      w.finished = false ∧ w.waiting = [s.poolNode] ∧ w.cause = .software ∧ w.nfa = 0 ∧ s.xl.invQueue = []) ∧
    (∃ (s : State) (f g : Nat) (w : Withdrawal), s.xl.wds = [w] ∧ w.running = true ∧ w.finished = false ∧ w.waiting = [f, g] ∧ f ≠ g) ∧
    (∃ (s : State) (f : Nat) (w : Withdrawal), s.xl.wds = [w] ∧ w.running = true ∧ w.finished = false ∧ w.waiting = [f] ∧ w.cause = .software ∧ w.nfa = 0 ∧ s.xl.invQueue = []) ∧
    (∃ (s : State) (f : Nat) (w : Withdrawal), s.xl.wds = [w] ∧ w.running = true ∧ w.finished = false ∧ w.waiting = [f] ∧ w.cause = .software ∧ w.nfa ≠ 0 ∧ s.xl.invQueue = []) ∧
    (∃ (s : State) (w : Withdrawal), s.xl.wds = [w] ∧ w.running = true ∧ w.finished = false ∧ w.since + s.xl.wdTimeout * 1000 = s.clk ∧ w.waiting = [] ∧ w.cause = .software ∧ s.xl.invQueue = []) ∧
    (∃ (s : State) (g i : Nat) (o : OutReq) (r : Txn), s.ownReq g = some o ∧ o.who = .notify 1 i ∧ o.resp = some r ∧ r.status = 0) :=
  ⟨⟨nd, 0xC01, by decide⟩, ⟨{ nd with clk := 5, xl := { notices := [⟨0xC01, 4, 5, [(65535, 3, 0)]⟩] } }, ⟨0xC01, 4, 5, [(65535, 3, 0)]⟩, 0xC01, 4, by decide⟩,
   ⟨{ nd with clk := 5, xl := { notices := [⟨0xC00, 4, 5, []⟩], wds := [wdr [0xC00] 0] } }, ⟨0xC00, 4, 5, []⟩, wdr [0xC00] 0, by decide⟩,
   ⟨{ nd with xl := { wds := [wdr [0xC01, 0xC02] 0] } }, 0xC01, 0xC02, wdr [0xC01, 0xC02] 0, by decide⟩, ⟨{ nd with xl := { wds := [wdr [0xC01] 0] } }, 0xC01, wdr [0xC01] 0, by decide⟩,
   ⟨{ nd with xl := { wds := [wdr [0xC01] 8] } }, 0xC01, wdr [0xC01] 8, by decide⟩, ⟨{ nd with clk := 10000005, xl := { wds := [wdr [] 0] } }, wdr [] 0, by decide⟩,
   ⟨{ nd with reqs := [(0xC00 * 1048576 + 7, mq (.notify 1 2) (some {}) none)] }, 7, 2, mq (.notify 1 2) (some {}) none, {}, by decide⟩⟩
def ms : Miss := { ctx := 9, va := 0, wr := false, since := 0, waiters := [] }
/-- The walker of this number walks for context 9. -/
def wl (w : Nat) (k : Walk) : State := { nd with xl := { walkers := [(w, some k)], binds := [(9, { mode := 1, homeNode := 0xC00 })] } }
/-- The response to an entry read, whose 16 bytes are the word. -/
def entRsp (n st : Nat) : Txn := { ty := .rspData, status := st, dslots := 2, data := leBytes 16 n }
/-- Walker 127 with the entry read of tag 7 answered. -/
def wr7 (k : Walk) (r : Txn) : State := { wl 127 k with reqs := [(0xC00 * 1048576 + 7, mq (.walk 127 9) (some r) none)] }
/-- What the statement asks of an entry read that has been answered. -/
def readBack (k : Walk) (r : Txn) : Bool := decide ((wr7 k r).ownReq 7 = some (mq (.walk 127 9) (some r) none)) && decide ((wr7 k r).walker 127 = some k) && decide (k.tag = some 7)
theorem wit_WalksProceed :
    (∃ (s : State) (w : Nat) (m : Miss) (l : List Miss), w = 127 ∧ s.walker w = none ∧ s.missQ (w / 32) = m :: l ∧ (s.bind m.ctx).mode = 1 ∧ (s.bind m.ctx).homeNode = s.poolNode ∧
      s.xl.mwaits = [] ∧ s.xl.wcache = []) ∧
    (∃ (s : State) (w h : Nat) (m : Miss) (l : List Miss), w = 127 ∧ s.walker w = none ∧ s.missQ (w / 32) = m :: l ∧ (s.bind m.ctx).mode = 2 ∧ (s.bind m.ctx).homeNode = s.poolNode ∧
      s.xl.mwaits = [] ∧ s.xl.wcache = [] ∧ s.ownPort (s.bind m.ctx).hostNode = some h) ∧
    (∃ (k : Walk) (r : Txn), readBack k r = true ∧ r.status = 0 ∧ k.level = 0 ∧ k.wds = [] ∧ nMalformed (rspWord r) 0 = false ∧ (nEntry (rspWord r)).valid = true ∧ (nEntry (rspWord r)).leaf = false) ∧
    (∃ (k : Walk) (r : Txn), readBack k r = true ∧ r.status = 0 ∧ k.level = 2 ∧ k.wds = [] ∧ k.ats = none ∧ k.m.waiters = [.prefetch 255] ∧ nMalformed (rspWord r) 2 = false ∧
      (nEntry (rspWord r)).valid = true ∧ (nEntry (rspWord r)).leaf = true ∧ (nEntry (rspWord r)).moving = false) ∧
    (∃ (k : Walk) (r : Txn), readBack k r = true ∧ r.status ≠ 0 ∧ k.m.waiters = []) ∧
    (∃ (s : State) (w : Nat) (k : Walk) (m : MWait), s.walker w = some k ∧ k.level = 4 ∧ k.rereadAt = none ∧ k.since + s.xl.xlateTimeout * 1000 = s.clk ∧
      k.m.waiters = [.mover m.n m.idx m.va m.need] ∧ s.xl.mwaits = [m]) ∧
    (∃ (s : State) (g : Nat) (x : Held), s.holdsOf g = [x] ∧ x.since + s.xl.holdMax * 1000 = s.clk ∧ x.e.t.ty = .rd ∧ s.egress x.e.adm x.e.t.snode (x.e.t.fail 10 s.poolNode).key = some 256) ∧
    (∃ (s : State) (m : MWait), s.xl.mwaits = [m] ∧ m.since + s.xl.slowWait * 1000 = s.clk ∧ s.xl.walkers = [] ∧ s.xl.misses_ = []) ∧
    (∃ (s : State) (w x : Nat) (k : Walk), s.walker w = some k ∧ k.rereadAt = some x ∧ x = s.clk) :=
  ⟨⟨{ wl 0 { m := ms } with xl := { misses_ := [(3, [ms])], binds := [(9, { mode := 1, homeNode := 0xC00 })] } }, 127, ms, [], by decide⟩,
   ⟨{ wl 0 { m := ms } with xl := { misses_ := [(3, [ms])], binds := [(9, { mode := 2, homeNode := 0xC00, hostNode := 0x200 })] } }, 127, 0, ms, [], by decide⟩,
   ⟨{ m := ms, tag := some 7 }, entRsp 1 0, by decide⟩, ⟨{ m := { ms with waiters := [.prefetch 255] }, level := 2, tag := some 7 }, entRsp 7 0, by decide⟩,
   ⟨{ m := ms, tag := some 7 }, entRsp 0 7, by decide⟩,
   ⟨{ wl 127 { m := { ms with waiters := [.mover 65535 3 0 1] }, level := 4, since := 5 } with clk := 100005, xl := { walkers := [(127, some { m := { ms with waiters := [.mover 65535 3 0 1] }, level := 4, since := 5 })], mwaits := [⟨65535, 3, 0, 1, 5⟩] } },
    127, { m := { ms with waiters := [.mover 65535 3 0 1] }, level := 4, since := 5 }, ⟨65535, 3, 0, 1, 5⟩, by decide⟩,
   ⟨{ nd with clk := 50005, xl := { holds := [(265, [⟨{ qe { rdT with snode := 0xC00 } with adm := 265 }, 5, true⟩])] } }, 265, ⟨{ qe { rdT with snode := 0xC00 } with adm := 265 }, 5, true⟩, by decide⟩,
   ⟨{ nd with clk := 10000005, xl := { mwaits := [⟨65535, 3, 0, 1, 5⟩] } }, ⟨65535, 3, 0, 1, 5⟩, by decide⟩,
   ⟨{ wl 127 { m := ms, rereadAt := some 5 } with clk := 5 }, 127, 5, { m := ms, rereadAt := some 5 }, by decide⟩⟩
theorem wit_AtsAndPri :
    (∃ (s : State) (w : Nat) (k : Walk), tfind s.xl.exch w = none ∧ s.walker w = some k ∧ k.level = 4 ∧ k.wds = [] ∧ k.m.waiters = [] ∧ s.asksPages (s.bind k.m.ctx) = false) ∧
    (∃ (s : State) (w : Nat) (k : Walk), tfind s.xl.exch w = none ∧ s.walker w = some k ∧ k.level = 4 ∧ k.wds = [] ∧ k.m.waiters = [.prefetch 255] ∧
      s.aptOf (s.bind k.m.ctx).hostNode = (0, 0) ∧ k.m.va + 2 ^ 21 = 2 ^ 41) ∧
    (∃ s : State, s.xl.walkers = [] ∧ (s.host 7).pageReqs ≠ [] ∧ ∀ q ∈ (s.host 7).pageReqs, q.2.2 = s.poolNode) ∧ (∃ s : State, s.xl.binds = []) ∧
    (∃ (s : State) (c : Nat) (y : Bind), s.xl.binds = [(c, y)] ∧ y.mode = 2 ∧ y.hostNode = s.hpNode 7 ∧ s.xl.wds = [] ∧ s.wdActive < 256) :=
  ⟨⟨wl 127 { m := ms, level := 4 }, 127, { m := ms, level := 4 }, by decide⟩,
   ⟨wl 127 { m := { ms with va := 2 ^ 41 - 2 ^ 21, waiters := [.prefetch 255] }, level := 4 }, 127, { m := { ms with va := 2 ^ 41 - 2 ^ 21, waiters := [.prefetch 255] }, level := 4 }, by decide⟩,
   ⟨nd.modHost 7 (fun p => { p with pageReqs := [(9, 0, 0xC00)] }), by decide⟩, ⟨nd, rfl⟩,
   ⟨{ nd with xl := { binds := [(9, { mode := 2, hostNode := 0xFFFF })] } }, 9, { mode := 2, hostNode := 0xFFFF }, by decide⟩⟩

-- Witnesses: the pool
def mv (st done_ : Nat) : Move := { id := 4, page := 0, entry := 0, word := 0, land := 0, stage := st, done := done_, doneAt := 5 }
/-- A package in service whose image has a DRIFT section with one rule, on page 5 of an ACTIVE extent with a back-pointer. -/
def dr (b : Tab Nat) : State := { fu with tbl := { active := { drift := some { rules := [{ anyCtx := true }] } } }, pool := { decayed := true, warmup := 0, backptr := b, exts := [(0, { st := .active, len := 12582912, granules := [⟨0, 0, 0⟩] })] } }
theorem wit_DriftMoves :
    (∃ (s : State) (d : DriftCfg), s.tbl.active.drift = some d ∧ s.pool.decayed = true ∧ s.pool.driftEnable = true ∧ s.inService = true ∧ s.thm.stage = .normal ∧ s.pool.backptr = []) ∧
    (∃ (s : State) (d : DriftCfg), s.tbl.active.drift = some d ∧ s.pool.decayed = true ∧ s.pool.driftEnable = true ∧ s.inService = true ∧ s.thm.stage = .normal ∧ s.pool.backptr = [(5, 64)] ∧
      s.driftCandidate d 5 = true ∧ s.pool.scanned = []) ∧
    (∃ (s : State) (i : Nat) (m : Move), s.move i = some m ∧ m.stage = 2 ∧ m.aborting = false ∧ m.done = 32768) ∧
    (∃ (s : State) (i : Nat) (m : Move), s.move i = some m ∧ m.stage = 2 ∧ m.done = 32767) ∧
    (∃ (s : State) (i : Nat) (m : Move), s.move i = some m ∧ m.stage = 4 ∧ s.clk + 1 = m.doneAt + s.xl.releaseGuard * 1000) ∧
    (∃ (s : State) (i : Nat) (m : Move), s.move i = some m ∧ m.stage = 4 ∧ m.doneAt + s.xl.releaseGuard * 1000 = s.clk) ∧
    (∃ (s : State) (g : Nat), (tget {} s.pool.counters g).hole = true ∧ (tget {} s.pool.counters g).zeroed = false) :=
  ⟨⟨dr [], { rules := [{ anyCtx := true }] }, by decide⟩, ⟨dr [(5, 64)], { rules := [{ anyCtx := true }] }, rfl, rfl, rfl, rfl, rfl, rfl, by decide +kernel, rfl⟩,
   ⟨{ nd with pool := { movesNow := [mv 2 32768] } }, 4, mv 2 32768, by decide⟩,
   ⟨{ nd with pool := { movesNow := [mv 2 32767] } }, 4, mv 2 32767, by decide⟩, ⟨{ nd with clk := 10004, pool := { movesNow := [mv 4 0] } }, 4, mv 4 0, by decide⟩,
   ⟨{ nd with clk := 10005, pool := { movesNow := [mv 4 0] } }, 4, mv 4 0, by decide⟩, ⟨{ nd with pool := { counters := [(9, { hole := true })] } }, 9, by decide⟩⟩
theorem wit_DriftMoves_writes : ∃ v : VCtx, Write nd v (0x4000, 0x10) [1] ∧ (∃ (s : State) (m : Move), Write s v (0x4000, 0x10) [0] ∧ s.pool.movesNow = [m] ∧ m.stage = 1) ∧
    (Write nd v (0x4000, 0x15) (leBytes 8 (2 ^ 53 - 1)) ∧ isFa (2 ^ 53 - 1) = true) ∧
    (∃ (s : State) (g a e : Nat) (x : Ext), Write s v (0x4000, 0x0A) (leBytes 8 g ++ leBytes 8 a) ∧ g / 2 ^ 41 = s.poolNode ∧ extOfOff s (s.poolOff g) = some (e, x) ∧ x.st = .active ∧
      isFa a = true ∧ a % 16 = 0 ∧ a ≠ 0) :=
  ⟨⟨0, 1, 0⟩, put rfl rfl, ⟨{ nd with pool := { movesNow := [mv 1 0] } }, mv 1 0, put rfl rfl, rfl, rfl⟩, ⟨put rfl rfl, by decide⟩, po, 0xC00 * 2 ^ 41 + 12582911, 16, 0,
   { st := .active, len := 12582912, granules := [⟨0, 0, 0⟩] }, put rfl rfl, by decide⟩
def ex (e : Ext) : State := { nd with pool := { st := 1, exts := [(1023, e)], dies := [(0, {}), (1, {}), (2, {}), (3, {})] }, sec := { keys := [(5, { loaded := true, owner := 9 })] } }
/-- The last line of a 2 MiB extent at 0, held exclusively by host 7. -/
def lastHeld : Tab DirEnt := [(32767, ⟨true, [], 7, 0⟩)]
def ex2 (e : Ext) (d : Tab DirEnt) (m : List Move) : State := { ex e with pool := { (ex e).pool with dir := d, movesNow := m } }
theorem wit_ExtentsAndGrants : ∃ v : VCtx, (∀ e d m, ((ex2 e d m).epochRec (.ext 1023)).epoch = v.epoch) ∧
    (∃ e, Write (ex2 e [] []) v (extObj 1023 9) [1] ∧ ((ex2 e [] []).ext 1023).st = .unused ∧ (ex2 e [] []).pool.st ≠ 0 ∧ (ex2 e [] []).extShapeOk 1023 = true ∧
      (ex2 e [] []).extKeyOk 1023 = true ∧ granCount ((ex2 e [] []).ext 1023) ≤ (ex2 e [] []).granFree) ∧
    (Write (ex2 {} [] []) v (extObj 1023 9) [1] ∧ (ex2 {} [] []).extCanActivate 1023 = false) ∧
    (Write (ex2 { st := .active } [] []) v (extObj 1023 9) [2] ∧ ((ex2 { st := .active } [] []).ext 1023).st = .active) ∧
    (∃ e, Write (ex2 e lastHeld []) v (extObj 1023 9) [2] ∧ ((ex2 e lastHeld []).ext 1023).st = .active ∧ ((ex2 e lastHeld []).host 7).st ≠ .dead ∧ inExt ((ex2 e lastHeld []).ext 1023) (64 * 32767) = true) ∧
    (∃ (e : Ext) (m : Move), Write (ex2 e [] [m]) v (extObj 1023 9) [2] ∧ ((ex2 e [] [m]).ext 1023).st = .active ∧ m.stage = 1 ∧ inExt ((ex2 e [] [m]).ext 1023) m.page = true) ∧
    (Write (ex2 {} [] []) v (extObj 1023 9) [2] ∧ ((ex2 {} [] []).ext 1023).st ≠ .active) ∧
    (∃ s : State, s.extDrained 1023 = true) ∧ (∃ s : State, s.extDrained 1023 = false) ∧
    (∃ (s : State) (g : Granule), (s.ext 1023).st = .zeroing ∧ tget [] s.pool.zeroing 1023 = [g] ∧ (s.die g.die).st = .healthy ∧ g.die = 3) ∧
    (∃ (s : State) (r : Nat), Write s v (extObj 1023 8) (leBytes 32 r) ∧ (List.range 8).all (fun g => grantMayChange (tget {} (s.ext 1023).grants g) (field r (32 * g) 32)) = true) ∧
    (∃ e, Write (ex2 e [] []) v (extObj 1023 0x0A) (leBytes 1 7) ∧ (tget {} ((ex2 e [] []).ext 1023).grants 7).valid = true ∧ (tget {} ((ex2 e [] []).ext 1023).grants 7).revoked = false ∧
      (tget {} ((ex2 e [] []).ext 1023).grants 7).host = false) ∧
    (∃ e, Write (ex2 e lastHeld []) v (extObj 1023 0x0A) (leBytes 1 7) ∧ (tget {} ((ex2 e lastHeld []).ext 1023).grants 7).valid = true ∧ (tget {} ((ex2 e lastHeld []).ext 1023).grants 7).revoked = false ∧
      (tget {} ((ex2 e lastHeld []).ext 1023).grants 7).host = true ∧ (tget {} ((ex2 e lastHeld []).ext 1023).grants 7).id = 7 ∧ ((ex2 e lastHeld []).host 7).st ≠ .dead ∧
      inExt ((ex2 e lastHeld []).ext 1023) (64 * 32767) = true) ∧
    (Write (ex2 {} [] []) v (extObj 1023 0x0A) (leBytes 1 7) ∧ (tget {} ((ex2 {} [] []).ext 1023).grants 7).valid = false) ∧
    (∃ s : State, (tget {} (s.ext 1023).grants 7).rstate = 1 ∧ s.pool.backInvs = [] ∧ s.pool.dir = [] ∧ s.sw.lines = []) :=
  ⟨⟨0, 1, 0⟩, fun _ _ _ => rfl, ⟨{ len := 2 ^ 21, keySlot := 5, owner := 9 }, put rfl rfl, by decide⟩, ⟨put rfl rfl, by decide⟩, ⟨put rfl rfl, rfl⟩,
   ⟨{ st := .active, len := 2 ^ 21 }, put rfl rfl, by decide⟩, ⟨{ st := .active, len := 2 ^ 21 }, mv 1 0, put rfl rfl, by decide⟩, ⟨put rfl rfl, by decide⟩,
   ⟨ex { st := .releasing, len := 2 ^ 21 }, by decide⟩, ⟨ex { st := .active }, by decide⟩,
   ⟨{ ex { st := .zeroing } with pool := { exts := [(1023, { st := .zeroing })], zeroing := [(1023, [⟨3, 4, 0⟩])] } }, ⟨3, 4, 0⟩, by decide⟩,
   ⟨ex {}, 7 * 2 ^ 16 * 2 ^ 224, put rfl rfl, by decide⟩, ⟨{ grants := [(7, { valid := true })] }, put rfl rfl, by decide⟩,
   ⟨{ len := 2 ^ 21, grants := [(7, { valid := true, host := true, id := 7 })] }, put rfl rfl, by decide⟩, ⟨put rfl rfl, by decide⟩,
   ⟨ex { grants := [(7, { valid := true, rstate := 1 })] }, by decide⟩⟩
/-- One extent with one granule on die 3, of this protection class, the die in this state with stack 20 failed. -/
def dg (st : DieState) (pc rebuilt : Nat) : State := { nd with pool := { st := 1, dies := [(3, { st := st, failed := [20] })], exts := [(9, { st := .active, len := 2 ^ 21, pclass := pc, granules := [⟨3, 0, rebuilt⟩] })] } }
theorem wit_StacksFail : (∃ (v : VCtx), Write nd v (0x4100 + 23, 4) [1] ∧ (nd.epochRec (.stack 23)).epoch = v.epoch ∧ (nd.stack 23).st ≠ .failed) ∧
    (∃ s : State, (s.stack (767 / 32)).st ≠ .failed ∧ s.pool.st ≠ 0 ∧ (s.die 3).st = .healthy ∧ granulesOn s 3 1 = true) ∧
    (∃ s : State, (s.stack (767 / 32)).st ≠ .failed ∧ (s.die 3).st = .healthy ∧ granulesOn s 3 1 = false ∧ granulesOn s 3 0 = true) ∧
    (∃ s : State, (s.stack (767 / 32)).st ≠ .failed ∧ (s.die 3).st = .healthy ∧ granulesOn s 3 1 = false ∧ granulesOn s 3 0 = false) ∧
    (∃ s : State, (s.stack (767 / 32)).st ≠ .failed ∧ (s.die 3).st = .rebuilding ∧ granulesOn s 3 1 = true) ∧ (∃ s : State, (s.stack (767 / 32)).st = .failed) ∧
    (∃ (s : State) (x : Ext) (g : Granule), (s.die 3).st = .rebuilding ∧ (s.die 3).failed.headD 0 % 6 = 2 ∧ s.pool.exts = [(9, x)] ∧ x.st = .active ∧ x.pclass = 1 ∧ x.granules = [g] ∧ g.die = 3 ∧
      nextStripe 2 g.rebuilt = 32767 ∧ s.sw.lines = [] ∧ s.hp = []) ∧
    (∃ (s : State) (x : Ext) (g : Granule) (n : Granule) (u : State), s.pool.evacuate = true ∧ (s.die 3).st = .exposed ∧ s.pool.exts = [(9, x)] ∧ x.st = .active ∧ x.pclass = 0 ∧ x.granules = [g] ∧ g.die = 3 ∧
      s.sw.lines = [] ∧ s.hp = [] ∧ s.takeGranule 9 = some (n, u)) :=
  ⟨⟨⟨0, 1, 0⟩, put rfl rfl, rfl, by decide⟩, ⟨dg .healthy 1 0, by decide⟩, ⟨dg .healthy 0 0, by decide⟩, ⟨nd, by decide⟩, ⟨dg .rebuilding 1 0, by decide⟩,
   ⟨nd.modStack 23 (fun x => { x with st := .failed }), by decide⟩, ⟨dg .rebuilding 1 32767, { st := .active, len := 2 ^ 21, pclass := 1, granules := [⟨3, 0, 32767⟩] }, ⟨3, 0, 32767⟩, by decide⟩,
   ⟨dg .exposed 0 0, { st := .active, len := 2 ^ 21, granules := [⟨3, 0, 0⟩] }, ⟨3, 0, 0⟩, _, _, rfl, rfl, rfl, rfl, rfl, rfl, rfl, rfl, rfl, rfl⟩⟩

-- Witnesses: host ports
def hp (f : HostPort → HostPort) : State := nd.modHost 7 f
def ac : HostAcc := { id := 4, rid := 9, htag := some 3, ctx := 9, kind := 0, off := 0, len := 8, ro := false, atop := 0, data := [], since := 5, movingAt := some 7 }
theorem wit_HostPortStates : ∃ v : VCtx, (∀ f, ((hp f).epochRec (.host 7)).epoch = v.epoch) ∧
    (∃ s : State, (s.host 7).st = .linkDown ∧ (s.host 7).mode ≠ 0) ∧ (∃ s : State, (s.host 7).st ≠ .active) ∧
    (∃ s : State, (s.host 7).st = .active ∧ (∀ q ∈ s.hp, ∀ a ∈ q.2.accs, a.kind < 4) ∧ ∃ c y, s.xl.binds = [(c, y)] ∧ y.mode = 2 ∧ y.hostNode = s.hpNode 7 ∧ s.xl.wds = []) ∧
    (∃ f, Write (hp f) v (hpCtlObj 7) (leBytes 8 1) ∧ ((hp f).host 7).st = .active ∧ ∀ q ∈ (hp f).hp, ∀ a ∈ q.2.accs, a.kind < 4) ∧
    (∃ f, Write (hp f) v (hpCtlObj 7) (leBytes 8 1) ∧ ((hp f).host 7).st ≠ .active) ∧
    (∃ f, Write (hp f) v (hpCtlObj 7) (leBytes 8 2) ∧ ((hp f).host 7).st = .dead ∧ ((hp f).host 7).trained = true ∧ ((hp f).host 7).scanning = false) ∧
    (∃ f, Write (hp f) v (hpCtlObj 7) (leBytes 8 2) ∧ ((hp f).host 7).st = .dead ∧ ((hp f).host 7).trained = false) ∧
    (∃ f, Write (hp f) v (hpCtlObj 7) (leBytes 8 (3 + 65536 * (2 ^ 16 - 1)))) ∧ (∃ s : State, (s.host 7).st = .dead ∧ (s.host 7).scanning = true ∧ s.pool.dir = []) ∧
    (∃ (s : State) (l e : Nat) (d : DirEnt) (x : Ext), (s.host 7).st = .dead ∧ (s.host 7).scanning = true ∧ s.pool.dir = [(l, d)] ∧ d.excl = true ∧ d.owner = 7 ∧ s.pool.exts = [(e, x)] ∧ x.st = .active ∧
      inExt x (64 * l) = true ∧ l = 196607) ∧
    (∃ (s : State) (l : Nat) (d : DirEnt), (s.host 7).st = .dead ∧ (s.host 7).scanning = true ∧ s.pool.dir = [(l, d)] ∧ d.excl = false ∧ d.sharers = [7]) :=
  ⟨⟨0, 1, 0⟩, fun _ => rfl, ⟨hp (fun p => { p with mode := 2 }), by decide⟩, ⟨nd, by decide⟩,
   ⟨{ hp (fun p => { p with st := .active, accs := [ac] }) with xl := { binds := [(9, { mode := 2, hostNode := 0xFFFF })] } }, by decide, by decide, 9, { mode := 2, hostNode := 0xFFFF }, by decide⟩,
   ⟨fun p => { p with st := .active, accs := [ac] }, put rfl rfl, by decide⟩, ⟨fun p => { p with st := .dead }, put rfl rfl, by decide⟩,
   ⟨fun p => { p with st := .dead, trained := true }, put rfl rfl, by decide⟩, ⟨fun p => { p with st := .dead }, put rfl rfl, by decide⟩, ⟨fun p => p, put rfl rfl⟩,
   ⟨hp (fun p => { p with st := .dead, scanning := true }), by decide⟩,
   ⟨{ hp (fun p => { p with st := .dead, scanning := true }) with pool := { po.pool with dir := [(196607, ⟨true, [], 7, 0⟩)] } }, 196607, 0, ⟨true, [], 7, 0⟩, ext0, by decide⟩,
   ⟨{ hp (fun p => { p with st := .dead, scanning := true }) with pool := { po.pool with dir := [(4, ⟨false, [7], 0, 0⟩)] } }, 4, ⟨false, [7], 0, 0⟩, by decide⟩⟩
/-- Host 7 in CXL mode beside the pool, with this extent, directory and clock. -/
def cm (e : Ext) (d : Tab DirEnt) (b : List BackInv) (c : Nat) : State := { hp (fun p => { p with st := .active, modeActive := 2 }) with clk := c, pool := { po.pool with exts := [(0, e)], dir := d, backInvs := b } }
/-- The extent grants host 7 everything. -/
def hostExt : Ext := { ext0 with grants := [(0, { id := 7, valid := true, rd := true, wr := true, host := true })] }
/-- What the statement asks of an access to the line at `o`. -/
def cxlOk (s : State) (o e : Nat) (x : Ext) : Bool := decide ((s.host 7).st = .active) && decide ((s.host 7).modeActive = 2) && decide (s.sw.lines = []) && decide (∀ q ∈ s.hp, q.2.accs = []) && !inDoorbell o &&
  decide (extOfOff s o = some (e, x)) && decide (x.st = .active) && !(tget {} s.pool.counters (o / 2 ^ 21)).hole && !(s.key x.keySlot).sealed && !x.mac && decide (s.linePoison x o = 0)
theorem wit_CxlRequests :
    (cxlOk (cm hostExt [] [] 0) 12582848 0 hostExt = true ∧ extCheck hostExt .rd none (some 7) = none ∧ extCheck hostExt .wr none (some 7) = none ∧ (cm hostExt [] [] 0).pool.dir = [] ∧
      (cm hostExt [] [] 0).pool.backInvs = [] ∧ Memory.wf (cm hostExt [] [] 0).pool.mem = true ∧ ∃ b : Bytes, b.length = 64) ∧
    (cxlOk (cm ext0 [] [] 0) 12582848 0 ext0 = true ∧ ∃ st, extCheck ext0 .rd none (some 7) = some st ∧ extCheck ext0 .wr none (some 7) = some st) ∧
    (∃ (s : State) (y : DirEnt), cxlOk s 12582848 0 hostExt = true ∧ s.pool.dir = [(12582848 / 64, y)] ∧ y.excl = true ∧ y.owner = 3 ∧ (s.host 3).st ≠ .dead ∧ extCheck hostExt .rd none (some 7) = none) ∧
    (∃ (s : State) (x : BackInv), s.pool.backInvs = [x] ∧ x.line = 196607 ∧ x.host = 7 ∧ x.discard = true) ∧
    (∃ (s : State) (x : BackInv) (b : Bytes), s.pool.backInvs = [x] ∧ x.line = 196607 ∧ x.host = 7 ∧ x.discard = false ∧ b.length = 64 ∧ Memory.wf s.pool.mem = true ∧
      (extOfOff s (64 * 196607)).isSome = true) ∧
    (∃ (s : State) (x : Txn), (s.host 7).snoops = [(64, x)] ∧ s.egress 264 x.snode (x.fail 0 (s.hpNode 7)).key = some 0) ∧ (∃ s : State, (s.host 7).snoops = []) ∧
    (∃ (s : State) (x : BackInv), s.pool.backInvs = [x] ∧ x.host = 7 ∧ (∀ q ∈ s.hp, ∀ a ∈ q.2.accs, a.kind < 4) ∧ s.clk + 1 = x.since + (s.host 7).biTimeout * 1000) ∧
    (∃ (s : State) (x : BackInv), s.pool.backInvs = [x] ∧ x.host = 7 ∧ (∀ q ∈ s.hp, ∀ a ∈ q.2.accs, a.kind < 4) ∧ x.since + (s.host 7).biTimeout * 1000 = s.clk ∧ x.revoke = none ∧ (s.host 7).st = .active) ∧
    (∃ (s : State) (x : BackInv) (y : DirEnt), s.pool.backInvs = [x] ∧ x.host = 7 ∧ (∀ q ∈ s.hp, ∀ a ∈ q.2.accs, a.kind < 4) ∧ x.since + (s.host 7).biTimeout * 1000 = s.clk ∧ x.revoke = some (0, 0) ∧
      x.cleared = false ∧ s.pool.dir = [(x.line, y)] ∧ y.excl = true ∧ y.owner = 7) :=
  ⟨⟨by decide, by decide, by decide, rfl, rfl, rfl, z 64, rfl⟩, ⟨by decide, _, rfl, rfl⟩,
   ⟨cm hostExt [(12582848 / 64, ⟨true, [], 3, 0⟩)] [] 0, ⟨true, [], 3, 0⟩, by decide⟩, ⟨cm ext0 [] [⟨196607, 7, 5, true, true, none, false⟩] 0, ⟨196607, 7, 5, true, true, none, false⟩, by decide⟩,
   ⟨cm ext0 [] [⟨196607, 7, 5, true, false, none, false⟩] 0, ⟨196607, 7, 5, true, false, none, false⟩, z 64, by decide⟩,
   ⟨hp (fun p => { p with snoops := [(64, {})] }), {}, by decide⟩, ⟨nd, by decide⟩, ⟨cm ext0 [] [⟨1, 7, 5, true, false, none, false⟩] 200004, ⟨1, 7, 5, true, false, none, false⟩, by decide⟩,
   ⟨cm ext0 [] [⟨1, 7, 5, true, false, none, false⟩] 200005, ⟨1, 7, 5, true, false, none, false⟩, by decide⟩,
   ⟨cm ext0 [(1, ⟨true, [], 7, 0⟩)] [⟨1, 7, 5, true, false, some (0, 0), false⟩] 200005, ⟨1, 7, 5, true, false, some (0, 0), false⟩, ⟨true, [], 7, 0⟩, by decide⟩⟩
def fb : HostFab := { htag := 3, t := {}, adm := 0, vc := 0, cells := 0, kind := 0, since := 5 }
/-- A line request of host 7's access that waits to be retried. -/
def lr : OutReq := { t := { ty := .rd, size := 7 }, who := .host 7 4 0, issuedAt := 5, timeout := 9, waitUntil := some 999000 }
/-- Host 7 in service for requests of PASID 6, which context 9 is bound to, with an aperture of two frames. -/
def hq (f : HostPort → HostPort) (c : Nat) : State := { hp (fun p => f { p with st := .active }) with clk := c, xl := { aptLog2 := 1, binds := [(9, { mode := 2, hostNode := 0xFFFF, pasid := 6 })] } }
/-- A queued write that a flush read covers. -/
def cov : QEntry := { qe { ty := .wr, data := z 8 } with adm := 0 }
theorem wit_HostRequests :
    (∃ s : State, (s.host 7).st = .active ∧ s.xl.aptLog2 ≠ 0 ∧ (s.host 7).tdi ≠ .error ∧ (s.host 7).stalled.contains 65535 = false ∧ (s.host 7).accs = [] ∧ s.hostCtx 7 (some 6) = some 9 ∧
      (2 ^ 22 - 16) + 16 = 2 ^ (s.xl.aptLog2 + 21) ∧ (hostAtop .cas 16).isSome = true) ∧
    (∃ s : State, (s.host 7).st = .active ∧ s.xl.aptLog2 ≠ 0 ∧ (s.host 7).tdi ≠ .error ∧ (s.host 7).stalled.contains 65535 = false ∧ (s.host 7).accs = [] ∧ s.hostCtx 7 (some 5) = none) ∧
    (∃ (s : State) (op : HostAtomic) (w : Nat), hostAtop op w = none ∧ (s.host 7).st = .active) ∧
    (∃ (s : State) (a : HostAcc), (s.host 7).accs = [a] ∧ a.movingAt = some 7 ∧ a.htag = some 3 ∧ 7 + s.xl.holdMax * 1000 = s.clk) ∧
    (∃ (s : State) (a : HostAcc), (s.host 7).accs = [a] ∧ a.movingAt = some 7 ∧ a.htag = some 3 ∧ s.clk + 1 = 7 + s.xl.holdMax * 1000 ∧ s.clk < a.since + 1000000) ∧
    (∃ (s : State) (a : HostAcc) (o : OutReq), (s.host 7).accs = [a] ∧ a.movingAt = none ∧ a.htag = some 3 ∧ a.left = 1 ∧ a.fails = [] ∧ o.who = .host 7 a.id 0 ∧
      s.reqs = [(4294967296, o)] ∧ o.waitUntil.isSome = true ∧ a.since + 1000000 = s.clk) ∧
    (∃ (s : State) (f : HostFab) (d : Bytes), (s.host 7).fabs = [f] ∧ s.egress 264 f.t.snode (hashKey (s.hpNode 7) f.t.ctx f.t.flow f.t.snode) = some 0 ∧ f.kind = 0 ∧ f.t.ty = .rd ∧ f.t.len = d.length ∧
      s.clk + 1 = f.since + 500000) ∧
    (∃ (s : State) (f : HostFab), (s.host 7).fabs = [f] ∧ s.egress 264 f.t.snode (hashKey (s.hpNode 7) f.t.ctx f.t.flow f.t.snode) = some 0 ∧ f.kind = 1 ∧ f.since + 500000 = s.clk) ∧
    (∃ (s : State) (f : HostFab) (e : QEntry), (s.host 7).fabs = [f] ∧ f.kind = 2 ∧ f.covered = [e] ∧ (s.host 7).unflushed = [] ∧ e.t.ty = .wr ∧
      s.egress 264 e.t.snode (hashKey (s.hpNode 7) e.t.ctx e.t.flow e.t.snode) = some 0 ∧ f.since + 500000 = s.clk ∧ s.sw.flood = false ∧ s.sw.marks = [] ∧
      (routeEnt s.tbl.active e.t.snode).wmode = false) :=
  ⟨⟨hq id 0, by decide⟩, ⟨hq id 0, by decide⟩, ⟨hq id 0, .fetchAdd, 4, by decide⟩, ⟨hq (fun p => { p with accs := [ac] }) 50007, ac, by decide⟩, ⟨hq (fun p => { p with accs := [ac] }) 50006, ac, by decide⟩,
   ⟨{ hq (fun p => { p with accs := [{ ac with movingAt := none, left := 1 }] }) 1000005 with reqs := [(4294967296, lr)] }, { ac with movingAt := none, left := 1 }, lr, by decide⟩,
   ⟨hq (fun p => { p with fabs := [{ fb with t := { ty := .rd, size := 63 } }] }) 500004, { fb with t := { ty := .rd, size := 63 } }, z 64, by decide⟩,
   ⟨hq (fun p => { p with fabs := [{ fb with kind := 1 }] }) 500005, { fb with kind := 1 }, by decide⟩,
   ⟨hq (fun p => { p with fabs := [{ fb with kind := 2, covered := [cov] }] }) 500005, { fb with kind := 2, covered := [cov] }, cov, by decide⟩⟩
theorem wit_TenantInterface :
    (∃ (s : State) (c : Nat), (s.host 7).st = .active ∧ (s.host 7).tdi ≠ .error ∧ s.mov.rings = [] ∧ (tget {} (s.host 7).mail 4095).st ≠ 1 ∧ c.testBit 31 = true) ∧
    (∃ s : State, (s.host 7).tdi = .unlocked) ∧ (∃ s : State, (s.host 7).tdi = .locked) ∧ (∃ s : State, (s.host 7).tdi = .run) ∧ (∃ s : State, (s.host 7).tdi = .error) ∧
    (∃ (s : State) (b : Bool), (s.host 7).linkIde = some b) ∧ (∃ (s : State) (n : Nat), n ≠ 0 ∧ (s.host 7).ideSel = [(n, true)]) ∧
    (∃ (s : State) (n : Nat), (s.host 7).st = .active ∧ n = 65536 ∧ s.spdmOpen (.doe 7) = true ∧ (s.host 7).modeActive = 1) :=
  ⟨⟨hp (fun p => { p with st := .active }), 2 ^ 31, by decide⟩, ⟨nd, by decide⟩, ⟨hp (fun p => { p with tdi := .locked }), by decide⟩, ⟨hp (fun p => { p with tdi := .run }), by decide⟩,
   ⟨hp (fun p => { p with tdi := .error }), by decide⟩, ⟨hp (fun p => { p with linkIde := some true }), true, by decide⟩, ⟨hp (fun p => { p with ideSel := [(255, true)] }), 255, by decide⟩,
   ⟨hp (fun p => { p with st := .active, modeActive := 1 }), 65536, by decide⟩⟩

-- Witnesses: contexts, keys and operators
def cx (c : Ctx) : State := { nd with sec := { ctxs := [(65535, c)] } }
/-- A package that knows another one, of home 0xC01, in its image, with room at its point for messages. -/
def two (c : Ctx) (l : List CtxChange) : State := { cx c with sec := { ctxs := [(65535, c)], changes := l }, tbl := { active := { nd.tbl.active with
  nodes := (0xC01, { kind := 2, pkg := 1 }) :: nd.tbl.active.nodes, routes := (0xC01, { kind := 1, target := 1 }) :: nd.tbl.active.routes, admTab := [(2654, (4, 4))] } } }
theorem wit_ContextsChange : ∃ v : VCtx, (∀ c l, ((two c l).epochRec (.ctx 65535)).epoch = v.epoch ∧ ((two c l).epochRec (.ctx 0)).epoch = v.epoch) ∧
    (∃ (s : State) (c : Ctx), s = two c [] ∧ Write s v ctxCtlObj (ctxCtlBytes 1 65535 false 8 1) ∧ (s.ctx 65535).st = .free ∧ (s.ctx 65535).kgen = 15 ∧ isFa 8 = true ∧ s.sec.changes = [] ∧
      (s.ctx 65535).mask.testBit 0 = false ∧ (s.ctx 65535).freeAt = some 5 ∧ 5 + s.ageLimit 0 + s.ageLimit 2 = s.clk + 4000005) ∧
    (∃ (s : State) (a : Nat), Write s v ctxCtlObj (ctxCtlBytes 1 65535 true 8 1) ∧ (s.ctx 65535).st = .free ∧ (s.ctx 65535).mask.testBit 0 = true ∧ (s.ctx 65535).kgen = 15 ∧ s.sec.changes = [] ∧
      (s.ctx 65535).freeAt = some a ∧ a + s.ageLimit 0 + s.ageLimit 2 = s.clk ∧ s.ctxScope = []) ∧
    Write (two {} []) v ctxCtlObj (ctxCtlBytes 1 0 false 8 1) ∧
    (Write (two { st := .active } []) v ctxCtlObj (ctxCtlBytes 1 65535 false 8 1) ∧ ((two { st := .active } []).ctx 65535).st ≠ .free) ∧
    (∃ s : State, s.ctxScope ≠ [] ∧ Write s v ctxCtlObj (ctxCtlBytes 2 65535 false 8 1) ∧ (s.ctx 65535).st = .active ∧ (s.ctx 65535).home = s.poolNode ∧ isFa 8 = true ∧ (s.bind 65535).mode ≠ 0 ∧
      (s.bind 65535).homeNode = s.poolNode) ∧
    (Write (two {} []) v ctxCtlObj (ctxCtlBytes 2 65535 false 8 1) ∧ ((two {} []).ctx 65535).st = .free) ∧
    (∃ (s : State) (h q : Nat), h ≠ s.poolNode ∧ s.xact.waits = [] ∧ s.canReserve 265 4 (s.mgt h 7 65535).cells = true ∧ s.egress 265 h (s.mgt h 7 65535).key = some q ∧ q ≠ 256) ∧
    (∀ to_ : CtxState, ∃ (s : State) (f g : Nat) (y : CtxChange), f ≠ s.poolNode ∧ s.sec.changes = [y] ∧ y.c = 65535 ∧ y.waiting = [f, g] ∧ g ≠ f ∧ y.to_ = to_) ∧
    (∀ to_ : CtxState, ∃ (s : State) (f : Nat) (y : CtxChange), f ≠ s.poolNode ∧ s.sec.changes = [y] ∧ y.c = 65535 ∧ y.waiting = [f] ∧ y.to_ = to_ ∧ y.nfa ≠ 0) :=
  ⟨⟨0, 1, 0⟩, fun _ _ => ⟨rfl, rfl⟩, ⟨_, { kgen := 15, freeAt := some 5 }, rfl, put rfl rfl, by decide⟩, ⟨{ cx { kgen := 15, mask := 1, freeAt := some 5 } with clk := 4000005 }, 5, put rfl rfl, by decide⟩,
   put rfl rfl, ⟨put rfl rfl, by decide⟩,
   ⟨{ two { st := .active, home := 0xC00 } [] with xl := { binds := [(65535, { mode := 1, homeNode := 0xC00 })] } }, by decide, put rfl rfl, by decide⟩, ⟨put rfl rfl, by decide⟩,
   ⟨(two {} []).modPort 1 (fun p => { p with st := .inService }), 0xC01, 1, by decide⟩, fun to_ => ⟨two {} [⟨65535, to_, [0xC01, 0xC02], 8, 1⟩], 0xC01, 0xC02, ⟨65535, to_, [0xC01, 0xC02], 8, 1⟩, (fun h => by cases h), rfl, rfl, rfl, by decide, rfl⟩,
   fun to_ => ⟨two {} [⟨65535, to_, [0xC01], 8, 1⟩], 0xC01, ⟨65535, to_, [0xC01], 8, 1⟩, (fun h => by cases h), rfl, rfl, rfl, rfl, (fun h => by cases h)⟩⟩
/-- A bundle load whose header has been read, in its last chunk or before it, with its chunk read or written, under a key of context 9 in this state. -/
def bu (c : CtxState) (buf : Tab Bytes) (n : Nat) : State := { po with sec := { ctxs := [(9, { st := c })], bkeys := [(63, { used := true, ctx := 9 })],
                                                                                 bundle := { st := .running, bslot := 63, hdr := z 64, plainLen := 64, nchunks := n, buf := buf } } }
theorem wit_KeysAndBundles : ∃ v : VCtx,
    (∃ s : State, Write s v keyCtlObj (keyCtlBytes 1 4095 false 65535) ∧ (s.epochRec (.key 4095)).epoch = v.epoch ∧ (s.key 4095).loaded = false ∧ (s.ctx 65535).st = .active) ∧
    (∃ s : State, Write s v keyCtlObj (keyCtlBytes 2 4095 false 0) ∧ (s.epochRec (.key 4095)).epoch = v.epoch ∧ s.keyInUse 4095 = false) ∧
    (∃ s : State, Write s v keyCtlObj (keyCtlBytes 2 4095 false 0) ∧ (s.epochRec (.key 4095)).epoch = v.epoch ∧ s.keyInUse 4095 = true) ∧
    (∃ (s : State) (r : Nat) (b : BKey), Write s v bundleObj (leBytes 40 r) ∧ s.dev.phase ≠ .drain ∧ s.pool.st ≠ 0 ∧ b = tget {} s.sec.bkeys (field r 0 6) ∧ b.used = true ∧ (s.ctx b.ctx).st = .active ∧
      (s.ctx b.ctx).kgen = b.kgen ∧ s.sec.bundle.st ≠ .running ∧ field r 6 58 = 0 ∧ isFa (field r 64 64) = true ∧ field r 64 64 % 64 = 0 ∧ field r 128 64 % 64 = 0 ∧ isFa (field r 192 64) = true ∧
      field r 192 64 % 8 = 0 ∧ field r 0 6 = 63) ∧
    (∃ (s : State) (r : Nat), Write s v bundleObj (leBytes 40 r) ∧ s.dev.phase = .drain) ∧
    (∃ (s : State) (r : Nat), Write s v bundleObj (leBytes 40 r) ∧ (tget {} s.sec.bkeys (field r 0 6)).used = false) ∧
    (∀ c buf n, (bu c buf n).sec.bundle.st = .running ∧ (bu c buf n).sec.bundle.left = 0 ∧ (bu c buf n).sec.bundle.hdr ≠ [] ∧ (bu c buf n).sec.bundle.nfa = 0) ∧
    (((bu .stopping [] 1).ctx (tget {} (bu .stopping [] 1).sec.bkeys (bu .stopping [] 1).sec.bundle.bslot).ctx).st ≠ .active) ∧
    (∃ s : State, s = bu .active [(1, z 64)] 1 ∧ (s.ctx (tget {} s.sec.bkeys s.sec.bundle.bslot).ctx).st = .active ∧ s.sec.bundle.buf ≠ [] ∧ chunkLen s.sec.bundle.plainLen s.sec.bundle.chunk = 64) ∧
    (∃ s : State, s = bu .active [] 2 ∧ (s.ctx (tget {} s.sec.bkeys s.sec.bundle.bslot).ctx).st = .active ∧ s.sec.bundle.buf = [] ∧ s.sec.bundle.chunk + 1 < s.sec.bundle.nchunks) ∧
    (∃ s : State, s = bu .active [] 1 ∧ (s.ctx (tget {} s.sec.bkeys s.sec.bundle.bslot).ctx).st = .active ∧ s.sec.bundle.buf = [] ∧ s.sec.bundle.nchunks = s.sec.bundle.chunk + 1 ∧
      (extOfOff s s.sec.bundle.dst).isSome = true) ∧
    (∃ s : State, s.sec.bundle.st ≠ .running) ∧
    (∃ (s : State) (b : Nat), b = 63 ∧ (tget {} s.sec.bkeys b).used = true ∧ (tget {} s.sec.bkeys b).expiry ≠ 0 ∧ (tget {} s.sec.bkeys b).expiry + 1 = s.slot ∧ s.sec.bundle.st ≠ .running) ∧
    (∃ (s : State) (b : Nat), b = 63 ∧ (tget {} s.sec.bkeys b).used = true ∧ (tget {} s.sec.bkeys b).expiry ≠ 0 ∧ (tget {} s.sec.bkeys b).expiry + 1 = s.slot ∧ s.sec.bundle.st = .running ∧ s.sec.bundle.bslot = b) ∧
    (∃ (s : State) (b : Nat), b = 63 ∧ (tget {} s.sec.bkeys b).used = true ∧ (tget {} s.sec.bkeys b).expiry ≠ 0 ∧ s.slot = (tget {} s.sec.bkeys b).expiry) :=
  ⟨⟨0, 1, 0⟩, ⟨cx { st := .active }, put rfl rfl, rfl, rfl, by decide⟩, ⟨nd, put rfl rfl, rfl, rfl⟩,
   ⟨{ nd with pool := { exts := [(0, { st := .releasing, keySlot := 4095 })] } }, put rfl rfl, rfl, by decide⟩,
   ⟨{ po with sec := { ctxs := [(9, { st := .active })], bkeys := [(63, { used := true, ctx := 9 })] } }, 63, { used := true, ctx := 9 }, put rfl rfl, by decide⟩,
   ⟨{ dev := { phase := .drain } }, 0, put rfl rfl, rfl⟩, ⟨po, 63, put rfl rfl, by decide⟩, fun _ _ _ => ⟨rfl, rfl, List.cons_ne_nil _ _, rfl⟩, by decide, ⟨_, rfl, by decide⟩, ⟨_, rfl, by decide⟩, ⟨_, rfl, by decide⟩,
   ⟨nd, by decide⟩,
   ⟨{ rt := { now := 4096 }, sec := { bkeys := [(63, { used := true, expiry := 3 })] } }, 63, by decide⟩,
   ⟨{ rt := { now := 4096 }, sec := { bkeys := [(63, { used := true, expiry := 3 })], bundle := { st := .running, bslot := 63 } } }, 63, by decide⟩,
   ⟨{ rt := { now := 3072 }, sec := { bkeys := [(63, { used := true, expiry := 3 })] } }, 63, by decide⟩⟩
/-- An instance in this state, with an entry of context 0 and four contributors. -/
def ins (f : Inst → Inst) : State := nd.modInst 4095 (fun x => f { x with entry := { ctx := 0, ncontrib := 4 } })
/-- A run of an instance of this entry under the built-in default; a packet for its element 62, the last pair of 64, from the last of four contributors. -/
def ru (k : Nat) (p : Inst → Inst) : State := sl.modInst 4095 (fun x => p { x with st := .running, credit := true, entry := { ctx := 0, ncontrib := 4, opkind := k, nelem := 64, upnode := 0xFFF, entryProg := 0xFFF, exitProg := 0xFFF, tileCount := 1 } })
def pk (ty : TType) (xb : Nat) : Txn := { ty := ty, dnode := sl.poolNode, inst := 4095, contrib := 3, eoff := 62, xb := xb, dslots := 1, data := z 8 }
/-- The state in which the packet has reached the engine. -/
def atEng (s : State) (x : Txn) : State := ((s.takeIn 265 x).release ((s.takeIn 265 x).entry x 265 (s.vcAt 265 3))).advance x.inst
/-- What lets a packet enter. -/
def enters (s : State) (x : Txn) : Bool := colHeaderOk x && s.kgenCurrent x.ctx x.kgen && decide (((atEng s x).inst 4095).st = .running) && decide (((atEng s x).inst 4095).entry.ctx = x.ctx) &&
  (atEng s x).onDefault ((atEng s x).inst 4095) && decide (x.phase = 0) && decide (((atEng s x).inst 4095).phase = 0) && decide (x.contrib + 1 = ((atEng s x).inst 4095).entry.ncontrib)
/-- What the engine's rules ask of a running instance. -/
def openRun (u : State) : Bool := decide ((u.inst 4095).st = .running) && (u.inst 4095).emitted.isEmpty && decide (0 < (u.inst 4095).entry.groups) && (u.phasesOf (u.inst 4095)).isEmpty
theorem wit_CollectivePackets :
    ((ru 1 id).canArrive 265 = true ∧ (ru 1 id).filtered 265 = false ∧ (pk .colData 0).dnode = (ru 1 id).poolNode ∧ colHeaderOk { pk .colData 7 with fmt := 15 } = false) ∧
    (enters (ru 1 id) (pk .colData 0) = true ∧ enters (ru 4 id) (pk .colSide 1) = true ∧ enters (ru 1 id) { pk .colPart 0 with fmt := 12 } = true ∧
      enters (ru 1 id) { pk .colCtl 1 with eoff := 3, dslots := 0, data := [] } = true ∧ enters (ru 1 id) { pk .colCtl 2 with eoff := 0, dslots := 0, data := [] } = true) ∧
    (∃ u : State, openRun u = true ∧ (u.inst 4095).entry.opkind = 1 ∧ (u.inst 4095).entry.entryProg = 0xFFF ∧ (pk .colData 0).fmt = (u.inst 4095).entry.inFmt ∧
      (pk .colData 0).eoff + 2 = (u.inst 4095).entry.nelem ∧ ((u.inst 4095).row 62).arrived + 2 = (u.inst 4095).entry.ncontrib ∧ ((u.inst 4095).row 63).arrived < (u.inst 4095).entry.ncontrib) ∧
    (∃ u : State, openRun u = true ∧ (u.inst 4095).entry.opkind = 4 ∧ (pk .colSide 1).eoff + 2 = (u.inst 4095).entry.nelem) ∧
    (∃ (u : State) (q : Partial), openRun u = true ∧ (u.inst 4095).entry.opkind = 1 ∧ partsOf 0 8 0 (z 8) = some [q] ∧ (pk .colPart 0).eoff < (u.inst 4095).entry.nelem ∧
      ((u.inst 4095).row 62).arrived < (u.inst 4095).entry.ncontrib ∧ (((u.inst 4095).row 62).addPartial 1 q).arrived < (u.inst 4095).entry.ncontrib) ∧
    (∃ u : State, (u.inst 4095).fails = [] ∧ (u.inst 4095).revokedSeen = false) ∧
    (∃ u : State, (u.inst 4095).st = .running ∧ (u.inst 4095).credit = false ∧ (u.phasesOf (u.inst 4095)).isEmpty = true) :=
  ⟨by decide, by decide, ⟨ru 1 (fun x => { x with rows := [(62, { arrived := 2 })] }), by decide⟩, ⟨ru 4 id, by decide⟩, ⟨ru 1 id, _, by decide, rfl, rfl, by decide, by decide, by decide⟩, ⟨ru 1 id, by decide⟩,
   ⟨ru 1 (fun x => { x with credit := false }), by decide⟩⟩
def img : Tables := { active := { version := 5, nodes := [(0xC00, { kind := 2 })], ops := [(4095, { opkind := 1, nelem := 64 })], timing := [(4095, (8, 0))] } }
theorem wit_RunsProceed :
    (∃ (s : State) (i : Nat), (s.inst i).st = .armed ∧ s.onDefault (s.inst i) = false ∧ s.absent = [] ∧ s.rt.quality = .locked ∧ s.rt.scheduled = true ∧
      s.slot = (s.inst i).startSlot + ((s.phasesOf (s.inst i)).headD {}).start ∧ s.rt.now % 1024 = 0) ∧
    (∃ (s : State) (i : Nat), (s.inst i).st = .armed ∧ s.onDefault (s.inst i) = false ∧ s.absent = [] ∧ s.rt.quality = .locked ∧ s.rt.scheduled = false ∧ (s.inst i).startSlot = s.slot) ∧
    (∃ (s : State) (i : Nat), (s.inst i).st = .done ∧ s.onDefault (s.inst i) = false ∧ (s.inst i).startSlot + (tget (0, 0) s.opsActive.timing i).1 = s.slot ∧ (s.inst i).retiring = false ∧
      (s.inst i).credit = false) ∧
    (∃ (s : State) (i : Nat), (s.inst i).st = .running ∧ (s.inst i).credit = true ∧ (s.inst i).phaseSince + s.ops.creditDeadline * 1000 = s.clk ∧
      (s.inst i).revokedSeen = false ∧ (s.inst i).fails = [] ∧ s.phaseDone (s.inst i) = false) ∧
    (∃ (s : State) (g i : Nat) (o : OutReq) (r : Txn), s.ownReq g = some o ∧ o.resp = some r ∧ o.who = .result i ∧ r.status = 0 ∧ (s.inst i).st = .delivering ∧ (s.inst i).out = 2) ∧
    (∃ (s : State) (g i : Nat) (o : OutReq) (r : Txn), s.ownReq g = some o ∧ o.resp = some r ∧ o.who = .result i ∧ r.status = 0 ∧ (s.inst i).st = .delivering ∧ (s.inst i).out = 1 ∧
      (s.inst i).poisoned (s.opsImg (s.inst i)) = 0 ∧ (s.inst i).entry.flagEn = false ∧ (s.inst i).flags = 0 ∧ (s.inst i).nruns = (s.inst i).done + 1) ∧
    (∃ (v : VCtx) (e : OpsEntry), Write sl v (0x8000, 5) (leBytes 64 (opsEntryWord e)) ∧ (sl.inst 0).st = .idle ∧ slushEntryOk e = true) ∧
    (∃ (v : VCtx) (e : OpsEntry), Write fu v (0x8000, 5) (leBytes 64 (opsEntryWord e)) ∧ fu.dev.phase ≠ .slush) :=
  ⟨⟨{ ins (fun x => { x with st := .armed, startSlot := 2 }) with rt := { quality := .locked, scheduled := true, now := 2048 }, tbl := img }, 4095, by decide⟩,
   ⟨{ ins (fun x => { x with st := .armed, startSlot := 2 }) with rt := { quality := .locked, scheduled := false, now := 2048 }, tbl := img }, 4095, by decide⟩,
   ⟨{ ins (fun x => { x with st := .done, startSlot := 2 }) with rt := { quality := .locked, now := 10240 }, tbl := img }, 4095, by decide⟩,
   ⟨{ ins (fun x => { x with st := .running, credit := true, entry := { opkind := 1, nelem := 64, ncontrib := 4 } }) with clk := 20000000, tbl := img }, 4095, by decide⟩,
   ⟨{ ins (fun x => { x with st := .delivering, out := 2 }) with reqs := [(0xC00 * 1048576 + 7, mq (.result 4095) (some {}) none)] }, 7, 4095, mq (.result 4095) (some {}) none, {}, by decide⟩,
   ⟨{ ins (fun x => { x with st := .delivering, out := 1, nruns := 1 }) with reqs := [(0xC00 * 1048576 + 7, mq (.result 4095) (some {}) none)] }, 7, 4095, mq (.result 4095) (some {}) none, {}, by decide⟩,
   ⟨⟨0, 1, 0⟩, { opkind := 1, upnode := 0xFFF, entryProg := 0xFFF, exitProg := 0xFFF, ncontrib := 4095, tileCount := 256, nelem := 1 }, put rfl rfl, by decide⟩, ⟨⟨0, 1, 0⟩, {}, put rfl rfl, by decide⟩⟩
theorem wit_KeysAndBundles_load : ∃ (v : VCtx) (s w : State) (r : Nat), Write s v bundleObj (leBytes 40 r) ∧ bundleLoadChecked r (s.countDatagram v.sess) = .ok w :=
  ⟨⟨0, 1, 0⟩, { po with sec := { ctxs := [(9, { st := .active })], bkeys := [(63, { used := true, ctx := 9 })] } }, _, 63, put rfl rfl, rfl⟩

end Sys2Proof
end

section
/-! The bytes of a Vane frame (R10, R414): a packed number reads back field by field, and a frame decodes from its bytes. -/

namespace Sys2Proof.Machine
open Sys2Proof

theorem length_leBytes (n v : Nat) : (leBytes n v).length = n := by
  induction n generalizing v with
  | zero => rfl
  | succ n ih => rw [leBytes, List.length_cons, ih]
theorem leNat_leBytes_of_lt {n v : Nat} (h : v < 256 ^ n) : leNat (leBytes n v) = v := by
  induction n generalizing v with
  | zero => simp_all [leBytes, leNat]
  | succ n ih =>
    rw [leBytes, leNat, ih (Nat.div_lt_of_lt_mul (by rwa [← pow_succ'])), BitVec.toNat_ofNat]
    exact Nat.mod_add_div v 256
/-- A number written at the front of a string reads back, whatever follows. -/
theorem leAt_leBytes_append {n v : Nat} (h : v < 256 ^ n) (p : Bytes) : leAt (leBytes n v ++ p) 0 n = v := by
  have hs : slice (leBytes n v ++ p) 0 n = leBytes n v := by
    have ht : (leBytes n v ++ p).take n = leBytes n v := by
      rw [List.take_append_of_le_length (length_leBytes n v).ge, List.take_of_length_le (length_leBytes n v).le]
    simp [slice, ht, length_leBytes]
  rw [leAt, hs, leNat_leBytes_of_lt h]
theorem pack_cons_div (w v : Nat) (l : List (Nat × Nat)) : pack ((w, v) :: l) / 2 ^ w = pack l := by
  rw [pack, Nat.add_mul_div_left _ _ (by positivity), Nat.div_eq_of_lt (Nat.mod_lt _ (by positivity)), Nat.zero_add]
theorem pack_lt (l : List (Nat × Nat)) : pack l < 2 ^ (l.map Prod.fst).sum := by
  induction l with
  | nil => simp [pack]
  | cons x l ih =>
    rw [List.map_cons, List.sum_cons, pow_add, mul_comm]
    exact Nat.lt_mul_of_div_lt (by rwa [pack_cons_div]) (by positivity)
/-- The first field of a packed number. -/
@[simp] theorem field_pack_head (w v : Nat) (l : List (Nat × Nat)) : field (pack ((w, v) :: l)) 0 w = v % 2 ^ w := by
  simp [field, pack]
/-- A later field of a packed number is a field of what follows the first. -/
theorem field_pack_tail {k lo : Nat} (h : k ≤ lo) (v w : Nat) (l : List (Nat × Nat)) :
    field (pack ((k, v) :: l)) lo w = field (pack l) (lo - k) w := by
  rw [field, field, ← pack_cons_div k v l, Nat.div_div_eq_div_mul, ← pow_add, Nat.add_sub_cancel' h]
theorem bitOf_eq_field (v i : Nat) : bitOf v i = decide (field v i 1 = 1) := by
  simp [bitOf, field, Nat.testBit_eq_decide_div_mod_eq]
@[simp] theorem boolNat_eq_one (b : Bool) : boolNat b = 1 ↔ b = true := by cases b <;> simp [boolNat]
theorem boolNat_mod_two (b : Bool) : boolNat b % 2 = boolNat b := by cases b <;> rfl

/-- The fields of a frame's header in their order, each with its width (R414, Table 14-4). -/
def headerFields (f : VFrame) : List (Nat × Nat) :=
  [(4, f.ver), (3, f.op), (1, boolNat f.rsp), (1, boolNat f.last), (7, 0), (16, f.seq), (16, f.index), (8, f.sub), (8, f.abort), (32, f.epoch),
    (32, f.offset), (16, f.len), (16, 0)]
theorem frameBytes_eq (f : VFrame) : VFrame.bytes f = leBytes 20 (pack (headerFields f)) ++ f.payload := rfl
/-- Decoding a header's 20 bytes reads the fields of the header's number, and the payload is what follows them. -/
theorem frameOf_leBytes_append {h : Nat} (hh : h < 256 ^ 20) (p : Bytes) : frameOf (leBytes 20 h ++ p) =
    { ver := field h 0 4, op := field h 4 3, rsp := bitOf h 7, last := bitOf h 8, rsvd := field h 9 7 + 2 ^ 7 * field h 144 16, seq := field h 16 16,
      index := field h 32 16, sub := field h 48 8, abort := field h 56 8, epoch := field h 64 32, offset := field h 96 32, len := field h 128 16,
      payload := p } := by
  rw [frameOf, leAt_leBytes_append hh, List.drop_left' (length_leBytes 20 h)]
/-- Decoding the bytes of a frame cuts every field to its width and gives the reserved fields as zero. -/
theorem frameOf_bytes (f : VFrame) : frameOf (VFrame.bytes f) =
    { f with ver := f.ver % 2 ^ 4, op := f.op % 2 ^ 3, rsvd := 0, seq := f.seq % 2 ^ 16, index := f.index % 2 ^ 16, sub := f.sub % 2 ^ 8,
             abort := f.abort % 2 ^ 8, epoch := f.epoch % 2 ^ 32, offset := f.offset % 2 ^ 32, len := f.len % 2 ^ 16 } := by
  have hlt : pack (headerFields f) < 256 ^ 20 := (pack_lt _).trans_eq (by norm_num [headerFields])
  rw [frameBytes_eq, frameOf_leBytes_append hlt]
  simp [headerFields, bitOf_eq_field, field_pack_tail, boolNat_mod_two]

/-- Settles O10: the header's number reads back field by field, and no field is cut. -/
theorem frameRoundTrip : Obligations.FrameRoundTrip := by
  intro f hver hop hrsvd hseq hindex hsub habort hepoch hoffset hlen
  rw [frameOf_bytes, Nat.mod_eq_of_lt (b := 2 ^ 4) hver, Nat.mod_eq_of_lt (b := 2 ^ 3) hop, ← hrsvd, Nat.mod_eq_of_lt hseq,
    Nat.mod_eq_of_lt hindex, Nat.mod_eq_of_lt hsub, Nat.mod_eq_of_lt habort, Nat.mod_eq_of_lt hepoch, Nat.mod_eq_of_lt hoffset, Nat.mod_eq_of_lt hlen]

end Sys2Proof.Machine
end

section
/-! The order of a frame's checks (R420): which check answers a frame that comes to its object, and that a write which fails one has no other effect. -/

namespace Sys2Proof.Machine
open Sys2Proof

theorem keptOf_countDatagram (s : State) (i sess seq : Nat) : (s.countDatagram i).keptOf sess seq = s.keptOf sess seq := by
  have hk : ((s.countDatagram i).session sess).kept = (s.session sess).kept := by
    unfold State.countDatagram
    split
    · rfl
    · rw [session_modSession]
      split
      · next h => subst h; split <;> rfl
      · rfl
  rw [State.keptOf, State.keptOf, hk]

section
variable {s : State} {sess : Nat} {f : VFrame}

/-- A well-formed frame that comes to its object is refused if the object aborts it, after its datagram has been counted. -/
theorem serveRaw_aborts {a : Nat} (h : Reaches s sess f) (hm : malformedReq f (s.frameMax sess) = false)
    (ha : objectAbort f (s.countDatagram sess) = some a) (k : State → Answer) :
    s.serveRaw sess f k = .next ((s.countDatagram sess).refuse sess f a) := by
  simp [State.serveRaw, h.awake, h.served, h.inRate, h.prv, hm, keptOf_countDatagram, h.unseen, ha]
/-- A well-formed frame that comes to its object is served if the object does not abort it. -/
theorem serveRaw_serves (h : Reaches s sess f) (hm : malformedReq f (s.frameMax sess) = false)
    (ha : objectAbort f (s.countDatagram sess) = none) (k : State → Answer) :
    s.serveRaw sess f k = k (s.countDatagram sess) := by
  simp [State.serveRaw, h.awake, h.served, h.inRate, h.prv, hm, keptOf_countDatagram, h.unseen, ha]

theorem objectAbort_factory (hf : factoryIndex f.index = true) : objectAbort f s = none := by
  simp [objectAbort, hf]
theorem objectAbort_noObject (hf : factoryIndex f.index = false) (ho : objAt f.index f.sub = none) : objectAbort f s = some abortNoObject := by
  simp [objectAbort, hf, ho]
theorem objectAbort_readOnly {r : ObjRow} {k : Nat} (hf : factoryIndex f.index = false) (hop : f.op = 2) (ho : objAt f.index f.sub = some (r, k))
    (hacc : r.acc = .const ∨ r.acc = .ro) : objectAbort f s = some abortReadOnly := by
  simp [objectAbort, hf, ho, hop, hacc]
theorem objectAbort_writable {r : ObjRow} {k : Nat} (hop : f.op = 2) (ho : objAt f.index f.sub = some (r, k))
    (hc : r.acc ≠ .const) (hr : r.acc ≠ .ro) (hl : r.locked s = false) : objectAbort f s = none := by
  simp [objectAbort, ho, hop, hc, hr, hl]

/-- `TBL.IMAGE`, the object with a write of its own, is a DOMAIN. -/
theorem image_isDomain : (objAt 0x7100 1).all (fun x => x.1.ty.isDomain) = true := by decide
/-- A WRITE of an object that is no DOMAIN is answered with the code of the object's own check, in the state that this leaves. -/
theorem serveFrame_write {r : ObjRow} {k : Nat} (hf : factoryIndex f.index = false) (hop : f.op = 2) (ho : objAt f.index f.sub = some (r, k))
    (hd : r.ty.isDomain = false) : s.serveFrame sess f = .next ((r.put sess k f s).2.refuse sess f (r.put sess k f s).1) := by
  have hi : ¬(f.index = 0x7100 ∧ f.sub = 1) := by
    rintro ⟨hx, ht⟩
    have := image_isDomain
    rw [← hx, ← ht, ho] at this
    simp [hd] at this
  simp [State.serveFrame, hf, ho, hop, hi, hd]
theorem serveFrame_factoryWrite (hf : factoryIndex f.index = true) (hop : f.op = 2) (ht : s.dev.factoryTest = 0) :
    s.serveFrame sess f = .next (s.refuse sess f abortRefused) := by
  simp [State.serveFrame, hf, hop, ht]
theorem put_badLength {r : ObjRow} (k : Nat) (hl : f.payload.length ≠ r.ty.len) : r.put sess k f s = (abortLength, s) := by
  simp [ObjRow.put, hl]
theorem put_outOfRange {r : ObjRow} (k : Nat) (hl : f.payload.length = r.ty.len) (he : ∀ u, unitOf f = some u → (s.epochRec u).epoch = f.epoch)
    (hr : r.inRange f.payload = false) : r.put sess k f s = (abortRange, s) := by
  have hu : (unitOf f).any (fun x => (s.epochRec x).epoch != f.epoch) = false := by
    cases h : unitOf f with
    | none => rfl
    | some u => simp [he u h]
  simp [ObjRow.put, hl, State.judge, hu, check, hr]

theorem exec_write (s : State) (sess : Nat) (f : VFrame) : exec (.write sess f) s = s.serveRaw sess f (fun t => t.serveFrame sess f) := rfl
/-- A command that does no more than count the datagram and refuse its frame has no effect but the abort code. -/
theorem refused_mgmtOnly {c : Instr} {a : Nat} (h : exec c s = .next ((s.countDatagram sess).refuse sess f a)) :
    ∃ t q, exec c s = .next t ∧ MgmtOnly s t ∧ t.out.getLast? = some (.vane sess q) ∧ q.abort = a ∧ q.seq = f.seq ∧ q.rsp = true := by
  refine ⟨_, (s.countDatagram sess).rspFrame f a false [], h, (countDatagram_mgmt s sess).trans (refuse_mgmt _ sess f a), ?_, rfl, rfl, rfl⟩
  rw [refuse_out, List.getLast?_concat]
end

/-- Settles O13: every such write ends in a refusal, by the checks of R420 on the object or by the object's own check of length and range. -/
theorem badWriteHasNoEffect : Obligations.BadWriteHasNoEffect := by
  refine ⟨fun s sess f hr hop hm hf a hbad => ?_, fun s sess f hr hop hm hlo hhi htest => ?_⟩
  · apply refused_mgmtOnly
    rw [exec_write]
    rcases hbad with ⟨ho, rfl⟩ | ⟨r, k, ho, hacc, rfl⟩ | ⟨r, k, ho, hc, hro, hl, hd, hlen, rfl⟩ | ⟨r, k, ho, hc, hro, hl, hd, hlen, he, hrng, rfl⟩
    · exact serveRaw_aborts hr hm (objectAbort_noObject hf ho) _
    · exact serveRaw_aborts hr hm (objectAbort_readOnly hf hop ho hacc) _
    · rw [serveRaw_serves hr hm (objectAbort_writable hop ho hc hro hl), serveFrame_write hf hop ho hd, put_badLength k hlen]
    · have he' : ∀ u, unitOf f = some u → ((s.countDatagram sess).epochRec u).epoch = f.epoch := fun u hu => by
        rw [countDatagram_epochRec, he u hu]
      rw [serveRaw_serves hr hm (objectAbort_writable hop ho hc hro hl), serveFrame_write hf hop ho hd, put_outOfRange k hlen he' hrng]
  · apply refused_mgmtOnly
    rw [exec_write]
    have hf : factoryIndex f.index = true := by
      simp only [factoryIndex, Bool.and_eq_true, decide_eq_true_eq]
      omega
    rw [serveRaw_serves hr hm (objectAbort_factory hf), serveFrame_factoryWrite hf hop (by simpa using htest)]
    rfl

end Sys2Proof.Machine
end

section
/-! Every command is answered with a next state while factory test is off (R4). -/

namespace Sys2Proof.Machine
open Sys2Proof

/-- A command's answer is a next state: it neither stops the device nor is refused a meaning. -/
def Completes (a : Answer) : Prop := ∃ t, a = .next t
theorem Completes.next (t : State) : Completes (.next t) := ⟨t, rfl⟩

/-- The one place where a command has no meaning is a write of the factory-test range while factory test is on (R4). -/
theorem serveFrame_completes {s : State} (h : s.dev.factoryTest = 0) (sess : Nat) (f : VFrame) : Completes (s.serveFrame sess f) := by
  dsimp only [State.serveFrame]
  split
  · split
    · rw [h]
      exact .next _
    · split
      · exact .next _
      · exact .next _
  · repeat' first | exact .next _ | split
/-- A frame is dropped, refused, answered again, or served. -/
theorem serveRaw_completes {s : State} {sess : Nat} {f : VFrame} {k : State → Answer} (hk : Completes (k (s.countDatagram sess))) :
    Completes (s.serveRaw sess f k) := by
  dsimp only [State.serveRaw]
  split
  · exact .next _
  split
  · exact .next _
  split
  · exact .next _
  split
  · exact .next _
  split
  · exact .next _
  split
  · exact .next _
  · exact hk
theorem serve_completes {s : State} (h : s.dev.factoryTest = 0) (sess : Nat) (f : VFrame) :
    Completes (s.serveRaw sess f (fun t => t.serveFrame sess f)) :=
  serveRaw_completes (serveFrame_completes (by simpa using h) sess f)

theorem headOf_completes (s : State) (egress vc : Nat) : Completes (s.headOf egress vc) := by
  dsimp only [State.headOf]
  repeat' first | exact .next _ | split
theorem lineHead_completes (tile : Nat) (ue : Bool) (s : State) : Completes (State.lineHead tile ue s) := by
  dsimp only [State.lineHead]
  repeat' first | exact .next _ | split
theorem lineRun_completes (tile n : Nat) (s : State) : Completes (lineRun tile n s) := by
  induction n generalizing s with
  | zero => exact .next s
  | succ n ih =>
    obtain ⟨t, ht⟩ := lineHead_completes tile false s
    rw [lineRun, ht]
    dsimp only
    split
    · exact ih t
    · exact .next t

/-- Outside factory test every command is answered with a next state. -/
theorem exec_completes (c : Instr) {s : State} (h : s.dev.factoryTest = 0) : Completes (exec c s) := by
  cases c with
  | read sess f | write sess f | describe sess f => exact serve_completes h sess f
  | queueHead egress vc => exact headOf_completes s egress vc
  | accHoldExpired egress vc =>
    dsimp only [exec, execAccHoldExpired]
    split
    · split
      · exact .next _
      · exact .next _
    · split
      · exact .next _
      · exact headOf_completes _ egress vc
  | lineQueueHead tile ue =>
    dsimp only [exec, execLineQueueHead]
    split
    · exact lineRun_completes tile 5 s
    · exact lineHead_completes tile ue s
  | _ =>
    -- no other command serves a dictionary frame outside the TEN view: every branch of its meaning names its next state
    dsimp only [exec, execStrapSample, execPowerWarnNAsserted, execHbmTrainingDone, execPoolInitDone, execTjSample, execFlowLowExpired,
      execThermalTrip, execEpochPulse, execTime, execEpochStart, execImageCheckDone, execTelemetrySnapshot, execEyeScanWindow, execBitErrorWindow,
      execBitErrorWindowEnd, execScrubWindow, execEyeScanComplete, execSignalDetected, execLaneLock, execDeskew, execTrain, execEqualiseConverged,
      execVerifyEnd, execTrainingTimeout, execCap, execCapRepeat, execJoiningWaitEnd, execSpdm, execSpdmAck, execSpdmRepeat, execKeyUpdate, execSerWindow,
      execNarrow, execNarrowRepeat, execNarrowSwitch, execNarrowTimeout, execRetrain, execDiagStart, execDiagAck, execDiagAckTimeout, execDiagStop,
      execDiagResult, execDiagResultTimeout, execTestEnd, execBisnp, execBirsp, execRepinWindowEnd, execAccretionTimeout, execResponseAtRequester,
      execRequestTimeout, execResyncIssue, execFarunIssue, execNop, execCopy, execFill, execAtomic, execOpLaunch, execEngineTileStart,
      execMoverLineResponse, execMoverRetry, execDescriptorSignal, execCompletionRecord, execNotificationVector, execRingDrainEnd,
      execWithdrawalNotice, execDoneNoticeSend, execWithdrawalTimeout, execNotifyStoreResponse, execWalkStart, execWalkEntryRead, execWalkTimeout,
      execHoldExpired, execAtsCompletion, execSlowWaitExpired, execMovingReread, execAtsInvalidate, execDriftScan, execDriftCopyDone,
      execDriftRelease, execHoleZeroed, execExtentReleased, execGranuleZeroed, execRevocationComplete, execRwd, execM2sBirsp, execBiTimeout,
      execHostAtomicop, execHostRetryDeadline, execHostCompletion, execHostCompletionTimeout, execMailboxGo, execIdeIntegrityFail, execDoeRequest,
      execCtxStateNotice, execCtxStateAck, execRunPeriod, execPhaseDeadline, execResultWriteResponse, execBundleKeyExpiry]
    repeat' first | exact .next _ | split

/-- Settles O8: the only command without a next state is a write of the factory-test range, and only while factory test is on. -/
theorem everyCommandCompletes : Obligations.EveryCommandCompletes :=
  fun c _ h => exec_completes c h

end Sys2Proof.Machine
end

section
/-! What a mover's engine can touch: rings, translations, outstanding requests, and what the carriage of packets reaches. -/

namespace Sys2Proof.Machine
open Sys2Proof

-- Carriage keeps the package's own nodes
theorem FloodOnly.spine {d e : Dev} (h : FloodOnly d e) : e.spine = d.spine := by
  rcases h with rfl | ⟨_, p, x, _, rfl⟩ <;> rfl
theorem Carried.spine {s t : State} (h : Carried s t) : t.dev.spine = s.dev.spine := by
  obtain ⟨dev, vane, evt, out, tel, ports, sw, xact, win, hd, hp, rfl⟩ := h
  exact hd.spine
theorem Carried.tbl {s t : State} (h : Carried s t) : t.tbl = s.tbl := by
  obtain ⟨dev, vane, evt, out, tel, ports, sw, xact, win, hd, hp, rfl⟩ := h
  rfl
theorem Carried.pkgNo {s t : State} (h : Carried s t) : t.pkgNo = s.pkgNo := by
  rw [State.pkgNo, State.pkgNo, h.spine, h.tbl]
theorem Carried.poolNode {s t : State} (h : Carried s t) : t.poolNode = s.poolNode := by
  rw [State.poolNode, State.poolNode, h.spine, h.tbl, h.pkgNo]
theorem Carried.hpNode {s t : State} (h : Carried s t) (k : Nat) : t.hpNode k = s.hpNode k := by
  rw [State.hpNode, State.hpNode, h.tbl, h.pkgNo]

/-- `t` differs from `s` only where requests that go out reach: what carriage touches, and the outstanding requests. -/
def Sent (s t : State) : Prop := ∃ r, Carried { s with reqs := r } t
theorem Sent.of_carried {s t : State} (h : Carried s t) : Sent s t := ⟨s.reqs, h⟩
theorem Sent.refl (s : State) : Sent s s := .of_carried (.refl s)
theorem Sent.trans {s t u : State} (h : Sent s t) (g : Sent t u) : Sent s u := by
  obtain ⟨r, dev, vane, evt, out, tel, ports, sw, xact, win, hd, hp, rfl⟩ := h
  obtain ⟨r', dev', vane', evt', out', tel', ports', sw', xact', win', hd', hp', rfl⟩ := g
  exact ⟨r', dev', vane', evt', out', tel', ports', sw', xact', win', hd.trans hd', fun p => (hp' p).trans (hp p), rfl⟩
/-- What requests that go out leave alone. -/
theorem Sent.keeps {s t : State} (h : Sent s t) :
    t.clk = s.clk ∧ t.mov = s.mov ∧ t.xl = s.xl ∧ t.pool = s.pool ∧ t.hp = s.hp ∧ t.sec = s.sec ∧ t.ops = s.ops ∧ t.absent = s.absent := by
  obtain ⟨r, dev, vane, evt, out, tel, ports, sw, xact, win, hd, hp, rfl⟩ := h
  exact ⟨rfl, rfl, rfl, rfl, rfl, rfl, rfl, rfl⟩
theorem Sent.mov {s t : State} (h : Sent s t) : t.mov = s.mov := by
  obtain ⟨_, hmov, _⟩ := h.keeps
  exact hmov
theorem Sent.ring {s t : State} (h : Sent s t) (n : Nat) : t.ring n = s.ring n := by
  rw [State.ring, State.ring, h.mov]
theorem foldl_sent {α : Type} (f : State → α → State) (h : ∀ s x, Sent s (f s x)) (l : List α) (s : State) : Sent s (l.foldl f s) := by
  induction l generalizing s with
  | nil => exact .refl s
  | cons x r ih => exact (h s x).trans (ih _)
theorem reqs_sent (s : State) (r : Tab OutReq) : Sent s { s with reqs := r } := ⟨r, .refl _⟩
theorem xact_sent (s : State) (x : Xact) : Sent s { s with xact := x } := .of_carried (xact_carried _ _)
theorem reqsXact_sent (s : State) (r : Tab OutReq) (x : Xact) : Sent s { s with reqs := r, xact := x } := ⟨r, xact_carried _ _⟩
theorem issueAs_sent (s : State) (node : Nat) (t : Txn) (who : Purpose) (timeout : Nat) : Sent s (s.issueAs node t who timeout) := by
  obtain ⟨g, hg⟩ := issueAs_spec s node t who timeout
  exact ⟨_, hg⟩
theorem issue_sent (s : State) (t : Txn) (who : Purpose) (timeout : Nat) : Sent s (s.issue t who timeout) := issueAs_sent _ _ _ _ _
theorem reissue_sent (s : State) (key : Nat) (o : OutReq) : Sent s (s.reissue key o) := ⟨_, reissue_spec _ _ _⟩
theorem endReq_sent (s : State) (key : Nat) : Sent s (s.endReq key) := reqsXact_sent s _ _

-- What waits in the package goes on (R134, R178)
theorem syncOne_sent (s : State) (k : Nat × Nat × Nat × Nat) : Sent s (s.syncOne k) := by
  unfold State.syncOne
  split
  · exact .refl s
  · exact (reqsXact_sent s _ _).trans ((Sent.of_carried (charge_carried _ _ _ _)).trans (.of_carried (forward_carried _ _)))
theorem sendHeld_sent (s : State) (key : Nat) : Sent s (s.sendHeld key) := by
  unfold State.sendHeld
  split
  · exact .refl s
  · exact (reqs_sent s _).trans (.of_carried (launch_carried _ _ _))
theorem pump_sent (s : State) : Sent s s.pump := by
  unfold State.pump
  exact ((foldl_sent _ syncOne_sent _ s).trans ((xact_sent _ _).trans (foldl_sent _ sendHeld_sent _ _))).trans
    ((xact_sent _ _).trans (foldl_sent _ (fun s t => .of_carried (sendOut_carried s t)) _ _))

/-- `t` differs from `s` only where a mover's engine reaches: rings, translations, outstanding requests, and what carriage touches. -/
def Moved (s t : State) : Prop := ∃ m x r, Carried { s with mov := m, xl := x, reqs := r } t
theorem Moved.of_sent {s t : State} (h : Sent s t) : Moved s t := by
  obtain ⟨r, hr⟩ := h
  exact ⟨s.mov, s.xl, r, hr⟩
theorem Moved.of_mgmt {s t : State} (h : Mgmt s t) : Moved s t := .of_sent (.of_carried (.of_mgmt h))
theorem Moved.refl (s : State) : Moved s s := .of_sent (.refl s)
theorem Moved.trans {s t u : State} (h : Moved s t) (g : Moved t u) : Moved s u := by
  obtain ⟨m, x, r, dev, vane, evt, out, tel, ports, sw, xact, win, hd, hp, rfl⟩ := h
  obtain ⟨m', x', r', dev', vane', evt', out', tel', ports', sw', xact', win', hd', hp', rfl⟩ := g
  exact ⟨m', x', r', dev', vane', evt', out', tel', ports', sw', xact', win', hd.trans hd', fun p => (hp' p).trans (hp p), rfl⟩
/-- What a mover's engine leaves alone. -/
theorem Moved.keeps {s t : State} (h : Moved s t) :
    t.clk = s.clk ∧ t.rt = s.rt ∧ t.tbl = s.tbl ∧ t.pool = s.pool ∧ t.hp = s.hp ∧ t.sec = s.sec ∧ t.ops = s.ops ∧ t.absent = s.absent := by
  obtain ⟨m, x, r, dev, vane, evt, out, tel, ports, sw, xact, win, hd, hp, rfl⟩ := h
  exact ⟨rfl, rfl, rfl, rfl, rfl, rfl, rfl, rfl⟩
theorem Moved.pool {s t : State} (h : Moved s t) : t.pool = s.pool := by
  obtain ⟨_, _, _, hpool, _⟩ := h.keeps
  exact hpool
theorem Moved.hp {s t : State} (h : Moved s t) : t.hp = s.hp := by
  obtain ⟨_, _, _, _, hhp, _⟩ := h.keeps
  exact hhp
theorem foldl_moved {α : Type} (f : State → α → State) (h : ∀ s x, Moved s (f s x)) (l : List α) (s : State) : Moved s (l.foldl f s) := by
  induction l generalizing s with
  | nil => exact .refl s
  | cons x r ih => exact (h s x).trans (ih _)

theorem mov_moved (s : State) (m : Mov) : Moved s { s with mov := m } := ⟨m, s.xl, s.reqs, .refl _⟩
theorem xl_moved (s : State) (x : Xl) : Moved s { s with xl := x } := ⟨s.mov, x, s.reqs, .refl _⟩
theorem modRing_moved (s : State) (n : Nat) (f : Ring → Ring) : Moved s (s.modRing n f) := mov_moved _ _
theorem modWork_moved (s : State) (n idx : Nat) (f : Work → Work) : Moved s (s.modWork n idx f) := modRing_moved _ _ _
theorem modXl_moved (s : State) (f : Xl → Xl) : Moved s (s.modXl f) := xl_moved _ _
theorem countHits_moved (s : State) (n idx k : Nat) : Moved s (s.countHits n idx k) := (modXl_moved _ _).trans (modWork_moved _ _ _ _)
theorem issue_moved (s : State) (t : Txn) (who : Purpose) (timeout : Nat) : Moved s (s.issue t who timeout) := .of_sent (issue_sent _ _ _ _)

/-- A request that is issued after updates that leave the clock and the contexts alone is the request that the statement names. -/
theorem issuesAs_of_issueAs {s u : State} (hclk : u.clk = s.clk) (hsec : u.sec = s.sec) (node : Nat) (t : Txn) (who : Purpose) :
    IssuesAs s (u.issueAs node t who s.reqTimeout) node t who := by
  obtain ⟨g, hg⟩ := issueAs_spec u node t who s.reqTimeout
  obtain ⟨_, _, _, _, _, _, _, _, hreqs, _⟩ := hg.keeps
  refine ⟨g, ?_⟩
  rw [hreqs, tfind_tset, if_pos rfl, hclk, issuedTxn, State.ctx, State.ctx, hsec]
theorem Moved.poolNode {s t : State} (h : Moved s t) : t.poolNode = s.poolNode := by
  obtain ⟨m, x, r, hc⟩ := h
  exact hc.poolNode
theorem Moved.issues {s u : State} (h : Moved s u) (t : Txn) (who : Purpose) : Issues s (u.issue t who s.reqTimeout) t who := by
  obtain ⟨hclk, _, _, _, _, hsec, _⟩ := h.keeps
  have hi := issuesAs_of_issueAs hclk hsec u.poolNode t who
  rw [h.poolNode] at hi
  rwa [State.issue, h.poolNode]

end Sys2Proof.Machine
end

section
/-! The configuration of rings (R60 to R64), doorbells (R66) and RESTART (R78). -/

namespace Sys2Proof.Machine
open Sys2Proof

-- Updates of a ring and of the management side commute
theorem Mgmt.modRing {s t : State} (h : Mgmt s t) (n : Nat) (f : Ring → Ring) : Mgmt (s.modRing n f) (t.modRing n f) := by
  obtain ⟨v, e, o, rfl⟩ := h
  exact ⟨v, e, o, rfl⟩
theorem Mgmt.clearWaits {s t : State} (h : Mgmt s t) (n : Nat) : Mgmt (s.clearWaits n) (t.clearWaits n) := by
  obtain ⟨v, e, o, rfl⟩ := h
  exact ⟨v, e, o, rfl⟩
theorem clearWaits_modRing (s : State) (n m : Nat) (f : Ring → Ring) : (s.clearWaits n).modRing m f = (s.modRing m f).clearWaits n := rfl
theorem cmdChange_mgmt (s : State) (u : EUnit) (f : State → State) : Mgmt (f s) (s.cmdChange u f) := noteChange_mgmt _ _ _ _ _
theorem selfChange_mgmt (s : State) (u : EUnit) (f : State → State) : Mgmt (f s) (s.selfChange u f) := noteChange_mgmt _ _ _ _ _
@[simp] theorem cmdChange_ring (s : State) (u : EUnit) (f : State → State) (n : Nat) : (s.cmdChange u f).ring n = (f s).ring n := by
  simp [State.cmdChange]
@[simp] theorem clearWaits_ring (s : State) (n m : Nat) : (s.clearWaits n).ring m = s.ring m := rfl
@[simp] theorem ringCfgOk_countDatagram (s : State) (i n : Nat) (c : RingCfg) : (s.countDatagram i).ringCfgOk n c = s.ringCfgOk n c := by
  simp [State.ringCfgOk]
@[simp] theorem restartOk_countDatagram (s : State) (i n x : Nat) : (s.countDatagram i).restartOk n x = s.restartOk n x := by
  simp [State.restartOk]
@[simp] theorem inService_countDatagram (s : State) (i : Nat) : (s.countDatagram i).inService = s.inService := by
  simp [State.inService]

-- The bits of a word of RING.CFG and of RING.CTL
theorem ringCfgOf_enable_odd (c : Nat) : (ringCfgOf (c / 2 * 2 + 1)).enable = true := by
  simp [ringCfgOf, bitOf, Nat.testBit_zero]
theorem ringCfgOf_enable_even (c : Nat) : (ringCfgOf (c / 2 * 2)).enable = false := by
  simp [ringCfgOf, bitOf, Nat.testBit_zero]
theorem field_restartWord {x : Nat} (h : x < 2 ^ 32) :
    (1 + 2 ^ 32 * x) % 256 = 1 ∧ field (1 + 2 ^ 32 * x) 8 24 = 0 ∧ field (1 + 2 ^ 32 * x) 32 32 = x := by
  simp only [field, Nat.reducePow] at h ⊢
  omega

-- What a write of RING.CFG does (R61, R64)
section
variable {s : State} {n v : Nat}

theorem ringCfgWrite_reserved (hr : ringRangeOk (ringCfgOf v) = true) (h0 : (ringCfgOf v).rsvd ≠ 0) : ringCfgWrite n v s = .error abortRefused := by
  simp [ringCfgWrite, hr, h0]
theorem ringCfgWrite_enables (hr : ringRangeOk (ringCfgOf v) = true) (h0 : (ringCfgOf v).rsvd = 0) (hst : (s.ring n).st = .disabled)
    (hok : s.ringCfgOk n (ringCfgOf v) = true) (he : (ringCfgOf v).enable = true) (hin : s.inService = true) :
    ringCfgWrite n v s = .ok ((((s.setMg (.ring n) none).modRing n (fun x => { x with cfg := ringCfgOf v })).clearWaits n).cmdChange (.ring n)
      (fun t => t.modRing n (fun x => { x with
        st := .running, head := 0, tail := 0, cmplTail := 0, cmplHead := 0, fetched := [], work := [], notifies := [] }))) := by
  simp [ringCfgWrite, hr, h0, hst, hok, he, hin]
theorem ringCfgWrite_configures (hr : ringRangeOk (ringCfgOf v) = true) (h0 : (ringCfgOf v).rsvd = 0) (hst : (s.ring n).st = .disabled)
    (hok : s.ringCfgOk n (ringCfgOf v) = true) (he : (ringCfgOf v).enable = false) :
    ringCfgWrite n v s = .ok ((s.setMg (.ring n) none).modRing n (fun x => { x with cfg := ringCfgOf v })) := by
  simp [ringCfgWrite, hr, h0, hst, hok, he]
theorem ringCfgWrite_drains (hr : ringRangeOk (ringCfgOf v) = true) (h0 : (ringCfgOf v).rsvd = 0) (hst : (s.ring n).st = .running)
    (hc : ringCfgOf v = { (s.ring n).cfg with enable := false }) : ringCfgWrite n v s = .ok ((s.setMg (.ring n) none).ringDrain n) := by
  have he : (ringCfgOf v).enable = false := by rw [hc]
  simp [ringCfgWrite, hr, h0, hst, he, ← hc]
theorem ringDrain_of_running (hst : (s.ring n).st = .running) : s.ringDrain n =
    s.cmdChange (.ring n) (fun t => t.modRing n (fun r => { r with st := .draining, drainSince := s.clk, cfg := { r.cfg with enable := false } })) := by
  simp [State.ringDrain, hst]

-- What a write of RING.CTL does (R78)
theorem ringCtlWrite_restarts {x : Nat} (hx : x < 2 ^ 32) (h : s.restartOk n x = true) : ringCtlWrite n (1 + 2 ^ 32 * x) s = .ok (s.restartRing n x) := by
  obtain ⟨h1, h2, h3⟩ := field_restartWord hx
  simp only [ringCtlWrite, check, h1, h2, h3, h, beq_self_eq_true, if_true]
theorem ringCtlWrite_refuses {x : Nat} (hx : x < 2 ^ 32) (h : (s.ring n).st ≠ .halted) : ringCtlWrite n (1 + 2 ^ 32 * x) s = .error abortRefused := by
  obtain ⟨h1, h2, h3⟩ := field_restartWord hx
  have hno : s.restartOk n x = false := by simp [State.restartOk, h]
  simp only [ringCtlWrite, check, h1, h2, h3, hno, beq_self_eq_true, if_true, Bool.false_eq_true, if_false]
end

-- The fetch of a ring's next descriptor (R69, R78)
theorem resumeRing_moved (s : State) (n : Nat) : Moved s (s.resumeRing n) := by
  unfold State.resumeRing
  split
  · have hp := (xact_sent s _).trans (pump_sent { s with xact := { s.xact with toSync := (s.ringKeys n).foldl addKey s.xact.toSync } })
    dsimp only
    split
    · exact .of_sent hp
    · exact (Moved.of_sent hp).trans (modRing_moved _ _ _)
  · exact .refl s
/-- A RESTART that goes on ends the ring's wait and changes nothing else of the ring. -/
theorem resumeRing_ring (s : State) (n : Nat) : ∃ b l, (s.resumeRing n).ring n = { s.ring n with resuming := b, broken := l } := by
  unfold State.resumeRing
  split
  · have hp := (xact_sent s _).trans (pump_sent { s with xact := { s.xact with toSync := (s.ringKeys n).foldl addKey s.xact.toSync } })
    dsimp only
    split
    · exact ⟨_, _, hp.ring n⟩
    · exact ⟨false, [], by rw [ring_modRing, if_pos rfl, hp.ring n]⟩
  · exact ⟨_, _, rfl⟩
theorem ringFault_moved (s : State) (n st : Nat) : Moved s (s.ringFault n st) := by
  unfold State.ringFault
  split
  · exact (modRing_moved s n _).trans (.of_mgmt (selfChange_mgmt _ _ _))
  · exact .refl s
theorem fetchNext_moved (s : State) (n : Nat) : Moved s (s.fetchNext n) := by
  have hr := resumeRing_moved s n
  unfold State.fetchNext
  dsimp only
  split
  · split
    · exact hr.trans (ringFault_moved _ _ _)
    · exact (hr.trans (modRing_moved _ _ _)).trans (issue_moved _ _ _ _)
  · exact hr
/-- While no node is absent a fetch moves the ring's HEAD, and leaves its state, its configuration and its work alone. -/
theorem fetchNext_ring {s : State} (n : Nat) (h : s.absent = []) :
    ∃ i l b k, (s.fetchNext n).ring n = { s.ring n with head := i, fetched := l, resuming := b, broken := k } := by
  obtain ⟨b, k, hr⟩ := resumeRing_ring s n
  obtain ⟨_, _, _, _, _, _, _, habs⟩ := (resumeRing_moved s n).keeps
  have hnone : ∀ a, ¬ (s.resumeRing n).absent.contains a = true := fun a => by simp [habs, h]
  unfold State.fetchNext
  dsimp only
  split
  · rw [if_neg (hnone _), (issue_sent _ _ _ _).ring, ring_modRing, if_pos rfl, hr]
    exact ⟨_, _, _, _, rfl⟩
  · exact ⟨_, _, _, _, hr⟩

-- The commands of RING.CFG and RING.CTL
section
variable {s : State} {v : VCtx} {n c x : Nat}

/-- A ring whose configuration is set and which is then changed is changed at once, but for the management side. -/
theorem enabled_mgmt {s t : State} (h : Mgmt s t) (n : Nat) (f g : Ring → Ring) :
    Mgmt ((s.modRing n (fun r => g (f r))).clearWaits n) (((t.modRing n f).clearWaits n).cmdChange (.ring n) (fun u => u.modRing n g)) := by
  have hm := cmdChange_mgmt ((t.modRing n f).clearWaits n) (.ring n) (fun u => u.modRing n g)
  rw [← modRing_modRing, ← clearWaits_modRing]
  exact (((h.modRing n f).clearWaits n).modRing n g).trans hm
theorem ringEnable_accepts (hv : (s.epochRec (.ring n)).epoch = v.epoch) (hw : Write s v (ringCfgObj n) (leBytes 32 (c / 2 * 2 + 1)))
    (hr : ringRangeOk (ringCfgOf (c / 2 * 2 + 1)) = true) (h0 : (ringCfgOf (c / 2 * 2 + 1)).rsvd = 0) (hst : (s.ring n).st = .disabled)
    (hok : s.ringCfgOk n (ringCfgOf (c / 2 * 2 + 1)) = true) (hin : s.inService = true) :
    Accepts (.ringEnable v n c) v s (s.modRing n (fun r => { r with
      cfg := ringCfgOf (c / 2 * 2 + 1), st := .running, head := 0, tail := 0, cmplTail := 0, cmplHead := 0, fetched := [], work := [], notifies := [] })
      |>.clearWaits n) := by
  obtain ⟨t, ht, hans, hm⟩ := vaneWrite_accepts hw (u := some (.ring n)) (fun _ e => by rw [← Option.some.inj e, hv])
    (ringCfgWrite_enables hr h0 (by simpa using hst) (by simpa using hok) (ringCfgOf_enable_odd c) (by simpa using hin))
  have hbase : Mgmt s ((s.countDatagram v.sess).setMg (.ring n) none) := (countDatagram_mgmt _ _).trans (setMg_mgmt _ _ _)
  exact ⟨t, ht, hans, (enabled_mgmt hbase n _ _).trans hm⟩
theorem ringEnable_reserved_aborts (hv : (s.epochRec (.ring n)).epoch = v.epoch) (hw : Write s v (ringCfgObj n) (leBytes 32 (c / 2 * 2 + 1)))
    (hr : ringRangeOk (ringCfgOf (c / 2 * 2 + 1)) = true) (h0 : (ringCfgOf (c / 2 * 2 + 1)).rsvd ≠ 0) : Aborts (.ringEnable v n c) v s abortRefused :=
  vaneWrite_aborts hw (fun _ e => by rw [← Option.some.inj e, hv]) (ringCfgWrite_reserved hr h0)
theorem ringDisable_drains (hv : (s.epochRec (.ring n)).epoch = v.epoch) (hw : Write s v (ringCfgObj n) (leBytes 32 (c / 2 * 2)))
    (hr : ringRangeOk (ringCfgOf (c / 2 * 2)) = true) (h0 : (ringCfgOf (c / 2 * 2)).rsvd = 0) (hst : (s.ring n).st = .running)
    (hc : ringCfgOf (c / 2 * 2) = { (s.ring n).cfg with enable := false }) :
    ∃ w : State, Accepts (.ringDisable v n c) v s w ∧ (w.ring n).st = .draining ∧ (w.ring n).cfg = ringCfgOf (c / 2 * 2) ∧ w.pool = s.pool := by
  have hacc := vaneWrite_accepts hw (u := some (.ring n)) (fun _ e => by rw [← Option.some.inj e, hv])
    (ringCfgWrite_drains hr h0 (by simpa using hst) (by simpa using hc))
  refine ⟨_, hacc, ?_⟩
  rw [ringDrain_of_running (by simpa using hst)]
  refine ⟨by simp, by simp [hc], by simp [State.cmdChange]⟩
theorem ringConfigure_accepts (hv : (s.epochRec (.ring n)).epoch = v.epoch) (hw : Write s v (ringCfgObj n) (leBytes 32 (c / 2 * 2)))
    (hr : ringRangeOk (ringCfgOf (c / 2 * 2)) = true) (h0 : (ringCfgOf (c / 2 * 2)).rsvd = 0) (hst : (s.ring n).st = .disabled)
    (hok : s.ringCfgOk n (ringCfgOf (c / 2 * 2)) = true) :
    Accepts (.ringConfigure v n c) v s (s.modRing n (fun r => { r with cfg := ringCfgOf (c / 2 * 2) })) := by
  obtain ⟨t, ht, hans, hm⟩ := vaneWrite_accepts hw (u := some (.ring n)) (fun _ e => by rw [← Option.some.inj e, hv])
    (ringCfgWrite_configures hr h0 (by simpa using hst) (by simpa using hok) (ringCfgOf_enable_even c))
  exact ⟨t, ht, hans, (((countDatagram_mgmt _ _).trans (setMg_mgmt _ _ _)).modRing n _).trans hm⟩
/-- A ring that is restarted runs from the index of its RESTART, while no node is absent (R78). -/
theorem restartRing_ring (h : s.absent = []) : ((s.restartRing n x).ring n).st = .running ∧ ((s.restartRing n x).ring n).cmplTail = x ∧
    ((s.restartRing n x).ring n).work = [] ∧ ((s.restartRing n x).ring n).cfg = (s.ring n).cfg := by
  obtain ⟨i, l, b, k, hring⟩ := fetchNext_ring (s := (s.cmdChange (.ring n) (fun t => t.modRing n (fun y =>
    { y with st := .running, head := x, cmplTail := x, fetched := [], work := [], resuming := true }))).clearWaits n) n (by
      simp [State.clearWaits, State.modXl, State.cmdChange, h])
  rw [State.restartRing, hring]
  simp
theorem restartRing_moved (s : State) (n x : Nat) : Moved s (s.restartRing n x) :=
  (((modRing_moved s n _).trans (.of_mgmt (cmdChange_mgmt _ _ _))).trans (modXl_moved _ _)).trans (fetchNext_moved _ n)
theorem restart_accepts (hv : (s.epochRec (.ring n)).epoch = v.epoch) (hx : x < 2 ^ 32) (hw : Write s v (ringCtlObj n) (leBytes 8 (1 + 2 ^ 32 * x)))
    (hok : s.restartOk n x = true) : Accepts (.restart v n x) v s ((s.countDatagram v.sess).restartRing n x) := by
  have hacc := vaneWrite_accepts hw (u := some (.ring n)) (fun _ e => by rw [← Option.some.inj e, hv])
    (ringCtlWrite_restarts (s := s.countDatagram v.sess) (n := n) hx (by simpa using hok))
  simpa only [Accepts, exec, execRestart, Nat.mod_eq_of_lt hx] using hacc
theorem restart_aborts (hv : (s.epochRec (.ring n)).epoch = v.epoch) (hx : x < 2 ^ 32) (hw : Write s v (ringCtlObj n) (leBytes 8 (1 + 2 ^ 32 * x)))
    (hst : (s.ring n).st ≠ .halted) : Aborts (.restart v n x) v s abortRefused := by
  have habt := vaneWrite_aborts hw (u := some (.ring n)) (fun _ e => by rw [← Option.some.inj e, hv])
    (ringCtlWrite_refuses (s := s.countDatagram v.sess) (n := n) hx (by simpa using hst))
  simpa only [Aborts, exec, execRestart, Nat.mod_eq_of_lt hx] using habt
end

-- Doorbells of a RUNNING ring whose context is ACTIVE (R66)
section
variable {s : State} {n x : Nat}

theorem doorbell_tail (hst : (s.ring n).st = .running) (hc : (s.ctx (s.ring n).cfg.ctx).st = .active) (hx : x < 2 ^ 32)
    (hd : idxSub x (s.ring n).head ≤ (s.ring n).depth) : s.doorbell n 0 x 4 = (s.modRing n (fun y => { y with tail := x })).fetchNext n := by
  rw [State.doorbell, Nat.mod_eq_of_lt hx]
  simp [hst, hc, hd]
theorem doorbell_cmplHead (hst : (s.ring n).st = .running) (hc : (s.ctx (s.ring n).cfg.ctx).st = .active) (hx : x < 2 ^ 32)
    (hd : idxSub (s.ring n).cmplTail x ≤ (s.ring n).depth) : s.doorbell n 8 x 8 = s.modRing n (fun y => { y with cmplHead := x }) := by
  rw [State.doorbell, Nat.mod_eq_of_lt hx]
  simp [hst, hc, hd]
theorem doorbell_width (off : Nat) {w : Nat} (h4 : w ≠ 4) (h8 : w ≠ 8) : s.doorbell n off x w = s.dbIgnore := by
  simp [State.doorbell, h4, h8]
end

/-- Settles O43: each write of RING.CFG or RING.CTL comes to its object and does there what `ringCfgWrite` and `ringCtlWrite` say; a RESTART's fetch changes neither
the ring's state nor its configuration. -/
theorem ringConfiguration : Obligations.RingConfiguration := by
  refine ⟨fun s v n c hv => ⟨ringEnable_accepts hv, ringEnable_reserved_aborts hv, ringDisable_drains hv, ringConfigure_accepts hv, ?_, ?_⟩,
    fun s n x hst hc hx => ⟨fun hd => ?_, fun hd => ?_, fun w h4 h8 => ⟨?_, ?_⟩⟩⟩
  · intro x hx hw hst htail hcmpl habs
    refine ⟨_, restart_accepts hv hx hw (by simp [State.restartOk, hst, htail, hcmpl]), ?_⟩
    obtain ⟨hrun, hct, hwork, hcfg⟩ := restartRing_ring (s := s.countDatagram v.sess) (n := n) (x := x) (by simpa using habs)
    exact ⟨hrun, hct, hwork, by simpa using hcfg, by simpa using (restartRing_moved (s.countDatagram v.sess) n x).pool⟩
  · exact fun x => restart_aborts hv
  · exact congrArg _ (doorbell_tail hst hc hx hd)
  · exact congrArg _ (doorbell_cmplHead hst hc hx hd)
  · exact congrArg _ (doorbell_width 0 h4 h8)
  · exact congrArg _ (doorbell_width 8 h4 h8)

end Sys2Proof.Machine
end

section
/-! What a slice's choice changes (R79): the deficits of rings and its own account; the descriptor chosen is the one that the ring can start. -/

namespace Sys2Proof.Machine
open Sys2Proof

/-- `u` differs from `s` only in the deficits of rings and in what slices have served. -/
def Paid (s u : State) : Prop :=
  ∃ rings slices, (∀ n, ∃ d, tget {} rings n = { s.ring n with deficit := d }) ∧ u = { s with mov := { s.mov with rings := rings, slices := slices } }
theorem Paid.refl (s : State) : Paid s s := ⟨s.mov.rings, s.mov.slices, fun n => ⟨(s.ring n).deficit, rfl⟩, rfl⟩
theorem Paid.trans {s t u : State} (h : Paid s t) (g : Paid t u) : Paid s u := by
  obtain ⟨r, l, hr, rfl⟩ := h
  obtain ⟨r', l', hr', rfl⟩ := g
  refine ⟨r', l', fun n => ?_, rfl⟩
  obtain ⟨d, hd⟩ := hr n
  obtain ⟨d', hd'⟩ := hr' n
  refine ⟨d', hd'.trans ?_⟩
  show { tget {} r n with deficit := d' } = _
  rw [hd]
theorem Paid.ring {s u : State} (h : Paid s u) (n : Nat) : ∃ d, u.ring n = { s.ring n with deficit := d } := by
  obtain ⟨r, l, hr, rfl⟩ := h
  exact hr n
/-- What a slice's choice leaves alone. -/
theorem Paid.keeps {s u : State} (h : Paid s u) :
    u.clk = s.clk ∧ u.xl = s.xl ∧ u.pool = s.pool ∧ u.sec = s.sec ∧ u.ops = s.ops ∧ u.tbl = s.tbl ∧ u.absent = s.absent ∧ u.reqs = s.reqs ∧
    u.reqTimeout = s.reqTimeout := by
  obtain ⟨r, l, hr, rfl⟩ := h
  exact ⟨rfl, rfl, rfl, rfl, rfl, rfl, rfl, rfl, rfl⟩
theorem Paid.moved {s u : State} (h : Paid s u) : Moved s u := by
  obtain ⟨r, l, hr, rfl⟩ := h
  exact mov_moved _ _
theorem slices_paid (s : State) (l : Tab Slice) : Paid s { s with mov := { s.mov with slices := l } } :=
  ⟨s.mov.rings, l, fun n => ⟨(s.ring n).deficit, rfl⟩, rfl⟩
theorem deficit_paid (s : State) (n : Nat) (f : Ring → Nat) : Paid s (s.modRing n (fun r => { r with deficit := f r })) := by
  refine ⟨_, s.mov.slices, fun m => ?_, rfl⟩
  rw [tget_tmod]
  split
  · next h => exact ⟨f (s.ring n), by rw [h]; rfl⟩
  · exact ⟨(s.ring m).deficit, rfl⟩
theorem drrPick_paid {s : State} {k n : Nat} {l : List Nat} {t u : State} (h : drrPick s k l t = some (n, u)) : Paid t u := by
  induction k generalizing l t with
  | zero => simp [drrPick] at h
  | succ k ih =>
    cases l with
    | nil => simp [drrPick] at h
    | cons m r =>
      rw [drrPick] at h
      split at h
      · exact ih h
      · split at h
        · cases h
          exact .refl _
        · exact (deficit_paid _ m (fun x => x.deficit + x.cfg.weight * 65536)).trans (ih h)
/-- A slice's choice: the descriptor that the ring can start, and the state once that has been paid for. -/
theorem pick_spec {s u : State} {g n : Nat} {w : Work} (h : s.pick g = some (n, w, u)) : s.startable n = some w ∧ Paid s u := by
  unfold State.pick at h
  split at h
  · cases h
  · dsimp only at h
    split at h
    · cases h
    · next hdrr =>
      split at h
      · cases h
      · next hstart =>
        cases h
        exact ⟨hstart, ((drrPick_paid hdrr).trans (deficit_paid _ _ _)).trans (slices_paid _ _)⟩
theorem picked_paid {s u : State} {n op : Nat} {w : Work} (h : s.picked n op = some (w, u)) : Paid s u := by
  unfold State.picked at h
  split at h
  · next hpick =>
    split at h
    · cases h
      exact (pick_spec hpick).2
    · cases h
  · cases h
theorem startable_mem {s : State} {n : Nat} {w : Work} (h : s.startable n = some w) : w ∈ (s.ring n).work := by
  unfold State.startable at h
  split at h
  · cases h
  · exact List.mem_of_find?_eq_some h

end Sys2Proof.Machine
end

section
/-! What a descriptor starts with (R71 to R73, R79, R226). -/

namespace Sys2Proof.Machine
open Sys2Proof

theorem work_modWork (s : State) (n idx : Nat) (f : Work → Work) :
    ((s.modWork n idx f).ring n).work = (s.ring n).work.map (fun w => if w.idx == idx then f w else w) := by
  simp [State.modWork]
@[simp] theorem modWork_cfg (s : State) (n idx : Nat) (f : Work → Work) (m : Nat) : ((s.modWork n idx f).ring m).cfg = (s.ring m).cfg := by
  rw [State.modWork, ring_modRing]
  split
  · next h => rw [h]
  · rfl
theorem work_countHits (s : State) (n idx k : Nat) :
    ((s.countHits n idx k).ring n).work = (s.ring n).work.map (fun w => if w.idx == idx then { w with missed := 0 } else w) := by
  simp [State.countHits, State.modWork]
theorem find_work_of_single {s : State} {n : Nat} {w : Work} (h : (s.ring n).work = [w]) : s.work n w.idx = some w := by
  simp [State.work, h]

/-- A descriptor with its snapshot taken from these translations, under this generation of its context (R72). -/
def Work.withSnap (w : Work) (a b : MTrans) (g : Nat) : Work :=
  { w with
    snapSrc := a.fa, snapDst := b.fa, srcPg := a.pg, dstPg := b.pg, srcAt := a.attr, dstAt := b.attr, xgen := g, snapped := true, snapOk := true,
    snapOut := true }
/-- The write of a descriptor's snapshot to bytes 64 to 95 of its slot (R72). -/
def snapTxn (r : Ring) (n : Nat) (w : Work) : Txn :=
  { ty := .wr, size := 31, ctx := r.cfg.ctx, flow := n % 8, addr := r.cfg.descBase + 128 * (w.idx % r.depth) + 64, data := snapBytes w }

section
variable {s : State} {n : Nat} {w : Work} {a b : MTrans}

theorem snapshot_eq (hwork : (s.ring n).work = [w]) (hst : w.status = none) (hsn : w.snapped = false) (hacq : s.acquiring n = false)
    (hfault : s.opFault n w 0 = none) (hops : s.operands n w 0 = (some a, some b)) :
    s.snapshot n w.idx =
      ((s.countHits n w.idx w.cvas).modWork n w.idx (fun _ => { w.withSnap a b (tget 0 s.xl.xgen (s.ring n).cfg.ctx) with missed := 0 })).issue
        (snapTxn (s.ring n) n (w.withSnap a b (tget 0 s.xl.xgen (s.ring n).cfg.ctx))) (.snapWrite n w.idx) s.reqTimeout := by
  have hgo : ¬(w.snapped || w.status.isSome || s.acquiring n) = true := by simp [hst, hsn, hacq]
  unfold State.snapshot
  rw [find_work_of_single hwork]
  dsimp only
  rw [if_neg hgo, hfault, hops]
  rfl
theorem snapTxn_missed (r : Ring) (n k : Nat) (w : Work) : snapTxn r n { w with missed := k } = snapTxn r n w := rfl
/-- The snapshot that a ring's one descriptor takes: the descriptor holds it, and its write is issued. -/
theorem snapshot_takes (hwork : (s.ring n).work = [w]) (hst : w.status = none) (hsn : w.snapped = false) (hacq : s.acquiring n = false)
    (hfault : s.opFault n w 0 = none) (hops : s.operands n w 0 = (some a, some b)) :
    ∃ g y, y = { w.withSnap a b g with missed := 0 } ∧ ((s.snapshot n w.idx).ring n).work = [y] ∧ Moved s (s.snapshot n w.idx) ∧
      Issues s (s.snapshot n w.idx) (snapTxn (s.ring n) n y) (.snapWrite n w.idx) := by
  refine ⟨tget 0 s.xl.xgen (s.ring n).cfg.ctx, _, rfl, ?_⟩
  rw [snapshot_eq hwork hst hsn hacq hfault hops, snapTxn_missed]
  have hm := (countHits_moved s n w.idx w.cvas).trans
    (modWork_moved _ n w.idx (fun _ => { w.withSnap a b (tget 0 s.xl.xgen (s.ring n).cfg.ctx) with missed := 0 }))
  refine ⟨?_, hm.trans (issue_moved _ _ _ _), hm.issues _ _⟩
  rw [(issue_sent _ _ _ _).ring, work_modWork, work_countHits, hwork]
  simp
/-- A descriptor that has more to move, and has not failed, goes on. -/
theorem tileCheck_goesOn (hwork : (s.ring n).work = [w]) (hf : w.fails = []) (hnext : w.next ≠ w.d.len) : s.tileCheck n w.idx = s := by
  unfold State.tileCheck
  rw [find_work_of_single hwork]
  simp [hf, hnext]
/-- A COPY or FILL without a signal ends OK when all of it has been moved. -/
theorem tileCheck_ends (hwork : (s.ring n).work = [w]) (hf : w.fails = []) (hst : w.status = none) (hop : w.d.opcode = 1 ∨ w.d.opcode = 2)
    (htiles : w.tiles.all ETile.over = true) (hnext : w.next = w.d.len) (hsig : w.d.signal = false) :
    s.tileCheck n w.idx = s.modWork n w.idx (fun y => { y with status := some .ok, bytesDone := donePrefix w }) := by
  unfold State.tileCheck
  rw [find_work_of_single hwork]
  rcases hop with hop | hop <;> simp [hf, hst, hop, htiles, hnext, hsig]
end

-- NOP, COPY, FILL and ATOMIC
section
variable {s u : State} {n : Nat} {w : Work}

theorem execNop_picked (h : s.picked n 0 = some (w, u)) :
    execNop n s = .next (if w.d.signal then u.modWork n w.idx (fun y => { y with next := 1 }) else u.finish n w.idx .ok) := by
  rw [execNop, h]
theorem execCopy_single (hwork : (s.ring n).work = [w]) (hop : w.d.opcode = 1) (hst : w.status = none) (hsn : w.snapped = false) :
    execCopy n s = .next (s.snapshot n w.idx) := by
  simp [execCopy, hwork, hop, hst, hsn]
theorem execFill_single (hwork : (s.ring n).work = [w]) (hop : w.d.opcode = 2) (hst : w.status = none) (hsn : w.snapped = false) :
    execFill n s = .next ((s.snapshot n w.idx).tileCheck n w.idx) := by
  simp [execFill, hwork, hop, hst, hsn]
theorem execAtomic_single (hwork : (s.ring n).work = [w]) (hop : w.d.opcode = 3) (hst : w.status = none) (hsn : w.snapped = false) :
    execAtomic n s = .next (s.snapshot n w.idx) := by
  simp [execAtomic, hwork, hop, hst, hsn]
/-- The first engine tile of a descriptor, and an atomic, take the translations of a snapshot that no withdrawal has matched (R107). -/
theorem tileXlate_snap (s : State) (n : Nat) (h : w.snapOk = true) :
    s.tileXlate n w 0 = some ({ fa := w.snapSrc, pg := w.srcPg, attr := w.srcAt }, { fa := w.snapDst, pg := w.dstPg, attr := w.dstAt }) := by
  simp [State.tileXlate, h]
theorem execAtomic_picked (hnone : (s.ring n).work.find? (fun w => w.d.opcode == 3 && w.status.isNone && !w.snapped) = none)
    (h : s.picked n 3 = some (w, u)) (hok : w.snapOk = true) :
    execAtomic n s = .next (u.atomicIssue n w { fa := w.snapDst, pg := w.dstPg, attr := w.dstAt }) := by
  rw [execAtomic, hnone]
  simp only [h, tileXlate_snap s n hok]
theorem atomicIssue_moved (s : State) (n : Nat) (w : Work) (b : MTrans) : Moved s (s.atomicIssue n w b) := by
  unfold State.atomicIssue
  dsimp only
  split
  · exact (modWork_moved _ _ _ _).trans (issue_moved _ _ _ _)
  · exact ((countHits_moved _ _ _ _).trans (modWork_moved _ _ _ _)).trans (issue_moved _ _ _ _)
/-- The atomic that is issued once the slice has paid is the atomic of the state before. -/
theorem atomicIssue_issues (hp : Paid s u) (hok : w.snapOk = true) (b : MTrans) :
    Issues s (u.atomicIssue n w b) {
      ty := .atom, akind := if b.attr.isSome then 3 else 0, home := b.attr, size := w.d.atop, ctx := (s.ring n).cfg.ctx, flow := n % 8,
      addr := b.fa % 2 ^ 57, data := atomicPayload w.d } (.atomicDesc n w.idx) := by
  obtain ⟨_, _, _, _, _, _, _, _, hto⟩ := hp.keeps
  obtain ⟨d, hring⟩ := hp.ring n
  unfold State.atomicIssue
  simp only [hok, if_true, hring, hto]
  exact (hp.moved.trans (modWork_moved _ _ _ _)).issues _ _
end

-- OP_LAUNCH (R226, R228, R235)
/-- What an OP_LAUNCH arms: its entry, its number of runs and its first run, for a start slot. -/
def State.launchInst (s : State) (n : Nat) (w : Work) (start : Nat) : Inst :=
  { st := .armed, status := (s.inst (field w.d.oparg 0 12)).status, entry := opsEntryAt s.opsActive (field w.d.oparg 0 12),
    kgen := (s.ctx (opsEntryAt s.opsActive (field w.d.oparg 0 12)).ctx).kgen, slot := s.slot, ring := n, descIdx := w.idx,
    nruns := field w.d.oparg 16 16, runBase := field w.d.oparg 96 32, run := field w.d.oparg 96 32, startSlot := start }
/-- An OP_LAUNCH under way, in place of an engine tile. -/
def State.launching (u : State) (n : Nat) (w : Work) : State :=
  u.modWork n w.idx (fun y => { y with tiles := [{ no := 0, start := 0, len := 0, src := 0, dst := 0, ended := true }] })

section
variable {s u : State} {n : Nat} {w : Work}

theorem execOpLaunch_noRuns (h : s.picked n 0x10 = some (w, u)) (hr : field w.d.oparg 16 16 = 0) :
    execOpLaunch n s = .next (u.modWork n w.idx (fun y => { y with status := some .malformed })) := by
  simp [execOpLaunch, h, hr, State.finish]
theorem execOpLaunch_arms {b : Nat} (h : s.picked n 0x10 = some (w, u)) (h12 : field w.d.oparg 12 4 = 0) (h72 : field w.d.oparg 72 24 = 0)
    (h128 : field w.d.oparg 128 128 = 0) (hr : field w.d.oparg 16 16 ≠ 0) (hk0 : (opsEntryAt s.opsActive (field w.d.oparg 0 12)).opkind ≠ 0)
    (hk9 : (opsEntryAt s.opsActive (field w.d.oparg 0 12)).opkind < 9)
    (hctx : (s.ring n).cfg.ctx = (opsEntryAt s.opsActive (field w.d.oparg 0 12)).ctx) (hen : s.ops.enable = true) (hph : s.dev.phase ≠ .drain)
    (hidle : (s.inst (field w.d.oparg 0 12)).st = .idle)
    (hstart : (if s.opsActive.version == 0 then some s.slot else s.runStartSlot s.opsActive (field w.d.oparg 0 12) (field w.d.oparg 32 40)) = some b) :
    execOpLaunch n s = .next
      (if ((u.launching n w).modInst (field w.d.oparg 0 12) (fun _ => s.launchInst n w b)).onDefault (s.launchInst n w b) then
        ((u.launching n w).modInst (field w.d.oparg 0 12) (fun _ => s.launchInst n w b)).startRun (field w.d.oparg 0 12)
      else (u.launching n w).modInst (field w.d.oparg 0 12) (fun _ => s.launchInst n w b)) := by
  have hform : ¬(field w.d.oparg 12 4 != 0 || field w.d.oparg 72 24 != 0 || field w.d.oparg 128 128 != 0 || field w.d.oparg 16 16 == 0 ||
      (opsEntryAt s.opsActive (field w.d.oparg 0 12)).opkind == 0 || (opsEntryAt s.opsActive (field w.d.oparg 0 12)).opkind ≥ 9 ||
      (some b).isNone) = true := by
    simp [h12, h72, h128, hr, hk0, hk9]
  have hown : ¬((s.ring n).cfg.ctx != (opsEntryAt s.opsActive (field w.d.oparg 0 12)).ctx && (s.ring n).cfg.ctx != 0) = true := by simp [hctx]
  have hbusy : ¬(!s.ops.enable || s.dev.phase == .drain || (s.inst (field w.d.oparg 0 12)).st != .idle) = true := by simp [hen, hph, hidle]
  unfold execOpLaunch
  rw [h]
  dsimp only
  rw [hstart, if_neg hform, if_neg hown, if_neg hbusy]
  rfl
end

theorem opsActive_version (s : State) : s.opsActive.version = s.tbl.active.version := by
  unfold State.opsActive
  split <;> rfl
/-- A run that no switch-over has overtaken goes by the image in force. -/
theorem onDefault_of_current (s : State) {x : Inst} (h : x.retiring = false) : s.onDefault x = (s.opsActive.version == 0) := by
  simp [State.onDefault, State.opsImg, h]
/-- While no node is absent a run that begins is RUNNING in phase 0. -/
theorem startRun_inst {s : State} (i : Nat) (h : s.absent = []) : (s.startRun i).pool = s.pool ∧ (s.startRun i).inst i =
    { s.inst i with st := .running, slot := s.slot, credit := s.onDefault (s.inst i) || !s.rt.scheduled, phaseSince := s.clk, phase := 0 } := by
  unfold State.startRun
  dsimp only
  rw [h]
  exact ⟨rfl, by simp [State.setInst, State.slot]⟩

section
variable {s u : State} {n : Nat} {w : Work}

theorem launching_onDefault (hp : Paid s u) (i b : Nat) :
    ((u.launching n w).modInst i (fun _ => s.launchInst n w b)).onDefault (s.launchInst n w b) = (s.opsActive.version == 0) := by
  obtain ⟨_, _, _, _, _, htbl, _⟩ := hp.keeps
  rw [onDefault_of_current _ rfl, opsActive_version, opsActive_version s, ← htbl]
  rfl
end

/-- Settles O44: a slice's choice changes only what its rings have paid, so what is chosen is done as in the state before; a snapshot is taken and its write issued,
after which COPY, FILL and ATOMIC wait but for a FILL of length 0. -/
theorem descriptorsBegin : Obligations.DescriptorsBegin := by
  refine ⟨fun s u n w h => ⟨fun hsig => ?_, fun hsig => ?_⟩, fun s n w a b hwork hst hsn hf hacq hfault hops c hc => ?_,
    fun s n w b hwork hst hsn hf hacq hfault hop hopc hlen hnext htiles hsig => ?_, fun s u n w hnone h hok => ?_,
    fun s u n w h => ⟨execOpLaunch_noRuns h, fun i en hi h12 h72 h128 hr hen hk0 hk9 hctx hon hph hidle => ?_⟩⟩
  · exact (execNop_picked h).trans (by rw [hsig]; rfl)
  · exact (execNop_picked h).trans (by rw [hsig]; rfl)
  · obtain ⟨g, y, rfl, hy, hm, hiss⟩ := snapshot_takes hwork hst hsn hacq hfault hops
    have hexec : exec c s = .next (s.snapshot n w.idx) := by
      rcases hc with ⟨rfl, hop⟩ | ⟨rfl, hop, hnext⟩ | ⟨rfl, hop⟩
      · exact execCopy_single hwork hop hst hsn
      · have hgoesOn := tileCheck_goesOn hy hf hnext
        exact (execFill_single hwork hop hst hsn).trans (congrArg _ hgoesOn)
      · exact execAtomic_single hwork hop hst hsn
    exact ⟨_, _, hexec, hy, rfl, rfl, rfl, rfl, rfl, rfl, hst, hm.pool, hiss⟩
  · have hops : s.operands n w 0 = (some { fa := 0 }, some b) := by
      simp [State.operands, Work.hasSrc, Work.hasDst, Work.dstNeed, hopc, hop]
    obtain ⟨g, y, rfl, hy, hm, _⟩ := snapshot_takes hwork hst hsn hacq hfault hops
    have hend := tileCheck_ends hy hf hst (.inr hopc) (by simp [Work.withSnap, htiles]) (hnext.trans hlen.symm) hsig
    have hexec := (execFill_single hwork hopc hst hsn).trans (congrArg _ hend)
    refine ⟨_, _, hexec, (work_modWork _ _ _ _).trans ((congrArg _ hy).trans (congrArg (fun x => [x]) (if_pos (beq_self_eq_true _)))), rfl, rfl, hm.pool⟩
  · exact ⟨_, execAtomic_picked hnone h hok, ((picked_paid h).moved.trans (atomicIssue_moved _ _ _ _)).pool, atomicIssue_issues (picked_paid h) hok _⟩
  · subst hi hen
    have hp := picked_paid h
    obtain ⟨_, _, hpool, _, _, _, habs, _⟩ := hp.keeps
    refine ⟨fun hv habsent => ?_, fun b hv hb => ?_⟩
    · have hexec := execOpLaunch_arms h h12 h72 h128 hr hk0 hk9 hctx hon hph hidle (b := s.slot) (by simp [hv])
      have hdef := (launching_onDefault (n := n) (w := w) hp (field w.d.oparg 0 12) s.slot).trans (by rw [hv]; rfl : _ = true)
      rw [if_pos hdef] at hexec
      obtain ⟨hsame, hinst⟩ := startRun_inst (s := (u.launching n w).modInst (field w.d.oparg 0 12) (fun _ => s.launchInst n w s.slot))
        (field w.d.oparg 0 12) (habs.trans habsent)
      rw [inst_modInst, if_pos rfl, hdef] at hinst
      exact ⟨_, hexec, by rw [hinst, hsame]; exact ⟨rfl, rfl, rfl, rfl, rfl, rfl, rfl, hpool⟩⟩
    · have hexec := execOpLaunch_arms h h12 h72 h128 hr hk0 hk9 hctx hon hph hidle (b := b) (by simp [hv, hb])
      rw [launching_onDefault hp, if_neg (by simpa using hv)] at hexec
      exact ⟨_, hexec, by simp [State.launchInst, State.launching, State.modWork, hpool]⟩

end Sys2Proof.Machine
end

section
/-! Engine tiles (R73, R79): where the tiles of a ring's descriptors lie, and what starting one and issuing its lines leaves of that. -/

namespace Sys2Proof.Machine
open Sys2Proof

/-- Where a tile lies: its transfer position, its length, and the addresses of both sides. -/
def ETile.place (t : ETile) : Nat × Nat × Nat × Nat := (t.start, t.len, t.src, t.dst)
/-- How far a descriptor has been divided into tiles, and where these lie. -/
def Work.placed (w : Work) : Nat × Nat × List (Nat × Nat × Nat × Nat) := (w.idx, w.next, w.tiles.map ETile.place)
def State.places (s : State) (n : Nat) : List (Nat × Nat × List (Nat × Nat × Nat × Nat)) := (s.ring n).work.map Work.placed

theorem places_of_ring {s t : State} {n : Nat} (h : t.ring n = s.ring n) : t.places n = s.places n := by
  rw [State.places, State.places, h]
theorem places_modWork (s : State) (n idx : Nat) {f : Work → Work} (h : ∀ w, (f w).placed = w.placed) : (s.modWork n idx f).places n = s.places n := by
  rw [State.places, State.places, work_modWork, List.map_map]
  refine List.map_congr_left fun w _ => ?_
  show (if w.idx == idx then f w else w).placed = w.placed
  split
  · exact h w
  · rfl
theorem places_issue (s : State) (t : Txn) (who : Purpose) (timeout n : Nat) : (s.issue t who timeout).places n = s.places n :=
  places_of_ring ((issue_sent _ _ _ _).ring n)
theorem places_countHits (s : State) (n idx k : Nat) : (s.countHits n idx k).places n = s.places n := places_modWork _ _ _ (fun _ => rfl)
theorem failEnd_placed (w : Work) : w.failEnd.placed = w.placed := by
  unfold Work.failEnd
  split <;> rfl
theorem places_tileCheck (s : State) (n idx : Nat) : (s.tileCheck n idx).places n = s.places n := by
  unfold State.tileCheck
  split
  · rfl
  · dsimp only
    split
    · exact places_modWork _ _ _ failEnd_placed
    · split
      · split
        · exact places_modWork _ _ _ (fun _ => rfl)
        · exact places_modWork _ _ _ (fun _ => rfl)
      · rfl
theorem tileCheck_moved (s : State) (n idx : Nat) : Moved s (s.tileCheck n idx) := by
  unfold State.tileCheck
  split
  · exact .refl s
  · dsimp only
    split
    · exact modWork_moved _ _ _ _
    · split
      · split
        · exact modWork_moved _ _ _ _
        · exact modWork_moved _ _ _ _
      · exact .refl s
/-- Issuing a line moves no tile. -/
theorem issueLine_keeps (s : State) (n idx : Nat) (w : Work) (t : ETile) :
    Moved s (s.issueLine n idx w t) ∧ (s.issueLine n idx w t).places n = s.places n := by
  have hplaced : ∀ (f : ETile → ETile), (∀ y, (f y).place = y.place) → ∀ w : Work, ({ w with tiles := w.tiles.map f } : Work).placed = w.placed := by
    intro f hf w
    simp [Work.placed, Function.comp_def, hf]
  unfold State.issueLine
  dsimp only
  split
  · refine ⟨(modWork_moved _ _ _ _).trans (issue_moved _ _ _ _), (places_issue _ _ _ _ _).trans (places_modWork _ _ _ (hplaced _ fun y => ?_))⟩
    split <;> rfl
  · refine ⟨(modWork_moved _ _ _ _).trans (issue_moved _ _ _ _), (places_issue _ _ _ _ _).trans (places_modWork _ _ _ (hplaced _ fun y => ?_))⟩
    split <;> rfl
theorem issueTile_keeps (n idx no k : Nat) (s : State) : Moved s (issueTile n idx no k s) ∧ (issueTile n idx no k s).places n = s.places n := by
  induction k generalizing s with
  | zero => exact ⟨.refl s, rfl⟩
  | succ k ih =>
    unfold issueTile
    split
    · exact ⟨.refl s, rfl⟩
    · next w _ =>
      split
      · exact ⟨.refl s, rfl⟩
      · next t _ =>
        split
        · exact ⟨.refl s, rfl⟩
        · obtain ⟨hm, hp⟩ := issueLine_keeps s n idx w t
          obtain ⟨hm', hp'⟩ := ih (s.issueLine n idx w t)
          exact ⟨hm.trans hm', hp'.trans hp⟩

/-- `t` differs from `s` only in the translations of the package and the telemetry of its tiles. -/
def Xlated (s t : State) : Prop := ∃ x l, t = { s with xl := x, tel := l }
theorem Xlated.refl (s : State) : Xlated s s := ⟨s.xl, s.tel, rfl⟩
theorem Xlated.trans {s t u : State} (h : Xlated s t) (g : Xlated t u) : Xlated s u := by
  obtain ⟨x, l, rfl⟩ := h
  obtain ⟨x', l', rfl⟩ := g
  exact ⟨x', l', rfl⟩
theorem Xlated.moved {s t : State} (h : Xlated s t) : Moved s t := by
  obtain ⟨x, l, rfl⟩ := h
  exact ⟨s.mov, x, s.reqs, s.dev, s.vane, s.evt, s.out, l, s.ports, s.sw, s.xact, s.win, .inl rfl, fun _ => rfl, rfl⟩
theorem Xlated.ring {s t : State} (h : Xlated s t) (n : Nat) : t.ring n = s.ring n := by
  obtain ⟨x, l, rfl⟩ := h
  rfl
theorem foldl_xlated {α : Type} (f : State → α → State) (h : ∀ s x, Xlated s (f s x)) (l : List α) (s : State) : Xlated s (l.foldl f s) := by
  induction l generalizing s with
  | nil => exact .refl s
  | cons x r ih => exact (h s x).trans (ih _)
theorem modXl_xlated (s : State) (f : Xl → Xl) : Xlated s (s.modXl f) := ⟨f s.xl, s.tel, rfl⟩
theorem countMiss_xlated (s : State) (tile : Nat) : Xlated s (s.countMiss tile) := ⟨_, _, rfl⟩
theorem addMiss_xlated {s t : State} {d : Nat} {m : Miss} (h : s.addMiss d m = some t) : Xlated s t := by
  unfold State.addMiss at h
  dsimp only at h
  split at h
  · cases h
    exact modXl_xlated _ _
  · split at h
    · obtain ⟨w, _, rfl⟩ := Option.map_eq_some_iff.mp h
      exact modXl_xlated _ _
    · split at h
      · cases h
      · cases h
        exact modXl_xlated _ _
theorem addMiss_getD_xlated (s : State) (d : Nat) (m : Miss) : Xlated s ((s.addMiss d m).getD s) := by
  cases h : s.addMiss d m with
  | none => exact .refl s
  | some t => exact addMiss_xlated h
theorem prefetch_xlated (s : State) (n : Nat) (w : Work) (x : Nat) : Xlated s (s.prefetch n w x) := by
  unfold State.prefetch
  dsimp only
  refine foldl_xlated _ (fun t i => ?_) _ _
  have hone : ∀ (t : State) (va : Nat) (wr : Bool), Xlated t
      (if (t.lookup (n % 256) (s.ring n).cfg.ctx va).isSome then t.modXl (fun y => { y with hits := y.hits + 1 })
       else ((t.countMiss (n % 256)).addMiss (n % 256 / 64)
         { ctx := (s.ring n).cfg.ctx, va := va / 2 ^ 21 * 2 ^ 21, wr := wr, since := t.clk, waiters := [.prefetch (n % 256)] }).getD (t.countMiss (n % 256))) := by
    intro t va wr
    split
    · exact modXl_xlated _ _
    · exact (countMiss_xlated _ _).trans (addMiss_getD_xlated _ _ _)
  split
  · split
    · exact (hone _ _ _).trans (hone _ _ _)
    · exact hone _ _ _
  · split
    · exact hone _ _ _
    · exact .refl t

/-- A translation of a ring's operand is as before the slice has paid. -/
theorem Paid.tileXlate {s u : State} (h : Paid s u) (n : Nat) (w : Work) (x : Nat) : u.tileXlate n w x = s.tileXlate n w x := by
  obtain ⟨d, hring⟩ := h.ring n
  obtain ⟨r, l, hr, rfl⟩ := h
  unfold State.tileXlate State.operands
  rw [hring]
  rfl
/-- A tile that starts at the translated addresses reaches up to its boundary. -/
theorem startTile_starts {s : State} {n : Nat} {w : Work} {a b : MTrans} (hw : w ∈ (s.ring n).work) (hx : s.tileXlate n w w.next = some (a, b)) :
    Moved s (s.startTile n w.idx w) ∧ ∃ l, (w.idx, tileEnd w a.pg b.pg w.next, l) ∈ (s.startTile n w.idx w).places n ∧
      (w.next, tileEnd w a.pg b.pg w.next - w.next, a.fa, b.fa) ∈ l := by
  unfold State.startTile
  dsimp only
  rw [hx]
  dsimp only
  generalize hs0 : (if w.next == 0 && w.snapOk then s else s.countHits n w.idx w.cvas) = s0
  have h0 : Moved s s0 ∧ s0.places n = s.places n := by
    rw [← hs0]
    split
    · exact ⟨.refl s, rfl⟩
    · exact ⟨countHits_moved _ _ _ _, places_countHits _ _ _ _⟩
  have hpre := prefetch_xlated s0 n w w.next
  have hin : w.placed ∈ (s0.prefetch n w w.next).places n := by
    rw [places_of_ring (hpre.ring n), h0.2]
    exact List.mem_map_of_mem hw
  obtain ⟨y, hy, hyw⟩ := List.mem_map.mp hin
  have hidx : y.idx = w.idx := congrArg Prod.fst hyw
  refine ⟨((h0.1.trans hpre.moved).trans (modWork_moved _ _ _ _)).trans (issueTile_keeps _ _ _ _ _).1, ?_⟩
  rw [(issueTile_keeps _ _ _ _ _).2]
  refine ⟨y.tiles.map ETile.place ++ [(w.next, tileEnd w a.pg b.pg w.next - w.next, a.fa, b.fa)],
    List.mem_map.mpr ⟨_, by rw [work_modWork]; exact List.mem_map_of_mem hy, ?_⟩, by simp⟩
  rw [if_pos (by simpa using hidx)]
  exact Prod.ext hidx (Prod.ext rfl (List.map_append ..))
end Sys2Proof.Machine
end

section
/-! How the work of a ring ends (R64, R74 to R76, R79, R311): its tiles, its lines, its signals, its records and its drain. -/

namespace Sys2Proof.Machine
open Sys2Proof

-- ENGINE_TILE_START
section
variable {s u : State} {g n : Nat} {w : Work} {a b : MTrans}

theorem execEngineTileStart_picked (h : s.pick g = some (n, w, u)) (hsmall : w.smallReady = false) (hcut : w.tiles.find? (fun t => t.cut) = none)
    (hx : s.tileXlate n w w.next = some (a, b)) : execEngineTileStart g s = .next ((u.startTile n w.idx w).tileCheck n w.idx) := by
  have hsome : (s.tileXlate n w w.next).isSome = true := by simp [hx]
  rw [execEngineTileStart, h]
  dsimp only
  rw [if_neg (by simp [hsmall]), hcut]
  dsimp only
  rw [if_pos hsome]
/-- A descriptor's place says how far it has been divided, and where each of its tiles lies. -/
theorem of_mem_places {s : State} {n i x : Nat} {l : List (Nat × Nat × Nat × Nat)} {p : Nat × Nat × Nat × Nat} (h : (i, x, l) ∈ s.places n) (hp : p ∈ l) :
    ∃ y ∈ (s.ring n).work, y.idx = i ∧ y.next = x ∧ ∃ e ∈ y.tiles, e.place = p := by
  obtain ⟨y, hy, heq⟩ := List.mem_map.mp h
  cases heq
  obtain ⟨e, he, hep⟩ := List.mem_map.mp hp
  exact ⟨y, hy, rfl, rfl, e, he, hep⟩
end

-- MOVER_LINE_RESPONSE and MOVER_RETRY
theorem resuming_modWork (s : State) (n idx : Nat) (f : Work → Work) : ((s.modWork n idx f).ring n).resuming = (s.ring n).resuming := by
  simp [State.modWork]
theorem afterEnd_of_not_resuming {s : State} {n : Nat} (h : (s.ring n).resuming = false) : s.afterEnd n = s := by
  rw [State.afterEnd, if_neg (by simp [h])]
/-- A signal that has been performed: its descriptor is ended OK (R74). -/
def Work.signalled (w : Work) (r : Txn) : Work :=
  { w with
    sig := 2, status := some .ok, result := if w.d.sigAdd && w.d.opcode != 0x10 && w.d.opcode != 3 then leAt r.data 0 8 else w.result }
theorem execMoverLineResponse_signal {s : State} {g n i : Nat} {o : OutReq} {r : Txn} (ho : s.ownReq g = some o) (hr : o.resp = some r)
    (hwho : o.who = .signal n i) (hst : r.status = 0) (hres : (s.ring n).resuming = false) :
    execMoverLineResponse g s = .next ((s.endReq (s.poolNode * 1048576 + g)).modWork n i (fun w => w.signalled r)) := by
  have hafter := afterEnd_of_not_resuming (s := (s.endReq (s.poolNode * 1048576 + g)).modWork n i (fun w => w.signalled r)) (n := n)
    ((resuming_modWork _ _ _ _).trans hres)
  rw [← hafter]
  rw [State.ownReq] at ho
  unfold execMoverLineResponse
  dsimp only
  rw [ho]
  dsimp only
  rw [hr]
  dsimp only
  rw [hwho, hst]
  rfl
/-- After its wait a line under translations that hold is issued again (R76). -/
theorem retryReq_line {s : State} {key n i no pos len : Nat} {o : OutReq} (hwho : o.who = .moverRead n i no pos len ∨ o.who = .moverWrite n i no pos len)
    (hstale : s.staleLine o.who = false) (hacq : s.acquiring n = false) : s.retryReq key o = s.reissue key o := by
  rcases hwho with hwho | hwho <;> rw [hwho] at hstale <;> simp [State.retryReq, hwho, hstale, hacq, Purpose.ring?]
theorem ownReq_reissue (s : State) (g : Nat) (o : OutReq) : (s.reissue (s.poolNode * 1048576 + g) o).ownReq g =
    some { o with issuedAt := s.clk, resp := none, waitUntil := none, tries := o.tries + 1 } := by
  have hc := reissue_spec s (s.poolNode * 1048576 + g) o
  obtain ⟨_, _, _, _, _, _, _, _, hreqs, _⟩ := hc.keeps
  rw [State.ownReq, hreqs, hc.poolNode]
  exact (tfind_tset _ _ _ _).trans (if_pos rfl)
theorem execMoverRetry_due {s : State} {g x : Nat} {o : OutReq} (ho : s.ownReq g = some o) (hw : o.waitUntil = some x) (hx : x ≤ s.clk) :
    execMoverRetry g s = .next (s.retryReq (s.poolNode * 1048576 + g) o) := by
  rw [State.ownReq] at ho
  unfold execMoverRetry
  dsimp only
  rw [ho]
  dsimp only
  rw [hw]
  exact congrArg _ (if_pos hx)

-- DESCRIPTOR_SIGNAL, COMPLETION_RECORD and NOTIFICATION_VECTOR
/-- The store or fetch-add of a descriptor's signal at its translated address (R74). -/
def signalTxn (r : Ring) (n : Nat) (w : Work) (a : Nat) : Txn :=
  let t := { storeTxn r.cfg.ctx a w.d.sigValue 8 (n % 8) with home := none }
  if w.d.sigAdd then { t with ty := .atom, size := 0x10 } else t
theorem signalTxn_store {r : Ring} {n a : Nat} {w : Work} (h : w.d.sigAdd = false) :
    signalTxn r n w a = { storeTxn r.cfg.ctx a w.d.sigValue 8 (n % 8) with home := none } := if_neg (by simp [h])
theorem signalTxn_add {r : Ring} {n a : Nat} {w : Work} (h : w.d.sigAdd = true) :
    signalTxn r n w a = { storeTxn r.cfg.ctx a w.d.sigValue 8 (n % 8) with ty := .atom, size := 0x10, home := none } := if_pos h
/-- A ring's one descriptor whose signal may go is the descriptor whose signal goes. -/
theorem find_signal {r : Ring} {w : Work} (hst : r.st = .running) (hwork : r.work = [w]) (hd : w.d.signal = true) (hs : w.sig = 0) (hdone : w.dataDone = true) :
    r.work.find? (fun w => w.d.signal && w.sig == 0 && w.dataDone && mayRun r.work w.idx && r.goesOn w) = some w := by
  simp [hwork, hd, hs, hdone, mayRun, Ring.goesOn, hst]
theorem execDescriptorSignal_single {s : State} {n a b : Nat} {w : Work} (hst : (s.ring n).st = .running) (hwork : (s.ring n).work = [w])
    (hd : w.d.signal = true) (hs : w.sig = 0) (hdone : w.dataDone = true) (hout : s.ringOut n = false) (hbad : w.snapBad = none)
    (hop : s.operand n (s.ring n).cfg.ctx w.d.dstKind w.d.sigAddr (if w.d.sigAdd then 2 else 1) = some { fa := a, pg := b }) :
    execDescriptorSignal n s = .next (((s.countHits n w.idx w.d.dstKind).modWork n w.idx (fun w => { w with sig := 1 })).issue
      (signalTxn (s.ring n) n w a) (.signal n w.idx) s.reqTimeout) := by
  have hnoBad : (s.ring n).work.findSome? (fun x => x.snapBad) = none := by simp [hwork, hbad]
  unfold execDescriptorSignal
  dsimp only
  rw [find_signal hst hwork hd hs hdone]
  dsimp only
  rw [if_neg (by simp [hout]), hnoBad]
  dsimp only
  rw [hop]
  rfl
/-- The write of a descriptor's completion record (R75). -/
def recordTxn (r : Ring) (n : Nat) (w : Work) (st : Status) : Txn :=
  { ty := .wr, size := 31, ctx := r.cfg.ctx, flow := n % 8, addr := r.cfg.cmplBase + 32 * (w.idx % r.depth), data := recordBytes r w st }
theorem execCompletionRecord_next {s : State} {n : Nat} {w : Work} {st : Status} (hst : (s.ring n).st = .running) (hrec : s.recording n = false)
    (hacq : s.acquiring n = false) (hnext : (s.ring n).nextRecord = some w) (hw : w.status = some st)
    (hfree : idxSub w.idx (s.ring n).cmplHead < (s.ring n).depth) :
    execCompletionRecord n s = .next (s.issue (recordTxn (s.ring n) n w st) (.complWrite n w.idx) s.reqTimeout) := by
  unfold execCompletionRecord
  dsimp only
  rw [if_neg (by simp [hst, hrec, hacq]), hnext]
  dsimp only
  rw [if_neg (Nat.not_le.mpr hfree), hw]
  rfl
theorem execNotificationVector_next {s : State} {n i : Nat} {l : List Nat} (h : (s.ring n).notifies = i :: l) :
    execNotificationVector n s = .next ((((s.modRing n (fun x => ({ x with notifies := l } : Ring).prune)).fetchNext n).modHost
      (field (s.ring n).cfg.notifyVec 11 3) (fun p => { p with msix := tmod 0 p.msix (field (s.ring n).cfg.notifyVec 0 11) (· + 1) })).emit
        (.msix (field (s.ring n).cfg.notifyVec 11 3) (field (s.ring n).cfg.notifyVec 0 11))) := by
  unfold execNotificationVector
  dsimp only
  rw [h]

-- RING_DRAIN_END
/-- A ring that is DISABLED again has no work left. -/
def Ring.ended (r : Ring) : Ring := { r with st := .disabled, fetched := [], work := [], notifies := [], resuming := false }
theorem execRingDrainEnd_done {s : State} {n : Nat} (hst : (s.ring n).st = .draining) (hout : s.ringOut n = false)
    (hw : ∀ w ∈ (s.ring n).work, w.tiles = [] ∨ w.status ≠ none) :
    execRingDrainEnd n s = .next (((s.orphan n).cmdChange (.ring n) (fun t => t.modRing n Ring.ended)).clearWaits n) := by
  have hall : (s.ring n).work.all (fun w => w.tiles.isEmpty || w.status.isSome) = true :=
    List.all_eq_true.mpr fun w hmem => by simpa [Option.isSome_iff_ne_none] using hw w hmem
  unfold execRingDrainEnd
  dsimp only
  rw [if_pos (by simp [hst, hout, hall])]
  rfl

/-- Settles O45: a tile that starts keeps its place while its lines are issued; an issued request changes no ring, and the end of one only its own descriptor. -/
theorem descriptorsEnd : Obligations.DescriptorsEnd := by
  refine ⟨fun s u g n w a b h hsmall hcut hx _ => ?_, fun s g n i o r ho hr hwho hst hres => ?_, fun s g x n i no pos len o ho hw hx hwho hstale hacq => ?_,
    fun s n a b w hst hwork hd hs hdone hout hbad hop => ?_, fun s n w st hst hrec hacq hnext hw hfree => ?_, fun s n i l h => ?_, fun s n hst hout hw => ?_⟩
  · obtain ⟨hstart, hpaid⟩ := pick_spec h
    obtain ⟨d, hring⟩ := hpaid.ring n
    have hmem : w ∈ (u.ring n).work := by
      rw [hring]
      exact startable_mem hstart
    obtain ⟨hm, l, hl, hp⟩ := startTile_starts hmem ((hpaid.tileXlate n w w.next).trans hx)
    rw [← places_tileCheck _ n w.idx] at hl
    obtain ⟨y, hy, hidx, hnext, e, he, hplace⟩ := of_mem_places hl hp
    simp only [ETile.place, Prod.mk.injEq] at hplace
    exact ⟨_, execEngineTileStart_picked h hsmall hcut hx, ((hpaid.moved.trans hm).trans (tileCheck_moved _ _ _)).pool, y, hy, hidx, hnext, e, he, hplace⟩
  · refine ⟨_, execMoverLineResponse_signal ho hr hwho hst hres, rfl, rfl, fun w hw hidx => ?_⟩
    rw [work_modWork] at hw
    obtain ⟨y, _, rfl⟩ := List.mem_map.mp hw
    split at hidx
    · next hy => exact ⟨by rw [if_pos hy]; rfl, by rw [if_pos hy]; rfl⟩
    · next hy => exact absurd (beq_iff_eq.mpr hidx) hy
  · have hm := reissue_sent s (s.poolNode * 1048576 + g) o
    obtain ⟨_, hmov, _, hpool, _⟩ := hm.keeps
    exact ⟨_, (execMoverRetry_due ho hw hx).trans (congrArg _ (retryReq_line hwho hstale hacq)), hpool, hmov, ownReq_reissue s g o⟩
  · have hm := (countHits_moved s n w.idx w.d.dstKind).trans (modWork_moved _ n w.idx (fun w => { w with sig := 1 }))
    have hiss := hm.issues (signalTxn (s.ring n) n w a) (.signal n w.idx)
    refine ⟨_, execDescriptorSignal_single hst hwork hd hs hdone hout hbad hop, (hm.trans (issue_moved _ _ _ _)).pool, fun y hy => ?_,
      fun hadd => ?_, fun hadd => ?_⟩
    · rw [(issue_sent _ _ _ _).ring, work_modWork, work_countHits, hwork] at hy
      simp at hy
      rw [hy]
    · rwa [← signalTxn_store hadd]
    · rwa [← signalTxn_add hadd]
  · have hm := issue_sent s (recordTxn (s.ring n) n w st) (.complWrite n w.idx) s.reqTimeout
    obtain ⟨_, hmov, _, hpool, _⟩ := hm.keeps
    exact ⟨_, execCompletionRecord_next hst hrec hacq hnext hw hfree, hpool, hmov, (Moved.refl s).issues _ _⟩
  · have hm := (modRing_moved s n (fun x => ({ x with notifies := l } : Ring).prune)).trans (fetchNext_moved _ n)
    have hhost : ∀ k, ((s.modRing n (fun x => ({ x with notifies := l } : Ring).prune)).fetchNext n).host k = s.host k := fun k => by
      rw [State.host, State.host, hm.hp]
    refine ⟨_, execNotificationVector_next h, List.getLast?_concat .., ?_, hm.pool⟩
    simp [hhost]
  · refine ⟨_, execRingDrainEnd_done hst hout hw, ?_⟩
    have hring : ∀ m, (((s.orphan n).cmdChange (.ring n) (fun t => t.modRing n Ring.ended)).clearWaits n).ring m =
        if m = n then (s.ring n).ended else s.ring m := fun m => by
      rw [clearWaits_ring, cmdChange_ring, ring_modRing]
      rfl
    have horphan : Moved s (s.orphan n) := .of_sent (reqs_sent s _)
    have hchange := cmdChange_mgmt (s.orphan n) (.ring n) (fun t => t.modRing n Ring.ended)
    refine ⟨by rw [hring, if_pos rfl]; rfl, by rw [hring, if_pos rfl]; rfl, by rw [hring, if_pos rfl]; rfl, fun m hne => by rw [hring, if_neg hne], ?_⟩
    exact (((horphan.trans (modRing_moved _ n Ring.ended)).trans (.of_mgmt hchange)).trans (modXl_moved _ _)).pool

end Sys2Proof.Machine
end

section
/-! Host accesses into the aperture (R312 to R314, R76): how one begins, and how one that waits ends. -/

namespace Sys2Proof.Machine
open Sys2Proof

/-- The access that a host's request becomes (R312). -/
def State.newAcc (s : State) (h rid : Nat) (htag : Option Nat) (c kind off len : Nat) (ro : Bool) (atop : Nat) (data : Bytes) : HostAcc :=
  { id := (s.host h).nextAcc, rid := rid, htag := htag, ctx := c, kind := kind, off := off, len := len, ro := ro, atop := atop, data := data, since := s.clk }

section
variable {s : State} {h r o n k c : Nat} {p tag : Option Nat} {ro : Bool} {m : Nat} {d : Bytes}

/-- An access in the aperture of a bound PASID is started behind the port's others. -/
theorem hostAccess_bound (hst : (s.host h).st = .active) (hapt : s.xl.aptLog2 ≠ 0) (htdi : (s.host h).tdi ≠ .error)
    (hstall : (s.host h).stalled.contains r = false) (hc : s.hostCtx h p = some c) (hlen : o + n ≤ 2 ^ (s.xl.aptLog2 + 21)) :
    s.hostAccess h r tag p k o n ro m d =
      (s.modHost h (fun x => { x with nextAcc := x.nextAcc + 1, accs := x.accs ++ [s.newAcc h r tag c k o n ro m d] })).hostKick h := by
  have hact : ¬((s.host h).st != .active) = true := by simp [hst]
  have hin : ¬(s.xl.aptLog2 == 0 || decide (2 ^ (s.xl.aptLog2 + 21) < o + n) || (s.host h).tdi == .error) = true := by
    simp [hapt, htdi, Nat.not_lt.mpr hlen]
  unfold State.hostAccess
  dsimp only
  rw [if_neg hact, if_neg hin, hc]
  dsimp only
  rw [if_neg (ne_true_of_eq_false hstall)]
  rfl
/-- The port's only access reads its frame entry when it is started (R312). -/
theorem hostKick_single {a : HostAcc} (haccs : (s.host h).accs = [a]) (hk : a.kind ≤ 2) (hi : a.issued = false)
    (hstall : (s.host h).stalled.contains a.rid = false) :
    s.hostKick h = (s.modAcc h a.id (fun x => { x with issued := true })).issueHost h
      (readTxn 0 (s.xl.aptBase + 16 * (a.off / 2 ^ 21)) 16 (a.rid % 8) false) (.frame h a.id) := by
  have hgo : (decide (a.kind ≤ 2) && !a.issued && !accWaits (s.host h).accs a) = true := by simp [hk, hi, haccs, accWaits]
  unfold State.hostKick
  conv => lhs; rw [haccs]
  rw [List.foldl_cons, List.foldl_nil, hostKickOne, if_pos hgo, if_neg (ne_true_of_eq_false hstall)]
theorem hostKick_none (h0 : (s.host h).accs = []) : s.hostKick h = s := by
  rw [State.hostKick, h0, List.foldl_nil]

theorem issueAs_host (s : State) (node : Nat) (t : Txn) (who : Purpose) (timeout h : Nat) : (s.issueAs node t who timeout).host h = s.host h := by
  obtain ⟨_, _, _, _, hhp, _⟩ := (issueAs_sent s node t who timeout).keeps
  rw [State.host, State.host, hhp]
theorem issueAs_pool (s : State) (node : Nat) (t : Txn) (who : Purpose) (timeout : Nat) : (s.issueAs node t who timeout).pool = s.pool := by
  obtain ⟨_, _, _, hpool, _⟩ := (issueAs_sent s node t who timeout).keeps
  exact hpool
theorem hostKick_begins {a : HostAcc} (haccs : (s.host h).accs = [a]) (hk : a.kind ≤ 2) (hi : a.issued = false)
    (hstall : (s.host h).stalled.contains a.rid = false) : ((s.hostKick h).host h).accs = [{ a with issued := true }] ∧ (s.hostKick h).pool = s.pool ∧
      IssuesAs s (s.hostKick h) (s.hpNode h) (readTxn 0 (s.xl.aptBase + 16 * (a.off / 2 ^ 21)) 16 (a.rid % 8) false) (.frame h a.id) := by
  rw [hostKick_single haccs hk hi hstall, State.issueHost]
  refine ⟨?_, issueAs_pool _ _ _ _ _, issuesAs_of_issueAs rfl rfl _ _ _⟩
  rw [issueAs_host]
  simp [State.modAcc, haccs]
/-- A request in the aperture of a bound PASID becomes the port's one access, for which the frame's entry is read. -/
theorem hostAccess_begins (hst : (s.host h).st = .active) (hapt : s.xl.aptLog2 ≠ 0) (htdi : (s.host h).tdi ≠ .error)
    (hstall : (s.host h).stalled.contains r = false) (haccs : (s.host h).accs = []) (hc : s.hostCtx h p = some c) (hlen : o + n ≤ 2 ^ (s.xl.aptLog2 + 21))
    (hk : k ≤ 2) {t : State} (ht : t = s.hostAccess h r tag p k o n ro m d) : (t.host h).accs = [{ s.newAcc h r tag c k o n ro m d with issued := true }] ∧
      t.pool = s.pool ∧ IssuesAs s t (s.hpNode h) (readTxn 0 (s.xl.aptBase + 16 * (o / 2 ^ 21)) 16 (r % 8) false) (.frame h (s.host h).nextAcc) := by
  have hone : ((s.modHost h (fun x => { x with nextAcc := x.nextAcc + 1, accs := x.accs ++ [s.newAcc h r tag c k o n ro m d] })).host h).accs =
      [s.newAcc h r tag c k o n ro m d] := by simp [haccs]
  rw [ht, hostAccess_bound hst hapt htdi hstall hc hlen]
  exact hostKick_begins hone hk rfl (by rw [host_modHost, if_pos rfl]; exact hstall)
/-- A request that no context applies to is an Unsupported Request, or nothing where it is posted. -/
theorem hostAccess_unbound (hst : (s.host h).st = .active) (hc : s.hostCtx h p = none) :
    s.hostAccess h r tag p k o n ro m d = match tag with | some t => s.emit (.hostCpl h t 1 false []) | none => s := by
  unfold State.hostAccess
  rw [if_neg (by simp [hst]), hc]
  exact ite_self _
theorem execHostAtomicop_ok {g w b : Nat} {op : HostAtomic} (h2 : hostAtop op w = some b) :
    execHostAtomicop h r g p o op w d s = .next (s.hostAccess h r (some g) p 2 o w false b d) := by
  rw [execHostAtomicop, h2]
theorem execHostAtomicop_unsupported {g w : Nat} {op : HostAtomic} (h2 : hostAtop op w = none) (hst : (s.host h).st = .active) :
    execHostAtomicop h r g p o op w d s = .next (s.emit (.hostCpl h g 1 false [])) := by
  rw [execHostAtomicop, h2]
  exact congrArg _ (if_pos (by simp [hst]))
end

-- HOST_RETRY_DEADLINE (R312, R313)
section
variable {s : State} {h g : Nat} {a : HostAcc}

theorem modHost_congr {f f' : HostPort → HostPort} (hf : f (s.host h) = f' (s.host h)) : s.modHost h f = s.modHost h f' := by
  rw [State.modHost, tmod_congr _ _ _ f f' hf]
  rfl
/-- The port's one access, ended RETRY_LATER, is answered Completer Abort, and nothing is left to start. -/
theorem accAnswer_retryLater (haccs : (s.host h).accs = [a]) (hg : a.htag = some g) :
    (s.accAnswer h a .retryLater).hostKick h = (s.modHost h (fun p => { p with accs := [] })).emit (.hostCpl h g 2 false []) := by
  have hempty : (s.host h).accs.filter (fun x => x.id != a.id) = [] := by simp [haccs]
  have hdrop : s.modHost h (fun p => { p with accs := p.accs.filter (fun x => x.id != a.id) }) = s.modHost h (fun p => { p with accs := [] }) :=
    modHost_congr (congrArg (fun l => { s.host h with accs := l }) hempty)
  have hans : s.accAnswer h a .retryLater = (s.modHost h (fun p => { p with accs := [] })).emit (.hostCpl h g 2 false []) := by
    rw [← hdrop, State.accAnswer, hg]
    rfl
  rw [hans]
  exact hostKick_none (by simp)
theorem find_acc (haccs : (s.host h).accs = [a]) : (s.host h).accs.find? (fun x => x.id == a.id) = some a := by simp [haccs]
theorem execHostRetryDeadline_moving {x : Nat} (haccs : (s.host h).accs = [a]) (hx : a.movingAt = some x) (hdue : x + s.xl.holdMax * 1000 ≤ s.clk) :
    execHostRetryDeadline h a.id s = .next ((s.accAnswer h a .retryLater).hostKick h) := by
  rw [execHostRetryDeadline, find_acc haccs]
  exact if_pos (by simp [hx, hdue])
theorem execHostRetryDeadline_early (haccs : (s.host h).accs = [a]) (hx : ∀ x, a.movingAt = some x → s.clk < x + s.xl.holdMax * 1000)
    (hearly : s.clk < a.since + 1000000) : execHostRetryDeadline h a.id s = .next s := by
  have hnot : ¬(a.movingAt.any (fun t => decide (t + s.xl.holdMax * 1000 ≤ s.clk))) = true := by
    cases hm : a.movingAt with
    | none => simp
    | some x => simpa using hx x hm
  rw [execHostRetryDeadline, find_acc haccs]
  exact (if_neg hnot).trans (if_pos hearly)
theorem execHostRetryDeadline_late (haccs : (s.host h).accs = [a]) (hx : a.movingAt = none) (hlate : a.since + 1000000 ≤ s.clk) :
    execHostRetryDeadline h a.id s =
      .next ((s.accBackoffs h a.id).foldl (fun t r => t.hostRsp r.1 r.2 { r.2.t.fail 10 (s.hpNode h) with tnode := r.2.t.dest.getD 0xFFF }) s) := by
  rw [execHostRetryDeadline, find_acc haccs]
  exact (if_neg (by simp [hx])).trans (if_neg (Nat.not_lt.mpr hlate))
/-- An access with the end of one of its lines (R313). -/
def HostAcc.lineDone (a : HostAcc) (part : Nat) (o : OutReq) (r : Txn) (st : Status) : HostAcc :=
  { a with
    left := a.left - 1, parts := tset a.parts part (if a.kind == 2 then r.data else slice (List.replicate (o.t.addr % 64 / 8 * 8) 0 ++ r.data) 0 64),
    fails := if st == .ok then a.fails else a.fails ++ [st] }
/-- The last line of an access, completed RETRY_LATER when 1 ms is over, ends the access (R313). -/
theorem hostLineRsp_last {k : Nat} {o : OutReq} {r : Txn} (haccs : (s.host h).accs = [a]) (hg : a.htag = some g) (hleft : a.left = 1) (hf : a.fails = [])
    (hr : r.status = 10) (hlate : a.since + 1000000 ≤ s.clk) : s.hostLineRsp k h a.id 0 o r =
      (((s.endReq k).modAcc h a.id (fun _ => a.lineDone 0 o r .retryLater)).modHost h (fun p => { p with accs := [] })).emit (.hostCpl h g 2 false []) := by
  have hst : (statusOf r.status).getD .aged = .retryLater := by rw [hr]; rfl
  have hno : s.hostRetries h a.id o = false := by simp [State.hostRetries, haccs, Nat.not_lt.mpr hlate]
  have hone : (((s.endReq k).modAcc h a.id (fun _ => a.lineDone 0 o r .retryLater)).host h).accs = [a.lineDone 0 o r .retryLater] := by
    have hsame : ((s.endReq k).host h).accs = [a] := haccs
    simp [State.modAcc, hsame]
  have hzero : ((a.lineDone 0 o r .retryLater).left == 0) = true := by simp [HostAcc.lineDone, hleft]
  have hworst : worst (a.lineDone 0 o r .retryLater).fails = .retryLater := by
    show worst (a.fails ++ [.retryLater]) = _
    rw [hf]
    rfl
  have hend := accAnswer_retryLater hone hg
  rw [← hend]
  unfold State.hostLineRsp
  rw [find_acc haccs]
  dsimp only
  rw [hst, if_neg (by simp [hno])]
  exact (if_pos hzero).trans (congrArg
    (fun st => (((s.endReq k).modAcc h a.id (fun _ => a.lineDone 0 o r .retryLater)).accAnswer h (a.lineDone 0 o r .retryLater) st).hostKick h) hworst)
end

end Sys2Proof.Machine
end

section
/-! Fabric requests into host memory (R315, R316, R170): the reply that a completion, or the want of one, gives. -/

namespace Sys2Proof.Machine
open Sys2Proof

-- The bytes of a read
theorem length_slice (b : Bytes) (i n : Nat) : (slice b i n).length = n := by
  simp [slice]
/-- What is spliced into bytes is read there again. -/
theorem slice_splice (x y : Bytes) (i : Nat) : slice (splice x i y) i y.length = y := by
  have hdrop : (splice x i y).drop i = y ++ x.drop (i + y.length) := by
    rw [splice, List.append_assoc, List.drop_left' (length_slice x 0 i)]
  rw [slice, hdrop]
  simp

-- Replies
theorem reply_route (t : Txn) (st node : Nat) (d : Bytes) :
    (t.reply st node d).ty.cls = 2 ∧ (t.reply st node d).dnode = t.snode ∧ (t.reply st node d).key = hashKey node t.ctx t.flow t.snode := by
  have hcls : (t.fail st node).ty.cls = 2 := by
    unfold Txn.fail
    dsimp only
    split <;> rfl
  have hfail : (t.fail st node).key = hashKey node t.ctx t.flow t.snode := by
    unfold Txn.key Txn.isRsp
    rw [hcls]
    rfl
  unfold Txn.reply
  dsimp only
  split
  · split
    · exact ⟨rfl, rfl, rfl⟩
    · exact ⟨hcls, rfl, hfail⟩
  · split
    · exact ⟨rfl, rfl, rfl⟩
    · exact ⟨hcls, rfl, hfail⟩
  · exact ⟨hcls, rfl, hfail⟩

/-- `t` has the clock, the queues, the routes, the end-point's node and the pool of `s`: a reply from either goes the same way. -/
structure RepliesAs (h : Nat) (s t : State) : Prop where
  clk : t.clk = s.clk
  queue : ∀ g v, t.queue g v = s.queue g v
  egress : ∀ a n k, t.egress a n k = s.egress a n k
  node : t.hpNode h = s.hpNode h
  pool : t.pool = s.pool
theorem RepliesAs.trans {h : Nat} {s t u : State} (g : RepliesAs h s t) (g' : RepliesAs h t u) : RepliesAs h s u :=
  ⟨g'.clk.trans g.clk, fun a v => (g'.queue a v).trans (g.queue a v), fun a n k => (g'.egress a n k).trans (g.egress a n k), g'.node.trans g.node,
    g'.pool.trans g.pool⟩
theorem modHost_repliesAs (s : State) (h i : Nat) (f : HostPort → HostPort) : RepliesAs h s (s.modHost i f) :=
  ⟨rfl, fun _ _ => rfl, fun _ _ _ => rfl, rfl, rfl⟩
theorem freshBytes_repliesAs (s : State) (h n : Nat) : RepliesAs h s (s.freshBytes n).2 := ⟨rfl, fun _ _ => rfl, fun _ _ _ => rfl, rfl, rfl⟩
theorem markFlow_repliesAs (s : State) (h : Nat) (x : Txn) (a : Nat) : RepliesAs h s (s.markFlow x a) := by
  have hnode := (markFlow_carried s x a).hpNode h
  obtain ⟨m, f, d, v, ev, o, heq⟩ := markFlow_spec s x a
  rw [heq] at hnode ⊢
  exact ⟨rfl, fun _ _ => rfl, fun _ _ _ => rfl, hnode, rfl⟩
theorem markFlow_hp (s : State) (x : Txn) (a : Nat) : (s.markFlow x a).hp = s.hp := by
  obtain ⟨m, f, d, v, ev, o, heq⟩ := markFlow_spec s x a
  rw [heq]

section
variable {s u : State} {h q : Nat}

/-- What enters a queue after charges leaves the marks, the host ports and the pool alone. -/
theorem enqueue_keeps {w : State} (hc : Charged u w) (v : Nat) (x : QEntry) :
    (w.enqueue q v x).hp = u.hp ∧ (w.enqueue q v x).pool = u.pool ∧ (w.enqueue q v x).sw.marks = u.sw.marks := by
  obtain ⟨ports, sw, rfl, _, _, hmarks, _⟩ := hc.keeps
  exact ⟨rfl, rfl, hmarks⟩
theorem Queued.of_repliesAs {t : State} {v a : Nat} {x : Txn} (hu : RepliesAs h s u) (hq : Queued u t q v x a) :
    Queued s t q v x a := by
  obtain ⟨l, e, hl, hmap, hx, ha, hsince⟩ := hq
  exact ⟨l, e, hl, hmap.trans (by rw [hu.queue]), hx, ha, hsince.trans hu.clk⟩
/-- An end-point's reply goes to its queue from the cells that its request reserved (R199). -/
theorem hostReply_enqueue (s : State) (h : Nat) (e : QEntry) (st : Nat) (d : Bytes)
    (hq : s.egress (257 + h) e.t.snode (hashKey (s.hpNode h) e.t.ctx e.t.flow e.t.snode) = some q) (hq' : q ≠ 256) :
    ∃ w, Charged s w ∧ s.hostReply h e st d = w.enqueue q 2 (w.entry (e.t.reply st (s.hpNode h) d) (257 + h) 2) := by
  obtain ⟨hcls, hdnode, hkey⟩ := reply_route e.t st (s.hpNode h) d
  have hc := (release_charged s e).trans (freeCells_charged (s.release e) (257 + h) 2 (rspCells e.t - (e.t.reply st (s.hpNode h) d).cells))
  refine ⟨_, hc, ?_⟩
  unfold State.hostReply
  dsimp only
  rw [sendRsp_enqueue (q := q) ?_ hq']
  · exact congrArg (fun v => State.enqueue _ q v _) (show (e.t.reply st (s.hpNode h) d).ty.cls + 5 * (2 / 5) = 2 by rw [hcls])
  · rw [hc.egress]
    show s.egress (257 + h) (e.t.reply st (s.hpNode h) d).dnode (e.t.reply st (s.hpNode h) d).key = some q
    rw [hdnode, hkey, hq]
theorem hostReply_queued (hu : RepliesAs h s u) (e : QEntry) (st : Nat) (d : Bytes)
    (hq : s.egress (257 + h) e.t.snode (hashKey (s.hpNode h) e.t.ctx e.t.flow e.t.snode) = some q) (hq' : q < 256) :
    Queued s (u.hostReply h e st d) q 2 (e.t.reply st (s.hpNode h) d) (257 + h) ∧ (u.hostReply h e st d).hp = u.hp ∧ (u.hostReply h e st d).pool = s.pool ∧
      (u.hostReply h e st d).sw.marks = u.sw.marks := by
  obtain ⟨w, hc, hreply⟩ := hostReply_enqueue u h e st d (by rw [hu.egress, hu.node, hq]) (Nat.ne_of_lt hq')
  obtain ⟨hhp, hpool, hmarks⟩ := enqueue_keeps (q := q) hc 2 (w.entry (e.t.reply st (u.hpNode h) d) (257 + h) 2)
  rw [hreply, ← hu.node]
  have hqueued := enqueue_queued hc q 2 (w.entry (e.t.reply st (u.hpNode h) d) (257 + h) 2) hc.clk
  exact ⟨Queued.of_repliesAs hu hqueued, hhp, hpool.trans hu.pool, hmarks⟩

-- HOST_COMPLETION and HOST_COMPLETION_TIMEOUT
/-- The port without its one fabric request. -/
theorem dropFab_fabs {f : HostFab} (hf : (s.host h).fabs = [f]) :
    ((s.modHost h (fun p => { p with fabs := p.fabs.filter (fun x => x.htag != f.htag) })).host h).fabs = [] := by simp [hf]
/-- The end of a fabric request that is not a flush read: its reply, and its port without it. -/
theorem endFab_replies {f : HostFab} (hu : RepliesAs h s u) (hf : (u.host h).fabs = [f]) (st : Nat) (d : Bytes) (hk : f.kind ≠ 2)
    (hq : s.egress (257 + h) f.t.snode (hashKey (s.hpNode h) f.t.ctx f.t.flow f.t.snode) = some q) (hq' : q < 256) :
    ((u.endFab h f st d).host h).fabs = [] ∧ Queued s (u.endFab h f st d) q 2 (f.t.reply st (s.hpNode h) d) (257 + h) ∧ (u.endFab h f st d).pool = s.pool := by
  have hdrop := hu.trans (modHost_repliesAs u h h (fun p => { p with fabs := p.fabs.filter (fun x => x.htag != f.htag) }))
  have hfabs := dropFab_fabs hf
  unfold State.endFab
  dsimp only
  rw [if_neg (by simp [hk])]
  split
  · obtain ⟨hqueued, hhp, hpool, _⟩ := hostReply_queued (hdrop.trans (markFlow_repliesAs _ h f.t f.adm)) (fabEntry f) st d hq hq'
    exact ⟨by rw [State.host, hhp, markFlow_hp]; exact hfabs, hqueued, hpool⟩
  · obtain ⟨hqueued, hhp, hpool, _⟩ := hostReply_queued hdrop (fabEntry f) st d hq hq'
    exact ⟨by rw [State.host, hhp]; exact hfabs, hqueued, hpool⟩
theorem flush_none (h0 : (s.host h).unflushed = []) : s.flush h = s := by
  rw [State.flush]
  exact if_pos (by simp [h0])
/-- The end of a flush read that covers one write: the reply of that write, AGED with its flow marked (R316). -/
theorem endFab_flush {f : HostFab} {e : QEntry} (hf : (s.host h).fabs = [f]) (hk : f.kind = 2) (hcov : f.covered = [e]) (hun : (s.host h).unflushed = [])
    (st : Nat) (d : Bytes) (hq : s.egress (257 + h) e.t.snode (hashKey (s.hpNode h) e.t.ctx e.t.flow e.t.snode) = some q) (hq' : q < 256) :
    ((s.endFab h f st d).host h).fabs = [] ∧ Queued s (s.endFab h f st d) q 2 (e.t.reply st (s.hpNode h) []) (257 + h) ∧ (s.endFab h f st d).pool = s.pool ∧
      (st = 7 → ∃ u : State, u.sw = s.sw ∧ u.tbl = s.tbl ∧ (s.endFab h f st d).sw.marks = (u.markFlow e.t e.adm).sw.marks) := by
  have hdrop := modHost_repliesAs s h h (fun p => { p with fabs := p.fabs.filter (fun x => x.htag != f.htag) })
  have hfabs := dropFab_fabs hf
  have hunf : ((s.modHost h (fun p => { p with fabs := p.fabs.filter (fun x => x.htag != f.htag) })).host h).unflushed = [] := by simp [hun]
  unfold State.endFab
  dsimp only
  rw [if_pos (by simp [hk]), hcov, List.foldl_cons, List.foldl_nil]
  split
  · obtain ⟨hqueued, hhp, hpool, hmarks⟩ := hostReply_queued (hdrop.trans (markFlow_repliesAs _ h e.t e.adm)) e st [] hq hq'
    rw [flush_none (by rw [State.host, hhp, markFlow_hp]; exact hunf)]
    exact ⟨by rw [State.host, hhp, markFlow_hp]; exact hfabs, hqueued, hpool,
      fun _ => ⟨s.modHost h (fun p => { p with fabs := p.fabs.filter (fun x => x.htag != f.htag) }), rfl, rfl, hmarks⟩⟩
  · next hst =>
    obtain ⟨hqueued, hhp, hpool, _⟩ := hostReply_queued hdrop e st [] hq hq'
    rw [flush_none (by rw [State.host, hhp]; exact hunf)]
    exact ⟨by rw [State.host, hhp]; exact hfabs, hqueued, hpool, fun h7 => absurd (by simp [h7]) hst⟩
/-- A flow that is marked while FLOOD does not reign and no mark stands is marked, but for a window-mode source (R193). -/
theorem marked_of_markFlow {t : State} {x : Txn} {a : Nat} (hsw : u.sw = s.sw) (htbl : u.tbl = s.tbl) (hfl : s.sw.flood = false) (hm : s.sw.marks = [])
    (hw : (routeEnt s.tbl.active x.snode).wmode = false) (ht : t.sw.marks = (u.markFlow x a).sw.marks) : t.marked x a = true := by
  rw [State.marked, ht, markFlow_marked x a (by rw [hsw, hfl]) (by rw [hsw, hm]) (by rw [htbl, hw])]
  cases hd : x.dest <;> simp [Mark.hits, hd]

theorem find_fab {f : HostFab} (hf : (s.host h).fabs = [f]) : (s.host h).fabs.find? (fun x => x.htag == f.htag) = some f := by simp [hf]
theorem execHostCompletion_read {f : HostFab} (hf : (s.host h).fabs = [f]) (hk : f.kind = 0) (d : Bytes) :
    ∃ n, execHostCompletion h f.htag (.success d) s =
      .next ((s.freshBytes n).2.endFab h f 0 (splice (s.freshBytes n).1 (f.t.addr % 8) (slice d 0 f.t.len))) := by
  refine ⟨8 * ceilDiv (f.t.addr % 8 + f.t.len) 8, ?_⟩
  rw [execHostCompletion, find_fab hf]
  exact if_pos (by simp [hk])
theorem execHostCompletion_other {f : HostFab} (hf : (s.host h).fabs = [f]) (hk : f.kind ≠ 0) (d : Bytes) :
    execHostCompletion h f.htag (.success d) s = .next (s.endFab h f 0 (slice d 0 (if f.t.len == 16 then 16 else 8))) := by
  rw [execHostCompletion, find_fab hf]
  exact if_neg (by simp [hk])
theorem execHostCompletion_failed {f : HostFab} (hf : (s.host h).fabs = [f]) {c : HostCpl} (hc : c = .unsupported ∨ c = .abort) :
    execHostCompletion h f.htag c s = .next (s.endFab h f 3 []) := by
  rw [execHostCompletion, find_fab hf]
  rcases hc with rfl | rfl <;> rfl
theorem execHostCompletionTimeout_due {f : HostFab} (hf : (s.host h).fabs = [f]) (hdue : f.since + 500000 ≤ s.clk) :
    execHostCompletionTimeout h f.htag s = .next (s.endFab h f (if f.kind == 2 then 7 else if f.kind == 1 then 7 else 10) []) := by
  rw [execHostCompletionTimeout, find_fab hf]
  exact congrArg _ (if_pos hdue)
theorem execHostCompletionTimeout_early {f : HostFab} (hf : (s.host h).fabs = [f]) (hearly : s.clk < f.since + 500000) :
    execHostCompletionTimeout h f.htag s = .next s := by
  rw [execHostCompletionTimeout, find_fab hf]
  exact congrArg _ (if_neg (Nat.not_le.mpr hearly))
end

theorem repliesAs_refl (h : Nat) (s : State) : RepliesAs h s s := ⟨rfl, fun _ _ => rfl, fun _ _ _ => rfl, rfl, rfl⟩
theorem accBackoffs_single {s : State} {h i k : Nat} {o : OutReq} (hreqs : s.reqs = [(k, o)]) (hwho : o.who = .host h i 0) (hw : o.waitUntil.isSome = true) :
    s.accBackoffs h i = [(k, o)] := by
  simp [State.accBackoffs, hreqs, hwho, hw]

/-- Settles O55: an access that begins reads its frame's entry whatever its kind; what ends one leaves the port without it; every reply goes by the route that its
request came from, since no end of a fabric request changes routes or queues. -/
theorem hostRequests : Obligations.HostRequests := by
  refine ⟨fun s h r o p hst hapt htdi hstall haccs => ⟨fun c k g n ro b w op i hc hlen hi => ?_, fun g n hc => ?_, fun b ro hc => ?_⟩,
    fun s h r g o w p op b hop hst => execHostAtomicop_unsupported hop hst, fun s h g x a haccs hx hg => ⟨fun hdue => ?_, fun hmov hearly => ?_⟩,
    fun s h g k a o haccs hx hg hleft hf hwho hreqs hw hlate => ?_, fun s h q f hf hq hq' hk => ⟨fun d hk0 _ _ => ?_, fun c hc => ?_, fun hdue => ?_, ?_⟩,
    fun s h q f e hf hk hcov hun hty hq hq' => ⟨fun d => ?_, fun hdue hfl hm hw => ?_⟩⟩
  · rcases hi with ⟨rfl, rfl⟩ | ⟨rfl, rfl, rfl⟩ | ⟨rfl, rfl, rfl, hop⟩
    · obtain ⟨ha, hpool, hiss⟩ := hostAccess_begins hst hapt htdi hstall haccs hc hlen (Nat.zero_le 2) rfl
      exact ⟨_, _, rfl, ha, rfl, rfl, rfl, rfl, rfl, rfl, rfl, rfl, fun h0 => absurd rfl h0, hpool, hiss⟩
    · obtain ⟨ha, hpool, hiss⟩ := hostAccess_begins hst hapt htdi hstall haccs hc hlen (Nat.le_succ 1) rfl
      exact ⟨_, _, rfl, ha, rfl, rfl, rfl, rfl, rfl, rfl, rfl, rfl, fun _ => rfl, hpool, hiss⟩
    · obtain ⟨m, hm⟩ := Option.isSome_iff_exists.mp hop
      obtain ⟨ha, hpool, hiss⟩ := hostAccess_begins hst hapt htdi hstall haccs hc hlen (Nat.le_refl 2) rfl
      exact ⟨_, _, execHostAtomicop_ok hm, ha, rfl, rfl, rfl, rfl, rfl, rfl, rfl, rfl, fun _ => rfl, hpool, hiss⟩
  · exact congrArg _ (hostAccess_unbound hst hc)
  · exact congrArg _ (hostAccess_unbound hst hc)
  · exact (execHostRetryDeadline_moving haccs hx hdue).trans (congrArg _ (accAnswer_retryLater haccs hg))
  · exact execHostRetryDeadline_early haccs (fun y hy => by rw [← Option.some.inj (hx.symm.trans hy)]; exact hmov) hearly
  · have hexec := execHostRetryDeadline_late haccs hx hlate
    rw [accBackoffs_single hreqs hwho hw, List.foldl_cons, List.foldl_nil, State.hostRsp, hwho] at hexec
    refine ⟨_, hexec.trans (congrArg _ (hostLineRsp_last haccs hg hleft hf rfl hlate)), by simp, ?_, rfl, rfl⟩
    show terase s.reqs k = []
    simp [hreqs, terase]
  · obtain ⟨n, hexec⟩ := execHostCompletion_read hf hk0 d
    obtain ⟨hfabs, hqueued, hpool⟩ := endFab_replies (freshBytes_repliesAs s h n) hf 0 (splice (s.freshBytes n).1 (f.t.addr % 8) (slice d 0 f.t.len)) hk hq hq'
    have hread := slice_splice (s.freshBytes n).1 (slice d 0 f.t.len) (f.t.addr % 8)
    rw [length_slice] at hread
    exact ⟨_, _, hexec, hfabs, hqueued, hread, hpool⟩
  · exact ⟨_, execHostCompletion_failed hf hc, endFab_replies (repliesAs_refl h s) hf 3 [] hk hq hq'⟩
  · have hexec := execHostCompletionTimeout_due hf hdue
    have hst : (if f.kind == 2 then 7 else if f.kind == 1 then 7 else 10) = if f.kind = 1 then 7 else 10 := by simp [hk]
    rw [hst] at hexec
    exact ⟨_, hexec, endFab_replies (repliesAs_refl h s) hf _ [] hk hq hq'⟩
  · exact fun hearly => execHostCompletionTimeout_early hf hearly
  · obtain ⟨hfabs, hqueued, hpool, _⟩ := endFab_flush hf hk hcov hun 0 (slice d 0 (if f.t.len == 16 then 16 else 8)) hq hq'
    exact ⟨_, execHostCompletion_other hf (by simp [hk]) d, hfabs, hqueued, hpool⟩
  · have hexec := execHostCompletionTimeout_due hf hdue
    rw [if_pos (by simp [hk])] at hexec
    obtain ⟨hfabs, hqueued, hpool, h7⟩ := endFab_flush hf hk hcov hun 7 [] hq hq'
    obtain ⟨u, hsw, htbl, hmarks⟩ := h7 rfl
    exact ⟨_, hexec, hfabs, hqueued, marked_of_markFlow hsw htbl hfl hm hw hmarks, hpool⟩

end Sys2Proof.Machine
end

section
/-! What starting a withdrawal does (R108 to R110): its record, the context's generation, and what the notice at this package leaves alone. -/

namespace Sys2Proof.Machine
open Sys2Proof

theorem foldl_xl {α : Type} (f : State → α → State) (h : ∀ s x, (f s x).xl = s.xl) (l : List α) (s : State) : (l.foldl f s).xl = s.xl := by
  induction l generalizing s with
  | nil => rfl
  | cons x r ih => exact (ih _).trans (h s x)

-- The notice at this package (R109)
theorem redoLine_moved (s : State) (p : Purpose) : Moved s (s.redoLine p) := by
  unfold State.redoLine
  split
  · exact modRing_moved _ _ _
  · exact modRing_moved _ _ _
  · exact .refl s
theorem redoLine_xl (s : State) (p : Purpose) : (s.redoLine p).xl = s.xl := by
  unfold State.redoLine
  split <;> rfl
theorem unholdStale_moved (s : State) (key : Nat) : Moved s (unholdStale s key) := by
  unfold unholdStale
  split
  · split
    · exact .of_sent (reqsXact_sent _ _ _)
    · exact .of_sent (reqsXact_sent _ _ _)
    · split
      · exact (Moved.of_sent (endReq_sent _ _)).trans (redoLine_moved _ _)
      · exact .refl s
  · exact .refl s
theorem unholdStale_xl (s : State) (key : Nat) : (unholdStale s key).xl = s.xl := by
  unfold unholdStale
  split
  · split
    · rfl
    · rfl
    · split
      · exact redoLine_xl _ _
      · rfl
  · rfl
theorem xlMov_moved (s : State) (x : Xl) (m : Mov) : Moved s { s with xl := x, mov := m } := ⟨m, x, s.reqs, .refl _⟩
theorem applyNotice_moved (s : State) (home id : Nat) (fa : Bool) (ctx base len2m : Nat) : Moved s (s.applyNotice home id fa ctx base len2m) :=
  (xlMov_moved s _ _).trans (foldl_moved _ unholdStale_moved _ _)
/-- A notice removes translations and is noted; withdrawals, generations and bindings stay. -/
theorem applyNotice_keeps (s : State) (home id : Nat) (fa : Bool) (ctx base len2m : Nat) :
    (s.applyNotice home id fa ctx base len2m).xl.wds = s.xl.wds ∧ (s.applyNotice home id fa ctx base len2m).xl.xgen = s.xl.xgen ∧
    (s.applyNotice home id fa ctx base len2m).xl.binds = s.xl.binds ∧ (s.applyNotice home id fa ctx base len2m).xl.binding = s.xl.binding := by
  unfold State.applyNotice
  extract_lets
  rw [foldl_xl _ unholdStale_xl]
  exact ⟨rfl, rfl, rfl, rfl⟩

-- The withdrawal at its home (R108)
theorem sendMgt_moved (s : State) (t : Txn) : Moved s (s.sendMgt t) := .of_sent (.of_carried (sendOut_carried s t))
theorem sendMgt_xl (s : State) (t : Txn) : (s.sendMgt t).xl = s.xl := by
  obtain ⟨_, _, hxl, _⟩ := (Sent.of_carried (sendOut_carried s t)).keeps
  exact hxl

/-- What running a withdrawal does: it runs from now, the context form raises the generation of its context, and bindings stay. -/
structure WdRuns (s t : State) (w : Withdrawal) : Prop where
  moved : Moved s t
  runs : ∃ waits, { w with running := true, since := s.clk, waiting := waits } ∈ t.xl.wds
  xgen : t.xl.xgen = if w.fa then s.xl.xgen else tmod 0 s.xl.xgen w.ctx (fun g => (g + 1) % 4294967296)
  binds : t.xl.binds = s.xl.binds
  binding : t.xl.binding = s.xl.binding

theorem runWd_runs (s : State) (w : Withdrawal) : WdRuns s (s.runWd w) w := by
  unfold State.runWd
  extract_lets _ scope s1 w1 s2 s3
  obtain ⟨hwds, hxgen, hbinds, hbinding⟩ := applyNotice_keeps s2 s.poolNode w.id w.fa w.ctx w.base w.len2m
  have h1 : Moved s s1 := by
    unfold s1
    split
    · exact .refl _
    · exact modXl_moved _ _
  have hxl := foldl_xl _ (fun t n => sendMgt_xl t (t.mgt n 1 (wdWord w (tget 0 s3.xl.xgen w.ctx)))) (scope.filter (· != s.poolNode)) s3
  have hs2 : s2.xl.xgen = (if w.fa then s.xl.xgen else tmod 0 s.xl.xgen w.ctx (fun g => (g + 1) % 4294967296)) ∧ s2.xl.binds = s.xl.binds ∧
      s2.xl.binding = s.xl.binding := by
    unfold s2 s1
    split <;> exact ⟨rfl, rfl, rfl⟩
  obtain ⟨hxgen2, hbinds2, hbinding2⟩ := hs2
  refine ⟨?_, ⟨scope, ?_⟩, ?_, ?_, ?_⟩
  · exact ((h1.trans (modXl_moved _ _)).trans (applyNotice_moved _ _ _ _ _ _ _)).trans (foldl_moved _ (fun _ _ => sendMgt_moved _ _) _ _)
  · rw [hxl, hwds]
    exact List.mem_append_right _ (List.mem_singleton_self _)
  · rw [hxl, hxgen, hxgen2]
  · rw [hxl, hbinds, hbinds2]
  · rw [hxl, hbinding, hbinding2]

/-- A withdrawal as it comes to its home. -/
def State.newWd (s : State) (fa : Bool) (ctx base len2m nfa nval : Nat) (cause : WdCause) : Withdrawal :=
  { id := s.xl.nextWd, fa := fa, ctx := ctx, base := base, len2m := len2m, nfa := nfa, nval := nval, cause := cause, running := false, since := s.clk }
/-- While fewer than 256 run, a withdrawal that comes to its home runs (R110). -/
theorem startWd_runs {s : State} (h : s.wdActive < 256) (fa : Bool) (ctx base len2m nfa nval : Nat) (cause : WdCause) :
    WdRuns s (s.startWd fa ctx base len2m nfa nval cause) (s.newWd fa ctx base len2m nfa nval cause) := by
  unfold State.startWd
  rw [if_pos h]
  obtain ⟨hmoved, hruns, hxgen, hbinds, hbinding⟩ :=
    runWd_runs (s.modXl (fun x => { x with nextWd := x.nextWd + 1 })) (s.newWd fa ctx base len2m nfa nval cause)
  exact ⟨(modXl_moved _ _).trans hmoved, hruns, hxgen, hbinds, hbinding⟩
/-- The context form raises the generation of its context by one, modulo 2^32 (R108). -/
theorem WdRuns.generation {s t : State} {w : Withdrawal} (h : WdRuns s t w) (hfa : w.fa = false) :
    tget 0 t.xl.xgen w.ctx = (tget 0 s.xl.xgen w.ctx + 1) % 2 ^ 32 := by
  rw [h.xgen, if_neg (by simp [hfa]), tget_tmod, if_pos rfl]
  rfl

end Sys2Proof.Machine
end

section
/-! Bindings and withdrawals by command (R88 to R90, R112). -/

namespace Sys2Proof.Machine
open Sys2Proof

-- What counting a datagram leaves of the bindings
theorem countDatagram_moved (s : State) (i : Nat) : Moved s (s.countDatagram i) := .of_mgmt (countDatagram_mgmt s i)
@[simp] theorem bind_countDatagram (s : State) (i c : Nat) : (s.countDatagram i).bind c = s.bind c := by simp [State.bind]
@[simp] theorem bindBusy_countDatagram (s : State) (i c : Nat) : (s.countDatagram i).bindBusy c = s.bindBusy c := by simp [State.bindBusy]
@[simp] theorem wdActive_countDatagram (s : State) (i : Nat) : (s.countDatagram i).wdActive = s.wdActive := by simp [State.wdActive]
@[simp] theorem poolNode_countDatagram (s : State) (i : Nat) : (s.countDatagram i).poolNode = s.poolNode := (countDatagram_moved s i).poolNode

/-- A binding put in force is the context's, and messages carry it to the packages of its scope (R90). -/
theorem setBind_moved (s : State) (c : Nat) (b : Bind) : Moved s (s.setBind c b) :=
  (modXl_moved s _).trans (foldl_moved _ (fun _ _ => sendMgt_moved _ _) _ _)
theorem setBind_xl (s : State) (c : Nat) (b : Bind) : (s.setBind c b).xl =
    { s.xl with binds := tset s.xl.binds c b, known := addNew s.xl.known c, binding := s.xl.binding.filter (· != c) } :=
  foldl_xl _ (fun _ _ => sendMgt_xl _ _) _ _
theorem bind_setBind (s : State) (c d : Nat) (b : Bind) : (s.setBind c b).bind d = if d = c then b else s.bind d := by
  rw [State.bind, setBind_xl, tget_tset]
  rfl

theorem addNew_contains (l : List Nat) (n : Nat) : (addNew l n).contains n = true := by
  unfold addNew
  split
  · assumption
  · simp

/-- The state in which a context's binding is being changed (R90). -/
def State.changing (s : State) (c : Nat) : State := s.modXl (fun x => { x with binding := addNew x.binding c })
/-- The change of a binding begins with the withdrawal of the whole context, under the old binding (R90). -/
theorem changing_runs {s : State} (h : s.wdActive < 256) (c : Nat) (b : Bind) :
    Moved s ((s.changing c).startCtxWd c (.bind c b)) ∧
    (∃ waits, { s.newWd false c 0 (2 ^ 36) 0 0 (.bind c b) with running := true, since := s.clk, waiting := waits } ∈
      ((s.changing c).startCtxWd c (.bind c b)).xl.wds) ∧
    ((s.changing c).startCtxWd c (.bind c b)).bind c = s.bind c ∧ ((s.changing c).startCtxWd c (.bind c b)).xl.binding.contains c = true ∧
    tget 0 ((s.changing c).startCtxWd c (.bind c b)).xl.xgen c = (tget 0 s.xl.xgen c + 1) % 2 ^ 32 := by
  have hruns : WdRuns (s.changing c) ((s.changing c).startCtxWd c (.bind c b)) _ := startWd_runs (s := s.changing c) h false c 0 (2 ^ 36) 0 0 (.bind c b)
  refine ⟨(modXl_moved _ _).trans hruns.moved, hruns.runs, ?_, ?_, hruns.generation rfl⟩
  · rw [State.bind, hruns.binds]
    rfl
  · rw [hruns.binding]
    exact addNew_contains _ _

-- The effect of a CTX_BIND write of a TABLE binding of this home
section
variable {s : State} {c r : Nat} (hmode : (bindOf r).mode = 1) (hok : bindFieldsOk r = true) (hhome : (bindOf r).homeNode = s.poolNode)
include hmode hok hhome
theorem ctxBindWrite_first (hold : (s.bind c).mode = 0) (hbusy : s.bindBusy c = false) (hact : s.wdActive < 256) :
    ctxBindWrite c r s = .ok (s.setBind c (bindOf r)) := by
  have hne : s.bind c ≠ bindOf r := fun h => by rw [h, hmode] at hold; cases hold
  simp [ctxBindWrite, check, hmode, hok, hhome, hold, hbusy, hact, hne]
theorem ctxBindWrite_rebinds (hold : (s.bind c).mode ≠ 0) (hown : (s.bind c).homeNode = s.poolNode) (hne : s.bind c ≠ bindOf r)
    (hbusy : s.bindBusy c = false) (hact : s.wdActive < 256) :
    ctxBindWrite c r s = .ok ((s.changing c).startCtxWd c (.bind c (bindOf r))) := by
  simp [ctxBindWrite, State.changing, check, hmode, hok, hhome, hold, hown, hbusy, hact, hne]
theorem ctxBindWrite_busy (hold : (s.bind c).mode = 0) (hbusy : s.bindBusy c = true) : ctxBindWrite c r s = .error abortRefused := by
  simp [ctxBindWrite, check, hmode, hok, hhome, hold, hbusy]
end

-- The effect of a WITHDRAW write
section
variable {r k : Nat} (hk : k < 2)
include hk
/-- FORM is bit 0 of the record; the other fields are the record's, whichever form is written. -/
theorem field_form {lo w : Nat} (hlo : 1 ≤ lo) : field (r / 2 * 2 + k) lo w = field r lo w := by
  obtain ⟨n, rfl⟩ := Nat.exists_eq_add_of_le hlo
  have hhalf : (r / 2 * 2 + k) / 2 = r / 2 := by omega
  unfold field
  rw [Nat.pow_add, ← Nat.div_div_eq_div_mul, ← Nat.div_div_eq_div_mul, Nat.pow_one, hhalf]
theorem bitOf_form : bitOf (r / 2 * 2 + k) 0 = decide (k = 1) := by
  rw [bitOf, Nat.testBit_zero, decide_eq_decide]
  omega
theorem withdrawWrite_starts {s : State} (hlen : 1 ≤ field r 64 64) (hlen' : field r 64 64 ≤ 2 ^ 36) (hrsv : field r 1 7 = 0)
    (hrsv' : field r 24 40 = 0) (hbase : field r 128 64 % 2 ^ 21 = 0) (hfa : isFa (field r 192 64) = true) (hal : field r 192 64 % 8 = 0)
    (hact : s.wdActive < 256)
    (hform : (if decide (k = 1) then field r 8 16 == 0 && isFa (field r 128 64)
      else (s.bind (field r 8 16)).mode != 0 && (s.bind (field r 8 16)).homeNode == s.poolNode) = true) :
    withdrawWrite (r / 2 * 2 + k) s =
      .ok (s.startWd (decide (k = 1)) (field r 8 16) (field r 128 64) (field r 64 64) (field r 192 64) (field r 256 64) .software) := by
  simp only [withdrawWrite, bitOf_form hk, field_form hk, Nat.one_le_ofNat, Nat.le_refl, hform]
  simp [-Nat.reducePow, check, hlen, hlen', hrsv, hrsv', hbase, hfa, hal, hact]
theorem withdrawWrite_empty {s : State} (h : field r 64 64 = 0) : withdrawWrite (r / 2 * 2 + k) s = .error abortRange := by
  simp [withdrawWrite, check, field_form hk, h]
end

/-- Settles O46: a first binding is put in force by the write itself; another binding, and a valid withdrawal, start a withdrawal at this home. -/
theorem bindingsAndWithdrawals : Obligations.BindingsAndWithdrawals := by
  unfold Obligations.BindingsAndWithdrawals
  have hnone : ∀ (s : State) (v : VCtx) (x : EUnit), (none : Option EUnit) = some x → (s.epochRec x).epoch = v.epoch := fun _ _ _ h => by cases h
  refine ⟨fun s v c r hw hmode hok hhome => ⟨fun hold hbusy hact => ?_, fun hold hown hne hbusy hact => ?_, fun hold hbusy => ?_⟩,
    fun s v r hw => ⟨fun hlen hlen' hrsv hrsv' hbase hfa hal hact hmode hown => ?_, fun hlen => ?_⟩,
    fun s v r hw hlen hlen' hrsv hrsv' hbase hfa hal hact hctx hbfa => ?_⟩
  · have heff := ctxBindWrite_first (s := s.countDatagram v.sess) (c := c) hmode hok (by simpa using hhome) (by simpa using hold) (by simpa using hbusy)
      (by simpa using hact)
    exact ⟨_, vaneWrite_accepts hw (hnone s v) heff, by simp [bind_setBind], fun d hd => by simp [bind_setBind, hd], by simp [setBind_xl],
      ((countDatagram_moved s v.sess).trans (setBind_moved _ _ _)).pool⟩
  · have heff := ctxBindWrite_rebinds (s := s.countDatagram v.sess) (c := c) hmode hok (by simpa using hhome) (by simpa using hold) (by simpa using hown)
      (by simpa using hne) (by simpa using hbusy) (by simpa using hact)
    obtain ⟨hmoved, ⟨waits, hmem⟩, hbind, hchg, hgen⟩ := changing_runs (s := s.countDatagram v.sess) (by simpa using hact) c (bindOf r)
    exact ⟨_, _, vaneWrite_accepts hw (hnone s v) heff, by simpa using hbind, hchg, hmem, rfl, rfl, rfl, rfl, rfl, rfl, by simpa using hgen,
      ((countDatagram_moved s v.sess).trans hmoved).pool⟩
  · exact vaneWrite_aborts hw (hnone s v) (ctxBindWrite_busy (s := s.countDatagram v.sess) hmode hok (by simpa using hhome) (by simpa using hold)
      (by simpa using hbusy))
  · have heff := withdrawWrite_starts (s := s.countDatagram v.sess) (k := 0) (by omega) hlen hlen' hrsv hrsv' hbase hfa hal (by simpa using hact)
      (by simp [hmode, hown])
    have hruns := startWd_runs (s := s.countDatagram v.sess) (by simpa using hact) false (field r 8 16) (field r 128 64) (field r 64 64) (field r 192 64)
      (field r 256 64) .software
    obtain ⟨waits, hmem⟩ := hruns.runs
    exact ⟨_, _, vaneWrite_accepts hw (hnone s v) heff, hmem, rfl, rfl, rfl, rfl, rfl, rfl, rfl, rfl,
      (hruns.generation rfl).trans (by simp [State.newWd]), ((countDatagram_moved s v.sess).trans hruns.moved).pool⟩
  · exact vaneWrite_aborts hw (hnone s v) (withdrawWrite_empty (k := 0) (by omega) hlen)
  · have heff := withdrawWrite_starts (s := s.countDatagram v.sess) (k := 1) (by omega) hlen hlen' hrsv hrsv' hbase hfa hal (by simpa using hact)
      (by simp [hctx, hbfa])
    have hruns := startWd_runs (s := s.countDatagram v.sess) (by simpa using hact) true (field r 8 16) (field r 128 64) (field r 64 64) (field r 192 64)
      (field r 256 64) .software
    obtain ⟨waits, hmem⟩ := hruns.runs
    exact ⟨_, _, vaneWrite_accepts hw (hnone s v) heff, hmem, rfl, rfl, rfl, rfl, rfl, rfl, rfl,
      hruns.xgen.trans (by simp [State.newWd]), ((countDatagram_moved s v.sess).trans hruns.moved).pool⟩

end Sys2Proof.Machine
end

section
/-! Walks and what waits for them (R84, R97 to R105, R111): what a walker's next step makes of its walk, of the tile caches and of those who wait. -/

namespace Sys2Proof.Machine
open Sys2Proof

-- Walkers
theorem walker_setWalker (s : State) (w v : Nat) (x : Option Walk) : (s.setWalker w x).walker v = if v = w then x else s.walker v := tget_tset _ _ _ _ _
theorem setWalker_moved (s : State) (w : Nat) (x : Option Walk) : Moved s (s.setWalker w x) := modXl_moved _ _
/-- A walk whose entry read is under way. -/
def Walk.reading (k : Walk) (level fa tag : Nat) : Walk := { k with level := level, entryFa := fa, tag := some tag, rereadAt := none }
/-- Reading an entry sends a request of the walker, whose walk awaits the answer. -/
theorem walkRead_moved (s : State) (w : Nat) (k : Walk) (level fa : Nat) : Moved s (s.walkRead w k level fa) :=
  (setWalker_moved _ _ _).trans (issue_moved _ _ _ _)
theorem walkRead_issues {s u : State} (h : Moved s u) (hmov : u.mov = s.mov) (w : Nat) (k : Walk) (level fa : Nat) :
    Issues s (u.walkRead w k level fa) (readTxn 0 fa 16 0 true) (.walk w k.m.ctx) := by
  have htime : u.reqTimeout = s.reqTimeout := by rw [State.reqTimeout, State.reqTimeout, hmov]
  rw [State.walkRead, htime]
  exact (h.trans (setWalker_moved u w _)).issues _ _
theorem walkRead_xl (s : State) (w : Nat) (k : Walk) (level fa : Nat) :
    (s.walkRead w k level fa).xl = (s.setWalker w (some (k.reading level fa s.newTag))).xl := by
  obtain ⟨_, _, hxl, _⟩ := (issue_sent (s.setWalker w (some (k.reading level fa s.newTag))) (readTxn 0 fa 16 0 true) (.walk w k.m.ctx) s.reqTimeout).keeps
  exact hxl
theorem walkRead_walker (s : State) (w : Nat) (k : Walk) (level fa : Nat) :
    (s.walkRead w k level fa).walker w = some (k.reading level fa s.newTag) := by
  rw [State.walker, walkRead_xl]
  exact (walker_setWalker _ _ _ _).trans (if_pos rfl)

-- Tile caches (R102)
theorem noteEvicts_walkers (tile now : Nat) (l : List TEntry) (x : Xl) : (l.foldl (noteEvict tile now) x).walkers = x.walkers := by
  induction l generalizing x with
  | nil => rfl
  | cons e r ih => exact ih _
theorem fill_moved (s : State) (tile : Nat) (e : TEntry) : Moved s (s.fill tile e) := xl_moved _ _
theorem fill_walker (s : State) (tile : Nat) (e : TEntry) (w : Nat) : (s.fill tile e).walker w = s.walker w :=
  congrArg (fun x => tget none x w) (noteEvicts_walkers _ _ _ _)
/-- A fill puts the translation into the cache, with the last use that the same translation had. -/
theorem fill_cached (s : State) (tile : Nat) (e : TEntry) : ∃ use, { e with lastUse := use } ∈ (s.fill tile e).cacheOf tile := by
  unfold State.fill State.cacheOf
  extract_lets same use old cut x1
  refine ⟨use, ?_⟩
  rw [tget_tset_same]
  exact List.mem_append_right _ (List.mem_singleton_self _)

-- Ends of walks
theorem walkFault_nobody {s : State} {w : Nat} {k : Walk} (h : k.m.waiters = []) : s.walkFault w k = s.setWalker w none := by
  rw [State.walkFault, h, List.foldl_nil]
theorem walkFault_mover {s : State} {w : Nat} {k : Walk} {m : MWait} (h : k.m.waiters = [.mover m.n m.idx m.va m.need]) (hm : s.xl.mwaits = [m]) :
    s.walkFault w k = (s.setWalker w none).modXl (fun x => { x with mwaits := [], mfaults := s.xl.mfaults ++ [m] }) := by
  simp [State.walkFault, h, waiterFail, State.setWalker, State.modXl, hm]
theorem walkGot_prefetch {s : State} {w tile : Nat} {k : Walk} (h : k.m.waiters = [.prefetch tile]) (x : TEntry) :
    s.walkGot w k x = (s.setWalker w none).fill tile x := by
  have hok : waiterOk x (.prefetch tile) = true := rfl
  simp [State.walkGot, h, hok, waiterFill]
/-- A translation found for a prefetch frees the walker and stands in the cache of the tile. -/
theorem walkGot_prefetch_fills {s : State} {w tile : Nat} {k : Walk} (h : k.m.waiters = [.prefetch tile]) (x : TEntry) :
    (s.walkGot w k x).walker w = none ∧ (∃ use, { x with lastUse := use } ∈ (s.walkGot w k x).cacheOf tile) ∧ Moved s (s.walkGot w k x) := by
  rw [walkGot_prefetch h]
  refine ⟨?_, fill_cached _ _ _, (setWalker_moved _ _ _).trans (fill_moved _ _ _)⟩
  rw [fill_walker, walker_setWalker, if_pos rfl]

-- The start of a walk (R97, R94)
theorem walkBegin_table {s : State} {w : Nat} {k : Walk} (hmode : (s.bind k.m.ctx).mode = 1) (hwc : s.xl.wcache = []) :
    s.walkBegin w k = s.walkRead w k 0 (walkEntryFa 0 (s.bind k.m.ctx).root k.m.va) := by
  simp [State.walkBegin, hmode, State.wcacheOf, hwc, tget, ptrOf]
theorem walkBegin_host {s : State} {w h : Nat} {k : Walk} (hmode : (s.bind k.m.ctx).mode = 2) (hwc : s.xl.wcache = [])
    (hport : s.ownPort (s.bind k.m.ctx).hostNode = some h) :
    s.walkBegin w k = (s.setWalker w (some { k with level := 4, tag := none })).emit (.atsReq h w (s.bind k.m.ctx).pasid k.m.va) := by
  simp [State.walkBegin, hmode, State.wcacheOf, hwc, tget, atsOf, hport]
theorem admitWaits_none {s : State} (h : s.xl.mwaits = []) (d : Nat) : s.admitWaits d = s := by
  rw [State.admitWaits, h, List.foldl_nil]
/-- The state in which the oldest miss of a die has been taken from its queue. -/
def State.missTaken (s : State) (d : Nat) (l : List Miss) : State := s.modXl (fun x => { x with misses_ := tset x.misses_ d l })
theorem execWalkStart_takes {s : State} {w : Nat} {m : Miss} {l : List Miss} (hw : w < 128) (hfree : s.walker w = none) (hq : s.missQ (w / 32) = m :: l)
    (hhome : (s.bind m.ctx).homeNode = s.poolNode) (hmw : s.xl.mwaits = []) :
    execWalkStart w s = .next ((s.missTaken (w / 32) l).walkBegin w { m := m, since := s.clk }) := by
  have hadm := admitWaits_none (s := s.missTaken (w / 32) l) hmw (w / 32)
  simp only [State.missTaken] at hadm ⊢
  simp [execWalkStart, Nat.not_le.mpr hw, hfree, hq, hhome, hadm]
theorem missQ_missTaken (s : State) (d : Nat) (l : List Miss) : (s.missTaken d l).missQ d = l := tget_tset_same _ _ _ _

-- The answer to an entry read (R97 to R100)
theorem hit_nil {k : Walk} (h : k.wds = []) (va n fa fn : Nat) : k.hit va n fa fn = false := by
  rw [Walk.hit, h, List.any_nil]
section
variable {s : State} {w : Nat} {k : Walk} {r : Txn}
theorem walkEntry_pointer (hst : r.status = 0) (hlevel : k.level = 0) (hwds : k.wds = []) (hok : nMalformed (rspWord r) 0 = false)
    (hvalid : (nEntry (rspWord r)).valid = true) (hptr : (nEntry (rspWord r)).leaf = false) :
    s.walkEntry w k r = (s.wfill (w / 32) (.ptr k.m.ctx 0 (k.m.va / 2 ^ 41) (nEntry (rspWord r)).fa)).walkRead w k 1
      (walkEntryFa 1 (nEntry (rspWord r)).fa k.m.va) := by
  simp [State.walkEntry, hst, hlevel, hit_nil hwds, hok, hvalid, hptr]
theorem walkEntry_leaf (hst : r.status = 0) (hwds : k.wds = []) (hok : nMalformed (rspWord r) k.level = false)
    (hvalid : (nEntry (rspWord r)).valid = true) (hleaf : (nEntry (rspWord r)).leaf = true) :
    s.walkEntry w k r = s.walkLeaf w { k with wds := [] } (nEntry (rspWord r)) := by
  simp [State.walkEntry, hst, hit_nil hwds, hok, hvalid, hleaf]
theorem walkEntry_failed (hst : r.status ≠ 0) :
    s.walkEntry w k r = (s.logFault { kind := 3, status := r.status, form := 0, node := 0, ctx := k.m.ctx, fa := k.entryFa, slot := s.slot }).walkFault w k := by
  simp [State.walkEntry, hst]
theorem execWalkEntryRead_answered {g c : Nat} {o : OutReq} (ho : s.ownReq g = some o) (hwho : o.who = .walk w c) (hr : o.resp = some r)
    (hk : s.walker w = some k) (htag : k.tag = some g) :
    execWalkEntryRead g s = .next ((s.endReq (s.poolNode * 1048576 + g)).walkEntry w k r) := by
  have hk' : (s.endReq (s.poolNode * 1048576 + g)).walker w = some k := hk
  simp [execWalkEntryRead, ho, hwho, hr, hk, htag]
end
/-- The translation that a leaf entry of a native table gives a walk (R97, R100). -/
def Walk.translation (k : Walk) (e : NEntry) : TEntry :=
  { ctx := k.m.ctx, va := k.m.va / pageSize e.size * pageSize e.size, at_va := k.m.va, size := e.size, fa := e.fa, rd := e.rd, wr := e.wr, at_ := e.at_,
    attr := some (e.pclass, e.keySlot), moving := false, lastUse := none }
theorem walkLeaf_settled {s : State} {w : Nat} {k : Walk} {e : NEntry} (hlevel : k.level = 2) (hats : k.ats = none) (hmov : e.moving = false) :
    s.walkLeaf w k e = s.walkGot w k (k.translation e) := by
  simp [State.walkLeaf, Walk.translation, hlevel, hats, hmov]
theorem lastN_append_getLast {α : Type} {n : Nat} (hn : 0 < n) (l : List α) (x : α) : (lastN n (l ++ [x])).getLast? = some x := by
  have hlt : ¬ (l ++ [x]).length ≤ (l ++ [x]).length - n := by simp only [List.length_append, List.length_singleton]; omega
  rw [lastN, List.getLast?_drop, if_neg hlt, List.getLast?_concat]

-- Timeouts of walks, holds and waits
theorem execWalkTimeout_due {s : State} {w : Nat} {k : Walk} (hk : s.walker w = some k) (hlevel : k.level ≤ 4) (hre : k.rereadAt = none)
    (hdue : k.since + s.xl.xlateTimeout * 1000 ≤ s.clk) : execWalkTimeout w s = .next (s.walkFault w k) := by
  simp [execWalkTimeout, hk, hlevel, hre, hdue]
/-- A response that a hop forms for a requester of the package itself comes to its inbox. -/
theorem sendRsp_inbox {s : State} {e : QEntry} (h : s.egress e.adm e.t.dnode e.t.key = some 256) : s.sendRsp e = (s.release e).toInbox e.t := by
  simp [State.sendRsp, h]
theorem failEntry_inbox {s : State} {e : QEntry} {st : Nat} (h : s.egress e.adm e.t.snode (e.t.fail st s.poolNode).key = some 256) (r : Bool) :
    ∃ u, Charged s u ∧ s.failEntry e st r = u.toInbox (e.t.fail st s.poolNode) := by
  have hc := freeCells_charged s e.adm e.vc (e.cells - 1)
  exact ⟨_, hc.trans (release_charged _ _), sendRsp_inbox (by rw [hc.egress]; exact h)⟩
theorem Charged.xl {s u : State} (h : Charged s u) : u.xl = s.xl := by
  obtain ⟨_, _, rfl, _⟩ := h.keeps
  rfl
theorem Charged.xact {s u : State} (h : Charged s u) : u.xact = s.xact := by
  obtain ⟨_, _, rfl, _⟩ := h.keeps
  rfl
theorem resumeTile_none {s : State} {g : Nat} (h : s.holdsOf g = []) : s.resumeTile g = s.setHolds g [] := by
  rw [State.resumeTile, h, resumeHolds]
theorem edgeRetry_read {s : State} {e : QEntry} (h : e.t.ty = .rd) :
    s.edgeRetry e = (s.modXl (fun x => { x with holdExpired := x.holdExpired + 1 })).failEntry e 10 false := by
  simp [State.edgeRetry, State.edgeFail, h]
/-- The state in which the one request that a tile held has been taken and counted. -/
def State.heldTaken (s : State) (g : Nat) : State := (s.setHolds g []).modXl (fun x => { x with holdExpired := x.holdExpired + 1 })
theorem holdsOf_heldTaken (s : State) (g : Nat) : (s.heldTaken g).holdsOf g = [] := tget_tset_same _ _ _ _
/-- The one request that a tile holds, a read of the package's own, is answered RETRY_LATER when its time is over (R84). -/
theorem execHoldExpired_single {s : State} {g : Nat} {x : Held} (hx : s.holdsOf g = [x]) (hdue : x.since + s.xl.holdMax * 1000 ≤ s.clk)
    (hty : x.e.t.ty = .rd) (hroute : s.egress x.e.adm x.e.t.snode (x.e.t.fail 10 s.poolNode).key = some 256) :
    ∃ u, Charged (s.heldTaken g) u ∧ execHoldExpired g s = .next ((u.toInbox (x.e.t.fail 10 s.poolNode)).setHolds g []) := by
  have hpool : (s.heldTaken g).poolNode = s.poolNode := rfl
  have hegress : ∀ a n k, (s.heldTaken g).egress a n k = s.egress a n k := fun _ _ _ => rfl
  obtain ⟨u, hu, hfail⟩ := failEntry_inbox (s := s.heldTaken g) (e := x.e) (st := 10) (by rw [hegress, hpool]; exact hroute) false
  rw [hpool] at hfail
  have hempty : (u.toInbox (x.e.t.fail 10 s.poolNode)).holdsOf g = [] := (congrArg (fun y : Xl => tget [] y.holds g) hu.xl).trans (holdsOf_heldTaken s g)
  have hexec : execHoldExpired g s = .next (((s.setHolds g []).edgeRetry x.e).resumeTile g) := by simp [execHoldExpired, hx, hdue]
  refine ⟨u, hu, hexec.trans ?_⟩
  rw [edgeRetry_read hty, ← resumeTile_none hempty, ← hfail]
  rfl
theorem execSlowWaitExpired_single {s : State} {m : MWait} (hm : s.xl.mwaits = [m]) (hdue : m.since + s.xl.slowWait * 1000 ≤ s.clk) (hwalk : s.xl.walkers = [])
    (hmiss : s.xl.misses_ = []) :
    execSlowWaitExpired m.n m.idx s = .next (s.modXl (fun x => { x with mwaits := [], mfaults := x.mfaults ++ [m], walkers := [] })) := by
  have hnone : ∀ w, s.walker w = none := fun w => by rw [State.walker, hwalk, tget]
  have hsince : s.slowSince m = some m.since := by
    simp [State.slowSince, hnone, State.missQ, hmiss, tget, List.findSome?_eq_none_iff.mpr]
  simp [execSlowWaitExpired, hm, hsince, hdue, hwalk, tmap, State.modXl]
theorem execMovingReread_due {s : State} {w x : Nat} {k : Walk} (hk : s.walker w = some k) (hre : k.rereadAt = some x) (hdue : x ≤ s.clk) :
    execMovingReread w s = .next (s.walkRead w { k with since := s.clk } k.level k.entryFa) := by
  simp [execMovingReread, hk, hre, hdue]
/-- Settles O48: under each hypothesis the command has one equation, and the walker, the cache or the box it ends at is read off it. -/
theorem walksProceed : Obligations.WalksProceed := by
  unfold Obligations.WalksProceed
  refine ⟨?_, ?_, ?_, ?_, ?_, ?_, ?_⟩
  · intro s w m l hw hfree hq hmode hhome hmw hwc
    have hexec := execWalkStart_takes hw hfree hq hhome hmw
    rw [walkBegin_table (s := s.missTaken (w / 32) l) (k := { m := m, since := s.clk }) hmode hwc] at hexec
    have htaken : Moved s (s.missTaken (w / 32) l) := modXl_moved _ _
    refine ⟨_, _, hexec, walkRead_walker _ _ _ _ _, rfl, rfl, rfl, ?_, (htaken.trans (walkRead_moved _ _ _ _ _)).pool, walkRead_issues htaken rfl _ _ _ _⟩
    rw [State.missQ, walkRead_xl]
    exact missQ_missTaken _ _ _
  · intro s w h m l hw hfree hq hmode hhome hmw hwc hport
    have hexec := execWalkStart_takes hw hfree hq hhome hmw
    rw [walkBegin_host (s := s.missTaken (w / 32) l) (k := { m := m, since := s.clk }) hmode hwc hport] at hexec
    exact ⟨_, _, hexec, (walker_setWalker _ _ _ _).trans (if_pos rfl), rfl, rfl, rfl, rfl⟩
  · intro s g w c o r k ho hwho hr hk htag
    have hexec := execWalkEntryRead_answered ho hwho hr hk htag
    refine ⟨fun hst hlevel hwds hok hvalid hptr => ?_, fun tile hst hlevel hwds hats hwait hok hvalid hleaf hmov => ?_, fun hst hwait => ?_⟩
    · rw [walkEntry_pointer hst hlevel hwds hok hvalid hptr] at hexec
      exact ⟨_, _, hexec, walkRead_walker _ _ _ _ _, rfl, rfl, rfl, ((modXl_moved _ _).trans (walkRead_moved _ _ _ _ _)).pool⟩
    · rw [walkEntry_leaf hst hwds (hlevel ▸ hok) hvalid hleaf] at hexec
      rw [walkLeaf_settled (k := { k with wds := [] }) hlevel hats hmov] at hexec
      obtain ⟨hfree, ⟨use, hmem⟩, hmoved⟩ := walkGot_prefetch_fills (s := s.endReq (s.poolNode * 1048576 + g)) (w := w) (k := { k with wds := [] }) hwait
        (Walk.translation { k with wds := [] } (nEntry (rspWord r)))
      exact ⟨_, _, hexec, hfree, hmem, rfl, rfl, rfl, rfl, rfl, rfl, rfl, ((Moved.of_sent (endReq_sent _ _)).trans hmoved).pool⟩
    · rw [walkEntry_failed hst, walkFault_nobody hwait] at hexec
      exact ⟨_, _, hexec, (walker_setWalker _ _ _ _).trans (if_pos rfl), lastN_append_getLast (by omega) _ _, rfl, rfl, rfl, rfl, rfl⟩
  · intro s w k m hk hlevel hre hdue hwait hm
    have hexec := execWalkTimeout_due hk hlevel hre hdue
    rw [walkFault_mover hwait hm] at hexec
    exact ⟨_, hexec, (walker_setWalker _ _ _ _).trans (if_pos rfl), rfl, rfl, rfl, rfl⟩
  · intro s g x hx hdue hty hroute
    obtain ⟨u, hu, hexec⟩ := execHoldExpired_single hx hdue hty hroute
    exact ⟨_, hexec, tget_tset_same _ _ _ _, congrArg Xl.holdExpired hu.xl, congrArg (fun y : Xact => y.inbox ++ [x.e.t.fail 10 s.poolNode]) hu.xact,
      hu.pool, hu.reqs⟩
  · intro s m hm hdue hwalk hmiss
    have hexec := execSlowWaitExpired_single hm hdue hwalk hmiss
    rw [State.modXl, ← hwalk] at hexec
    exact hexec
  · intro s w x k hk hre hdue
    exact ⟨_, _, execMovingReread_due hk hre hdue, walkRead_walker _ _ _ _ _, rfl, rfl, rfl, (walkRead_moved _ _ _ _ _).pool,
      walkRead_issues (.refl s) rfl _ _ _ _⟩

end Sys2Proof.Machine
end

section
/-! ATS and PRI (R91 to R96): what a completion makes of its walk, and what a host port's events do to page requests and bindings. -/

namespace Sys2Proof.Machine
open Sys2Proof

-- ATS completions (R93, R94)
theorem execAtsCompletion_own {s : State} {w a n : Nat} {r wr u : Bool} (h : tfind s.xl.exch w = none) :
    execAtsCompletion w a n r wr u s = .next (s.atsDone w a n r wr u) := by
  simp [execAtsCompletion, h]
theorem walkAbsent_unasked {s : State} {w : Nat} {k : Walk} (h : s.asksPages (s.bind k.m.ctx) = false) : s.walkAbsent w k = s.walkFault w k := by
  simp [State.walkAbsent, h]
theorem atsDone_denied {s : State} {w a n : Nat} {u : Bool} {k : Walk} (hk : s.walker w = some k) (hlevel : k.level = 4) (hwds : k.wds = []) :
    s.atsDone w a n false false u = s.walkAbsent w k := by
  simp [State.atsDone, hk, hlevel, hit_nil hwds, State.atsResult]
/-- The translation of host memory that an ATS result gives (R93, step 3). -/
def Walk.hostTranslation (k : Walk) (hostNode : Nat) (rd wr : Bool) : TEntry :=
  { ctx := k.m.ctx, va := k.m.va, at_va := k.m.va, size := 1, fa := hostNode * 2 ^ 41 + k.m.va, rd := rd, wr := wr, at_ := wr, attr := none,
    moving := false, lastUse := none }
/-- Without an aperture a result with a right is one for host memory (R93). -/
theorem atsResult_hostMemory {s : State} {w base size t : Nat} {rd wr u : Bool} {k : Walk} (hright : (rd || wr) = true)
    (hapt : s.aptOf (s.bind k.m.ctx).hostNode = (0, 0)) (hva : k.m.va < 2 ^ 41) :
    s.atsResult w k base size t rd wr u = s.walkGot w k (k.hostTranslation (s.bind k.m.ctx).hostNode rd wr) := by
  have hnone : (!rd && !wr) = false := by rw [← Bool.not_or, hright]; rfl
  have hva' : ¬ 2 ^ 41 ≤ k.m.va := Nat.not_le.mpr hva
  unfold State.atsResult
  simp only [hnone, hapt, hva', Walk.hostTranslation]
  simp
/-- A result with a right for a context whose host port has no aperture is kept, and gives the translation of host memory. -/
theorem atsDone_hostMemory {s : State} {w a n : Nat} {rd wr u : Bool} {k : Walk} (hk : s.walker w = some k) (hlevel : k.level = 4) (hwds : k.wds = [])
    (hright : (rd || wr) = true) (hapt : s.aptOf (s.bind k.m.ctx).hostNode = (0, 0)) (hva : k.m.va < 2 ^ 41) :
    ∃ e, s.atsDone w a n rd wr u = (s.wfill (w / 32) e).walkGot w k (k.hostTranslation (s.bind k.m.ctx).hostNode rd wr) := by
  have hdone : s.atsDone w a n rd wr u = (s.wfill (w / 32) (.ats k.m.ctx (k.m.va / max n 4096 * max n 4096) (max n 4096) a rd wr u)).atsResult w k
      (k.m.va / max n 4096 * max n 4096) (max n 4096) a rd wr u := by
    simp [State.atsDone, hk, hlevel, hit_nil hwds, hright]
  have hresult := atsResult_hostMemory (s := s.wfill (w / 32) (.ats k.m.ctx (k.m.va / max n 4096 * max n 4096) (max n 4096) a rd wr u)) (w := w)
    (base := k.m.va / max n 4096 * max n 4096) (size := max n 4096) (t := a) (u := u) hright hapt hva
  exact ⟨_, hdone.trans hresult⟩

-- Page requests (R91, R95)
theorem prgAt_free {s : State} {w : Nat} (h : s.walker w = none) (c va : Nat) (ok : Bool) : prgAt c va ok s w = s := by
  simp [prgAt, h]
theorem pageAnswer_idle {s : State} (h : s.xl.walkers = []) (c va : Nat) (ok : Bool) : s.pageAnswer c va ok = s :=
  List.foldl_fixed' (fun w => prgAt_free (by rw [State.walker, h, tget]) c va ok) _
theorem foldl_addNew_same {n : Nat} {l : List Nat} (h : ∀ x ∈ l, x = n) : l.foldl addNew [n] = [n] := by
  induction l with
  | nil => rfl
  | cons x r ih =>
    have hx : addNew [n] x = [n] := by rw [h x (List.mem_cons_self ..)]; simp [addNew]
    rw [List.foldl_cons, hx]
    exact ih (fun y hy => h y (List.mem_cons_of_mem _ hy))
/-- The state of a host port after a Response Failure for a page: the page's requests are over, and no other is made (R95). -/
def State.pageFailed (s : State) (h c x : Nat) : State :=
  s.modHost h (fun p => { p with pageReqs := p.pageReqs.filter (fun q => !(q.1 == c && q.2.1 / 2 ^ 21 == x / 2 ^ 21)), pri := false })
theorem execPrgResponse_failure {s : State} {h c x : Nat} (hidle : s.xl.walkers = []) (hown : ∀ q ∈ (s.host h).pageReqs, q.2.2 = s.poolNode) :
    execPrgResponse h c x 15 s = .next (s.pageFailed h c x) := by
  have hpri : ((s.pageFailed h c x).host h).pri = false := by simp [State.pageFailed]
  have hasked : ∀ p : Nat × Nat × Nat → Bool, (((s.host h).pageReqs.filter p).map (fun q => q.2.2)).foldl addNew [s.poolNode] = [s.poolNode] := fun p =>
    foldl_addNew_same (fun n hn => by
      obtain ⟨q, hq, rfl⟩ := List.mem_map.mp hn
      exact hown q (List.mem_of_mem_filter hq))
  have htell : State.tellPage c x false (s.pageFailed h c x) s.poolNode = s.pageFailed h c x := by
    have hself : (s.pageFailed h c x).poolNode = s.poolNode := rfl
    have hidle' : (s.pageFailed h c x).xl.walkers = [] := hidle
    rw [State.tellPage, hself, if_pos (beq_self_eq_true _)]
    exact pageAnswer_idle hidle' c x false
  have hnext : (s.pageFailed h c x).nextPage h = s.pageFailed h c x := by simp [State.nextPage, hpri]
  unfold execPrgResponse
  dsimp only
  rw [hasked]
  exact congrArg _ ((congrArg (fun t => State.nextPage t h) htell).trans hnext)

-- Invalidate Requests and the loss of ATS (R96)
theorem wdActive_idle {s : State} (h : s.xl.wds = []) : s.wdActive = 0 := by
  rw [State.wdActive, h]
  rfl
section
variable {s : State} {h c : Nat} {y : Bind} (hbinds : s.xl.binds = [(c, y)]) (hmode : y.mode = 2) (hhost : y.hostNode = s.hpNode h)
include hbinds hmode hhost
theorem execAtsInvalidate_bound (hidle : s.xl.wds = []) (i b n : Nat) :
    execAtsInvalidate h y.pasid i b n s = .next (s.startWd false c b n 0 0 (.invalidate h i)) := by
  simp [execAtsInvalidate, hbinds, hmode, hhost, wdActive_idle hidle, hidle]
theorem unbindHost_single : s.unbindHost h = (s.startCtxWd c (.hostLost h)).modXl (fun x => { x with binds := tmod {} x.binds c Bind.unbound }) := by
  simp [State.unbindHost, State.boundTo, hbinds, hmode, hhost]
/-- A host port without ATS has no translations: its one context is withdrawn and unbound. -/
theorem atsEnableCleared_unbinds (hact : s.wdActive < 256) :
    let t := (s.modHost h (fun p => { p with ats := false })).unbindHost h
    (t.host h).ats = false ∧ (t.bind c).mode = 0 ∧ t.pool = s.pool := by
  intro t
  have hunbind : t = ((s.modHost h (fun p => { p with ats := false })).startCtxWd c (.hostLost h)).modXl
    (fun x => { x with binds := tmod {} x.binds c Bind.unbound }) := unbindHost_single (s := s.modHost h (fun p => { p with ats := false })) hbinds hmode hhost
  have hruns := startWd_runs (s := s.modHost h (fun p => { p with ats := false })) hact false c 0 (2 ^ 36) 0 0 (.hostLost h)
  rw [hunbind]
  refine ⟨?_, ?_, hruns.moved.pool⟩
  · have hhp := congrArg (fun p => (tget {} p h).ats) hruns.moved.hp
    exact hhp.trans (by simp [State.modHost])
  · simp [State.bind, State.modXl, Bind.unbound]
end

/-- Settles O49: a completion ends its walk without or with one translation, and what a host withdraws starts the withdrawal of the bound context. -/
theorem atsAndPri : Obligations.AtsAndPri := by
  unfold Obligations.AtsAndPri
  refine ⟨?_, ?_, ?_, ?_, ?_, ?_, ?_⟩
  · intro s w a n u k hex hk hlevel hwds hwait hask
    have hexec := execAtsCompletion_own (a := a) (n := n) (r := false) (wr := false) (u := u) hex
    rw [atsDone_denied hk hlevel hwds, walkAbsent_unasked hask, walkFault_nobody hwait] at hexec
    exact ⟨_, hexec, (walker_setWalker _ _ _ _).trans (if_pos rfl), rfl, rfl, rfl⟩
  · intro s w a n tile rd wr u k hex hk hlevel hwds hwait hright hapt hva
    have hexec := execAtsCompletion_own (a := a) (n := n) (r := rd) (wr := wr) (u := u) hex
    obtain ⟨e, hdone⟩ := atsDone_hostMemory (a := a) (n := n) (u := u) hk hlevel hwds hright hapt hva
    rw [hdone] at hexec
    obtain ⟨hfree, ⟨use, hmem⟩, hmoved⟩ := walkGot_prefetch_fills (s := s.wfill (w / 32) e) (w := w) hwait
      (k.hostTranslation (s.bind k.m.ctx).hostNode rd wr)
    exact ⟨_, _, hexec, hfree, hmem, rfl, rfl, rfl, rfl, rfl, rfl, hmoved.pool⟩
  · intro s h c x hidle hown
    refine ⟨_, execPrgResponse_failure hidle hown, by simp [State.pageFailed], rfl, fun q hq hc => ?_⟩
    simp [-Nat.reducePow, State.pageFailed, hc] at hq
  · intro s h a i b n hbinds
    simp [exec, execAtsInvalidate, hbinds]
  · intro s h i b n c y hbinds hmode hhost hidle
    have hruns := startWd_runs (s := s) (by rw [wdActive_idle hidle]; omega) false c b n 0 0 (.invalidate h i)
    obtain ⟨waits, hmem⟩ := hruns.runs
    exact ⟨_, _, execAtsInvalidate_bound hbinds hmode hhost hidle i b n, hmem, rfl, rfl, rfl, rfl, rfl, rfl, hruns.generation rfl, hruns.moved.pool⟩
  · intro s h c y hbinds hmode hhost hact
    obtain ⟨hats, hmode', hpool⟩ := atsEnableCleared_unbinds hbinds hmode hhost hact
    exact ⟨_, rfl, hats, hmode', hpool⟩
  · intro s h
    rfl

end Sys2Proof.Machine
end

section
/-! Drift (R111, R300 to R306): the scan, the steps of a move, the writes of drift's objects, and the zeroing of a hole. -/

namespace Sys2Proof.Machine
open Sys2Proof

-- The scan (R303)
section
variable {s : State} {d : DriftCfg} (hd : s.tbl.active.drift = some d) (hdec : s.pool.decayed = true) (hen : s.pool.driftEnable = true)
  (hserv : s.inService = true) (hth : s.thm.stage = .normal)
include hd hdec hen hserv hth
theorem execDriftScan_none (hb : s.pool.backptr = []) : execDriftScan s = .next (s.modPool (fun p => { p with decayed := false })) := by
  simp [execDriftScan, hd, hdec, hen, hserv, hth, hb]
theorem execDriftScan_single {g a : Nat} (hb : s.pool.backptr = [(g, a)]) (hc : s.driftCandidate d g = true) (hsc : s.pool.scanned = []) :
    execDriftScan s = .next ((s.modPool (fun p => { p with decayed := false, scanned := [g] })).issue (readTxn 0 a 16 0 true) (.driftScan g) s.reqTimeout) := by
  simp [execDriftScan, hd, hdec, hen, hserv, hth, hb, hc, hsc, tget, State.modPool, State.reqTimeout]
end

-- Requests issued after a change of the pool
theorem modPool_issues (s : State) (f : Pool → Pool) (t : Txn) (who : Purpose) : Issues s ((s.modPool f).issue t who s.reqTimeout) t who :=
  issuesAs_of_issueAs (s := s) (u := s.modPool f) rfl rfl s.poolNode t who
theorem issue_pool (s : State) (t : Txn) (who : Purpose) (timeout : Nat) : (s.issue t who timeout).pool = s.pool := (issue_moved s t who timeout).pool

-- The steps of a move (R111)
theorem move_modMove {s : State} {i : Nat} {m : Move} {f : Move → Move} (h : s.move i = some m) (hf : ∀ x, (f x).id = x.id) :
    (s.modMove i f).move i = some (f m) := by
  have hid : (m.id == i) = true := List.find?_some (p := fun x : Move => x.id == i) h
  have hpred : (fun x : Move => x.id == i) ∘ (fun x => if x.id == i then f x else x) = fun x => x.id == i := by
    funext x
    dsimp only [Function.comp_apply]
    split
    · rw [hf]
    · rfl
  rw [State.move] at h
  show (s.pool.movesNow.map (fun x => if x.id == i then f x else x)).find? (fun x => x.id == i) = some (f m)
  rw [List.find?_map, hpred, h, Option.map_some, if_pos hid]
section
variable {s : State} {i : Nat} {m : Move} (hm : s.move i = some m)
include hm
theorem execDriftCopyDone_ends (hst : m.stage = 2) (hab : m.aborting = false) (hdone : m.done = 32768) :
    execDriftCopyDone i s = .next ((s.modMove i (fun x => { x with stage := 3 })).issue (entryStore m.entry m.word m.land false) (.driftEntry i) s.reqTimeout) := by
  simp [execDriftCopyDone, hm, hst, hab, hdone]
theorem execDriftCopyDone_copying (hdone : m.done < 32768) : execDriftCopyDone i s = .next s := by
  simp [execDriftCopyDone, hm, Nat.ne_of_lt hdone]
theorem execDriftRelease_guarded (hg : s.clk < m.doneAt + s.xl.releaseGuard * 1000) : execDriftRelease i s = .next s := by
  simp [execDriftRelease, hm, Nat.not_le.mpr hg]
theorem execDriftRelease_over (hst : m.stage = 4) (hg : m.doneAt + s.xl.releaseGuard * 1000 ≤ s.clk) :
    execDriftRelease i s = .next (s.modPool (fun p => { p with
      movesNow := p.movesNow.filter (fun x => x.id != i), moves := p.moves + 1, landed := p.landed ++ [(m.land, m.page, m.entry)],
      counters := tmod {} p.counters (m.page / 2 ^ 21) (fun c => { c with hole := true, zeroed := false }), backptr := terase p.backptr (m.page / 2 ^ 21) })) := by
  simp [-Nat.reducePow, execDriftRelease, hm, hst, hg]
end

-- Writes that change the pool alone
theorem Mgmt.modPool {s t : State} (h : Mgmt s t) (f : Pool → Pool) : Mgmt (s.modPool f) (t.modPool f) := by
  obtain ⟨v, e, o, rfl⟩ := h
  exact ⟨v, e, o, rfl⟩
/-- A write whose effect is a change of the pool leaves that change, but for the management side. -/
theorem vaneWrite_modPool {s : State} {v : VCtx} {obj : Nat × Nat} {p : Bytes} {eff : State → Except Nat State} (h : Write s v obj p) {f : Pool → Pool}
    (he : eff (s.countDatagram v.sess) = .ok ((s.countDatagram v.sess).modPool f)) :
    ∃ t, s.vaneWrite v obj p none eff = .next t ∧ Answered t v 0 ∧ MgmtOnly (s.modPool f) t := by
  obtain ⟨t, hexec, hans, hm⟩ := vaneWrite_accepts h (u := none) (fun _ hx => by cases hx) he
  exact ⟨t, hexec, hans, ((countDatagram_mgmt s v.sess).modPool f).trans hm⟩
theorem driftEnableWrite_on (s : State) : driftEnableWrite true s = .ok (s.modPool (fun p => { p with driftEnable := true })) := rfl
theorem driftEnableWrite_off {s : State} {m : Move} (hm : s.pool.movesNow = [m]) (hst : m.stage < 2) :
    driftEnableWrite false s = .ok (s.modPool (fun p => { p with driftEnable := false, movesNow := [{ m with aborting := true }] })) := by
  have hst' : ¬ m.stage = 2 := by omega
  simp [driftEnableWrite, State.modPool, hm, Nat.le_of_lt hst, State.abortCheck, State.move, hst']
theorem driftLandReleaseWrite_frees (s : State) {a : Nat} (h : isFa a = true) :
    driftLandReleaseWrite a s = .ok (s.modPool (fun p => { p with landed := p.landed.filter (fun l => l.1 != a) })) := by
  simp [driftLandReleaseWrite, check, h]
theorem poolBackptrWrite_registers {s : State} {g a e : Nat} {x : Ext} (hown : g / 2 ^ 41 = s.poolNode) (hext : extOfOff s (s.poolOff g) = some (e, x))
    (hst : x.st = .active) (hfa : isFa a = true) (hal : a % 16 = 0) (ha : a ≠ 0) :
    poolBackptrWrite g a s = .ok (s.modPool (fun p => { p with backptr := tset p.backptr (s.poolOff g / 2 ^ 21) a })) := by
  simp [-Nat.reducePow, poolBackptrWrite, check, hown, hext, hst, hfa, hal, ha]
theorem poolOff_countDatagram (s : State) (i g : Nat) : (s.countDatagram i).poolOff g = s.poolOff g := by
  obtain ⟨_, _, _, h⟩ := countDatagram_mgmt s i
  rw [h]
  rfl
theorem extOfOff_countDatagram (s : State) (i off : Nat) : extOfOff (s.countDatagram i) off = extOfOff s off := by
  simp [extOfOff]

-- Holes (R306)
theorem memGet_filter (m : List Host.Cell) (p : Nat → Bool) (a : Nat) : memGet (m.filter (fun c => p c.1)) a = if p a then memGet m a else 0 := by
  induction m with
  | nil => simp [memGet]
  | cons c r ih =>
    obtain ⟨k, v⟩ := c
    by_cases hk : k = a
    · subst hk
      cases hp : p k <;> simp [hp, memGet, ih]
    · cases hp : p k <;> simp [hp, memGet, ih, hk]
/-- Zeroing sets the bytes of the range to zero and leaves every other. -/
theorem memGet_memZero (m : List Host.Cell) (a n j : Nat) : memGet (memZero m a n) j = if a ≤ j ∧ j < a + n then 0 else memGet m j := by
  have h : memGet (memZero m a n) j = _ := memGet_filter m (fun k => decide (k < a) || decide (a + n ≤ k)) j
  rw [h]
  by_cases hj : a ≤ j ∧ j < a + n
  · have hout : ¬ (j < a ∨ a + n ≤ j) := by omega
    simp [hj, hout]
  · have hout : j < a ∨ a + n ≤ j := by omega
    simp [hj, hout]
theorem putParity_mem (s : State) (x : Ext) (off : Nat) : (s.putParity x off).pool.mem = s.pool.mem := by
  unfold State.putParity
  dsimp only
  split <;> rfl
theorem zeroPage_mem (s : State) (page : Nat) : (s.zeroPage page).pool.mem = memZero s.pool.mem (page * 2 ^ 21) (2 ^ 21) := by
  unfold State.zeroPage
  extract_lets s1
  split
  · rw [putParity_mem, putParity_mem]
    rfl
  · rfl
theorem execHoleZeroed_hole {s : State} {g : Nat} (hh : (tget {} s.pool.counters g).hole = true) (hz : (tget {} s.pool.counters g).zeroed = false) :
    execHoleZeroed g s = .next ((s.zeroPage g).modPool (fun p => { p with counters := tset p.counters g { tget {} s.pool.counters g with zeroed := true } })) := by
  simp [execHoleZeroed, hh, hz]

/-- Settles O50: each step of a move and each write has one equation, and the bytes of a zeroed hole are those of `memZero`. -/
theorem driftMoves : Obligations.DriftMoves := by
  unfold Obligations.DriftMoves
  refine ⟨⟨?_, ?_, ?_, ?_, ?_⟩, ?_, ?_, ?_, ?_, ?_⟩
  · intro s d hd hdec hen hserv hth
    refine ⟨fun hb => execDriftScan_none hd hdec hen hserv hth hb, fun g a hb hc hsc => ?_⟩
    exact ⟨_, execDriftScan_single hd hdec hen hserv hth hb hc hsc, issue_pool _ _ _ _, modPool_issues s _ _ _⟩
  · intro s i m hm hst hab hdone
    refine ⟨_, execDriftCopyDone_ends hm hst hab hdone, ?_, modPool_issues s _ _ _, ?_⟩
    · rw [State.move, issue_pool]
      exact move_modMove (f := fun x => { x with stage := 3 }) hm (fun _ => rfl)
    · rw [issue_pool]
      rfl
  · exact fun s i m hm _ hdone => execDriftCopyDone_copying hm hdone
  · exact fun s i m hm _ hg => execDriftRelease_guarded hm hg
  · exact fun s i m hm hst hg => execDriftRelease_over hm hst hg
  · exact fun s v hw => vaneWrite_modPool hw (driftEnableWrite_on _)
  · intro s v m hw hm hst
    have heff := driftEnableWrite_off (s := s.countDatagram v.sess) (m := m) (by simpa using hm) hst
    exact vaneWrite_modPool hw heff
  · exact fun s v a hw hfa => vaneWrite_modPool hw (driftLandReleaseWrite_frees _ hfa)
  · intro s v g a e x hw hown hext hst hfa hal ha
    have heff := poolBackptrWrite_registers (s := s.countDatagram v.sess) (g := g) (by simpa using hown)
      (by rw [extOfOff_countDatagram, poolOff_countDatagram]; exact hext) hst hfa hal ha
    rw [poolOff_countDatagram] at heff
    exact vaneWrite_modPool hw heff
  · intro s g hh hz
    refine ⟨_, execHoleZeroed_hole hh hz, by simp [State.modPool], fun a hlo hhi => ?_, fun a ha => ?_⟩
    · show memGet (s.zeroPage g).pool.mem a = 0
      rw [zeroPage_mem, memGet_memZero, if_pos (by omega)]
    · show memGet (s.zeroPage g).pool.mem a = memGet s.pool.mem a
      rw [zeroPage_mem, memGet_memZero, if_neg (by omega)]

end Sys2Proof.Machine
end

section
/-! What a hop makes of an arriving transaction (R114 to R119, R123, R135, R182, R335, R340): its place in the queue of its route, or the hop's answer. -/

namespace Sys2Proof.Machine
open Sys2Proof

-- A hop answers from any state that routes as `s` does
/-- `t` has the clock, the queues, the routes and the pool node of `s`: what a hop or the home sends goes the same way from either. -/
structure Routed (s t : State) : Prop where
  clk : t.clk = s.clk
  queue : ∀ g v, t.queue g v = s.queue g v
  egress : ∀ a n k, t.egress a n k = s.egress a n k
  node : t.poolNode = s.poolNode
theorem Routed.trans {s t u : State} (h : Routed s t) (g : Routed t u) : Routed s u :=
  ⟨g.clk.trans h.clk, fun a v => (g.queue a v).trans (h.queue a v), fun a n k => (g.egress a n k).trans (h.egress a n k), g.node.trans h.node⟩
theorem Charged.poolNode {s t : State} (h : Charged s t) : t.poolNode = s.poolNode := by
  obtain ⟨_, _, _, _, _, rfl⟩ := h
  rfl
theorem Charged.routed {s t : State} (h : Charged s t) : Routed s t := ⟨h.clk, h.queue, h.egress, h.poolNode⟩
theorem markFlow_routed (s : State) (x : Txn) (a : Nat) : Routed s (s.markFlow x a) := by
  have hnode := (markFlow_carried s x a).poolNode
  obtain ⟨m, f, d, v, ev, o, heq⟩ := markFlow_spec s x a
  rw [heq] at hnode ⊢
  exact ⟨rfl, fun _ _ => rfl, fun _ _ _ => rfl, hnode⟩
theorem countRevoked_routed (s : State) : Routed s s.countRevoked := ⟨rfl, fun _ _ => rfl, fun _ _ _ => rfl, rfl⟩
theorem Queued.of_routed {s u t : State} {q v a : Nat} {x : Txn} (hu : Routed s u) (hq : Queued u t q v x a) : Queued s t q v x a := by
  obtain ⟨l, e, hl, hmap, hx, ha, hsince⟩ := hq
  exact ⟨l, e, hl, by rw [hmap, hu.queue], hx, ha, by rw [hsince, hu.clk]⟩
/-- The answer of a hop stands at the end of the queue that the request's source is reached by. -/
theorem failEntry_queued {s u : State} (hu : Routed s u) (e : QEntry) (st : Nat) (r : Bool) {q : Nat}
    (hq : s.egress e.adm e.t.snode (e.t.fail st s.poolNode).key = some q) (hq' : q ≠ 256) :
    Queued s (u.failEntry e st r) q (2 + 5 * (e.vc / 5)) (e.t.fail st s.poolNode) e.adm := by
  obtain ⟨w, x, hc, hfail, hx, ha, hsince⟩ := failEntry_spec u e st r (by rw [hu.egress, hu.node, hq]) hq'
  rw [hu.node] at hx
  rw [hfail, ← hx, ← ha]
  exact Queued.of_routed hu (enqueue_queued hc q _ x hsince)
theorem Charged.marks {s t : State} (h : Charged s t) : t.sw.marks = s.sw.marks := by
  obtain ⟨_, _, _, _, _, rfl⟩ := h
  rfl
theorem sendRsp_marks (s : State) (e : QEntry) : (s.sendRsp e).sw.marks = s.sw.marks := by
  unfold State.sendRsp
  split
  · exact (release_charged s e).marks
  · exact (release_charged s e).marks
  · rfl
theorem failEntry_marks (s : State) (e : QEntry) (st : Nat) (r : Bool) : (s.failEntry e st r).sw.marks = s.sw.marks :=
  (sendRsp_marks _ _).trans (freeCells_charged _ _ _ _).marks

-- Admission (R178)
@[simp] theorem setAdm_admOf (s : State) (a v h o : Nat) :
    (s.setAdm a v h o).admOf a v = { held := h, out := o, claimed := h + o - (s.floorCap a v).1 } := tget_tset_same _ _ _ _
theorem grant_held (s : State) (a v n : Nat) : ((s.grant a v n).admOf a v).held = (s.admOf a v).held := by
  show ((s.setAdm a v (s.admOf a v).held ((s.admOf a v).out + n)).admOf a v).held = _
  rw [setAdm_admOf]
theorem grantMore_held (a v n : Nat) (s : State) : ((grantMore a v n s).admOf a v).held = (s.admOf a v).held := by
  induction n generalizing s with
  | zero => rfl
  | succ n ih =>
    unfold grantMore
    dsimp only
    split
    · rw [ih, grant_held]
    · rfl
/-- Arriving cells are charged to their point, whatever credits are granted for them. -/
theorem charge_held (s : State) (a v n : Nat) : ((s.charge a v n).admOf a v).held = (s.admOf a v).held + n := by
  unfold State.charge
  dsimp only
  split
  · rw [grantMore_held, setAdm_admOf]
  · rw [setAdm_admOf]

section
variable {s : State} {a : Nat} {x : Txn}

theorem takeIn_noncol (h : x.ty.cls ≠ 3) : s.takeIn a x =
    if a < 256 then (s.charge a (s.vcAt a x.ty.cls) x.cells).modPort a (fun p => { p with cellsAdmitted := p.cellsAdmitted + x.cells })
    else s.charge a (s.vcAt a x.ty.cls) x.cells := by
  simp [State.takeIn, h]
theorem takeIn_charged (h : x.ty.cls ≠ 3) : Charged s (s.takeIn a x) := by
  rw [takeIn_noncol h]
  split
  · exact (charge_charged _ _ _ _).trans (modPort_charged _ _ _ ⟨_, _, rfl⟩)
  · exact charge_charged _ _ _ _
theorem takeIn_held (h : x.ty.cls = 0) : ((s.takeIn a x).admOf a (s.vcAt a 0)).held = (s.admOf a (s.vcAt a 0)).held + x.cells := by
  rw [takeIn_noncol (by simp [h]), h]
  split
  · exact charge_held s a _ _
  · exact charge_held s a _ _
end

theorem Charged.retired {s t : State} (h : Charged s t) (x : Txn) : t.retired x = s.retired x := by
  obtain ⟨_, _, _, _, _, rfl⟩ := h
  rfl
theorem Charged.holdsOf {s t : State} (h : Charged s t) (a : Nat) : t.holdsOf a = s.holdsOf a := by
  obtain ⟨_, _, _, _, _, rfl⟩ := h
  rfl
theorem Charged.absent {s t : State} (h : Charged s t) : t.absent = s.absent := by
  obtain ⟨_, _, _, _, _, rfl⟩ := h
  rfl
theorem Charged.repins {s t : State} (h : Charged s t) : t.sw.repins = s.sw.repins := by
  obtain ⟨_, _, _, _, _, rfl⟩ := h
  rfl
theorem Charged.flood {s t : State} (h : Charged s t) : t.sw.flood = s.sw.flood := by
  obtain ⟨_, _, _, _, _, rfl⟩ := h
  rfl
theorem Charged.tbl {s t : State} (h : Charged s t) : t.tbl = s.tbl := by
  obtain ⟨_, _, _, _, _, rfl⟩ := h
  rfl

-- Marks and REPIN (R190 to R196)
theorem inRepin_none {s : State} (h : s.sw.repins = []) (x : Txn) (a : Nat) : s.inRepin x a = false := by
  simp [State.inRepin, h]
theorem barred_none {s : State} (hm : s.sw.marks = []) (hr : s.sw.repins = []) (x : Txn) (a : Nat) : s.barred x a = false := by
  simp [State.barred, State.marked, hm, inRepin_none hr]
theorem dropMarks_none {s : State} (hm : s.sw.marks = []) (hf : s.sw.flood = false) (p : Mark → Bool) : s.dropMarks p = s := by
  have hsame : ({ s with sw := { s.sw with marks := s.sw.marks.filter (fun m => !p m) } } : State) = s := by
    rw [hm, List.filter_nil, ← hm]
  rw [State.dropMarks, hsame, State.floodCheck, hf]
  rfl
theorem agedOrPut_free {s : State} (hm : s.sw.marks = []) (hr : s.sw.repins = []) (hf : s.sw.flood = false) (e : QEntry) (q : Nat) :
    s.agedOrPut e q = s.putReq e q := by
  simp [State.agedOrPut, dropMarks_none hm hf, inRepin_none hr, barred_none hm hr, hf]
theorem agedOrPut_marked {s : State} {e : QEntry} (hty : e.t.ty ≠ .resync) (hf : s.sw.flood = false) (hm : s.marked e.t e.adm = true) (q : Nat) :
    s.agedOrPut e q = s.markDiscard e := by
  simp [State.agedOrPut, hty, hf, State.barred, hm]
/-- One more request is counted as discarded at a mark (R192). -/
def State.countDiscard (s : State) : State := { s with sw := { s.sw with markDiscards := s.sw.markDiscards + 1 } }
theorem countDiscard_routed (s : State) : Routed s s.countDiscard := ⟨rfl, fun _ _ => rfl, fun _ _ _ => rfl, rfl⟩
/-- A single request that its flow's mark discards is answered AGED, and its flow is marked (R192). -/
theorem markDiscard_single {s : State} {e : QEntry} (h : e.acc = none) :
    s.markDiscard e = (s.countDiscard.markFlow e.t e.adm).failEntry e 7 true := by
  simp [State.markDiscard, State.countDiscard, State.discard, QEntry.requests, MarkOf.marks, h]

-- The route of a request (R175, R182)
/-- With combining off a request goes behind what its queue holds, where it may close entries (R141). -/
theorem putReq_uncombined {s : State} (hacc : s.xact.accEnable = false) (e : QEntry) {q : Nat} (hq : q < 256) :
    ∃ l, s.putReq e q = s.setQueue q e.queueVc (l ++ [e]) ∧ l.map (fun y => y.t) = (s.queue q e.queueVc).map (fun y => y.t) := by
  have hclose : ∀ l, (closeOverlaps e.t l).map (fun y => y.t) = l.map (fun y => y.t) := fun l => by
    rw [closeOverlaps, List.map_map]
    refine List.map_congr_left fun y _ => ?_
    dsimp only [Function.comp_apply]
    split
    · split <;> rfl
    · rfl
  have hput : ∀ l home, s.accretePut l e q home = (closeOverlaps e.t l ++ [e], s) := fun l home => by
    simp [State.accretePut, State.accretes, hacc]
  unfold State.putReq
  rw [if_neg (by simp; omega)]
  dsimp only
  split
  · exact ⟨_, by rw [hput], hclose _⟩
  · exact ⟨_, rfl, rfl⟩
theorem forward_absent {s : State} {e : QEntry} (h : s.absent.contains (e.t.dest.getD 0xFFF) = true) : s.forward e = s.failEntry e 2 false := if_pos h
theorem forward_routed {s : State} {e : QEntry} {q : Nat} (ha : s.absent.contains (e.t.dest.getD 0xFFF) = false) (hv : e.vc < 5)
    (hq : s.egress e.adm (e.t.dest.getD 0xFFF) e.t.key = some q) : s.forward e = s.agedOrPut e q := by
  have hup : (decide (5 ≤ e.vc) && (routeEnt s.tbl.active (e.t.dest.getD 0xFFF)).kind == 3) = false := by simp; omega
  unfold State.forward
  dsimp only
  rw [if_neg (by rw [ha]; exact Bool.false_ne_true), hup, hq]
  rfl

-- The checks of a request (R116, R335, R339, R340)
/-- An arriving request as it stands in the buffer. -/
def State.arrival (s : State) (a : Nat) (x : Txn) : QEntry := (s.takeIn a x).entry x a (s.vcAt a 0)

section
variable {s : State} {a : Nat} {x : Txn} (hc : s.canArrive a = true)
include hc

theorem arriveReq_malformed (hm : s.malformedAt a x = true) : s.arriveReq a x = (s.takeIn a x).failEntry (s.arrival a x) 9 false := by
  simp [State.arriveReq, State.arrival, hc, hm]
theorem arriveReq_tableNotReady (hm : s.malformedAt a x = false) (ht : s.sec.tableReady = false) (hty : x.ty ≠ .resync) :
    s.arriveReq a x = (s.takeIn a x).failEntry (s.arrival a x) 10 false := by
  simp [State.arriveReq, State.deferReq, State.entry, State.arrival, hc, hm, ht, hty]
theorem arriveReq_resyncNotReady (hm : s.malformedAt a x = false) (ht : s.sec.tableReady = false) (hty : x.ty = .resync) :
    s.arriveReq a x = ((s.takeIn a x).markFlow x a).failEntry (s.arrival a x) 7 true := by
  simp [State.arriveReq, State.deferReq, State.entry, State.arrival, hc, hm, ht, hty]
theorem arriveReq_retired (hcls : x.ty.cls = 0) (hm : s.malformedAt a x = false) (ht : s.sec.tableReady = true) (hr : s.retired x = true) :
    s.arriveReq a x = (s.takeIn a x).countRevoked.failEntry (s.arrival a x) 4 false := by
  have hr' : (s.takeIn a x).retired x = true := by rw [(takeIn_charged (by simp [hcls])).retired, hr]
  simp [State.arriveReq, State.retire, State.entry, State.arrival, hc, hm, ht, hr', hcls]
theorem arriveReq_forwards (hcls : x.ty.cls = 0) (hm : s.malformedAt a x = false) (ht : s.sec.tableReady = true) (hr : s.retired x = false)
    (hh : flowHeld (s.holdsOf a) x = false) (hk : x.akind ≠ 1) : s.arriveReq a x = (s.takeIn a x).forward (s.arrival a x) := by
  have hs := takeIn_charged (s := s) (a := a) (x := x) (by simp [hcls])
  have hr' : (s.takeIn a x).retired x = false := by rw [hs.retired, hr]
  have hh' : flowHeld ((s.takeIn a x).holdsOf a) x = false := by rw [hs.holdsOf, hh]
  simp [State.arriveReq, State.arrival, hc, hm, ht, hr', hh', hk]

/-- A request that its point admits goes to the end of its route's queue, its cells charged to the point. -/
theorem arriveReq_queues {q : Nat} (hcls : x.ty.cls = 0) (hm : s.malformedAt a x = false) (ht : s.sec.tableReady = true) (hr : s.retired x = false)
    (hh : flowHeld (s.holdsOf a) x = false) (hk : x.akind ≠ 1) (habs : s.absent.contains (x.dest.getD 0xFFF) = false) (hv : s.vcAt a 0 < 5)
    (hq : s.egress a (x.dest.getD 0xFFF) x.key = some q) (hq' : q < 256) (hmarks : s.sw.marks = []) (hrep : s.sw.repins = []) (hf : s.sw.flood = false)
    (hacc : s.xact.accEnable = false) :
    Queued s (s.arriveReq a x) q 0 x a ∧ ((s.arriveReq a x).admOf a (s.vcAt a 0)).held = (s.admOf a (s.vcAt a 0)).held + x.cells ∧
      (s.arriveReq a x).reqs = s.reqs ∧ (s.arriveReq a x).pool = s.pool := by
  have hs := takeIn_charged (s := s) (a := a) (x := x) (by simp [hcls])
  have hvc : (s.arrival a x).queueVc = 0 := by
    show x.ty.cls + 5 * (s.vcAt a 0 / 5) = 0
    rw [hcls]; omega
  obtain ⟨l, hput, hl⟩ := putReq_uncombined (s := s.takeIn a x) (by rw [hs.xact, hacc]) (s.arrival a x) hq'
  rw [hvc, hs.queue] at hl
  rw [arriveReq_forwards hc hcls hm ht hr hh hk, forward_routed (q := q) (by rw [hs.absent]; exact habs) hv (by rw [hs.egress]; exact hq),
    agedOrPut_free (by rw [hs.marks, hmarks]) (by rw [hs.repins, hrep]) (by rw [hs.flood, hf]), hput, hvc]
  exact ⟨⟨l, s.arrival a x, queue_setQueue _ _ _ _, hl, rfl, rfl, hs.clk⟩, takeIn_held hcls, hs.reqs, hs.pool⟩

/-- What a hop that refuses a request answers from: it routes as before, and nothing beyond carriage has changed but contexts' counters. -/
theorem arriveReq_fails {st : Nat} (hcls : x.ty.cls = 0)
    (h : (s.malformedAt a x = true ∧ st = 9) ∨
      (s.malformedAt a x = false ∧ s.sec.tableReady = false ∧ x.ty ≠ .resync ∧ st = 10) ∨
      (s.malformedAt a x = false ∧ s.sec.tableReady = false ∧ x.ty = .resync ∧ st = 7) ∨
      (s.malformedAt a x = false ∧ s.sec.tableReady = true ∧ s.retired x = true ∧ st = 4) ∨
      (s.malformedAt a x = false ∧ s.sec.tableReady = true ∧ s.retired x = false ∧ flowHeld (s.holdsOf a) x = false ∧ x.akind ≠ 1 ∧
        ((s.absent.contains (x.dest.getD 0xFFF) = true ∧ st = 2) ∨
         (s.absent.contains (x.dest.getD 0xFFF) = false ∧ s.vcAt a 0 < 5 ∧ (s.egress a (x.dest.getD 0xFFF) x.key).isSome = true ∧ s.sw.flood = false ∧
          x.ty ≠ .resync ∧ s.marked x a = true ∧ st = 7)))) :
    ∃ u r, Routed s u ∧ u.reqs = s.reqs ∧ u.pool = s.pool ∧ s.arriveReq a x = u.failEntry (s.arrival a x) st r := by
  have hs := takeIn_charged (s := s) (a := a) (x := x) (by simp [hcls])
  rcases h with ⟨hm, rfl⟩ | ⟨hm, ht, hty, rfl⟩ | ⟨hm, ht, hty, rfl⟩ | ⟨hm, ht, hr, rfl⟩ | ⟨hm, ht, hr, hh, hk, ⟨habs, rfl⟩ | ⟨habs, hv, hq, hf, hty, hmark, rfl⟩⟩
  · exact ⟨_, _, hs.routed, hs.reqs, hs.pool, arriveReq_malformed hc hm⟩
  · exact ⟨_, _, hs.routed, hs.reqs, hs.pool, arriveReq_tableNotReady hc hm ht hty⟩
  · obtain ⟨_, _, _, _, _, _, _, _, hreqs, _, _, hpool, _⟩ := (markFlow_carried (s.takeIn a x) x a).keeps
    exact ⟨_, _, hs.routed.trans (markFlow_routed _ _ _), hreqs.trans hs.reqs, hpool.trans hs.pool, arriveReq_resyncNotReady hc hm ht hty⟩
  · exact ⟨_, _, hs.routed.trans (countRevoked_routed _), hs.reqs, hs.pool, arriveReq_retired hc hcls hm ht hr⟩
  · exact ⟨_, _, hs.routed, hs.reqs, hs.pool, (arriveReq_forwards hc hcls hm ht hr hh hk).trans (forward_absent (by rw [hs.absent]; exact habs))⟩
  · obtain ⟨q, hq⟩ := Option.isSome_iff_exists.mp hq
    have hmark' : (s.takeIn a x).marked x a = true := by rw [State.marked, hs.marks]; exact hmark
    obtain ⟨_, _, _, _, _, _, _, _, hreqs, _, _, hpool, _⟩ := (markFlow_carried (s.takeIn a x).countDiscard x a).keeps
    refine ⟨_, true, (hs.routed.trans (countDiscard_routed _)).trans (markFlow_routed _ x a), hreqs.trans hs.reqs, hpool.trans hs.pool, ?_⟩
    · rw [arriveReq_forwards hc hcls hm ht hr hh hk, forward_routed (q := q) (by rw [hs.absent]; exact habs) hv (by rw [hs.egress]; exact hq),
        agedOrPut_marked hty (by rw [hs.flood, hf]) hmark', markDiscard_single rfl]
      rfl
/-- A RESYNC that comes before the context table leaves its flow marked (R135). -/
theorem arriveReq_resyncMarks (hm : s.malformedAt a x = false) (ht : s.sec.tableReady = false) (hty : x.ty = .resync) (hf : s.sw.flood = false)
    (hmarks : s.sw.marks = []) (hw : (routeEnt s.tbl.active x.snode).wmode = false) : (s.arriveReq a x).marked x a = true := by
  have hs := takeIn_charged (s := s) (a := a) (x := x) (by simp [hty, TType.cls])
  refine marked_of_markFlow (s := s.takeIn a x) (u := s.takeIn a x) rfl rfl (by rw [hs.flood, hf]) (by rw [hs.marks, hmarks]) (by rw [hs.tbl, hw]) ?_
  rw [arriveReq_resyncNotReady hc hm ht hty, failEntry_marks]
end

-- Responses and BISNPs (R123, R181)
section
variable {s : State} {e : QEntry} {q : Nat} (hv : e.vc < 5) (ha : s.absent.contains e.t.routeNode = false)
  (hq : s.egress e.adm e.t.routeNode e.t.key = some q)
include hv ha hq

theorem routeOn_out (hq' : q ≠ 256) : s.routeOn e = s.enqueue q e.queueVc e := by
  have hup : (decide (5 ≤ e.vc) && (routeEnt s.tbl.active e.t.routeNode).kind == 3) = false := by simp; omega
  unfold State.routeOn
  dsimp only
  rw [hup, ha, hq]
  simp only [Bool.false_eq_true, if_false]
theorem routeOn_own (hq' : q = 256) (hr : e.t.isRsp = true) : s.routeOn e = (s.release e).toInbox e.t := by
  have hup : (decide (5 ≤ e.vc) && (routeEnt s.tbl.active e.t.routeNode).kind == 3) = false := by simp; omega
  subst hq'
  unfold State.routeOn
  dsimp only
  rw [hup, ha, hq]
  simp [hr]
end

section
variable {s : State} {a q : Nat} {x : Txn}

theorem vcAt_pool0 {c : Nat} (h : s.vcAt a c < 5) : s.vcAt a c = c := by
  unfold State.vcAt at h ⊢
  omega
theorem arriveRsp_routes (hc : s.canArrive a = true) (hcls : x.ty.cls = 2) (hr : s.retired x = false) :
    s.arriveRsp a x = (s.takeIn a x).routeOn ((s.takeIn a x).entry x a (s.vcAt a 2)) := by
  have hr' : (s.takeIn a x).retired x = false := by rw [(takeIn_charged (by simp [hcls])).retired, hr]
  simp [State.arriveRsp, hc, hr']
theorem execBisnp_routes (hc : s.canArrive a = true) (z : Txn) (hx : x = { z with ty := .bisnp }) (hsh : reqShapeOk x = true)
    (ha : s.absent.contains x.dnode = false) (hq : s.egress a x.dnode x.key = some q) :
    execBisnp a z s = .next ((s.takeIn a x).routeOn ((s.takeIn a x).entry x a (s.vcAt a 1))) := by
  have hs := takeIn_charged (s := s) (a := a) (x := x) (by simp [hx, TType.cls])
  have hq' : (s.absent.contains x.dnode || ((s.takeIn a x).egress a x.dnode x.key).isNone) = false := by rw [ha, hs.egress, hq]; rfl
  subst hx
  unfold execBisnp
  extract_lets t1 s1 e
  rw [if_neg (by simp [hc]), if_neg (by rw [show reqShapeOk t1 = true from hsh]; exact Bool.false_ne_true)]
  exact if_neg (ne_of_eq_of_ne hq' Bool.false_ne_true)

/-- A transaction that is no request and has a route out of the package goes to the end of the queue of its class. -/
theorem routeOn_queued {c : Nat} (hcls : x.ty.cls = c) (h0 : c ≠ 0) (h3 : c ≠ 3) (hv : s.vcAt a c < 5) (ha : s.absent.contains x.dnode = false)
    (hq : s.egress a x.dnode x.key = some q) (hq' : q ≠ 256) :
    Queued s ((s.takeIn a x).routeOn ((s.takeIn a x).entry x a (s.vcAt a c))) q c x a ∧
      ((s.takeIn a x).routeOn ((s.takeIn a x).entry x a (s.vcAt a c))).reqs = s.reqs ∧
      ((s.takeIn a x).routeOn ((s.takeIn a x).entry x a (s.vcAt a c))).pool = s.pool := by
  have hs := takeIn_charged (s := s) (a := a) (x := x) (by simp [hcls, h3])
  have hnode : x.routeNode = x.dnode := by simp [Txn.routeNode, Txn.isReq, hcls, h0]
  have hvc : ((s.takeIn a x).entry x a (s.vcAt a c)).queueVc = c := by
    show x.ty.cls + 5 * (s.vcAt a c / 5) = c
    rw [hcls, vcAt_pool0 hv]
    rw [vcAt_pool0 hv] at hv
    omega
  have hout := routeOn_out (s := s.takeIn a x) (e := (s.takeIn a x).entry x a (s.vcAt a c)) hv (by rw [hs.absent]; exact hnode ▸ ha)
    (by rw [hs.egress]; exact hnode ▸ hq) hq'
  rw [hout, hvc]
  exact ⟨enqueue_queued hs q c _ hs.clk, hs.reqs, hs.pool⟩
/-- A response of this package goes to its requesters. -/
theorem routeOn_inbox (hcls : x.ty.cls = 2) (hv : s.vcAt a 2 < 5) (ha : s.absent.contains x.dnode = false) (hq : s.egress a x.dnode x.key = some 256) :
    ((s.takeIn a x).routeOn ((s.takeIn a x).entry x a (s.vcAt a 2))).xact.inbox = s.xact.inbox ++ [x] ∧
      ((s.takeIn a x).routeOn ((s.takeIn a x).entry x a (s.vcAt a 2))).reqs = s.reqs ∧
      ((s.takeIn a x).routeOn ((s.takeIn a x).entry x a (s.vcAt a 2))).pool = s.pool := by
  have hs := takeIn_charged (s := s) (a := a) (x := x) (by simp [hcls])
  have hnode : x.routeNode = x.dnode := by simp [Txn.routeNode, Txn.isReq, hcls]
  have hrel := hs.trans (release_charged _ ((s.takeIn a x).entry x a (s.vcAt a 2)))
  rw [routeOn_own (s := s.takeIn a x) (e := (s.takeIn a x).entry x a (s.vcAt a 2)) hv (by rw [hs.absent]; exact hnode ▸ ha)
    (by rw [hs.egress]; exact hnode ▸ hq) rfl (by simp [Txn.isRsp, State.entry, hcls])]
  exact ⟨congrArg (fun l : Xact => l.inbox ++ [x]) hrel.xact, hrel.reqs, hrel.pool⟩
end

-- A BIRSP at the pool home (R323)
section
variable {s : State} {a l h : Nat} {x : Txn} {o : OutReq}

theorem cleanStatus_ok (hst : x.status = 0) : s.cleanStatus x = (x, s) := by simp [State.cleanStatus, hst]
/-- A reserved status is noted and stays none that reports OK. -/
theorem cleanStatus_failed (hst : x.status ≠ 0) :
    (s.cleanStatus x).1.status ≠ 0 ∧ (s.cleanStatus x).2.reqs = s.reqs ∧ (s.cleanStatus x).2.pool = s.pool := by
  unfold State.cleanStatus
  split
  · split
    · exact ⟨by simp, rfl, rfl⟩
    · exact ⟨by simp, by simp, by simp⟩
  · exact ⟨hst, rfl, rfl⟩
theorem execBirsp_backInv (hc : s.canArrive a = true) (hd : x.dnode = s.poolNode) (ho : tfind s.reqs (s.poolNode * 1048576 + x.tag) = some o)
    (hwho : o.who = .backInv l h) : execBirsp a x s = .next ((s.cleanStatus { x with ty := .birsp }).2.birspAtHome (s.poolNode * 1048576 + x.tag) l h
      (s.cleanStatus { x with ty := .birsp }).1.status) := by
  unfold execBirsp
  simp [hc, hd, ho, hwho]
theorem dirDrop_keeps (s : State) (line h : Nat) : (s.dirDrop line h).pool.mem = s.pool.mem ∧ (s.dirDrop line h).pool.backInvs = s.pool.backInvs ∧
    (s.dirDrop line h).reqs = s.reqs ∧ (s.dirDrop line h).hp = s.hp := by
  unfold State.dirDrop
  split <;> exact ⟨rfl, rfl, rfl, rfl⟩
theorem cxlResume_none (h0 : s.hp = []) : s.cxlResume = s := by simp [State.cxlResume, h0]
/-- The end of the only back-invalidate leaves none, and no byte of the pool changes. -/
theorem endBackInv_single {b : BackInv} (hr : s.reqs = []) (hb : s.pool.backInvs = [b]) (hl : b.line = l) (hh : b.host = h) (hp : s.hp = []) :
    (s.endBackInv l h).reqs = [] ∧ (s.endBackInv l h).pool.backInvs = [] ∧ (s.endBackInv l h).pool.mem = s.pool.mem := by
  unfold State.endBackInv
  extract_lets s1
  obtain ⟨hmem, hbacks, hreqs, hhp⟩ := dirDrop_keeps (s1.modPool (fun p => { p with backInvs := p.backInvs.filter (fun b => !(b.line == l && b.host == h)) })) l h
  rw [cxlResume_none (hhp.trans hp)]
  refine ⟨hreqs.trans ?_, hbacks.trans ?_, hmem⟩
  · simp [s1, hr]
  · simp [s1, State.modPool, hb, hl, hh]
end

/-- A request of any of the four types is taken as its type. -/
theorem exec_request {c : Nat → Txn → Instr} {y : TType} (h : (c, y) ∈ [(Instr.rd, TType.rd), (.wr, .wr), (.atom, .atom), (.resync, .resync)])
    (s : State) (a : Nat) (z : Txn) : y.cls = 0 ∧ exec (c a z) s = .next (s.arriveReq a { z with ty := y }) := by
  simp only [List.mem_cons, Prod.mk.injEq, List.not_mem_nil, or_false] at h
  rcases h with ⟨rfl, rfl⟩ | ⟨rfl, rfl⟩ | ⟨rfl, rfl⟩ | ⟨rfl, rfl⟩ <;> exact ⟨rfl, rfl⟩
/-- A response of any of the three types is taken as its type. -/
theorem exec_response {c : Nat → Txn → Instr} {y : TType} (h : (c, y) ∈ [(Instr.rspData, TType.rspData), (.rspAtom, .rspAtom), (.rspDone, .rspDone)])
    (s : State) (a : Nat) (z : Txn) : y.cls = 2 ∧ exec (c a z) s = .next (s.arriveRsp a { z with ty := y }) := by
  simp only [List.mem_cons, Prod.mk.injEq, List.not_mem_nil, or_false] at h
  rcases h with ⟨rfl, rfl⟩ | ⟨rfl, rfl⟩ | ⟨rfl, rfl⟩ <;> exact ⟨rfl, rfl⟩

/-- Settles O38: a request that passes the hop's checks goes by its route; every refusal answers from a state that routes as before; a BIRSP ends the only request. -/
theorem transactionsArrive : Obligations.TransactionsArrive := by
  unfold Obligations.TransactionsArrive
  refine ⟨?_, ?_, ?_, ?_⟩
  · intro s a c y z x hcy hc hx
    obtain ⟨hcls, hexec⟩ := exec_request hcy s a z
    rw [← hx] at hexec
    have hty : x.ty = y := by rw [hx]
    rw [← hty] at hcls
    refine ⟨?_, ?_, ?_⟩
    · intro q hm ht hr hh hk habs hv hq hq' hmarks hrep hf hacc
      exact ⟨_, hexec, arriveReq_queues hc hcls hm ht hr hh hk habs hv hq hq' hmarks hrep hf hacc⟩
    · intro q st hq hq' hcase
      rw [← hty] at hcase
      obtain ⟨u, r, hu, hreqs, hpool, hfail⟩ := arriveReq_fails hc hcls hcase
      obtain ⟨_, _, _, _, _, _, _, _, hreqs', _, _, hpool', _⟩ := (failEntry_carried u (s.arrival a x) st r).keeps
      rw [hexec, hfail]
      exact ⟨_, rfl, failEntry_queued hu (s.arrival a x) st r hq (Nat.ne_of_lt hq'), hreqs'.trans hreqs, hpool'.trans hpool⟩
    · intro hm ht hy hf hmarks hw
      exact ⟨_, hexec, arriveReq_resyncMarks hc hm ht (hty.trans hy) hf hmarks hw⟩
  · intro s a q c y z x hcy hc hx hr hv habs hq
    obtain ⟨hcls, hexec⟩ := exec_response hcy s a z
    rw [← hx] at hexec
    have hcls' : x.ty.cls = 2 := by rw [hx]; exact hcls
    rw [hexec, arriveRsp_routes hc hcls' hr]
    refine ⟨fun hq' => ?_, fun hq' => ?_⟩
    · exact ⟨_, rfl, routeOn_queued hcls' (by simp) (by simp) hv habs hq hq'⟩
    · exact ⟨_, rfl, routeOn_inbox hcls' hv habs (by rw [hq, hq'])⟩
  · intro s a q z x hc hx hsh hv habs hq hq'
    exact ⟨_, execBisnp_routes hc z hx hsh habs hq, routeOn_queued (by rw [hx]; rfl) (by simp) (by simp) hv habs hq hq'⟩
  · intro s a l h x o b hc hd hreqs hwho hb hl hh hp
    have hexec := execBirsp_backInv hc hd (by rw [hreqs]; simp [tfind]) hwho
    refine ⟨fun hst => ?_, fun hst => ?_⟩
    · refine ⟨_, hexec, ?_⟩
      rw [cleanStatus_ok (by exact hst)]
      have hend : (s.endReq (s.poolNode * 1048576 + x.tag)).reqs = [] := by simp [State.endReq, hreqs, terase]
      rw [State.birspAtHome, if_pos (by simp [hst])]
      exact endBackInv_single hend hb hl hh hp
    · obtain ⟨hst', hreqs', hpool'⟩ := cleanStatus_failed (s := s) (x := { x with ty := .birsp }) hst
      refine ⟨_, hexec, ?_⟩
      rw [State.birspAtHome, if_neg (by simpa using hst')]
      refine ⟨?_, hpool'⟩
      show terase (s.cleanStatus { x with ty := .birsp }).2.reqs _ = []
      rw [hreqs', hreqs]
      simp [terase]

end Sys2Proof.Machine
end

section
/-! Where the answers to two contributors of a combined request stand (R144): a queue's place is ten times its port and its VC, so VC 10 of a port is VC 0 of the next. -/

namespace Sys2Proof.Machine
open Sys2Proof

theorem Queued.getLast {s t : State} {q v a : Nat} {x : Txn} (h : Queued s t q v x a) : (t.queue q v).getLast?.map (fun y => y.t) = some x := by
  obtain ⟨l, e, hl, _, rfl, _⟩ := h
  rw [hl, List.getLast?_concat]
  rfl

/-- A contributor of a combined RD from a node. Its request came through the point of the node's number. -/
def contribAt (node vc : Nat) : Contrib := { t := { ty := .rd, snode := node }, adm := node, vc := vc, cells := 0, reserved := 1 }
/-- An entry whose leader has VC 10, which no transaction takes (R176 gives VCs 0 to 9), and whose other contributor has VC 0. -/
def mixedEntry : AccEntry := { contribs := [contribAt 0 10, contribAt 1 0], openedAt := 0, closed := false, hold := none, tile := 0 }
def mixedReq : OutReq := { t := {}, who := .accretion mixedEntry, issuedAt := 0, timeout := 0 }
/-- Nodes 0 and 1 lie at ports 0 and 1, both in service, and the combined request of tag 7 has had no response within A_REQ + A_RSP. -/
def mixedState : State :=
  { State.reset with
    clk := 4000000
    ports := [(0, { st := .inService }), (1, { st := .inService })]
    tbl := { active := { State.reset.tbl.active with routes := [(0, { kind := 1, target := 0 }), (1, { kind := 1, target := 1 })] } }
    reqs := [(State.reset.poolNode * 1048576 + 7, mixedReq)] }
/-- The leader's answer takes place 12 of port 0, and the other's takes place 2 of port 1 behind it, which is the same queue. -/
theorem mixedState_answers : ∃ t, exec (.accretionTimeout 7) mixedState = .next t ∧ (t.queue 0 12).map (fun e => e.t.dnode) = [0, 1] := ⟨_, rfl, by decide⟩

/-- Refutes O39: the clause on a combined request without a response bounds no contributor's VC. The answer to a contributor with VC 10 does not stand last in its queue
(`mixedState_answers`), although the contributors' routes are two ports. -/
theorem not_queuesMove : ¬ Obligations.QueuesMove := by
  unfold Obligations.QueuesMove
  rintro ⟨-, htimeout, -, -⟩
  obtain ⟨hdue, -⟩ := htimeout mixedState 7 0 1 mixedReq mixedEntry (contribAt 0 10) (contribAt 1 0) (by decide) rfl rfl (by decide) (by decide)
    (by decide) (by decide) (by decide)
  obtain ⟨t, hexec, -, hleader, -, -⟩ := hdue (by decide)
  obtain ⟨u, hexec', hqueue⟩ := mixedState_answers
  obtain rfl : t = u := Host.Outcome.next.inj (hexec.symm.trans hexec')
  have hlast : ((t.queue 0 12).map (fun e => e.t.dnode)).getLast? = some 0 := by
    rw [List.getLast?_map]
    have := congrArg (Option.map Txn.dnode) (Queued.getLast hleader)
    rwa [Option.map_map] at this
  rw [hqueue] at hlast
  exact absurd hlast (by decide)

end Sys2Proof.Machine
end

section
/-! What the home does with the request at the head of a line queue (R126, R127, R149, R153, R281, R324): its answer, the bytes it writes or returns, and its wait. -/

namespace Sys2Proof.Machine
open Sys2Proof

-- The home's reply
theorem setLineQ_routed (s : State) (g : Nat) (l : List QEntry) : Routed s (s.setLineQ g l) := ⟨rfl, fun _ _ => rfl, fun _ _ _ => rfl, rfl⟩
@[simp] theorem canReserve_setLineQ (s : State) (g : Nat) (l : List QEntry) (a v n : Nat) : (s.setLineQ g l).canReserve a v n = s.canReserve a v n := rfl
@[simp] theorem poolOff_setLineQ (s : State) (g : Nat) (l : List QEntry) (a : Nat) : (s.setLineQ g l).poolOff a = s.poolOff a := rfl
@[simp] theorem holdersFor_setLineQ (s : State) (g : Nat) (l : List QEntry) (n : Nat) (ty : TType) : (s.setLineQ g l).holdersFor n ty = s.holdersFor n ty := rfl
theorem lineQ_setLineQ (s : State) (g : Nat) (l : List QEntry) : (s.setLineQ g l).lineQ g = l := tget_tset_same _ _ _ _
/-- The home's reply to an entry stands at the end of the queue that the request's source is reached by; no line queue and no byte of the pool changes with it. -/
theorem homeReply_queued {s u : State} (hu : Routed s u) (e : QEntry) (st : Nat) (d : Bytes) {q : Nat}
    (hq : s.egress 256 e.t.snode (hashKey (e.t.dest.getD s.poolNode) e.t.ctx e.t.flow e.t.snode) = some q) (hq' : q ≠ 256) :
    Queued s (u.homeReply e st d) q 2 (e.t.reply st (e.t.dest.getD s.poolNode) d) 256 ∧ (u.homeReply e st d).pool = u.pool ∧
      ∀ g, (u.homeReply e st d).lineQ g = u.lineQ g := by
  obtain ⟨hcls, hdnode, hkey⟩ := reply_route e.t st (e.t.dest.getD u.poolNode) d
  have hc := (release_charged u e).trans (charge_charged (u.release e) 256 2 (e.t.reply st (e.t.dest.getD u.poolNode) d).cells)
  unfold State.homeReply
  extract_lets rsp s1
  have hvc : (s1.entry rsp 256 2).queueVc = 2 := by
    show rsp.ty.cls + 5 * (2 / 5) = 2
    rw [hcls]
  have hroute : s1.egress 256 rsp.dnode rsp.key = some q := by rw [hc.egress, hdnode, hkey, hu.egress, hu.node, hq]
  rw [sendRsp_enqueue (q := q) hroute hq', hvc, ← hu.node]
  exact ⟨Queued.of_routed hu (enqueue_queued hc q 2 (s1.entry rsp 256 2) hc.clk), hc.pool, hc.lineQ⟩

-- The head of a line queue
theorem gathers_short {s : State} {l : List QEntry} (h : l.length < 5) : s.gathers l = false := by
  simp [State.gathers]
  omega

section
variable {s : State} {g : Nat} {e : QEntry} {l : List QEntry}

/-- The head of a line queue is a single request that no check of the head stops (R188, R192) and that waits for no host yet. -/
structure LineHead (s : State) (g : Nat) (e : QEntry) (l : List QEntry) : Prop where
  queue : s.lineQ g = e :: l
  short : l.length < 4
  single : e.acc = none
  new : e.accepted = none
  first : s.cxlBefore g e.turn = false
  current : s.retired e.t = false
  young : s.tooOld e = false
  marks : s.sw.marks = []
  repins : s.sw.repins = []

theorem headCheck_passes {s : State} {e : QEntry} (hr : s.retired e.t = false) (ho : s.tooOld e = false) (hb : s.barred e.t e.adm = false) (q : Option Nat) :
    s.headCheck e q = none := by
  simp [State.headCheck, hr, ho, hb]
variable (h : LineHead s g e l)
include h

theorem exec_lineQueueHead : exec (.lineQueueHead g false) s = s.lineHead g false :=
  if_neg (by rw [gathers_short (by rw [h.queue, List.length_cons]; exact Nat.succ_lt_succ h.short)]; exact Bool.false_ne_true)
/-- The head is neither held nor trimmed, passes the checks, has no contributors to leave with, and has not waited. -/
theorem LineHead.passes : s.accHeld e = false ∧ s.trims e = false ∧ (s.setLineQ g l).headCheck e none = none ∧
    (s.setLineQ g l).leave e = (e, s.setLineQ g l) ∧ s.pastBound e = false :=
  ⟨by simp [State.accHeld, h.single], by simp [State.trims, h.single],
    headCheck_passes (s := s.setLineQ g l) h.current h.young (barred_none (s := s.setLineQ g l) h.marks h.repins e.t e.adm) none,
    by simp [State.leave, h.single], by simp [State.pastBound, h.new]⟩
/-- Without room for its response a request, but no RESYNC, is answered RETRY_LATER (R127). -/
theorem lineHead_noRoom (hroom : s.canReserve 256 2 (rspCells e.t) = false) (hty : e.t.ty ≠ .resync) :
    s.lineHead g false = .next ((s.setLineQ g l).failEntry e 10 false) := by
  simp [State.lineHead, h.queue, h.first, h.new, h.passes, hroom, hty]
variable (hroom : s.canReserve 256 2 (rspCells e.t) = true)
include hroom

theorem lineHead_resync (hty : e.t.ty = .resync) : s.lineHead g false = .next ((s.setLineQ g l).homeReply e 0 []) := by
  simp [State.lineHead, h.queue, h.first, h.new, h.passes, hroom, hty]
theorem lineHead_gated {r : Status} (hty : e.t.ty ≠ .resync) (hg : e.gate = some r) : s.lineHead g false = .next ((s.setLineQ g l).homeReply e r.code []) := by
  simp [State.lineHead, h.queue, h.first, h.new, h.passes, hroom, hty, hg]
theorem lineHead_serves {u : State} (hty : e.t.ty ≠ .resync) (hg : e.gate = none) (hd : inDoorbell e.homeTxn.off = false)
    (hu : (s.setLineQ g l).servePool e e.homeTxn = some u) : s.lineHead g false = .next u := by
  simp [State.lineHead, h.queue, h.first, h.new, h.passes, hroom, hty, hg, hd, hu]
/-- A request that hosts' copies hold up stays at the head, accepted, while the hosts are back-invalidated (R324). -/
theorem lineHead_waits {o : Nat} (hty : e.t.ty ≠ .resync) (hg : e.gate = none) (hd : inDoorbell e.homeTxn.off = false) (ho : s.poolOff e.homeTxn.addr = o)
    (hclean : s.dirClean (o / 64) = s) (hu : (s.setLineQ g l).servePool e e.homeTxn = none) :
    s.lineHead g false = .next ((s.holdersFor (o / 64) e.homeTxn.ty).foldl (fun u x => u.startBackInv (o / 64) x false none)
      (s.setLineQ g ({ e with accepted := some s.clk } :: l))) := by
  simp [State.lineHead, h.queue, h.first, h.new, h.passes, hroom, hty, hg, hd, hu, ho, hclean]
end

-- Access to the pool
/-- `t` differs from `s` only in the pool, in the free values taken and in telemetry. -/
def Served (s t : State) : Prop := ∃ p f c, t = { s with pool := p, free := f, tel := c }
theorem Served.refl (s : State) : Served s s := ⟨s.pool, s.free, s.tel, rfl⟩
theorem Served.trans {s t u : State} (h : Served s t) (g : Served t u) : Served s u := by
  obtain ⟨_, _, _, rfl⟩ := h
  obtain ⟨p, f, c, rfl⟩ := g
  exact ⟨p, f, c, rfl⟩
theorem Served.routed {s t : State} (h : Served s t) : Routed s t := by
  obtain ⟨_, _, _, rfl⟩ := h
  exact ⟨rfl, fun _ _ => rfl, fun _ _ _ => rfl, rfl⟩
theorem Served.lineQ {s t : State} (h : Served s t) (g : Nat) : t.lineQ g = s.lineQ g := by
  obtain ⟨_, _, _, rfl⟩ := h
  rfl
theorem modPool_served (s : State) (f : Pool → Pool) : Served s (s.modPool f) := ⟨f s.pool, s.free, s.tel, rfl⟩
theorem freshBytes_served (s : State) (n : Nat) : Served s (s.freshBytes n).2 := ⟨s.pool, _, s.tel, rfl⟩
theorem land_served (s : State) (t : Txn) (o : Nat) : Served s (s.land t o) ∧ (s.land t o).pool.mem = s.pool.mem := by
  unfold State.land
  split
  · exact ⟨modPool_served _ _, rfl⟩
  · exact ⟨.refl s, rfl⟩
theorem healLine_served (s : State) (y : Ext) (o : Nat) : Served s (s.healLine y o) ∧ (s.healLine y o).pool.mem = s.pool.mem := by
  unfold State.healLine
  extract_lets s1
  obtain ⟨hspare, hmem⟩ : Served s s1 ∧ s1.pool.mem = s.pool.mem := by
    unfold s1
    split
    · exact ⟨⟨_, s.free, s.tel, rfl⟩, rfl⟩
    · exact ⟨.refl s, rfl⟩
  exact ⟨hspare.trans (modPool_served _ _), hmem⟩
theorem countReq_served (s : State) (t : Txn) (o : Nat) (r : Bool) : Served s (s.countReq t o r) ∧ (s.countReq t o r).pool.mem = s.pool.mem := by
  unfold State.countReq
  split
  · exact ⟨.refl s, rfl⟩
  · exact ⟨modPool_served _ _, rfl⟩
/-- A write stores its bytes; parity and MAC are kept beside them (R282, R345). -/
theorem poolWrite_served (s : State) (o : Nat) (b : Bytes) : Served s (s.poolWrite o b) ∧ (s.poolWrite o b).pool.mem = memWrite s.pool.mem o b := by
  have hparity : ∀ (u : State) (y : Ext), Served u (u.putParity y o) := fun u y => by
    unfold State.putParity
    dsimp only
    split
    · exact .refl u
    · exact modPool_served _ _
  have hmac : ∀ (u : State) (y : Ext), Served u (u.putMac y o) ∧ (u.putMac y o).pool.mem = u.pool.mem := fun u y => by
    unfold State.putMac
    split
    · exact ⟨modPool_served _ _, rfl⟩
    · exact ⟨.refl u, rfl⟩
  unfold State.poolWrite
  extract_lets s1
  have h1 : Served s s1 := modPool_served _ _
  split
  · next k y _ =>
    obtain ⟨hput, hmem⟩ := hmac (s1.putParity y o) y
    exact ⟨(h1.trans (hparity s1 y)).trans hput, hmem.trans (putParity_mem s1 y o)⟩
  · exact ⟨h1, rfl⟩
/-- A write that is counted, after what changed no byte. -/
theorem poolWrite_counted {s u : State} (hu : Served s u) (hm : u.pool.mem = s.pool.mem) (t : Txn) (o : Nat) (b : Bytes) (c : Telemetry) :
    Served s { (u.poolWrite o b).countReq t o false with tel := c } ∧ ((u.poolWrite o b).countReq t o false).pool.mem = memWrite s.pool.mem o b := by
  obtain ⟨hwrite, hmem⟩ := poolWrite_served u o b
  obtain ⟨hcount, hmem'⟩ := countReq_served (u.poolWrite o b) t o false
  exact ⟨((hu.trans hwrite).trans hcount).trans ⟨_, _, c, rfl⟩, by rw [hmem', hmem, hm]⟩
theorem length_memRead (m : List Host.Cell) (a n : Nat) : (memRead m a n).length = n := by
  induction n generalizing a with
  | zero => rfl
  | succ n ih => rw [memRead, List.length_cons, ih]
theorem length_poolRead (s : State) (o n : Nat) : (s.poolRead o n).length = n := by
  unfold State.poolRead
  split
  · split
    · exact length_slice _ _ _
    · exact length_memRead _ _ _
  · exact length_memRead _ _ _

section
variable (s : State) {t : Txn} (o : Nat)

/-- A read returns the bytes at its place and changes none. -/
theorem performPool_read (h : t.ty = .rd) : Served s (s.performPool t o).2 ∧ (s.performPool t o).2.pool.mem = s.pool.mem ∧
    slice (s.performPool t o).1 (t.addr % 8) t.len = s.poolRead o t.len := by
  have hfresh := freshBytes_served s (8 * ((t.addr % 8 + t.len + 7) / 8))
  obtain ⟨hcount, hmem⟩ := countReq_served (s.readData t o).2 t o true
  have hslice := slice_splice (s.freshBytes (8 * ((t.addr % 8 + t.len + 7) / 8))).1 (s.poolRead o t.len) (t.addr % 8)
  rw [length_poolRead] at hslice
  simp only [State.performPool, h]
  exact ⟨(hfresh.trans hcount).trans ⟨_, _, _, rfl⟩, hmem, hslice⟩
/-- A write stores the bytes of its payload at its place. -/
theorem performPool_write (h : t.ty = .wr) : Served s (s.performPool t o).2 ∧ (s.performPool t o).1 = [] ∧
    (s.performPool t o).2.pool.mem = memWrite s.pool.mem o (slice t.data (t.addr % 8) t.len) := by
  simp only [State.performPool, h]
  split
  · next k y _ =>
    split
    · obtain ⟨hland, hmem⟩ := land_served s t o
      obtain ⟨hheal, hmem'⟩ := healLine_served (s.land t o) y o
      obtain ⟨hs, hm⟩ := poolWrite_counted (hland.trans hheal) (hmem'.trans hmem) t o (slice t.data (t.addr % 8) t.len) _
      exact ⟨hs, trivial, hm⟩
    · obtain ⟨hs, hm⟩ := poolWrite_counted (.refl s) rfl t o (slice t.data (t.addr % 8) t.len) _
      exact ⟨hs, trivial, hm⟩
  · obtain ⟨hs, hm⟩ := poolWrite_counted (.refl s) rfl t o (slice t.data (t.addr % 8) t.len) _
    exact ⟨hs, trivial, hm⟩
/-- An atomic returns the old value and stores the new. -/
theorem performPool_atomic (h : t.ty = .atom) : Served s (s.performPool t o).2 ∧ (s.performPool t o).1 = atomData t.size (leNat (s.poolRead o t.len)) ∧
    (s.performPool t o).2.pool.mem =
      memWrite s.pool.mem o (leBytes t.len (atomNew t.size (leNat (s.poolRead o t.len)) (atomOperands t).1 (atomOperands t).2)) := by
  simp only [State.performPool, h]
  obtain ⟨hs, hm⟩ := poolWrite_counted (.refl s) rfl t o
    (leBytes t.len (atomNew t.size (leNat (s.poolRead o t.len)) (atomOperands t).1 (atomOperands t).2)) _
  exact ⟨hs, trivial, hm⟩
end

-- Service at the head of the queue (R324)
section
variable {s : State} {x : Txn} {o k : Nat} {y : Ext} (ho : s.poolOff x.addr = o) (hext : extOfOff s o = some (k, y)) (hole : s.holeFor x o = false)
  (hseal : s.sealOk y x = true)

include hext in
/-- A line whose extent keeps no MAC passes its check (R345). -/
theorem macCheck_unkept (hmac : y.mac = false) : s.macCheck o = s := by
  simp [State.macCheck, hext, State.macOk, hmac]
theorem dirClean_unheld {n : Nat} (hdir : s.dirOf n = none) : s.dirClean n = s := by simp [State.dirClean, hdir]
theorem dirClean_alive {n h : Nat} {d : DirEnt} (hdir : s.dirOf n = some d) (hx : d.excl = true) (hown : d.owner = h) (hst : (s.host h).st ≠ .dead) :
    s.dirClean n = s := by
  simp [State.dirClean, hdir, DirEnt.hosts, hx, hown, hst]
theorem holdersFor_unheld {n : Nat} (hdir : s.dirOf n = none) (ty : TType) : s.holdersFor n ty = [] := by simp [State.holdersFor, hdir]
theorem holdersFor_owner {n h : Nat} {d : DirEnt} (hdir : s.dirOf n = some d) (hx : d.excl = true) (hown : d.owner = h) (ty : TType) :
    s.holdersFor n ty = [h] := by
  simp [State.holdersFor, hdir, DirEnt.hosts, hx, hown]
include hext hole hseal in
theorem homeStatus_clean (hp : s.linePoison y o = 0) : s.homeStatus x o = none := by
  simp [State.homeStatus, hext, hole, hseal, hp]
include hext hole hseal in
theorem homeStatus_poisoned (hp : s.linePoison y o ≠ 0) (hw : wholeLine x = false) : s.homeStatus x o = some .poisoned := by
  simp [State.homeStatus, hext, hole, hseal, hp, hw]

variable (hclean : s.dirClean (o / 64) = s) (hmac : y.mac = false) (e : QEntry)
include ho hext hclean hmac

/-- The line as service finds it: no dead host's entry and no MAC to check, the state itself. -/
theorem servePool_checked : (if wholeLine x then s.dirClean (s.poolOff x.addr / 64) else (s.dirClean (s.poolOff x.addr / 64)).macCheck (s.poolOff x.addr)) = s := by
  rw [ho, hclean, macCheck_unkept hext hmac, ite_self]
theorem servePool_performs (hst : s.homeStatus x o = none) (hh : s.holdersFor (o / 64) x.ty = []) :
    s.servePool e x = some ((s.performPool x o).2.homeReply e 0 (s.performPool x o).1) := by
  unfold State.servePool
  dsimp only
  rw [servePool_checked ho hext hclean hmac, ho, hst, hh]
theorem servePool_waits {h : Nat} (hst : s.homeStatus x o = none) (hh : s.holdersFor (o / 64) x.ty = [h]) : s.servePool e x = none := by
  unfold State.servePool
  dsimp only
  rw [servePool_checked ho hext hclean hmac, ho, hst, hh]
theorem servePool_poisonedRead (hst : s.homeStatus x o = some .poisoned) (hh : s.holdersFor (o / 64) x.ty = []) (hty : x.ty = .rd) :
    ∃ n, s.servePool e x = some (((s.freshBytes n).2.countReq x o true).homeReply e 1 (s.freshBytes n).1) := by
  refine ⟨8 * ((x.addr % 8 + x.len + 7) / 8), ?_⟩
  unfold State.servePool
  dsimp only
  rw [servePool_checked ho hext hclean hmac, ho, hst, hh]
  exact if_pos (by simp [hty])
theorem servePool_poisonedWrite (hst : s.homeStatus x o = some .poisoned) (hh : s.holdersFor (o / 64) x.ty = []) (hty : x.ty ≠ .rd) :
    s.servePool e x = some (s.homeReply e 1 []) := by
  unfold State.servePool
  dsimp only
  rw [servePool_checked ho hext hclean hmac, ho, hst, hh]
  exact if_neg (by simp [hty])
end

-- The back-invalidate that the head waits for (R323)
/-- `t` has the line queues and the bytes of `s`, and every back-invalidate under way in `s`. -/
structure Recalls (s t : State) : Prop where
  lineQ : ∀ g, t.lineQ g = s.lineQ g
  mem : t.pool.mem = s.pool.mem
  keeps : ∀ b ∈ s.pool.backInvs, ∃ c ∈ t.pool.backInvs, c.line = b.line ∧ c.host = b.host
theorem Recalls.refl (s : State) : Recalls s s := ⟨fun _ => rfl, rfl, fun b hb => ⟨b, hb, rfl, rfl⟩⟩
theorem Recalls.trans {s t u : State} (h : Recalls s t) (g : Recalls t u) : Recalls s u := by
  refine ⟨fun x => (g.lineQ x).trans (h.lineQ x), g.mem.trans h.mem, fun b hb => ?_⟩
  obtain ⟨c, hc, hl, hh⟩ := h.keeps b hb
  obtain ⟨d, hd, hl', hh'⟩ := g.keeps c hc
  exact ⟨d, hd, hl'.trans hl, hh'.trans hh⟩
theorem Recalls.of_map {s t : State} {f : BackInv → BackInv} (hq : ∀ g, t.lineQ g = s.lineQ g) (hm : t.pool.mem = s.pool.mem)
    (hb : t.pool.backInvs = s.pool.backInvs.map f) (h : ∀ b, (f b).line = b.line ∧ (f b).host = b.host) : Recalls s t :=
  ⟨hq, hm, fun b hs => ⟨f b, by rw [hb]; exact List.mem_map_of_mem hs, h b⟩⟩
theorem sendBisnp_recalls (s : State) (n h : Nat) : Recalls s (s.sendBisnp n h) := by
  unfold State.sendBisnp
  split
  · exact .refl s
  · extract_lets tag t s1 x s2
    have h1 : Recalls s s1 := Recalls.of_map (fun _ => rfl) rfl rfl (fun b => by split <;> exact ⟨rfl, rfl⟩)
    have hc := charge_charged s2 256 1 1
    refine ⟨fun g => (hc.lineQ g).trans (h1.lineQ g), (congrArg Pool.mem hc.pool).trans h1.mem, fun b hb => ?_⟩
    obtain ⟨c, hc', hcb⟩ := h1.keeps b hb
    exact ⟨c, (congrArg Pool.backInvs hc.pool) ▸ hc', hcb⟩
/-- A back-invalidate as it begins. -/
def State.newBackInv (s : State) (n h : Nat) (discard : Bool) (rev : Option (Nat × Nat)) : BackInv :=
  { line := n, host := h, since := s.clk, sent := false, discard := discard, revoke := rev, cleared := false }
theorem addBackInv_recalls (s : State) (b : BackInv) : Recalls s (s.modPool (fun p => { p with backInvs := p.backInvs ++ [b] })) :=
  ⟨fun _ => rfl, rfl, fun c hc => ⟨c, List.mem_append_left _ hc, rfl, rfl⟩⟩
theorem startBackInv_new {s : State} {n h : Nat} (hnew : s.pool.backInvs.any (fun b => b.line == n && b.host == h) = false) (discard : Bool)
    (rev : Option (Nat × Nat)) :
    s.startBackInv n h discard rev = (s.modPool (fun p => { p with backInvs := p.backInvs ++ [s.newBackInv n h discard rev] })).sendBisnp n h :=
  if_neg (by rw [hnew]; exact Bool.false_ne_true)
theorem startBackInv_recalls (s : State) (n h : Nat) (discard : Bool) (rev : Option (Nat × Nat)) : Recalls s (s.startBackInv n h discard rev) := by
  unfold State.startBackInv
  split
  · exact .of_map (fun _ => rfl) rfl rfl (fun b => by split <;> exact ⟨rfl, rfl⟩)
  · exact (addBackInv_recalls s _).trans (sendBisnp_recalls _ n h)
/-- A line's back-invalidate from the host is under way once it has been started, whether one was before or not. -/
theorem startBackInv_underway (s : State) (n h : Nat) (discard : Bool) (rev : Option (Nat × Nat)) :
    ∃ b ∈ (s.startBackInv n h discard rev).pool.backInvs, b.line = n ∧ b.host = h := by
  cases hany : s.pool.backInvs.any (fun b => b.line == n && b.host == h) with
  | true =>
    obtain ⟨b, hb, hbn⟩ := List.any_eq_true.mp hany
    simp only [Bool.and_eq_true, beq_iff_eq] at hbn
    obtain ⟨hbl, hbh⟩ := hbn
    obtain ⟨c, hc, hl, hh⟩ := (startBackInv_recalls s n h discard rev).keeps b hb
    exact ⟨c, hc, hl.trans hbl, hh.trans hbh⟩
  | false =>
    rw [startBackInv_new hany]
    exact (sendBisnp_recalls _ n h).keeps (s.newBackInv n h discard rev) (List.mem_append_right _ (List.mem_singleton_self _))

-- What each kind of request comes to
section
variable {s : State} {g q : Nat} {e : QEntry} {l : List QEntry}
  (hq : s.egress 256 e.t.snode (hashKey (e.t.dest.getD s.poolNode) e.t.ctx e.t.flow e.t.snode) = some q) (hq' : q < 256)
include hq hq'

/-- The request leaves its line queue, and the home's reply to it goes by its route, from any state that service has reached. -/
theorem served_replies {u : State} (hu : Served (s.setLineQ g l) u) (st : Nat) (d : Bytes) :
    (u.homeReply e st d).lineQ g = l ∧ Queued s (u.homeReply e st d) q 2 (e.t.reply st (e.t.dest.getD s.poolNode) d) 256 ∧ (u.homeReply e st d).pool = u.pool := by
  obtain ⟨hqueued, hpool, hline⟩ := homeReply_queued ((setLineQ_routed s g l).trans hu.routed) e st d hq (Nat.ne_of_lt hq')
  exact ⟨by rw [hline, hu.lineQ, lineQ_setLineQ], hqueued, hpool⟩
/-- A RESYNC and a request that the checks refused are answered without an access. -/
theorem answers_unserved (h : LineHead s g e l) (hroom : s.canReserve 256 2 (rspCells e.t) = true) {st : Nat}
    (hst : (e.t.ty = .resync ∧ st = 0) ∨ ∃ r : Status, e.t.ty ≠ .resync ∧ e.gate = some r ∧ 2 ≤ r.code ∧ st = r.code) :
    ∃ t, exec (.lineQueueHead g false) s = .next t ∧ t.lineQ g = l ∧ Queued s t q 2 (e.t.reply st (e.t.dest.getD s.poolNode) []) 256 ∧ t.pool.mem = s.pool.mem := by
  obtain ⟨hline, hqueued, hpool⟩ := served_replies hq hq' (.refl _) st []
  refine ⟨_, ?_, hline, hqueued, congrArg Pool.mem hpool⟩
  rw [exec_lineQueueHead h]
  rcases hst with ⟨hty, rfl⟩ | ⟨r, hty, hg, _, rfl⟩
  · exact lineHead_resync h hroom hty
  · exact lineHead_gated h hroom hty hg
end

section
variable {s : State} {g q o k : Nat} {e : QEntry} {l : List QEntry} {x : Txn} {y : Ext} (h : LineHead s g e l)
  (hroom : s.canReserve 256 2 (rspCells e.t) = true) (hg : e.gate = none) (hx : x = e.homeTxn) (hty : x.ty = e.t.ty) (hd : inDoorbell x.off = false)
  (ho : o = s.poolOff x.addr) (hext : extOfOff s o = some (k, y)) (hole : s.holeFor x o = false) (hseal : s.sealOk y x = true) (hmac : y.mac = false)
include h hroom hg hx hty hd

theorem exec_serves {u : State} (hne : x.ty ≠ .resync) (hu : (s.setLineQ g l).servePool e x = some u) : exec (.lineQueueHead g false) s = .next u := by
  subst hx
  rw [exec_lineQueueHead h]
  exact lineHead_serves h hroom (hty ▸ hne) hg hd hu
include ho hext hole hseal hmac

/-- A request on a sound line that no host holds is performed, and its reply carries what the access returns. -/
theorem exec_performs (hne : x.ty ≠ .resync) (hdir : s.dirOf (o / 64) = none) (hp : s.linePoison y o = 0) :
    exec (.lineQueueHead g false) s = .next (((s.setLineQ g l).performPool x o).2.homeReply e 0 ((s.setLineQ g l).performPool x o).1) :=
  exec_serves h hroom hg hx hty hd hne (servePool_performs (s := s.setLineQ g l) ho.symm hext (dirClean_unheld hdir) hmac e
    (homeStatus_clean (s := s.setLineQ g l) hext hole hseal hp) (holdersFor_unheld (s := s.setLineQ g l) hdir x.ty))
/-- A request on a line that a living host holds exclusively stays at the head while that host is back-invalidated. -/
theorem exec_waits {c : Nat} {d : DirEnt} (hne : x.ty ≠ .resync) (hdir : s.dirOf (o / 64) = some d) (hexcl : d.excl = true) (hown : d.owner = c)
    (hst : (s.host c).st ≠ .dead) (hp : s.linePoison y o = 0) :
    exec (.lineQueueHead g false) s = .next ((s.setLineQ g ({ e with accepted := some s.clk } :: l)).startBackInv (o / 64) c false none) := by
  have hclean := dirClean_alive hdir hexcl hown hst
  have hclean' := dirClean_alive (s := s.setLineQ g l) hdir hexcl hown hst
  have hwait := servePool_waits (s := s.setLineQ g l) ho.symm hext hclean' hmac e (homeStatus_clean (s := s.setLineQ g l) hext hole hseal hp)
    (holdersFor_owner (s := s.setLineQ g l) hdir hexcl hown x.ty)
  subst hx
  rw [exec_lineQueueHead h, lineHead_waits h hroom (hty ▸ hne) hg hd ho.symm hclean hwait, holdersFor_owner hdir hexcl hown]
  rfl
end

/-- After a store the bytes of its range are the stored ones, and every other byte is as it was. -/
theorem stored_bytes {s t : State} (hsafe : MemSafe s) {o n : Nat} {b : Bytes} (hlen : b.length = n) (hmem : t.pool.mem = memWrite s.pool.mem o b) :
    (∀ a, a < o ∨ o + n ≤ a → memGet t.pool.mem a = memGet s.pool.mem a) ∧ ∀ i, i < n → memGet t.pool.mem (o + i) = b.getD i 0 := by
  subst hlen
  rw [hmem]
  refine ⟨fun a ha => memGet_memWrite_out _ _ _ _ hsafe ha, fun i hi => ?_⟩
  rw [memGet_memWrite_in _ _ _ _ hsafe hi, List.getD_eq_getElem _ _ hi]

/-- Settles O40: what the head of a line queue comes to turns on the room for its response, its gate, the line's poison and its holders; every reply goes by the
route of its source, since no access changes routes or queues. -/
theorem homePerforms : Obligations.HomePerforms := by
  unfold Obligations.HomePerforms
  intro s g q e l hqueue hshort hsingle hnew hfirst hcur hyoung hmarks hrep hq hq'
  have h : LineHead s g e l := ⟨hqueue, hshort, hsingle, hnew, hfirst, hcur, hyoung, hmarks, hrep⟩
  refine ⟨fun hroom => ⟨fun st hst => answers_unserved hq hq' h hroom hst, ?_⟩, ?_⟩
  · intro x o k y hg hx hty _ hd ho hext hole hseal hmac
    refine ⟨fun hdir hp => ?_, fun hdir hp => ?_, fun c d hdir hexcl hown hst hp hrw => ?_⟩
    · have hexec := fun hne => exec_performs h hroom hg hx hty hd ho hext hole hseal hmac hne hdir hp
      refine ⟨fun hwr hsafe => ?_, fun hrd => ?_, fun hat hsafe => ?_⟩
      · obtain ⟨hs, hdata, hmem⟩ := performPool_write (s.setLineQ g l) o hwr
        obtain ⟨hline, hqueued, hpool⟩ := served_replies hq hq' hs 0 []
        rw [hdata] at hexec
        exact ⟨_, hexec (by simp [hwr]), hline, hqueued, stored_bytes hsafe (length_slice _ _ _) ((congrArg Pool.mem hpool).trans hmem)⟩
      · obtain ⟨hs, hmem, hdata⟩ := performPool_read (s.setLineQ g l) o hrd
        obtain ⟨hline, hqueued, hpool⟩ := served_replies hq hq' hs 0 ((s.setLineQ g l).performPool x o).1
        exact ⟨_, _, hexec (by simp [hrd]), hline, hqueued, hdata, (congrArg Pool.mem hpool).trans hmem⟩
      · obtain ⟨hs, hdata, hmem⟩ := performPool_atomic (s.setLineQ g l) o hat
        obtain ⟨hline, hqueued, hpool⟩ := served_replies hq hq' hs 0 (atomData x.size (leNat (s.poolRead o x.len)))
        rw [hdata] at hexec
        exact ⟨_, _, hexec (by simp [hat]), hline, rfl, hqueued, stored_bytes hsafe (length_leBytes _ _) ((congrArg Pool.mem hpool).trans hmem)⟩
    · have hclean := dirClean_unheld (s := s.setLineQ g l) hdir
      have hheld := holdersFor_unheld (s := s.setLineQ g l) hdir x.ty
      have hstatus := homeStatus_poisoned (s := s.setLineQ g l) hext hole hseal hp
      refine ⟨fun hrd => ?_, fun hwr hw => ?_⟩
      · obtain ⟨n, hserve⟩ := servePool_poisonedRead (s := s.setLineQ g l) ho.symm hext hclean hmac e (hstatus (by simp [wholeLine, hrd])) hheld hrd
        obtain ⟨hcount, hmem⟩ := countReq_served ((s.setLineQ g l).freshBytes n).2 x o true
        obtain ⟨hline, hqueued, hpool⟩ := served_replies hq hq' ((freshBytes_served (s.setLineQ g l) n).trans hcount) 1 ((s.setLineQ g l).freshBytes n).1
        exact ⟨_, _, exec_serves h hroom hg hx hty hd (by simp [hrd]) hserve, hline, hqueued, (congrArg Pool.mem hpool).trans hmem⟩
      · have hserve := servePool_poisonedWrite (s := s.setLineQ g l) ho.symm hext hclean hmac e (hstatus hw) hheld (by simp [hwr])
        obtain ⟨hline, hqueued, hpool⟩ := served_replies hq hq' (.refl (s.setLineQ g l)) 1 []
        exact ⟨_, exec_serves h hroom hg hx hty hd (by simp [hwr]) hserve, hline, hqueued, congrArg Pool.mem hpool⟩
    · have hne : x.ty ≠ .resync := by rcases hrw with hr | hr <;> simp [hr]
      have hexec := exec_waits h hroom hg hx hty hd ho hext hole hseal hmac hne hdir hexcl hown hst hp
      have hrec := startBackInv_recalls (s.setLineQ g ({ e with accepted := some s.clk } :: l)) (o / 64) c false none
      obtain ⟨b, hb, hbl, hbh⟩ := startBackInv_underway (s.setLineQ g ({ e with accepted := some s.clk } :: l)) (o / 64) c false none
      exact ⟨_, b, hexec, (hrec.lineQ g).trans (lineQ_setLineQ _ _ _), hb, hbl, hbh, hrec.mem⟩
  · intro hroom hty p hp hp'
    refine ⟨_, (exec_lineQueueHead h).trans (lineHead_noRoom h hroom hty), ?_, failEntry_queued (setLineQ_routed s g l) e 10 false hp (Nat.ne_of_lt hp'), ?_⟩
    · obtain ⟨u, x, hc, hfail, _⟩ := failEntry_spec (s.setLineQ g l) e 10 false hp (Nat.ne_of_lt hp')
      rw [hfail]
      exact (hc.lineQ g).trans (lineQ_setLineQ s g l)
    · obtain ⟨_, _, _, _, _, _, _, _, _, _, _, hpool, _⟩ := (failEntry_carried (s.setLineQ g l) e 10 false).keeps
      exact hpool

end Sys2Proof.Machine
end

section
/-! Pool memory under carriage, translation and the bookkeeping of the pool (R149, R153, R154): each operation that stores nothing leaves every byte. -/

namespace Sys2Proof.Machine
open Sys2Proof

-- A test chooses between two states that hold the same bytes
@[simp] theorem ite_mem (c : Prop) [Decidable c] (s t : State) : (if c then s else t).pool.mem = if c then s.pool.mem else t.pool.mem :=
  apply_ite (fun u : State => u.pool.mem) c s t
/-- `t` holds the bytes of pool memory that `s` holds. A definition of its own, under which two states are compared as terms and not computed. -/
def SameMem (s t : State) : Prop := t.pool.mem = s.pool.mem
@[simp] theorem sameMem_iff (s t : State) : SameMem s t ↔ t.pool.mem = s.pool.mem := .rfl
/-- Steps that each keep the bytes keep them one after another. -/
@[simp] theorem foldl_mem {α : Type} {f : State → α → State} (h : ∀ s x, SameMem s (f s x)) (l : List α) (s : State) :
    (l.foldl f s).pool.mem = s.pool.mem := by
  induction l generalizing s with
  | nil => rfl
  | cons x r ih => exact (ih _).trans (h s x)
@[simp] theorem modPool_mem (s : State) {f : Pool → Pool} (h : ∀ p, (f p).mem = p.mem) : (s.modPool f).pool.mem = s.pool.mem := h _

-- What carriage, requests that go out and engines reach is not pool memory
theorem Carried.mem {s t : State} (h : Carried s t) : t.pool.mem = s.pool.mem := by
  obtain ⟨dev, vane, evt, out, tel, ports, sw, xact, win, hd, hp, rfl⟩ := h
  rfl
theorem Sent.mem {s t : State} (h : Sent s t) : t.pool.mem = s.pool.mem := by
  obtain ⟨r, hr⟩ := h
  exact hr.mem
theorem Moved.mem {s t : State} (h : Moved s t) : t.pool.mem = s.pool.mem := by rw [h.pool]
/-- Whatever state the effect of a write gives holds the pool bytes of `s`. -/
def EffKeeps (s : State) (r : Except Nat State) : Prop := ∀ w, r = .ok w → w.pool.mem = s.pool.mem
@[simp] theorem effKeeps_ok (s w : State) : EffKeeps s (.ok w) ↔ w.pool.mem = s.pool.mem := by simp [EffKeeps]
@[simp] theorem effKeeps_error (s : State) (a : Nat) : EffKeeps s (.error a) := by simp [EffKeeps]
@[simp] theorem effKeeps_ite (s : State) (c : Prop) [Decidable c] (q r : Except Nat State) :
    EffKeeps s (if c then q else r) ↔ (c → EffKeeps s q) ∧ (¬c → EffKeeps s r) := by split <;> simp [*]
@[simp] theorem effKeeps_check (s : State) (c : Bool) (a : Nat) (r : Except Nat State) : EffKeeps s (check c a r) ↔ (c = true → EffKeeps s r) := by
  simp [check]
/-- Whatever next state a command answers holds the pool bytes of `s`. -/
def NextKeeps (s : State) (a : Answer) : Prop := ∀ t, a = .next t → t.pool.mem = s.pool.mem
@[simp] theorem nextKeeps_next (s t : State) : NextKeeps s (.next t) ↔ t.pool.mem = s.pool.mem := by simp [NextKeeps]
@[simp] theorem nextKeeps_ite (s : State) (c : Prop) [Decidable c] (a b : Answer) :
    NextKeeps s (if c then a else b) ↔ (c → NextKeeps s a) ∧ (¬c → NextKeeps s b) := by split <;> simp [*]

-- The common course of a Vane write: what it does to the pool is what the effect does
@[simp] theorem judge_mem (s : State) (f : VFrame) (u : Option EUnit) {eff : State → Except Nat State} (h : EffKeeps s (eff s)) :
    (s.judge f u eff).2.pool.mem = s.pool.mem := by
  unfold State.judge
  split
  · rfl
  · split
    · rfl
    · next t ht => simpa using h t ht
@[simp] theorem vaneJudge_mem (s : State) (sess : Nat) (f : VFrame) (u : Option EUnit) {eff : State → Except Nat State} (h : EffKeeps s (eff s)) :
    (s.vaneJudge sess f u eff).pool.mem = s.pool.mem := by simp [State.vaneJudge, h]
@[simp] theorem resend_mem (s : State) (sess : Nat) (k : Kept) : (s.resend sess k).pool.mem = s.pool.mem := by simp [State.resend]
@[simp] theorem authFail_mem (s : State) (w : Nat) : (s.authFail w).pool.mem = s.pool.mem := by simp [State.authFail]
@[simp] theorem vaneServe_mem (s : State) (sess : Nat) (f : VFrame) {k : State → State} (h : ∀ t, SameMem t (k t)) :
    (s.vaneServe sess f k).pool.mem = s.pool.mem := by
  unfold State.vaneServe
  split
  · rfl
  split
  · simp
  split
  · simp
  split
  · simp
  · exact (h _).trans (by simp)
@[simp] theorem vaneWrite_mem (s : State) (v : VCtx) (obj : Nat × Nat) (p : Bytes) (u : Option EUnit) {eff : State → Except Nat State}
    (h : ∀ t, EffKeeps t (eff t)) : NextKeeps s (s.vaneWrite v obj p u eff) := by simp [State.vaneWrite, h]
@[simp] theorem cmdChange_mem (s : State) (u : EUnit) (f : State → State) : (s.cmdChange u f).pool.mem = (f s).pool.mem := by simp [State.cmdChange]
@[simp] theorem selfChange_mem (s : State) (u : EUnit) (f : State → State) : (s.selfChange u f).pool.mem = (f s).pool.mem := by simp [State.selfChange]

-- What every family uses
@[simp] theorem modExt_mem (s : State) (e : Nat) (f : Ext → Ext) : (s.modExt e f).pool.mem = s.pool.mem := by simp [State.modExt]
@[simp] theorem modStack_mem (s : State) (k : Nat) (f : Stack → Stack) : (s.modStack k f).pool.mem = s.pool.mem := by simp [State.modStack]
@[simp] theorem modDie_mem (s : State) (d : Nat) (f : Die → Die) : (s.modDie d f).pool.mem = s.pool.mem := by simp [State.modDie]
@[simp] theorem toPhase_mem (s : State) (ph : Phase) (self : Bool) : (s.toPhase ph self).pool.mem = s.pool.mem := by simp [State.toPhase]
@[simp] theorem settlePhase_mem (s : State) : s.settlePhase.pool.mem = s.pool.mem := (settlePhase_carried _).mem

-- The switch core: what carriage does is `Carried`, which leaves the pool alone
@[simp] theorem setAdm_mem (s : State) (a v held out : Nat) : (s.setAdm a v held out).pool.mem = s.pool.mem := (setAdm_carried _ _ _ _ _).mem
@[simp] theorem grant_mem (s : State) (a v n : Nat) : (s.grant a v n).pool.mem = s.pool.mem := (grant_carried _ _ _ _).mem
@[simp] theorem charge_mem (s : State) (a v n : Nat) : (s.charge a v n).pool.mem = s.pool.mem := (charge_carried _ _ _ _).mem
@[simp] theorem freeCells_mem (s : State) (a v n : Nat) : (s.freeCells a v n).pool.mem = s.pool.mem := (freeCells_carried _ _ _ _).mem
@[simp] theorem addRepin_mem (s : State) (c : RepinCause) (dur : Nat) : (s.addRepin c dur).pool.mem = s.pool.mem := (addRepin_carried _ _ _).mem
@[simp] theorem enterFlood_mem (s : State) : s.enterFlood.pool.mem = s.pool.mem := (enterFlood_carried _).mem
@[simp] theorem markFlow_mem (s : State) (t : Txn) (adm : Nat) : (s.markFlow t adm).pool.mem = s.pool.mem := (markFlow_carried _ _ _).mem
@[simp] theorem dropMarks_mem (s : State) (p : Mark → Bool) : (s.dropMarks p).pool.mem = s.pool.mem := (dropMarks_carried _ _).mem
@[simp] theorem enqueue_mem (s : State) (egress vc : Nat) (e : QEntry) : (s.enqueue egress vc e).pool.mem = s.pool.mem := (enqueue_carried _ _ _ _).mem
@[simp] theorem release_mem (s : State) (e : QEntry) : (s.release e).pool.mem = s.pool.mem := (release_carried _ _).mem
@[simp] theorem toInbox_mem (s : State) (t : Txn) : (s.toInbox t).pool.mem = s.pool.mem := (toInbox_carried _ _).mem
@[simp] theorem sendRsp_mem (s : State) (e : QEntry) : (s.sendRsp e).pool.mem = s.pool.mem := (sendRsp_carried _ _).mem
@[simp] theorem failEntry_mem (s : State) (e : QEntry) (st : Nat) (repl : Bool) :
    (s.failEntry e st repl).pool.mem = s.pool.mem := (failEntry_carried _ _ _ _).mem
@[simp] theorem ageRsp_mem (s : State) (e : QEntry) : (s.ageRsp e).pool.mem = s.pool.mem := by simp [State.ageRsp]
@[simp] theorem failContribs_mem (st : Nat) (m : MarkOf) (l : List Contrib) (s : State) : (failContribs st m l s).pool.mem = s.pool.mem :=
  (failContribs_carried _ _ _ _).mem
@[simp] theorem markDiscard_mem (s : State) (e : QEntry) : (s.markDiscard e).pool.mem = s.pool.mem := (markDiscard_carried _ _).mem
@[simp] theorem melt_mem (s : State) (e : QEntry) (egress : Option Nat) : (s.melt e egress).pool.mem = s.pool.mem := by
  unfold State.melt
  cases egress <;> cases e.acc <;> simp
@[simp] theorem countRevoked_mem (s : State) : s.countRevoked.pool.mem = s.pool.mem := by simp [State.countRevoked]
@[simp] theorem retire_mem (s : State) (e : QEntry) : (s.retire e).pool.mem = s.pool.mem := by
  unfold State.retire
  dsimp only
  split
  · simp
  split <;> simp
theorem headCheck_mem {s t : State} {e : QEntry} {egress : Option Nat} (h : s.headCheck e egress = some t) : t.pool.mem = s.pool.mem := by
  unfold State.headCheck at h
  split_ifs at h <;> cases h <;> simp
@[simp] theorem trim_mem (s : State) (e : QEntry) {put : QEntry → State → State} (h : ∀ x t, SameMem t (put x t)) :
    (s.trim e put).pool.mem = s.pool.mem := by
  have hput : ∀ x t, (put x t).pool.mem = t.pool.mem := h
  unfold State.trim
  split
  · split <;> simp [hput]
  · rfl
@[simp] theorem leave_mem (s : State) (e : QEntry) : (s.leave e).2.pool.mem = s.pool.mem := by
  unfold State.leave
  split
  · simp
  split <;> simp
@[simp] theorem winDeny_mem (s : State) (e : Nat) : (s.winDeny e).pool.mem = s.pool.mem := (winDeny_carried _ _).mem
@[simp] theorem agedOrPut_mem (s : State) (e : QEntry) (eg : Nat) : (s.agedOrPut e eg).pool.mem = s.pool.mem := (agedOrPut_carried _ _ _).mem
@[simp] theorem forward_mem (s : State) (e : QEntry) : (s.forward e).pool.mem = s.pool.mem := (forward_carried _ _).mem
@[simp] theorem issueAs_mem (s : State) (node : Nat) (t : Txn) (who : Purpose) (timeout : Nat) :
    (s.issueAs node t who timeout).pool.mem = s.pool.mem := (issueAs_sent _ _ _ _ _).mem
@[simp] theorem issue_mem (s : State) (t : Txn) (who : Purpose) (timeout : Nat) : (s.issue t who timeout).pool.mem = s.pool.mem := (issue_sent _ _ _ _).mem
@[simp] theorem reissue_mem (s : State) (key : Nat) (r : OutReq) : (s.reissue key r).pool.mem = s.pool.mem := (reissue_sent _ _ _).mem
@[simp] theorem backoff_mem (s : State) (key : Nat) (o : OutReq) : (s.backoff key o).pool.mem = s.pool.mem := by simp [State.backoff]
@[simp] theorem endReq_mem (s : State) (key : Nat) : (s.endReq key).pool.mem = s.pool.mem := (endReq_sent _ _).mem
@[simp] theorem breakKey_mem (s : State) (t r : Txn) : (s.breakKey t r).pool.mem = s.pool.mem := by simp [State.breakKey]
@[simp] theorem sendOut_mem (s : State) (t : Txn) : (s.sendOut t).pool.mem = s.pool.mem := (sendOut_carried _ _).mem

-- Translation, holds and withdrawals
@[simp] theorem logFault_mem (s : State) (f : FaultRec) : (s.logFault f).pool.mem = s.pool.mem := by simp [State.logFault]
@[simp] theorem fill_mem (s : State) (tile : Nat) (e : TEntry) : (s.fill tile e).pool.mem = s.pool.mem := (fill_moved _ _ _).mem
@[simp] theorem touch_mem (s : State) (tile ctx va : Nat) (hit : Bool) : (s.touch tile ctx va hit).pool.mem = s.pool.mem := by simp [State.touch]
@[simp] theorem countMiss_mem (s : State) (tile : Nat) : (s.countMiss tile).pool.mem = s.pool.mem := by simp [State.countMiss]
@[simp] theorem edgeFail_mem (s : State) (e : QEntry) (st : Nat) : (s.edgeFail e st).pool.mem = s.pool.mem := by simp [State.edgeFail]
@[simp] theorem edgeRetry_mem (s : State) (e : QEntry) : (s.edgeRetry e).pool.mem = s.pool.mem := by simp [State.edgeRetry]
@[simp] theorem edgeForward_mem (s : State) (e : QEntry) (x : TEntry) : (s.edgeForward e x).pool.mem = s.pool.mem := by simp [State.edgeForward]
@[simp] theorem setWalker_mem (s : State) (w : Nat) (x : Option Walk) : (s.setWalker w x).pool.mem = s.pool.mem := (setWalker_moved _ _ _).mem
theorem addMiss_mem {s t : State} {d : Nat} {m : Miss} (h : s.addMiss d m = some t) : t.pool.mem = s.pool.mem :=
  (addMiss_xlated h).moved.mem
@[simp] theorem setHolds_mem (s : State) (tile : Nat) (l : List Held) : (s.setHolds tile l).pool.mem = s.pool.mem := by simp [State.setHolds]
@[simp] theorem sendMgt_mem (s : State) (t : Txn) : (s.sendMgt t).pool.mem = s.pool.mem := (sendMgt_moved _ _).mem
@[simp] theorem askHost_mem (s : State) (h ctx va asker : Nat) (wr : Bool) : (s.askHost h ctx va asker wr).pool.mem = s.pool.mem := by simp [State.askHost]
@[simp] theorem askPage_mem (s : State) (ctx va : Nat) (wr : Bool) : (s.askPage ctx va wr).pool.mem = s.pool.mem := by
  unfold State.askPage
  split <;> simp
@[simp] theorem translateDirect_mem (s : State) (e : QEntry) (since : Nat) (first : Bool) : (s.translateDirect e since first).pool.mem = s.pool.mem := by
  dsimp only [State.translateDirect]
  split
  · simp
  split
  · simp
  split
  · simp
  · next hm => simp [addMiss_mem hm]
@[simp] theorem resumeHolds_mem (tile : Nat) (l : List Held) (s : State) : (resumeHolds tile l s).pool.mem = s.pool.mem := by
  induction l generalizing s with
  | nil => rfl
  | cons h r ih => simp [resumeHolds, ih]
@[simp] theorem resumeTile_mem (s : State) (tile : Nat) : (s.resumeTile tile).pool.mem = s.pool.mem := by simp [State.resumeTile]
@[simp] theorem walkRead_mem (s : State) (w : Nat) (k : Walk) (level fa : Nat) :
    (s.walkRead w k level fa).pool.mem = s.pool.mem := (walkRead_moved _ _ _ _ _).mem
@[simp] theorem wfill_mem (s : State) (d : Nat) (e : WEntry) : (s.wfill d e).pool.mem = s.pool.mem := by simp [State.wfill]
@[simp] theorem failHeld_mem (s : State) (tile ctx va st : Nat) : (s.failHeld tile ctx va st).pool.mem = s.pool.mem := by simp [State.failHeld]
@[simp] theorem waiterFail_mem (ctx va st : Nat) (s : State) (x : Waiter) : (waiterFail ctx va st s x).pool.mem = s.pool.mem := by
  unfold waiterFail
  split <;> simp
@[simp] theorem walkFault_mem (s : State) (w : Nat) (k : Walk) : (s.walkFault w k).pool.mem = s.pool.mem := by simp [State.walkFault]
@[simp] theorem waiterFill_mem (x : TEntry) (va : Nat) (s : State) (y : Waiter) : (waiterFill x va s y).pool.mem = s.pool.mem := by
  unfold waiterFill
  split <;> simp
@[simp] theorem walkAbsent_mem (s : State) (w : Nat) (k : Walk) : (s.walkAbsent w k).pool.mem = s.pool.mem := by simp [State.walkAbsent]
@[simp] theorem walkGot_mem (s : State) (w : Nat) (k : Walk) (x : TEntry) : (s.walkGot w k x).pool.mem = s.pool.mem := by simp [State.walkGot]
@[simp] theorem walkLeaf_mem (s : State) (w : Nat) (k : Walk) (e : NEntry) : (s.walkLeaf w k e).pool.mem = s.pool.mem := by simp [State.walkLeaf]
@[simp] theorem atsResult_mem (s : State) (w : Nat) (k : Walk) (base size t : Nat) (r wr u : Bool) :
    (s.atsResult w k base size t r wr u).pool.mem = s.pool.mem := by simp [State.atsResult]
@[simp] theorem walkBegin_mem (s : State) (w : Nat) (k : Walk) : (s.walkBegin w k).pool.mem = s.pool.mem := by
  dsimp only [State.walkBegin]
  repeat' split
  all_goals simp
@[simp] theorem walkEntry_mem (s : State) (w : Nat) (k : Walk) (r : Txn) : (s.walkEntry w k r).pool.mem = s.pool.mem := by simp [State.walkEntry]
@[simp] theorem atsDone_mem (s : State) (w addr size : Nat) (r wr u : Bool) : (s.atsDone w addr size r wr u).pool.mem = s.pool.mem := by
  unfold State.atsDone
  split <;> simp
@[simp] theorem prgAt_mem (c va : Nat) (ok : Bool) (s : State) (w : Nat) : (prgAt c va ok s w).pool.mem = s.pool.mem := by
  unfold prgAt
  split <;> simp
@[simp] theorem pageAnswer_mem (s : State) (c va : Nat) (ok : Bool) : (s.pageAnswer c va ok).pool.mem = s.pool.mem := by simp [State.pageAnswer]
@[simp] theorem tellPage_mem (c va : Nat) (ok : Bool) (s : State) (asker : Nat) :
    (State.tellPage c va ok s asker).pool.mem = s.pool.mem := by simp [State.tellPage]
@[simp] theorem remoteAts_mem (s : State) (from_ w ctx va : Nat) : (s.remoteAts from_ w ctx va).pool.mem = s.pool.mem := by
  unfold State.remoteAts
  split <;> simp
@[simp] theorem remotePage_mem (s : State) (from_ ctx va : Nat) (wr : Bool) : (s.remotePage from_ ctx va wr).pool.mem = s.pool.mem := by
  unfold State.remotePage
  split <;> simp
@[simp] theorem redoLine_mem (s : State) (p : Purpose) : (s.redoLine p).pool.mem = s.pool.mem := (redoLine_moved _ _).mem
@[simp] theorem applyNotice_mem (s : State) (home id : Nat) (fa : Bool) (ctx base len2m : Nat) :
    (s.applyNotice home id fa ctx base len2m).pool.mem = s.pool.mem := (applyNotice_moved _ _ _ _ _ _ _).mem
@[simp] theorem runWd_mem (s : State) (w : Withdrawal) : (s.runWd w).pool.mem = s.pool.mem := by simp [State.runWd]
@[simp] theorem startWd_mem (s : State) (fa : Bool) (ctx base len2m nfa nval : Nat) (cause : WdCause) :
    (s.startWd fa ctx base len2m nfa nval cause).pool.mem = s.pool.mem := by simp [State.startWd]
@[simp] theorem startCtxWd_mem (s : State) (ctx : Nat) (cause : WdCause) : (s.startCtxWd ctx cause).pool.mem = s.pool.mem := by simp [State.startCtxWd]
@[simp] theorem wdNext_mem (n : Nat) (s : State) : (wdNext n s).pool.mem = s.pool.mem := by
  induction n generalizing s with
  | zero => rfl
  | succ n ih =>
    rw [wdNext]
    split
    · rfl
    split
    · simp [ih]
    split
    · rfl
    · simp [ih]

-- The pool's own bookkeeping: poison, dies, moves, the directory, extents
theorem takeGranule_mem {s t : State} {d : Nat} {g : Granule} (h : s.takeGranule d = some (g, t)) : t.pool.mem = s.pool.mem := by
  unfold State.takeGranule at h
  split at h
  · cases h
  · split at h <;> cases h <;> simp
@[simp] theorem moraine_mem (s : State) (m : Moraine) : (s.moraine m).pool.mem = s.pool.mem := by simp [State.moraine]
@[simp] theorem moraineFor_mem (e : Nat) (x : Ext) (cause stack : Nat) (lines : List Nat) (s : State) (page : Nat) :
    (moraineFor e x cause stack lines s page).pool.mem = s.pool.mem := by simp [moraineFor]
@[simp] theorem recordPoison_mem (s : State) (e : Nat) (x : Ext) (cause stack : Nat) (lines : List Nat) :
    (s.recordPoison e x cause stack lines).pool.mem = s.pool.mem := by simp [State.recordPoison]
@[simp] theorem poison_mem (s : State) (e : Nat) (x : Ext) (cause stack : Nat) (lines : List Nat) :
    (s.poison e x cause stack lines).pool.mem = s.pool.mem := by simp [State.poison]
@[simp] theorem lineUe_mem (s : State) (off : Nat) : (s.lineUe off).pool.mem = s.pool.mem := by
  unfold State.lineUe
  split <;> simp
@[simp] theorem setDie_mem (s : State) (d : Nat) (st : DieState) : (s.setDie d st).pool.mem = s.pool.mem := by simp [State.setDie]
@[simp] theorem retireCheck_mem (s : State) (d : Nat) : (s.retireCheck d).pool.mem = s.pool.mem := by simp [State.retireCheck]
@[simp] theorem failStack_mem (s : State) (k cause : Nat) (self : Bool) : (s.failStack k cause self).pool.mem = s.pool.mem := by
  dsimp only [State.failStack]
  split
  · simp
  split <;> simp
@[simp] theorem countUe_mem (s : State) (k : Nat) : (s.countUe k).pool.mem = s.pool.mem := by simp [State.countUe]
@[simp] theorem rebuildStripe_mem (s : State) (d : Nat) : (s.rebuildStripe d).pool.mem = s.pool.mem := by
  unfold State.rebuildStripe
  split
  · simp
  split <;> simp
@[simp] theorem evacuate_mem (s : State) (d : Nat) : (s.evacuate d).pool.mem = s.pool.mem := by
  unfold State.evacuate
  split
  · rfl
  split
  · simp
  split
  · rfl
  split
  · rfl
  · next ht => simp [takeGranule_mem ht, putParity_mem]
@[simp] theorem dirDrop_mem (s : State) (line h : Nat) : (s.dirDrop line h).pool.mem = s.pool.mem := by
  unfold State.dirDrop
  split <;> simp
@[simp] theorem noteLost_mem (s : State) (e h : Nat) : (s.noteLost e h).pool.mem = s.pool.mem := by simp [State.noteLost]
@[simp] theorem dirDead_mem (s : State) (line h : Nat) : (s.dirDead line h).pool.mem = s.pool.mem := by
  unfold State.dirDead
  split
  · simp
  split
  · split <;> simp
  · simp
@[simp] theorem dirClean_mem (s : State) (line : Nat) : (s.dirClean line).pool.mem = s.pool.mem := by
  unfold State.dirClean
  split <;> simp
@[simp] theorem modMove_mem (s : State) (mv : Nat) (f : Move → Move) : (s.modMove mv f).pool.mem = s.pool.mem := by simp [State.modMove]
@[simp] theorem abortMove_mem (s : State) (mv : Nat) : (s.abortMove mv).pool.mem = s.pool.mem := by
  unfold State.abortMove
  split <;> simp
@[simp] theorem abortCheck_mem (s : State) (mv : Nat) : (s.abortCheck mv).pool.mem = s.pool.mem := by
  unfold State.abortCheck
  split <;> simp
@[simp] theorem sendBisnp_mem (s : State) (line h : Nat) : (s.sendBisnp line h).pool.mem = s.pool.mem := by simp [State.sendBisnp]
@[simp] theorem startBackInv_mem (s : State) (line h : Nat) (discard : Bool) (rev : Option (Nat × Nat)) :
    (s.startBackInv line h discard rev).pool.mem = s.pool.mem := by simp [State.startBackInv]
@[simp] theorem backInvExt_mem (s : State) (x : Ext) (only : Option Nat) (discard : Bool) (rev : Option (Nat × Nat)) :
    (s.backInvExt x only discard rev).pool.mem = s.pool.mem := by simp [State.backInvExt]
@[simp] theorem extRelease_mem (s : State) (e : Nat) : (s.extRelease e).pool.mem = s.pool.mem := by simp [State.extRelease]
@[simp] theorem extToZeroing_mem (s : State) (e : Nat) : (s.extToZeroing e).pool.mem = s.pool.mem := by simp [State.extToZeroing]
@[simp] theorem granuleZeroed_mem (s : State) (e : Nat) : (s.granuleZeroed e).pool.mem = s.pool.mem := by
  unfold State.granuleZeroed
  split <;> simp
@[simp] theorem decay_mem (s : State) : s.decay.pool.mem = s.pool.mem := by simp [State.decay]
@[simp] theorem driftIssue_mem (s : State) (mv n : Nat) : (s.driftIssue mv n).pool.mem = s.pool.mem := by
  induction n generalizing s with
  | zero => rfl
  | succ n ih =>
    rw [State.driftIssue]
    split
    · rfl
    · split
      · rw [ih, issue_mem, modMove_mem]
      · rfl
@[simp] theorem breakFor_mem (s : State) (o : OutReq) (r : Txn) : (s.breakFor o r).pool.mem = s.pool.mem := by simp [State.breakFor]

end Sys2Proof.Machine
end

section
/-! Pool memory under engines, host ports, contexts and end-points, and on the way of a transaction through the hop (R149, R153): each leaves every byte. -/

namespace Sys2Proof.Machine
open Sys2Proof

-- The management side
@[simp] theorem noteRt_mem (s : State) (cause : Nat) : (s.noteRt cause).pool.mem = s.pool.mem := by simp [State.noteRt]

-- Engines and what they issue
@[simp] theorem clearWaits_mem (s : State) (n : Nat) : (s.clearWaits n).pool.mem = s.pool.mem := by simp [State.clearWaits]
@[simp] theorem ringDrain_mem (s : State) (n : Nat) : (s.ringDrain n).pool.mem = s.pool.mem := by simp [State.ringDrain]
@[simp] theorem ringCfgWrite_mem (n v : Nat) (s : State) : EffKeeps s (ringCfgWrite n v s) := by simp [ringCfgWrite]
@[simp] theorem dbIgnore_mem (s : State) : s.dbIgnore.pool.mem = s.pool.mem := by simp [State.dbIgnore]
@[simp] theorem fetchNext_mem (s0 : State) (n : Nat) : (s0.fetchNext n).pool.mem = s0.pool.mem := (fetchNext_moved _ _).mem
@[simp] theorem doorbell_mem (s : State) (n off value width : Nat) : (s.doorbell n off value width).pool.mem = s.pool.mem := by simp [State.doorbell]
@[simp] theorem afterEnd_mem (s : State) (n : Nat) : (s.afterEnd n).pool.mem = s.pool.mem := by simp [State.afterEnd]
@[simp] theorem modWork_mem (s : State) (n idx : Nat) (f : Work → Work) : (s.modWork n idx f).pool.mem = s.pool.mem := (modWork_moved _ _ _ _).mem
@[simp] theorem wantXlate_mem (s : State) (n idx ctx va need : Nat) : (s.wantXlate n idx ctx va need).pool.mem = s.pool.mem := by
  unfold State.wantXlate
  split
  · rfl
  dsimp only
  split
  · next ht => simp [addMiss_mem ht]
  · simp
@[simp] theorem countHits_mem (s : State) (n idx k : Nat) : (s.countHits n idx k).pool.mem = s.pool.mem := (countHits_moved _ _ _ _).mem
@[simp] theorem finish_mem (s : State) (n idx : Nat) (st : Status) : (s.finish n idx st).pool.mem = s.pool.mem := by simp [State.finish]
@[simp] theorem faultDesc_mem (s : State) (n idx va : Nat) : (s.faultDesc n idx va).pool.mem = s.pool.mem := by simp [State.faultDesc]
@[simp] theorem wantOperands_mem (s : State) (n : Nat) (w : Work) (x : Nat) : (s.wantOperands n w x).pool.mem = s.pool.mem := by simp [State.wantOperands]
@[simp] theorem snapshot_mem (s : State) (n idx : Nat) : (s.snapshot n idx).pool.mem = s.pool.mem := by
  unfold State.snapshot
  split
  · simp
  split
  · simp
  split
  · simp
  split <;> simp
@[simp] theorem issueLine_mem (s : State) (n idx : Nat) (w : Work) (t : ETile) : (s.issueLine n idx w t).pool.mem = s.pool.mem := by simp [State.issueLine]
@[simp] theorem issueTile_mem (n idx no k : Nat) (s : State) : (issueTile n idx no k s).pool.mem = s.pool.mem := by
  induction k generalizing s with
  | zero => rfl
  | succ k ih =>
    rw [issueTile]
    split
    · rfl
    split
    · rfl
    · simp [ih]
@[simp] theorem prefetch_mem (s : State) (n : Nat) (w : Work) (x : Nat) : (s.prefetch n w x).pool.mem = s.pool.mem :=
  (prefetch_xlated _ _ _ _).moved.mem
@[simp] theorem startTile_mem (s : State) (n idx : Nat) (w : Work) : (s.startTile n idx w).pool.mem = s.pool.mem := by
  dsimp only [State.startTile]
  split
  · simp
  split <;> simp
@[simp] theorem resumeCut_mem (s : State) (n idx : Nat) (w : Work) (t : ETile) : (s.resumeCut n idx w t).pool.mem = s.pool.mem := by
  unfold State.resumeCut
  split
  · simp
  split <;> simp
@[simp] theorem refill_mem (s : State) (tile : Nat) : (s.refill tile).pool.mem = s.pool.mem :=
  foldl_mem (fun _ _ => foldl_mem (fun _ _ => foldl_mem (fun _ _ => issueTile_mem _ _ _ _ _) _ _) _ _) _ _
@[simp] theorem tileCheck_mem (s : State) (n idx : Nat) : (s.tileCheck n idx).pool.mem = s.pool.mem := (tileCheck_moved _ _ _).mem
@[simp] theorem breakFlow_mem (s : State) (n : Nat) (t : Txn) (r : Txn) : (s.breakFlow n t r).pool.mem = s.pool.mem := by simp [State.breakFlow]

-- Rings and descriptors
@[simp] theorem restartRing_mem (s : State) (n x : Nat) : (s.restartRing n x).pool.mem = s.pool.mem := (restartRing_moved _ _ _).mem
@[simp] theorem ringCtlWrite_mem (n value : Nat) (s : State) : EffKeeps s (ringCtlWrite n value s) := by simp [ringCtlWrite]
theorem pick_mem {s u : State} {g n : Nat} {w : Work} (h : s.pick g = some (n, w, u)) : u.pool.mem = s.pool.mem := (pick_spec h).2.moved.mem
theorem picked_mem {s u : State} {n op : Nat} {w : Work} (h : s.picked n op = some (w, u)) : u.pool.mem = s.pool.mem := (picked_paid h).moved.mem
@[simp] theorem execNop_mem (n : Nat) (s : State) : NextKeeps s (execNop n s) := by
  unfold execNop
  split
  · simp
  · next ht => simp [picked_mem ht]
@[simp] theorem execCopy_mem (n : Nat) (s : State) : NextKeeps s (execCopy n s) := by
  unfold execCopy
  split <;> simp
@[simp] theorem execFill_mem (n : Nat) (s : State) : NextKeeps s (execFill n s) := by
  unfold execFill
  split <;> simp
@[simp] theorem atomicIssue_mem (s : State) (n : Nat) (w : Work) (b : MTrans) : (s.atomicIssue n w b).pool.mem = s.pool.mem := (atomicIssue_moved _ _ _ _).mem
@[simp] theorem execAtomic_mem (n : Nat) (s : State) : NextKeeps s (execAtomic n s) := by
  unfold execAtomic
  split
  · simp
  split
  · simp
  · next ht =>
    split
    · simp [picked_mem ht]
    · split <;> simp
@[simp] theorem execEngineTileStart_mem (tile : Nat) (s : State) : NextKeeps s (execEngineTileStart tile s) := by
  unfold execEngineTileStart
  split
  · simp
  · next ht =>
    split
    · simp
    · split <;> simp [pick_mem ht]
@[simp] theorem lineEnd_mem (s : State) (n idx no : Nat) (st : Status) : (s.lineEnd n idx no st).pool.mem = s.pool.mem := by simp [State.lineEnd]
@[simp] theorem lineWrite_mem (s : State) (n idx no pos len : Nat) (o : OutReq) (r : Txn) : (s.lineWrite n idx no pos len o r).pool.mem = s.pool.mem := by
  unfold State.lineWrite
  split
  · simp
  split <;> simp
@[simp] theorem execMoverLineResponse_mem (tag : Nat) (s : State) : NextKeeps s (execMoverLineResponse tag s) := by
  dsimp only [execMoverLineResponse]
  split
  · simp
  split
  · simp
  split
  · simp
  split
  · simp
  split <;> simp
@[simp] theorem retarget_mem (s : State) (key : Nat) (o : OutReq) (n idx kind a need : Nat) : (s.retarget key o n idx kind a need).pool.mem = s.pool.mem := by
  dsimp only [State.retarget]
  split
  · simp
  split <;> simp
@[simp] theorem retryReq_mem (s : State) (key : Nat) (o : OutReq) : (s.retryReq key o).pool.mem = s.pool.mem := by
  unfold State.retryReq
  repeat' split
  all_goals simp
@[simp] theorem execMoverRetry_mem (tag : Nat) (s : State) : NextKeeps s (execMoverRetry tag s) := by
  dsimp only [execMoverRetry]
  split
  · simp
  split <;> simp
@[simp] theorem execDescriptorSignal_mem (n : Nat) (s : State) : NextKeeps s (execDescriptorSignal n s) := by
  dsimp only [execDescriptorSignal]
  split
  · simp
  split
  · simp
  split
  · simp
  split <;> simp
@[simp] theorem execCompletionRecord_mem (n : Nat) (s : State) : NextKeeps s (execCompletionRecord n s) := by
  dsimp only [execCompletionRecord]
  split
  · simp
  split <;> simp
@[simp] theorem execNotificationVector_mem (n : Nat) (s : State) : NextKeeps s (execNotificationVector n s) := by
  dsimp only [execNotificationVector]
  split <;> simp
@[simp] theorem orphan_mem (s : State) (n : Nat) : (s.orphan n).pool.mem = s.pool.mem := by simp [State.orphan]

-- Host ports
@[simp] theorem issueHost_mem (s : State) (h : Nat) (t : Txn) (who : Purpose) : (s.issueHost h t who).pool.mem = s.pool.mem := by simp [State.issueHost]
@[simp] theorem sendBirsp_mem (s : State) (h st : Nat) (t : Txn) : (s.sendBirsp h st t).pool.mem = s.pool.mem := by simp [State.sendBirsp]
@[simp] theorem unbindHost_mem (s : State) (h : Nat) : (s.unbindHost h).pool.mem = s.pool.mem := by simp [State.unbindHost]
@[simp] theorem scanEnd_mem (s : State) (h : Nat) : (s.scanEnd h).pool.mem = s.pool.mem := by simp [State.scanEnd]
theorem hpCtlWrite_mem (h : Nat) {value : Nat} (hv : value % 256 ≠ 1) (s : State) : EffKeeps s (hpCtlWrite h value s) := by
  simp [hpCtlWrite, hv]
@[simp] theorem execRevive_mem (v : VCtx) (h : Nat) (s : State) : NextKeeps s (execRevive v h s) := by simp [execRevive, hpCtlWrite_mem]
@[simp] theorem execClearRid_mem (v : VCtx) (h rid : Nat) (s : State) : NextKeeps s (execClearRid v h rid s) :=
  vaneWrite_mem _ _ _ _ _ (hpCtlWrite_mem h (by omega))
@[simp] theorem serveBisnp_mem (s : State) (h : Nat) (e : QEntry) : (s.serveBisnp h e).pool.mem = s.pool.mem := by simp [State.serveBisnp]
@[simp] theorem execM2sBirsp_mem (h dpa : Nat) (s : State) : NextKeeps s (execM2sBirsp h dpa s) := by
  unfold execM2sBirsp
  split <;> simp
@[simp] theorem modAcc_mem (s : State) (h id : Nat) (f : HostAcc → HostAcc) : (s.modAcc h id f).pool.mem = s.pool.mem := by simp [State.modAcc]
@[simp] theorem stallRid_mem (s : State) (h rid fa st : Nat) : (s.stallRid h rid fa st).pool.mem = s.pool.mem := by simp [State.stallRid]
@[simp] theorem accAnswer_mem (s : State) (h : Nat) (a : HostAcc) (st : Status) : (s.accAnswer h a st).pool.mem = s.pool.mem := by
  unfold State.accAnswer
  split <;> simp
@[simp] theorem stallAcc_mem (s : State) (h : Nat) (a : HostAcc) : (s.stallAcc h a).pool.mem = s.pool.mem := by simp [State.stallAcc]
@[simp] theorem hostKickOne_mem (h : Nat) (s : State) (a : HostAcc) : (hostKickOne h s a).pool.mem = s.pool.mem := by simp [hostKickOne]
@[simp] theorem hostKick_mem (s : State) (h : Nat) : (s.hostKick h).pool.mem = s.pool.mem := by simp [State.hostKick]
@[simp] theorem hostAccess_mem (s : State) (h rid : Nat) (htag : Option Nat) (pasid : Option Nat) (kind off len : Nat) (ro : Bool) (atop : Nat) (data : Bytes) :
    (s.hostAccess h rid htag pasid kind off len ro atop data).pool.mem = s.pool.mem := by
  unfold State.hostAccess
  repeat' split
  all_goals simp
@[simp] theorem execHostAtomicop_mem (h rid htag : Nat) (pasid : Option Nat) (off : Nat) (op : HostAtomic) (width : Nat) (data : Bytes) (s : State) :
    NextKeeps s (execHostAtomicop h rid htag pasid off op width data s) := by
  unfold execHostAtomicop
  split <;> simp
@[simp] theorem accLine_mem (h : Nat) (a : HostAcc) (fa : Nat) (s : State) (i : Nat) : (accLine h a fa s i).pool.mem = s.pool.mem := by simp [accLine]
@[simp] theorem frameRsp_mem (s : State) (h id : Nat) (r : Txn) : (s.frameRsp h id r).pool.mem = s.pool.mem := by
  unfold State.frameRsp
  split <;> simp
@[simp] theorem hostLineRsp_mem (s : State) (key h id part : Nat) (o : OutReq) (r : Txn) : (s.hostLineRsp key h id part o r).pool.mem = s.pool.mem := by
  unfold State.hostLineRsp
  split <;> simp
@[simp] theorem hostRsp_mem (s : State) (key : Nat) (o : OutReq) (r : Txn) : (s.hostRsp key o r).pool.mem = s.pool.mem := by
  unfold State.hostRsp
  split <;> simp
@[simp] theorem execHostRetryDeadline_mem (h id : Nat) (s : State) : NextKeeps s (execHostRetryDeadline h id s) := by
  unfold execHostRetryDeadline
  split <;> simp
@[simp] theorem hostReply_mem (s : State) (h : Nat) (e : QEntry) (st : Nat) (data : Bytes) :
    (s.hostReply h e st data).pool.mem = s.pool.mem := by simp [State.hostReply]
@[simp] theorem flush_mem (s : State) (h : Nat) : (s.flush h).pool.mem = s.pool.mem := by simp [State.flush]
@[simp] theorem serveHost_mem (s : State) (h : Nat) (e : QEntry) (t : Txn) : (s.serveHost h e t).pool.mem = s.pool.mem := by
  dsimp only [State.serveHost]
  split
  · simp
  split
  · simp
  split
  · simp
  split
  · simp
  split
  · simp
  split
  · simp
  split <;> simp
@[simp] theorem endFab_mem (s : State) (h : Nat) (f : HostFab) (st : Nat) (data : Bytes) :
    (s.endFab h f st data).pool.mem = s.pool.mem := by simp [State.endFab]
@[simp] theorem execHostCompletion_mem (h htag : Nat) (c : HostCpl) (s : State) : NextKeeps s (execHostCompletion h htag c s) := by
  unfold execHostCompletion
  split
  · simp
  split <;> simp
@[simp] theorem execHostCompletionTimeout_mem (h htag : Nat) (s : State) : NextKeeps s (execHostCompletionTimeout h htag s) := by
  unfold execHostCompletionTimeout
  split <;> simp
@[simp] theorem tdispStep_mem (s : State) (h msg : Nat) (from_ : List TdiState) (to_ : TdiState) :
    (s.tdispStep h msg from_ to_).pool.mem = s.pool.mem := by simp [State.tdispStep]

-- Contexts, keys and bundles
@[simp] theorem setCtx_mem (s : State) (c : Nat) (st : CtxState) : (s.setCtx c st).pool.mem = s.pool.mem := by simp [State.setCtx]
@[simp] theorem eraseBkeys_mem (s : State) (c : Nat) : (s.eraseBkeys c).pool.mem = s.pool.mem := by simp [State.eraseBkeys]
@[simp] theorem orphanLoad_mem (s : State) : s.orphanLoad.pool.mem = s.pool.mem := by simp [State.orphanLoad]
@[simp] theorem endBundle_mem (s : State) (st : BundlePhase) (cause : Nat) : (s.endBundle st cause).pool.mem = s.pool.mem := by simp [State.endBundle]
@[simp] theorem enterStopping_mem (s : State) (c : Nat) {ab : Nat → State → State} (h : ∀ i t, SameMem t (ab i t)) :
    (s.enterStopping c ab).pool.mem = s.pool.mem := by
  have hab : ∀ i t, (ab i t).pool.mem = t.pool.mem := h
  simp [State.enterStopping, hab]
@[simp] theorem sweepQueue_mem (s : State) (c egress : Nat) : (s.sweepQueue c egress).pool.mem = s.pool.mem := by simp [State.sweepQueue]
@[simp] theorem sweepLine_mem (s : State) (c tile : Nat) : (s.sweepLine c tile).pool.mem = s.pool.mem := by simp [State.sweepLine]
@[simp] theorem sweepHolds_mem (s : State) (c tile : Nat) : (s.sweepHolds c tile).pool.mem = s.pool.mem := by simp [State.sweepHolds]
@[simp] theorem sweep_mem (s : State) (c : Nat) : (s.sweep c).pool.mem = s.pool.mem := by simp [State.sweep]
@[simp] theorem revokeGrant_mem (s : State) (e g : Nat) : (s.revokeGrant e g).pool.mem = s.pool.mem := by simp [State.revokeGrant]
@[simp] theorem destroyKey_mem (s : State) (k : Nat) : (s.destroyKey k).pool.mem = s.pool.mem := by simp [State.destroyKey]
@[simp] theorem destroyKeys_mem (s : State) (c : Nat) : (s.destroyKeys c).pool.mem = s.pool.mem := by simp [State.destroyKeys]
@[simp] theorem destroyRevoked_mem (s : State) : s.destroyRevoked.pool.mem = s.pool.mem := by simp [State.destroyRevoked]
@[simp] theorem enterRevoking_mem (s : State) (c : Nat) : (s.enterRevoking c).pool.mem = s.pool.mem := by simp [State.enterRevoking]
@[simp] theorem thaw_mem (s : State) (c : Nat) : (s.thaw c).pool.mem = s.pool.mem := by simp [State.thaw]
@[simp] theorem sendCtx_mem (s : State) (c : Nat) (clean : Bool) : (s.sendCtx c clean).pool.mem = s.pool.mem := by simp [State.sendCtx]
@[simp] theorem modChange_mem (s : State) (c : Nat) (f : CtxChange → CtxChange) : (s.modChange c f).pool.mem = s.pool.mem := by simp [State.modChange]
@[simp] theorem ctxStep_mem (s : State) (ch : CtxChange) (to_ : CtxState) : (s.ctxStep ch to_).pool.mem = s.pool.mem := by
  unfold State.ctxStep
  split <;> simp
@[simp] theorem ctxAdvance_mem (s : State) (ch : CtxChange) : (s.ctxAdvance ch).pool.mem = s.pool.mem := by
  dsimp only [State.ctxAdvance]
  split <;> simp
@[simp] theorem ctxAck_mem (s : State) (n c : Nat) : (s.ctxAck n c).pool.mem = s.pool.mem := by
  unfold State.ctxAck
  split <;> simp
@[simp] theorem ctxAbsent_mem (s : State) (n : Nat) : (s.ctxAbsent n).pool.mem = s.pool.mem := by simp [State.ctxAbsent]
@[simp] theorem ctxActivateWrite_mem (c : Nat) (clean : Bool) (nfa nval : Nat) (s : State) :
    EffKeeps s (ctxActivateWrite c clean nfa nval s) := by simp [ctxActivateWrite]
@[simp] theorem ctxStopWrite_mem {ab : Nat → State → State} (h : ∀ i t, SameMem t (ab i t)) (c nfa nval : Nat) (s : State) :
    EffKeeps s (ctxStopWrite ab c nfa nval s) := by
  have hst : ∀ t : State, (t.enterStopping c ab).pool.mem = t.pool.mem := fun t => enterStopping_mem t c h
  simp [ctxStopWrite, hst]
@[simp] theorem ctxNotice_mem (s : State) {ab : Nat → State → State} (h : ∀ i t, SameMem t (ab i t)) (home c st kgen : Nat) (clean : Bool) :
    (s.ctxNotice ab home c st kgen clean).pool.mem = s.pool.mem := by
  have hst : ∀ t : State, (t.enterStopping c ab).pool.mem = t.pool.mem := fun t => enterStopping_mem t c h
  unfold State.ctxNotice
  dsimp only
  split <;> simp [hst]
@[simp] theorem keyGenerateWrite_mem (slot : Nat) (host : Bool) (owner : Nat) (s : State) :
    EffKeeps s (keyGenerateWrite slot host owner s) := by simp [keyGenerateWrite]
@[simp] theorem keyDestroyWrite_mem (slot : Nat) (s : State) : EffKeeps s (keyDestroyWrite slot s) := by simp [keyDestroyWrite]
@[simp] theorem bkeyDeliver_mem (s : State) (sess payload len : Nat) : (s.bkeyDeliver sess payload len).2.pool.mem = s.pool.mem := by
  dsimp only [State.bkeyDeliver]
  split
  · simp
  split
  · simp
  split <;> simp
@[simp] theorem bundleReads_mem (a n : Nat) (s : State) : (bundleReads a n s).pool.mem = s.pool.mem := by
  induction n generalizing a s with
  | zero => rfl
  | succ n ih => rw [bundleReads, ih, issue_mem]
@[simp] theorem readBundle_mem (s : State) (a n : Nat) : (s.readBundle a n).pool.mem = s.pool.mem := by simp [State.readBundle]
@[simp] theorem bundleLoadWrite_mem (rec_ : Nat) (s : State) : EffKeeps s (bundleLoadWrite rec_ s) := by simp [bundleLoadWrite]
@[simp] theorem readChunk_mem (s : State) : s.readChunk.pool.mem = s.pool.mem := by simp [State.readChunk]
@[simp] theorem loadDone_mem (s : State) : s.loadDone.pool.mem = s.pool.mem := by
  unfold State.loadDone
  split <;> simp
@[simp] theorem bundleWrites_mem (ctx kgen off : Nat) (d : Bytes) (n : Nat) (s : State) : (bundleWrites ctx kgen off d n s).pool.mem = s.pool.mem := by
  induction n generalizing off d s with
  | zero => rfl
  | succ n ih => rw [bundleWrites, ih, issue_mem]
@[simp] theorem bundleChunk_mem (s : State) : s.bundleChunk.pool.mem = s.pool.mem := by
  dsimp only [State.bundleChunk]
  split
  · simp
  split
  · simp
  split
  · simp
  split <;> simp

-- Attached end-points
@[simp] theorem farunOut_mem (s : State) (n engine p : Nat) (t : Txn) (dest : Option Nat) :
    (s.farunOut n engine p t dest).pool.mem = s.pool.mem := by simp [State.farunOut]
@[simp] theorem farunData_mem (s : State) (f : Farun) (t : Txn) (st : Nat) : (s.farunData f t st).2.pool.mem = s.pool.mem := by
  unfold State.farunData
  split
  · simp
  split <;> simp
@[simp] theorem farunServe_mem (s : State) (n p : Nat) (t : Txn) : (s.farunServe n p t).pool.mem = s.pool.mem := by simp [State.farunServe]
@[simp] theorem farunSend_mem (s : State) (n engine : Nat) (t0 : Txn) : (s.farunSend n engine t0).pool.mem = s.pool.mem := by
  dsimp only [State.farunSend]
  split
  · simp
  split <;> simp
@[simp] theorem farunKick_mem (s : State) (n : Nat) : (s.farunKick n).pool.mem = s.pool.mem := by simp [State.farunKick]
@[simp] theorem fenceEnd_mem (s : State) (n engine : Nat) : (s.fenceEnd n engine).pool.mem = s.pool.mem := by simp [State.fenceEnd]
@[simp] theorem farunEnd_mem (s : State) (key engine : Nat) (o : OutReq) (st : Status) (tnode : Nat) :
    (s.farunEnd key engine o st tnode).pool.mem = s.pool.mem := by simp [State.farunEnd]
@[simp] theorem farunSyncEnd_mem (s : State) (key engine : Nat) (o : OutReq) (st : Status) :
    (s.farunSyncEnd key engine o st).pool.mem = s.pool.mem := by simp [State.farunSyncEnd]
@[simp] theorem farunAgain_mem (s : State) (n key q dest : Nat) (o : OutReq) : (s.farunAgain n key q dest o).pool.mem = s.pool.mem := by simp [State.farunAgain]
@[simp] theorem farunTimeout_mem (s : State) (n : Nat) (p : OutReq → Bool) : (s.farunTimeout n p).pool.mem = s.pool.mem :=
  foldl_mem (fun _ _ => by split <;> simp) _ _
@[simp] theorem farunLeave_mem (s : State) (n lnode kind : Nat) : (s.farunLeave n lnode kind).pool.mem = s.pool.mem := by simp [State.farunLeave]
@[simp] theorem farunPortDown_mem (s : State) (p : Nat) : (s.farunPortDown p).pool.mem = s.pool.mem := by simp [State.farunPortDown]
@[simp] theorem farunTime_mem (s : State) (n p : Nat) (usable : Bool) (r : TimeRec) :
    (s.farunTime n p usable r).pool.mem = s.pool.mem := by simp [State.farunTime]
@[simp] theorem farunRecs_mem (s : State) (n : Nat) : (s.farunRecs n).pool.mem = s.pool.mem := by simp [State.farunRecs]
@[simp] theorem farunCtl_mem (s : State) (t : Txn) : (s.farunCtl t).pool.mem = s.pool.mem := by simp [State.farunCtl]
@[simp] theorem toFarun_mem (s : State) (p : Nat) (t : Txn) : (s.toFarun p t).pool.mem = s.pool.mem := by simp [State.toFarun]

-- What a hop does with an arriving transaction, and the heads of queues
@[simp] theorem takeIn_mem (s : State) (a : Nat) (t : Txn) : (s.takeIn a t).pool.mem = s.pool.mem := by simp [State.takeIn]
@[simp] theorem deferReq_mem (s : State) (e : QEntry) {retry : QEntry → State} (h : SameMem s (retry e)) :
    (s.deferReq e retry).pool.mem = s.pool.mem := by
  have hr : (retry e).pool.mem = s.pool.mem := h
  simp [State.deferReq, hr]
@[simp] theorem holdBehind_mem (s : State) (e : QEntry) : (s.holdBehind e).pool.mem = s.pool.mem := by simp [State.holdBehind]
@[simp] theorem arriveReq_mem (s : State) (a : Nat) (t : Txn) : (s.arriveReq a t).pool.mem = s.pool.mem := by simp [State.arriveReq]
@[simp] theorem routeOn_mem (s : State) (e : QEntry) : (s.routeOn e).pool.mem = s.pool.mem := by
  dsimp only [State.routeOn]
  split
  · simp
  split
  · simp
  split <;> simp
@[simp] theorem arriveRsp_mem (s : State) (a : Nat) (t : Txn) : (s.arriveRsp a t).pool.mem = s.pool.mem := by simp [State.arriveRsp]
@[simp] theorem cleanStatus_mem (s : State) (r : Txn) : (s.cleanStatus r).2.pool.mem = s.pool.mem := by
  unfold State.cleanStatus
  split <;> simp
@[simp] theorem enterHost_mem (s : State) (h : Nat) (e : QEntry) : (s.enterHost h e).pool.mem = s.pool.mem := by
  unfold State.enterHost
  repeat' split
  all_goals simp
@[simp] theorem headOf_mem (s : State) (egress vc : Nat) : NextKeeps s (s.headOf egress vc) := by
  unfold State.headOf
  split
  · simp
  split
  · simp
  dsimp only
  split
  · simp
  split
  · next ht => simpa using headCheck_mem ht
  split
  · simp
  · split <;> simp
@[simp] theorem sweepOld_mem (s : State) (k : Nat) : (sweepOld s k).pool.mem = s.pool.mem := by simp [sweepOld]
@[simp] theorem sweepOldLine_mem (s : State) (tile : Nat) : (sweepOldLine s tile).pool.mem = s.pool.mem := by simp [sweepOldLine]
@[simp] theorem execAccHoldExpired_mem (egress vc : Nat) (s : State) : NextKeeps s (execAccHoldExpired egress vc s) := by
  unfold execAccHoldExpired
  split
  · split <;> simp
  · split
    · simp
    · exact headOf_mem (s.setQueue _ _ _) egress vc
@[simp] theorem execAccretionTimeout_mem (tag : Nat) (s : State) : NextKeeps s (execAccretionTimeout tag s) := by
  unfold execAccretionTimeout
  split
  · simp
  · split <;> simp
@[simp] theorem accEnableWrite_mem (on : Bool) (s : State) : EffKeeps s (accEnableWrite on s) := by simp [accEnableWrite]

end Sys2Proof.Machine
end

section
/-! Pool memory under operators, departures, rack time, walks and links (R149, R153): each leaves every byte. -/

namespace Sys2Proof.Machine
open Sys2Proof

-- Operators
@[simp] theorem useFlakes_mem (s : State) (tile n : Nat) : (s.useFlakes tile n).pool.mem = s.pool.mem := by simp [State.useFlakes]
@[simp] theorem setInst_mem (s : State) (i : Nat) (st : InstState) : (s.setInst i st).pool.mem = s.pool.mem := by simp [State.setInst]
@[simp] theorem sendCol_mem (s : State) (t : Txn) : (s.sendCol t).pool.mem = s.pool.mem := by simp [State.sendCol]
@[simp] theorem sendCtl_mem (s : State) (i kind phase st : Nat) : (s.sendCtl i kind phase st).pool.mem = s.pool.mem := by simp [State.sendCtl]
@[simp] theorem orphanRun_mem (s : State) (i : Nat) : (s.orphanRun i).pool.mem = s.pool.mem := by simp [State.orphanRun]
@[simp] theorem thawStripe_mem (s : State) (e : OpsEntry) : (s.thawStripe e).pool.mem = s.pool.mem := by simp [State.thawStripe]
@[simp] theorem endLaunch_mem (s : State) (i : Nat) (st : Status) : (s.endLaunch i st).pool.mem = s.pool.mem := by simp [State.endLaunch]
@[simp] theorem runFail_mem (s : State) (i : Nat) (st : Status) : (s.runFail i st).pool.mem = s.pool.mem := by simp [State.runFail]
@[simp] theorem instAbort_mem (i : Nat) (s : State) : (instAbort i s).pool.mem = s.pool.mem := by
  unfold instAbort
  split <;> simp
@[simp] theorem rearm_mem (s : State) (i : Nat) : (s.rearm i).pool.mem = s.pool.mem := by simp [State.rearm]
@[simp] theorem startRun_mem (s : State) (i : Nat) : (s.startRun i).pool.mem = s.pool.mem := by simp [State.startRun]
@[simp] theorem runOk_mem (s : State) (i : Nat) : (s.runOk i).pool.mem = s.pool.mem := by simp [State.runOk]
@[simp] theorem releaseFlag_mem (s : State) (i : Nat) : (s.releaseFlag i).pool.mem = s.pool.mem := by simp [State.releaseFlag]
@[simp] theorem delivered_mem (s : State) (i : Nat) : (s.delivered i).pool.mem = s.pool.mem := by simp [State.delivered]
@[simp] theorem runCheck_mem (s : State) (i : Nat) : (s.runCheck i).pool.mem = s.pool.mem := by simp [State.runCheck]
@[simp] theorem writeLine_mem (s : State) (i : Nat) (x : Inst) (node : Nat) (l : Nat × List (Byte × Bool)) :
    (s.writeLine i x node l).pool.mem = s.pool.mem := by simp [State.writeLine]
@[simp] theorem sendGroup_mem (s : State) (i g : Nat) : (s.sendGroup i g).pool.mem = s.pool.mem := by simp [State.sendGroup]
@[simp] theorem emitGroup_mem (s : State) (i g : Nat) : (s.emitGroup i g).pool.mem = s.pool.mem := by simp [State.emitGroup]
@[simp] theorem announce_mem (s : State) (i : Nat) : (s.announce i).pool.mem = s.pool.mem := by simp [State.announce]
@[simp] theorem advance_mem (s : State) (i : Nat) : (s.advance i).pool.mem = s.pool.mem := by
  dsimp only [State.advance]
  split
  · simp
  split <;> simp
@[simp] theorem settleRun_mem (s : State) (i : Nat) (gs : List Nat) : (s.settleRun i gs).pool.mem = s.pool.mem := by simp [State.settleRun]
@[simp] theorem creditAll_mem (s : State) : s.creditAll.pool.mem = s.pool.mem := by simp [State.creditAll]
@[simp] theorem colDiscard_mem (s : State) : s.colDiscard.pool.mem = s.pool.mem := by simp [State.colDiscard]
@[simp] theorem catchUp_mem (s : State) (t : Txn) : (s.catchUp t).pool.mem = s.pool.mem := by simp [State.catchUp]
@[simp] theorem arriveCol_mem (s : State) (a : Nat) (t : Txn) {k : State → State} (h : ∀ u, SameMem u (k u)) :
    (s.arriveCol a t k).pool.mem = s.pool.mem := by
  have hk : ∀ u, (k u).pool.mem = u.pool.mem := h
  simp [State.arriveCol, hk]
@[simp] theorem colDataIn_mem (t : Txn) (s : State) : (State.colDataIn t s).pool.mem = s.pool.mem := by simp [State.colDataIn]
@[simp] theorem colSideIn_mem (t : Txn) (s : State) : (State.colSideIn t s).pool.mem = s.pool.mem := by simp [State.colSideIn]
@[simp] theorem colPartIn_mem (t : Txn) (s : State) : (State.colPartIn t s).pool.mem = s.pool.mem := by
  unfold State.colPartIn
  split <;> simp
@[simp] theorem abortIn_mem (t : Txn) (s : State) : (State.abortIn t s).pool.mem = s.pool.mem := by simp [State.abortIn]
@[simp] theorem creditIn_mem (t : Txn) (s : State) : (State.creditIn t s).pool.mem = s.pool.mem := by simp [State.creditIn]
@[simp] theorem execOpLaunch_mem (n : Nat) (s : State) : NextKeeps s (execOpLaunch n s) := by
  unfold execOpLaunch
  split
  · simp
  · next ht => simp [picked_mem ht]
@[simp] theorem execResultWriteResponse_mem (tag : Nat) (s : State) : NextKeeps s (execResultWriteResponse tag s) := by
  dsimp only [execResultWriteResponse]
  split
  · simp
  split
  · simp
  split <;> simp
@[simp] theorem opsSlushEntryWrite_mem (e : OpsEntry) (s : State) : EffKeeps s (opsSlushEntryWrite e s) := by simp [opsSlushEntryWrite]

-- Commands of end-points
@[simp] theorem farunCol_mem (s : State) (n : Nat) (t0 : Txn) : (s.farunCol n t0).pool.mem = s.pool.mem := by
  dsimp only [State.farunCol]
  split <;> simp
@[simp] theorem execResyncIssue_mem (unit : FarunUnit) (ctx flow dest : Nat) (s : State) : NextKeeps s (execResyncIssue unit ctx flow dest s) := by
  dsimp only [execResyncIssue]
  split
  · simp
  split <;> simp

-- Departures, withdrawals that end, management messages
@[simp] theorem restoreLanded_mem (s : State) (n : Nat) : (s.restoreLanded n).pool.mem = s.pool.mem := by simp [State.restoreLanded]
@[simp] theorem failTouching_mem (s : State) (n : Nat) : (s.failTouching n).pool.mem = s.pool.mem := by simp [State.failTouching]
@[simp] theorem restorePage_mem (s : State) (page fa : Nat) : (s.restorePage page fa).pool.mem = s.pool.mem := by
  show SameMem s _
  unfold State.restorePage
  split
  · rfl
  · split <;> simp
@[simp] theorem setBind_mem (s : State) (c : Nat) (b : Bind) : (s.setBind c b).pool.mem = s.pool.mem := (setBind_moved _ _ _).mem
@[simp] theorem dropWd_mem (s : State) (id : Nat) : (s.dropWd id).pool.mem = s.pool.mem := by simp [State.dropWd]
@[simp] theorem wdComplete_mem (s : State) (w : Withdrawal) : (s.wdComplete w).pool.mem = s.pool.mem := by
  dsimp only [State.wdComplete]
  repeat' split
  all_goals simp
@[simp] theorem wdDone_mem (s : State) (n id : Nat) : (s.wdDone n id).pool.mem = s.pool.mem := by
  unfold State.wdDone
  split <;> simp
@[simp] theorem wdAbsent_mem (s : State) (n : Nat) : (s.wdAbsent n).pool.mem = s.pool.mem := by simp [State.wdAbsent]
@[simp] theorem tableDone_mem (s : State) (n : Nat) : (s.tableDone n).pool.mem = s.pool.mem := by simp [State.tableDone]
@[simp] theorem applyLeave_mem (s : State) (n kind uid slot : Nat) : (s.applyLeave n kind uid slot).pool.mem = s.pool.mem := by
  unfold State.applyLeave
  split
  · split <;> simp
  · simp
@[simp] theorem applyReturn_mem (s : State) (from_ n uid slot : Nat) : (s.applyReturn from_ n uid slot).pool.mem = s.pool.mem := by simp [State.applyReturn]
@[simp] theorem sendLeave_mem (s : State) (nodes : List Nat) (kind uid : Nat) : (s.sendLeave nodes kind uid).pool.mem = s.pool.mem := by simp [State.sendLeave]
@[simp] theorem declareLeave_mem (s : State) (nodes : List Nat) (kind uid : Nat) :
    (s.declareLeave nodes kind uid).pool.mem = s.pool.mem := by simp [State.declareLeave]
@[simp] theorem declareReturn_mem (s : State) (nodes : List Nat) (uid : Nat) :
    (s.declareReturn nodes uid).pool.mem = s.pool.mem := by simp [State.declareReturn]
@[simp] theorem arriveMgt_mem (s : State) (a : Nat) (t : Txn) {k : State → State} (h : ∀ u, SameMem u (k u)) :
    (s.arriveMgt a t k).pool.mem = s.pool.mem := by
  have hk : ∀ u, (k u).pool.mem = u.pool.mem := h
  simp [State.arriveMgt, hk]
@[simp] theorem mgtDiscard_mem (s : State) : s.mgtDiscard.pool.mem = s.pool.mem := by simp [State.mgtDiscard]
@[simp] theorem answerTable_mem (s : State) (n : Nat) : (s.answerTable n).pool.mem = s.pool.mem := by simp [State.answerTable]
@[simp] theorem askTable_mem (s : State) : s.askTable.pool.mem = s.pool.mem := by simp [State.askTable]
@[simp] theorem askAgain_mem (s : State) (n : Nat) : (s.askAgain n).pool.mem = s.pool.mem := by simp [State.askAgain]
@[simp] theorem execMgtMsg_mem (adm : Nat) (t : Txn) (s : State) : NextKeeps s (execMgtMsg adm t s) := by
  refine (nextKeeps_next _ _).mpr (arriveMgt_mem _ _ _ fun u => ?_)
  split
  · simp
  split
  case h_10 =>
    dsimp only
    split <;> simp
  all_goals simp
@[simp] theorem sendCtxAck_mem (s : State) (c : Nat) : (s.sendCtxAck c).pool.mem = s.pool.mem := by simp [State.sendCtxAck]
@[simp] theorem bundleLoadChecked_mem (rec_ : Nat) (s : State) : EffKeeps s (bundleLoadChecked rec_ s) := by simp [bundleLoadChecked]

-- Rack time
@[simp] theorem setQuality_mem (s : State) (q : Quality) : (s.setQuality q).pool.mem = s.pool.mem := by simp [State.setQuality]
@[simp] theorem refLoss_mem (s : State) : s.refLoss.pool.mem = s.pool.mem := by
  unfold State.refLoss
  split <;> simp
@[simp] theorem stepTo_mem (s : State) (target : Nat) : (s.stepTo target).pool.mem = s.pool.mem := by simp [State.stepTo]
@[simp] theorem slewBy_mem (s : State) (off : Int) : (s.slewBy off).pool.mem = s.pool.mem := by simp [State.slewBy]
@[simp] theorem correct_mem (s : State) (off : Int) (target bound : Nat) : (s.correct off target bound).pool.mem = s.pool.mem := by simp [State.correct]
@[simp] theorem refPresent_mem (s : State) : s.refPresent.pool.mem = s.pool.mem := by simp [State.refPresent]
@[simp] theorem marked4_mem (s : State) (n : Nat) : (s.marked4 n).pool.mem = s.pool.mem := by simp [State.marked4]
@[simp] theorem rejectMark_mem (s : State) : s.rejectMark.pool.mem = s.pool.mem := by simp [State.rejectMark]
@[simp] theorem applySet_mem (s : State) (e : Nat) : (s.applySet e).pool.mem = s.pool.mem := by simp [State.applySet]
@[simp] theorem pulseAcquiring_mem (s : State) : s.pulseAcquiring.pool.mem = s.pool.mem := by simp [State.pulseAcquiring]
@[simp] theorem pulseLocked_mem (s : State) : s.pulseLocked.pool.mem = s.pool.mem := by simp [State.pulseLocked]
@[simp] theorem pulseHoldover_mem (s : State) : s.pulseHoldover.pool.mem = s.pool.mem := by simp [State.pulseHoldover]
@[simp] theorem pulseUnlocked_mem (s : State) : s.pulseUnlocked.pool.mem = s.pool.mem := by simp [State.pulseUnlocked]
@[simp] theorem execEpochPulse_mem (highNs : Nat) (s : State) : NextKeeps s (execEpochPulse highNs s) := by
  dsimp only [execEpochPulse]
  split
  · simp
  split
  · simp
  split
  · simp
  split <;> simp
@[simp] theorem rtSetWrite_mem (e : Nat) (s : State) : EffKeeps s (rtSetWrite e s) := by simp [rtSetWrite]
@[simp] theorem rtSourceWrite_mem (src : Nat) (s : State) : EffKeeps s (rtSourceWrite src s) := by simp [rtSourceWrite]
@[simp] theorem rtSrcPortWrite_mem (p : Nat) (s : State) : EffKeeps s (rtSrcPortWrite p s) := by simp [rtSrcPortWrite]
@[simp] theorem follow_mem (s : State) (r : TimeRec) : (s.follow r).pool.mem = s.pool.mem := by simp [State.follow]
@[simp] theorem recUnlocked_mem (s : State) (r : TimeRec) (derived : Nat) : (s.recUnlocked r derived).pool.mem = s.pool.mem := by simp [State.recUnlocked]
@[simp] theorem recSource_mem (s : State) (r : TimeRec) (derived : Nat) : (s.recSource r derived).pool.mem = s.pool.mem := by
  unfold State.recSource
  split <;> simp
@[simp] theorem recUntimed_mem (s : State) (r : TimeRec) : (s.recUntimed r).pool.mem = s.pool.mem := by
  unfold State.recUntimed
  split <;> simp
@[simp] theorem execTime_mem (p : Nat) (r : TimeRec) (s : State) : NextKeeps s (execTime p r s) := by
  dsimp only [execTime]
  split
  · simp
  split
  · simp
  split <;> simp
@[simp] theorem sendTime_mem (s : State) (p : Nat) : (s.sendTime p).pool.mem = s.pool.mem := by
  unfold State.sendTime
  split
  · split <;> simp
  · simp
@[simp] theorem rtResumeWrite_mem (slot : Nat) (s : State) : EffKeeps s (rtResumeWrite slot s) := by simp [rtResumeWrite]

-- Walks
@[simp] theorem ctxBindWrite_mem (c rec_ : Nat) (s : State) : EffKeeps s (ctxBindWrite c rec_ s) := by simp [ctxBindWrite]
@[simp] theorem withdrawWrite_mem (rec_ : Nat) (s : State) : EffKeeps s (withdrawWrite rec_ s) := by simp [withdrawWrite]
@[simp] theorem execWithdrawalNotice_mem (home : Nat) (id : Nat) (form : Bool) (ctx base len2m xgen : Nat) (bind : Option Nat) (s : State) :
    NextKeeps s (execWithdrawalNotice home id form ctx base len2m xgen bind s) := by
  dsimp only [execWithdrawalNotice]
  split
  · simp
  split <;> simp
@[simp] theorem execDoneNoticeSend_mem (home id : Nat) (s : State) : NextKeeps s (execDoneNoticeSend home id s) := by
  unfold execDoneNoticeSend
  split <;> simp
@[simp] theorem silent_mem (s : State) (w : Withdrawal) (n : Nat) : (s.silent w n).pool.mem = s.pool.mem := by simp [State.silent]
@[simp] theorem execWithdrawalTimeout_mem (id : Nat) (s : State) : NextKeeps s (execWithdrawalTimeout id s) := by
  unfold execWithdrawalTimeout
  split <;> simp
@[simp] theorem execNotifyStoreResponse_mem (tag : Nat) (s : State) : NextKeeps s (execNotifyStoreResponse tag s) := by
  unfold execNotifyStoreResponse
  repeat' split
  all_goals simp
@[simp] theorem admitWaits_mem (s : State) (d : Nat) : (s.admitWaits d).pool.mem = s.pool.mem := by
  refine foldl_mem (fun t m => ?_) _ _
  split
  · rfl
  split
  · rfl
  dsimp only
  split
  · rfl
  · exact (addMiss_getD_xlated _ _ _).moved.mem
@[simp] theorem execWalkStart_mem (w : Nat) (s : State) : NextKeeps s (execWalkStart w s) := by
  unfold execWalkStart
  split
  · simp
  · dsimp only
    split <;> simp
@[simp] theorem execWalkEntryRead_mem (tag : Nat) (s : State) : NextKeeps s (execWalkEntryRead tag s) := by
  dsimp only [execWalkEntryRead]
  split
  · simp
  split
  · split <;> simp
  · simp
@[simp] theorem execWalkTimeout_mem (w : Nat) (s : State) : NextKeeps s (execWalkTimeout w s) := by
  unfold execWalkTimeout
  split <;> simp
@[simp] theorem execAtsCompletion_mem (w : Nat) (addr size : Nat) (r wr u : Bool) (s : State) : NextKeeps s (execAtsCompletion w addr size r wr u s) := by
  unfold execAtsCompletion
  split <;> simp
@[simp] theorem nextPage_mem (s : State) (h : Nat) : (s.nextPage h).pool.mem = s.pool.mem := by simp [State.nextPage]
@[simp] theorem execMovingReread_mem (w : Nat) (s : State) : NextKeeps s (execMovingReread w s) := by
  unfold execMovingReread
  split
  · split <;> simp
  · simp
@[simp] theorem execAtsInvalidate_mem (h pasid itag : Nat) (base len2m : Nat) (s : State) : NextKeeps s (execAtsInvalidate h pasid itag base len2m s) := by
  unfold execAtsInvalidate
  split <;> simp

-- Links and ports
@[simp] theorem filterRx_mem (s : State) : s.filterRx.pool.mem = s.pool.mem := by simp [State.filterRx]
@[simp] theorem toPort_mem (s : State) (p : Nat) (st : PortState) (self : Bool) (f : Port → Port) :
    (s.toPort p st self f).pool.mem = s.pool.mem := by simp [State.toPort]
@[simp] theorem modLanes_mem (s : State) (p : Nat) (f : Nat → Lane → Lane) : (s.modLanes p f).pool.mem = s.pool.mem := by simp [State.modLanes]
@[simp] theorem lanesOff_mem (s : State) (p : Nat) : (s.lanesOff p).pool.mem = s.pool.mem := by simp [State.lanesOff]
@[simp] theorem toDetect_mem (s : State) (p n : Nat) (self : Bool) : (s.toDetect p n self).pool.mem = s.pool.mem := by simp [State.toDetect]
@[simp] theorem attempt_mem (s : State) (p : Nat) : (s.attempt p).pool.mem = s.pool.mem := by simp [State.attempt]
@[simp] theorem logDown_mem (s : State) (p cause : Nat) : (s.logDown p cause).pool.mem = s.pool.mem := by simp [State.logDown]
@[simp] theorem sendTrain_mem (s : State) (p : Nat) : (s.sendTrain p).pool.mem = s.pool.mem := by simp [State.sendTrain]
@[simp] theorem toExchange_mem (s : State) (p : Nat) : (s.toExchange p).pool.mem = s.pool.mem := by simp [State.toExchange]
@[simp] theorem noteGiven_mem (s : State) (p : Nat) : (s.noteGiven p).pool.mem = s.pool.mem := by simp [State.noteGiven]
@[simp] theorem emitCap_mem (s : State) (p : Nat) : (s.emitCap p).pool.mem = s.pool.mem := by
  unfold State.emitCap
  split <;> simp
@[simp] theorem sendCap_mem (s : State) (p : Nat) : (s.sendCap p).pool.mem = s.pool.mem := by simp [State.sendCap]
@[simp] theorem emitFrags_mem (s : State) (p mseq : Nat) (b : Bytes) : (s.emitFrags p mseq b).pool.mem = s.pool.mem := by simp [State.emitFrags]
@[simp] theorem sendSpdm_mem (s : State) (p : Nat) (b : Bytes) : (s.sendSpdm p b).pool.mem = s.pool.mem := by simp [State.sendSpdm]
@[simp] theorem startSession_mem (s : State) (p : Nat) : (s.startSession p).pool.mem = s.pool.mem := by simp [State.startSession]
@[simp] theorem sessionFail_mem (s : State) (p : Nat) : (s.sessionFail p).pool.mem = s.pool.mem := by simp [State.sessionFail]
@[simp] theorem sessionUp_mem (s0 : State) (p : Nat) : (s0.sessionUp p).pool.mem = s0.pool.mem := by simp [State.sessionUp]
@[simp] theorem grantFloors_mem (s : State) (p : Nat) : (s.grantFloors p).pool.mem = s.pool.mem := by simp [State.grantFloors]
@[simp] theorem farunRenumber_mem (s : State) (n : Nat) : (s.farunRenumber n).pool.mem = s.pool.mem := by simp [State.farunRenumber]
@[simp] theorem attachFarun_mem (s : State) (p node : Nat) (c : CapFrame) : (s.attachFarun p node c).pool.mem = s.pool.mem := by simp [State.attachFarun]
@[simp] theorem farunRegive_mem (s : State) : s.farunRegive.pool.mem = s.pool.mem := by simp [State.farunRegive]
@[simp] theorem partnerBack_mem (s : State) (p : Nat) : (s.partnerBack p).pool.mem = s.pool.mem := by
  unfold State.partnerBack
  split <;> simp
@[simp] theorem enterService_mem (s : State) (p : Nat) : (s.enterService p).pool.mem = s.pool.mem := by simp [State.enterService]
@[simp] theorem tryService_mem (s : State) (p : Nat) : (s.tryService p).pool.mem = s.pool.mem := by simp [State.tryService]
@[simp] theorem emitResult_mem (s : State) (p i : Nat) (c : Nat × Nat) : (s.emitResult p i c).pool.mem = s.pool.mem := by simp [State.emitResult]
@[simp] theorem recordTest_mem (s : State) (p i res : Nat) (c : Nat × Nat) : (s.recordTest p i res c).pool.mem = s.pool.mem := by simp [State.recordTest]
@[simp] theorem abortTest_mem (s : State) (p : Nat) : (s.abortTest p).pool.mem = s.pool.mem := by
  unfold State.abortTest
  split <;> simp
@[simp] theorem widen_mem (s : State) (p mask : Nat) : (s.widen p mask).pool.mem = s.pool.mem := by simp [State.widen]
@[simp] theorem judgeLane_mem (s : State) (p i : Nat) : (s.judgeLane p i).pool.mem = s.pool.mem := by
  unfold State.judgeLane
  split
  · simp
  split <;> simp
@[simp] theorem sendResults_mem (s : State) (p : Nat) : (s.sendResults p).pool.mem = s.pool.mem := by
  unfold State.sendResults
  split <;> simp
@[simp] theorem enterLinked_mem (s : State) (p : Nat) (lim : Bool) : (s.enterLinked p lim).pool.mem = s.pool.mem := by simp [State.enterLinked]
@[simp] theorem rateDone_mem (s : State) (p : Nat) : (s.rateDone p).pool.mem = s.pool.mem := by simp [State.rateDone]
@[simp] theorem rateFailed_mem (s : State) (p : Nat) : (s.rateFailed p).pool.mem = s.pool.mem := by simp [State.rateFailed]
@[simp] theorem countMelt_mem (s : State) (cls : Nat) : (s.countMelt cls).pool.mem = s.pool.mem := by simp [State.countMelt]
@[simp] theorem downEntry_mem (p : Nat) (s : State) (e : QEntry) : (State.downEntry p s e).pool.mem = s.pool.mem := by
  unfold State.downEntry
  split
  · split <;> simp
  · simp
  · split <;> simp
  · simp
  · simp
@[simp] theorem downFlit_mem (s : State) (f : RetryFlit) : (s.downFlit f).pool.mem = s.pool.mem := by
  unfold State.downFlit
  split <;> simp
@[simp] theorem partnerGone_mem (s : State) (p : Nat) : (s.partnerGone p).pool.mem = s.pool.mem := by
  dsimp only [State.partnerGone]
  split <;> simp
@[simp] theorem portDown_mem (s : State) (p cause : Nat) (self : Bool) (to_ : PortState) :
    (s.portDown p cause self to_).pool.mem = s.pool.mem := by simp [State.portDown]
@[simp] theorem retrainPort_mem (s : State) (p : Nat) (self : Bool) : (s.retrainPort p self).pool.mem = s.pool.mem := by
  unfold State.retrainPort
  split <;> simp
@[simp] theorem askMask_mem (s : State) (p mask : Nat) : (s.askMask p mask).pool.mem = s.pool.mem := by simp [State.askMask]
@[simp] theorem maskSettled_mem (s : State) (p : Nat) : (s.maskSettled p).pool.mem = s.pool.mem := by
  dsimp only [State.maskSettled]
  repeat' split
  all_goals simp
@[simp] theorem useMask_mem (s : State) (p mask : Nat) : (s.useMask p mask).pool.mem = s.pool.mem := by simp [State.useMask]
@[simp] theorem laneFaulty_mem (s : State) (l : Nat) : (s.laneFaulty l).pool.mem = s.pool.mem := by simp [State.laneFaulty]
@[simp] theorem startGroup_mem (s : State) (g : Nat) : (s.startGroup g).pool.mem = s.pool.mem := by simp [State.startGroup]
@[simp] theorem fullCheck_mem (s : State) : s.fullCheck.pool.mem = s.pool.mem := by simp [State.fullCheck]
@[simp] theorem stepOn_mem (n : Nat) (s : State) : (stepOn n s).pool.mem = s.pool.mem := by
  induction n generalizing s with
  | zero => rfl
  | succ n ih =>
    rw [stepOn]
    split
    · rfl
    · simp [ih]
@[simp] theorem stepCheck_mem (s : State) : s.stepCheck.pool.mem = s.pool.mem := by simp [State.stepCheck]
@[simp] theorem replay_mem (s : State) (p : Nat) : (s.replay p).pool.mem = s.pool.mem := by simp [State.replay]
@[simp] theorem lcbIn_mem (s : State) (p lcb : Nat) : (s.lcbIn p lcb).pool.mem = s.pool.mem := by simp [State.lcbIn]
@[simp] theorem sendAck_mem (s : State) (p : Nat) (nak : Bool) : (s.sendAck p nak).pool.mem = s.pool.mem := by simp [State.sendAck]
@[simp] theorem sendFlit_mem (s : State) (p : Nat) (tag : Bool) (body : Bytes) (t : Option Txn) :
    (s.sendFlit p tag body t).pool.mem = s.pool.mem := by simp [State.sendFlit]
@[simp] theorem closeGroup_mem (s : State) (p : Nat) : (s.closeGroup p).pool.mem = s.pool.mem := by simp [State.closeGroup]
@[simp] theorem sendWords_mem (n p : Nat) (ws : List Nat) (t : Option Txn) (s : State) : (sendWords n p ws t s).pool.mem = s.pool.mem := by
  induction n generalizing ws s with
  | zero => rfl
  | succ n ih => simp [sendWords, ih]
@[simp] theorem transmit_mem (s : State) (p : Nat) : (s.transmit p).pool.mem = s.pool.mem := by
  unfold State.transmit
  split
  · simp
  split <;> simp

end Sys2Proof.Machine
end

section
/-! The commands that store nothing to the pool (R149, R153, R154). -/

namespace Sys2Proof.Machine
open Sys2Proof

-- Commands of links
@[simp] theorem portEnableWrite_mem (p : Nat) (on : Bool) (s : State) : EffKeeps s (portEnableWrite p on s) := by
  unfold portEnableWrite
  split
  · simp
  split <;> simp
@[simp] theorem retrainWrite_mem (p : Nat) (s : State) : EffKeeps s (retrainWrite p s) := by simp [retrainWrite]
@[simp] theorem testWrite_mem (p : Nat) (s : State) : EffKeeps s (testWrite p s) := by simp [testWrite]
@[simp] theorem rewidenWrite_mem (p : Nat) (s : State) : EffKeeps s (rewidenWrite p s) := by simp [rewidenWrite]
@[simp] theorem laneSlipWrite_mem (l value : Nat) (s : State) : EffKeeps s (laneSlipWrite l value s) := by simp [laneSlipWrite]
@[simp] theorem laneCtlWrite_mem (l value : Nat) (s : State) : EffKeeps s (laneCtlWrite l value s) := by
  unfold laneCtlWrite
  split <;> simp
@[simp] theorem execEyeScanComplete_mem (l eye vstep width height : Nat) (errors : List Nat) (s : State) :
    NextKeeps s (execEyeScanComplete l eye vstep width height errors s) := by
  unfold execEyeScanComplete
  split <;> simp
@[simp] theorem lockCheck_mem (s : State) (p : Nat) : (s.lockCheck p).pool.mem = s.pool.mem := by simp [State.lockCheck]
@[simp] theorem execTrainingTimeout_mem (p : Nat) (s : State) : NextKeeps s (execTrainingTimeout p s) := by
  dsimp only [execTrainingTimeout]
  split <;> simp
@[simp] theorem newPartner_mem (s : State) (p : Nat) (f : CapFrame) : (s.newPartner p f).pool.mem = s.pool.mem := by simp [State.newPartner]
@[simp] theorem noteLeaving_mem (s : State) (p : Nat) (f : CapFrame) : (s.noteLeaving p f).pool.mem = s.pool.mem := by simp [State.noteLeaving]
@[simp] theorem nextKeys_mem (s : State) (p : Nat) : (s.nextKeys p).pool.mem = s.pool.mem := by simp [State.nextKeys]
@[simp] theorem linkAnswer_mem (s : State) (p code : Nat) : (s.linkAnswer p code).pool.mem = s.pool.mem := by
  dsimp only [State.linkAnswer]
  split
  · split <;> simp
  · simp
@[simp] theorem linkSpdm_mem (s : State) (p : Nat) (msg : Bytes) : (s.linkSpdm p msg).pool.mem = s.pool.mem := by
  dsimp only [State.linkSpdm]
  repeat' split
  all_goals simp
@[simp] theorem execSpdm_mem (p : Nat) (f : Frag) (s : State) : NextKeeps s (execSpdm p f s) := by
  dsimp only [execSpdm]
  split
  · simp
  split <;> simp
@[simp] theorem execSpdmAck_mem (p mseq : Nat) (s : State) : NextKeeps s (execSpdmAck p mseq s) := by
  unfold execSpdmAck
  split
  · simp
  split <;> simp
@[simp] theorem execSpdmRepeat_mem (p : Nat) (s : State) : NextKeeps s (execSpdmRepeat p s) := by
  unfold execSpdmRepeat
  split <;> simp
@[simp] theorem execNarrow_mem (p mask : Nat) (ack : Bool) (_sw : Nat) (s : State) : NextKeeps s (execNarrow p mask ack _sw s) := by
  dsimp only [execNarrow]
  split
  · simp
  split
  · split <;> simp
  · split <;> simp
@[simp] theorem execNarrowRepeat_mem (p : Nat) (s : State) : NextKeeps s (execNarrowRepeat p s) := by
  unfold execNarrowRepeat
  split <;> simp
@[simp] theorem execNarrowSwitch_mem (p : Nat) (s : State) : NextKeeps s (execNarrowSwitch p s) := by
  unfold execNarrowSwitch
  split <;> simp
@[simp] theorem execNarrowTimeout_mem (p : Nat) (s : State) : NextKeeps s (execNarrowTimeout p s) := by
  unfold execNarrowTimeout
  split <;> simp
@[simp] theorem execDiagAck_mem (p mask : Nat) (s : State) : NextKeeps s (execDiagAck p mask s) := by
  unfold execDiagAck
  split
  · simp
  split <;> simp
@[simp] theorem stopTest_mem (s : State) (p : Nat) : (s.stopTest p).pool.mem = s.pool.mem := by
  unfold State.stopTest
  split <;> simp
@[simp] theorem execDiagAckTimeout_mem (p : Nat) (s : State) : NextKeeps s (execDiagAckTimeout p s) := by
  unfold execDiagAckTimeout
  split <;> simp
@[simp] theorem execDiagStop_mem (p : Nat) (s : State) : NextKeeps s (execDiagStop p s) := by
  unfold execDiagStop
  split
  · simp
  split <;> simp
@[simp] theorem execDiagResult_mem (p l bits errs : Nat) (s : State) : NextKeeps s (execDiagResult p l bits errs s) := by
  unfold execDiagResult
  split
  · simp
  split <;> simp
@[simp] theorem execDiagResultTimeout_mem (p l : Nat) (s : State) : NextKeeps s (execDiagResultTimeout p l s) := by
  unfold execDiagResultTimeout
  split <;> simp
@[simp] theorem execTestEnd_mem (p : Nat) (counts : List (Nat × Nat)) (s : State) : NextKeeps s (execTestEnd p counts s) := by
  unfold execTestEnd
  split <;> simp
@[simp] theorem execEyeScanWindow_mem (k : Nat) (s : State) : NextKeeps s (execEyeScanWindow k s) := by
  unfold execEyeScanWindow
  split <;> simp
@[simp] theorem windowTest_mem (e : EventEnt) (s : State) (p : Nat) : (State.windowTest e s p).pool.mem = s.pool.mem := by
  dsimp only [State.windowTest]
  split
  · simp
  split
  · simp
  split
  · simp
  split <;> simp
@[simp] theorem execBitErrorWindow_mem (k : Nat) (s : State) : NextKeeps s (execBitErrorWindow k s) := by
  unfold execBitErrorWindow
  split <;> simp
@[simp] theorem execBitErrorWindowEnd_mem (p l bits errs : Nat) (s : State) : NextKeeps s (execBitErrorWindowEnd p l bits errs s) := by
  unfold execBitErrorWindowEnd
  split <;> simp
@[simp] theorem scrubErr_mem (mask : Nat) (s : State) (e : ScrubErr) : (scrubErr mask s e).pool.mem = s.pool.mem := by
  unfold scrubErr
  split <;> simp
@[simp] theorem scrubOn_mem (n : Nat) (s : State) (k : Nat) : (State.scrubOn n s k).pool.mem = s.pool.mem := by simp [State.scrubOn]
@[simp] theorem execScrubWindow_mem (k lines : Nat) (errs : List ScrubErr) (s : State) : NextKeeps s (execScrubWindow k lines errs s) := by
  unfold execScrubWindow
  split <;> simp

-- Images and windows
@[simp] theorem toBank_mem (s : State) (st : BankState) (self : Bool) (f : Tables → Tables) :
    (s.toBank st self f).pool.mem = s.pool.mem := by simp [State.toBank]
@[simp] theorem noteSegment_mem (s : State) (sess : Nat) (f : VFrame) (bytes : Bytes) :
    (s.noteSegment sess f bytes).pool.mem = s.pool.mem := by simp [State.noteSegment]
@[simp] theorem fillBank_mem (s : State) (sess : Nat) (f : VFrame) : (s.fillBank sess f).pool.mem = s.pool.mem := by simp [State.fillBank]
@[simp] theorem imageWrite_mem (s : State) (sess : Nat) (f : VFrame) : (s.imageWrite sess f).pool.mem = s.pool.mem := by
  unfold State.imageWrite
  split <;> simp
@[simp] theorem doSwitch_mem (s : State) (slot : Nat) : (s.doSwitch slot).pool.mem = s.pool.mem := by simp [State.doSwitch]
@[simp] theorem tblArmWrite_mem (slot version : Nat) (s : State) : EffKeeps s (tblArmWrite slot version s) := by simp [tblArmWrite]
@[simp] theorem tblCancelWrite_mem (version : Nat) (s : State) : EffKeeps s (tblCancelWrite version s) := by
  unfold tblCancelWrite
  split <;> simp

-- Phases and thermal stages
@[simp] theorem enterSlush_mem (s : State) : s.enterSlush.pool.mem = s.pool.mem := by simp [State.enterSlush]
@[simp] theorem leaveStrap_mem (s : State) : s.leaveStrap.pool.mem = s.pool.mem := by simp [State.leaveStrap]
@[simp] theorem enterDrain_mem (s : State) (self : Bool) : (s.enterDrain self).pool.mem = s.pool.mem := by simp [State.enterDrain]
@[simp] theorem leaveOwn_mem (s : State) (kind : Nat) : (s.leaveOwn kind).pool.mem = s.pool.mem := by simp [State.leaveOwn]
@[simp] theorem execDrain_mem (v : VCtx) (s : State) : NextKeeps s (execDrain v s) := by simp [execDrain, devCtlWrite]
@[simp] theorem trainFail_mem (s : State) (k : Nat) : (s.trainFail k).pool.mem = s.pool.mem := by simp [State.trainFail]
@[simp] theorem trainStack_mem (failed : List Nat) (s : State) (k : Nat) : (State.trainStack failed s k).pool.mem = s.pool.mem := by simp [State.trainStack]
theorem toStage_mem (s : State) {st : Thermal} (h : st ≠ .drain) : (s.toStage st).pool.mem = s.pool.mem := by simp [State.toStage, h]
theorem raiseStage_mem (s : State) {st : Thermal} (h : st ≠ .drain) : (s.raiseStage st).pool.mem = s.pool.mem := by
  simp [State.raiseStage, toStage_mem _ h]
@[simp] theorem thmFlowSet_mem (flow : Nat) (s : State) : EffKeeps s (thmFlowSet flow s) := by simp [thmFlowSet]
@[simp] theorem execFlowLowExpired_mem (s : State) : NextKeeps s (execFlowLowExpired s) := by simp [execFlowLowExpired, raiseStage_mem]
@[simp] theorem execStageHoldExpired_mem (s : State) : NextKeeps s (execStageHoldExpired s) := by
  unfold execStageHoldExpired
  split
  · split <;> simp [toStage_mem]
  · simp
@[simp] theorem execThermalTrip_mem (tj : Int) (s : State) : NextKeeps s (execThermalTrip tj s) := by simp [execThermalTrip, toStage_mem]
theorem takeEntry_mem {s t : State} {q pos : Nat} {e : QEntry} (h : s.takeEntry q pos = some (e, t)) : t.pool.mem = s.pool.mem := by
  obtain ⟨_, _, he⟩ := Option.map_eq_some_iff.mp h
  cases he
  rfl
@[simp] theorem sramAnswer_mem (s : State) (l : SramLoc) : (s.sramAnswer l).pool.mem = s.pool.mem := by
  unfold State.sramAnswer
  split
  · split
    · next ht => simp [takeEntry_mem ht]
    · rfl
  · split
    · next ht => simp [takeEntry_mem ht]
    · rfl
  · split
    · next ht => simp [takeEntry_mem ht]
    · rfl
  · simp
  · simp
  · simp
  · split
    · next ht =>
      split
      · simp [takeEntry_mem ht]
      · rfl
    · rfl
  · simp
@[simp] theorem measurePower_mem (s : State) : s.measurePower.pool.mem = s.pool.mem := by simp [State.measurePower]

-- Commands of the pool
@[simp] theorem execDriftScan_mem (s : State) : NextKeeps s (execDriftScan s) := by
  unfold execDriftScan
  split <;> simp
@[simp] theorem execDriftCopyDone_mem (mv : Nat) (s : State) : NextKeeps s (execDriftCopyDone mv s) := by
  unfold execDriftCopyDone
  split <;> simp
@[simp] theorem execDriftRelease_mem (mv : Nat) (s : State) : NextKeeps s (execDriftRelease mv s) := by
  unfold execDriftRelease
  split <;> simp
@[simp] theorem driftEnableWrite_mem (on : Bool) (s : State) : EffKeeps s (driftEnableWrite on s) := by simp [driftEnableWrite]
@[simp] theorem driftLandReleaseWrite_mem (fa : Nat) (s : State) : EffKeeps s (driftLandReleaseWrite fa s) := by simp [driftLandReleaseWrite]
@[simp] theorem poolBackptrWrite_mem (page entry : Nat) (s : State) : EffKeeps s (poolBackptrWrite page entry s) := by simp [poolBackptrWrite]
@[simp] theorem execExtRelease_mem (v : VCtx) (e : Nat) (s : State) : NextKeeps s (execExtRelease v e s) := by simp [execExtRelease, extCtlWrite]
@[simp] theorem extGrantsWrite_mem (e rec_ : Nat) (s : State) : EffKeeps s (extGrantsWrite e rec_ s) := by simp [extGrantsWrite]
@[simp] theorem extRevokeWrite_mem (e g : Nat) (s : State) : EffKeeps s (extRevokeWrite e g s) := by simp [extRevokeWrite]
@[simp] theorem stackCtlWrite_mem (k value : Nat) (s : State) : EffKeeps s (stackCtlWrite k value s) := by simp [stackCtlWrite]

-- Epoch records
@[simp] theorem epochAccept_mem (u : EUnit) (s : State) : (epochAccept u s).pool.mem = s.pool.mem := by simp [epochAccept]

-- SPDM and DOE
@[simp] theorem spdmSay_mem (s : State) (ch : SpdmChan) (code : Nat) (body : List Nat) :
    (s.spdmSay ch code body).pool.mem = s.pool.mem := by simp [State.spdmSay]
@[simp] theorem spdmError_mem (s : State) (ch : SpdmChan) (err : Nat) : (s.spdmError ch err).pool.mem = s.pool.mem := by simp [State.spdmError]
@[simp] theorem closeSession_mem (s : State) (i : Nat) : (s.closeSession i).pool.mem = s.pool.mem := by simp [State.closeSession]
@[simp] theorem keyExchange_mem (s : State) (ch : SpdmChan) (leaf : Nat) (auth : Bool) : (s.keyExchange ch leaf auth).pool.mem = s.pool.mem := by
  unfold State.keyExchange
  split
  · simp
  split <;> simp
@[simp] theorem spdmFinish_mem (s : State) (ch : SpdmChan) (i proof : Nat) : (s.spdmFinish ch i proof).pool.mem = s.pool.mem := by
  unfold State.spdmFinish
  split <;> simp
@[simp] theorem vendorRequest_mem (s : State) (ch : SpdmChan) (i payload len : Nat) :
    (s.vendorRequest ch i payload len).pool.mem = s.pool.mem := by simp [State.vendorRequest]
@[simp] theorem spdmServe_mem (s : State) (ch : SpdmChan) (r : SpdmReq) : (s.spdmServe ch r).pool.mem = s.pool.mem := by
  unfold State.spdmServe
  repeat' split
  all_goals simp
@[simp] theorem ideKm_mem (s : State) (h stream : Nat) (secure : Bool) : (s.ideKm h stream secure).pool.mem = s.pool.mem := by simp [State.ideKm]
@[simp] theorem execDoeRequest_mem (h len : Nat) (r : DoeReq) (s : State) : NextKeeps s (execDoeRequest h len r s) := by
  unfold execDoeRequest
  repeat' split
  all_goals simp

/-- No command outside the list of `mayStore` stores to the pool: its next state holds the same bytes. -/
theorem exec_mem (c : Instr) (s : State) (hc : mayStore c = false) : NextKeeps s (exec c s) := by
  cases c with
  | lineQueueHead | memRd | memWr | rwd | biTimeout | birsp | data | tag | responseAtRequester | requestTimeout | coldReset | railsOutOfTolerance |
    warmReset | packageReset | poolInitDone | holeZeroed | extActivate | read | write | describe | mailboxGo | hostLinkDown | hpRefclkLost |
    declareDead | drainEnd | powerOffAfterExpired | tjSample => cases hc
  | _ =>
    simp [exec, execEpochRecordWrite, execSegmentTimeout, execSettleTimeout, execMctpAssemblyTimeout, execArpRequest, execNeighbourSolicitation, execIcmpEcho,
      execSpdmRequest, execBkeyDeliver, execColdResetRelease, execStrapSample, execFirmwareAuthenticated, execRoleStrapChanged,
      execPowerWarnNAsserted, execHbmTrainingDone, execThmFlowWrite, execFlowStale, execSramUe, execRefclkLost, execRefclkPresent,
      execEpochPulseMissing, execRtSet, execRtSource, execRtSrcPort, execTimeRecordMissing, execEpochStart, execHoldoverLimit, execRtResumeSlot,
      execScheduledResume, execTblImage, execImageCheckDone, execTblArm, execTblCancel, execSwitchOver, execBankRetired, execTelemetrySnapshot,
      execPortEnable, execPortCtlRetrain, execPortTest, execRewiden, execLaneSlip, execLaneScan, execRebase, execSignalDetected, execLaneLock,
      execDeskew, execTrain, execTrainRepeat, execEqualiseConverged, execVerifyEnd, execCap, execCapRepeat, execJoiningWaitEnd, execIdle,
      execNakRepeat, execReplayTimeout, execAckTimeout, execCreditRefresh, execKeyUpdate, execLaneFault, execSerWindow, execSignalLost,
      execDownIdleEnd, execRetrain, execDiagStart, execDiagResultRepeat, execRd, execWr, execAtom, execResync, execBisnp, execRspData, execRspAtom,
      execRspDone, execQueueHead, execMeltSweep, execPortTransmit, execRepinWindowEnd, execAccEnable, execNodeLeave, execFence, execFarunIssue,
      execRingEnable, execRingDisable, execRingConfigure, execRestart, execTail, execCmplHead, execRingDrainEnd, execCtxBind, execWithdrawContext,
      execWithdrawFa, execDoneNotice, execHoldExpired, execPrgResponse, execSlowWaitExpired, execAtsEnableCleared, execDriftEnable,
      execDriftLandRelease, execPoolBackptr, execExtentReleased, execGranuleZeroed, execExtGrants, execExtRevoke, execRevocationComplete,
      execChannelTimeout, execStackFail, execRebuildStripe, execEvacuateGranule, execHostLinkUp, execDeadScanDone, execHostMemRead, execHostMemWrite,
      execLockInterfaceRequest, execStartInterfaceRequest, execStopInterfaceRequest, execGetDeviceInterfaceReport, execGetDeviceInterfaceState,
      execIdeIntegrityFail, execCtxActivate, execCtxStop, execCtxStateNotice, execCtxStateAck, execKeyGenerate, execKeyDestroy, execBundleLoad,
      execBundleChunk, execColData, execColSide, execColPart, execColCtlAbort, execColCtlCredit, execRunStart, execRunPeriod, execPhaseDeadline,
      execOpsSlushEntry, execBundleKeyExpiry, execPriReset, execVaneSessionsLapse]

/-- Settles O9: the bytes of pool memory are the same list, so each reads as before. -/
theorem otherCommandsKeepMemory : Obligations.OtherCommandsKeepMemory := by
  intro c s t hc ht a
  rw [exec_mem c s hc t ht]

end Sys2Proof.Machine
end

section
/-! What the operations on an operator run do (R228, R229, R231): how a run fails or ends, and the commands by which runs start, go on and end. -/

namespace Sys2Proof.Machine
open Sys2Proof

theorem modInst_congr {s : State} {i : Nat} {f g : Inst → Inst} (h : f (s.inst i) = g (s.inst i)) : s.modInst i f = s.modInst i g := by
  rw [State.modInst, State.modInst, tmod_congr _ _ _ _ _ h]

-- COL_CTL of a run (R229, R258)
theorem sendCtl_carried (s : State) (i kind phase st : Nat) : Carried s (s.sendCtl i kind phase st) :=
  foldl_carried _ (fun _ _ => sendOut_carried _ _) _ _
theorem sendCtl_ops (s : State) (i kind phase st : Nat) : (s.sendCtl i kind phase st).ops = s.ops := by
  obtain ⟨_, _, _, _, _, _, _, _, _, _, _, _, _, _, hops, _⟩ := (sendCtl_carried s i kind phase st).keeps
  exact hops
theorem sendCtl_pool (s : State) (i kind phase st : Nat) : (s.sendCtl i kind phase st).pool = s.pool :=
  (Moved.of_sent (.of_carried (sendCtl_carried s i kind phase st))).pool

-- Ends of launches and of runs (R228 to R230)
theorem thawStripe_keeps (s : State) (e : OpsEntry) : (s.thawStripe e).ops = s.ops ∧ (s.thawStripe e).pool = s.pool := by
  dsimp only [State.thawStripe]
  split
  · exact ⟨rfl, rfl⟩
  · exact ⟨rfl, rfl⟩
/-- What is left of a run after its launch: IDLE with the status of the launch, its rows released (R229). -/
def Inst.ended (x : Inst) (slot : Nat) (st : Status) : Inst := { st := .idle, status := st.code, run := x.run, slot := slot, phase := x.phase }
theorem endLaunch_spec (s : State) (i : Nat) (st : Status) :
    (s.endLaunch i st).ops = (s.modInst i (fun y => y.ended s.slot st)).ops ∧ (s.endLaunch i st).pool = s.pool := by
  dsimp only [State.endLaunch]
  split
  · exact thawStripe_keeps _ _
  · exact ⟨rfl, rfl⟩
theorem endLaunch_inst (s : State) (i : Nat) (st : Status) : (s.endLaunch i st).inst i = (s.inst i).ended s.slot st := by
  rw [State.inst, (endLaunch_spec s i st).1]
  exact (inst_modInst s i i _).trans (if_pos rfl)
/-- A run in which nothing else has failed fails with the status given (R500). -/
theorem failStatus_alone {x : Inst} (hfails : x.fails = []) (hrev : x.revokedSeen = false) (st : Status) : x.failStatus st = st := by
  rw [Inst.failStatus, hfails, hrev]
  cases st <;> rfl
/-- A run that fails (R229) is IDLE with the first status of those that met, and `OPS.RUNS_FAILED` counts it. -/
theorem runFail_spec (s : State) (i : Nat) (st : Status) :
    ((s.runFail i st).inst i).st = .idle ∧ ((s.runFail i st).inst i).status = ((s.inst i).failStatus st).code ∧
    (s.runFail i st).ops.runsFailed = s.ops.runsFailed + 1 ∧ (s.runFail i st).pool = s.pool := by
  unfold State.runFail
  extract_lets x w s1 s2
  have hops : s1.ops = s.ops := sendCtl_ops _ _ _ _ _
  have hpool : s1.pool = s.pool := sendCtl_pool _ _ _ _ _
  obtain ⟨hend, hsame⟩ := endLaunch_spec ((s2.modInst i (fun y => { y with st := .failed, endSlot := s.slot })).orphanRun i) i w
  clear_value s1
  rw [endLaunch_inst, hend, hsame]
  exact ⟨rfl, rfl, congrArg (fun o : Ops => o.runsFailed + 1) hops, hpool⟩
/-- The last run of a launch ends OK: it is IDLE with status OK, and `OPS.RUNS_OK` counts it. -/
theorem runOk_last {s : State} {i : Nat} (h : (s.inst i).nruns ≤ (s.inst i).done + 1) :
    ((s.runOk i).inst i).st = .idle ∧ ((s.runOk i).inst i).status = 0 ∧ (s.runOk i).ops.runsOk = s.ops.runsOk + 1 ∧ (s.runOk i).pool = s.pool := by
  unfold State.runOk
  extract_lets s0 s1 x
  have hs0 : s0.ops = s.ops ∧ s0.pool = s.pool := by
    unfold s0
    split
    · exact ⟨sendCtl_ops _ _ _ _ _, sendCtl_pool _ _ _ _ _⟩
    · exact ⟨rfl, rfl⟩
  obtain ⟨hops, hpool⟩ := hs0
  have hinst : s0.inst i = s.inst i := by rw [State.inst, State.inst, hops]
  have hx : x.nruns ≤ x.done := by
    have hx : x = { s0.inst i with st := .done, slot := s.slot, status := 0, done := (s0.inst i).done + 1, endSlot := s.slot } :=
      (inst_modInst _ i i _).trans (if_pos rfl)
    rw [hx, hinst]
    exact h
  obtain ⟨hend, hsame⟩ := endLaunch_spec s1 i .ok
  rw [if_pos hx, endLaunch_inst, hend, hsame]
  exact ⟨rfl, rfl, congrArg (fun o : Ops => o.runsOk + 1) hops, hpool⟩

-- RUN_START (R228, R256, R258)
section
variable {s : State} {i : Nat}

theorem execRunStart_due (harmed : (s.inst i).st = .armed) (hdue : s.runDue (s.inst i) = true) : execRunStart i s = .next (s.startRun i) := by
  simp [execRunStart, harmed, hdue]
theorem runDue_scheduled (hq : s.rt.quality = .locked) (hsch : s.rt.scheduled = true)
    (hslot : s.slot = (s.inst i).startSlot + ((s.phasesOf (s.inst i)).headD {}).start) (hns : s.rt.now % 1024 = 0) : s.runDue (s.inst i) = true := by
  simp [State.runDue, hq, hsch, hslot, hns]
theorem runDue_credit (hq : s.rt.quality = .locked) (hsch : s.rt.scheduled = false) (hslot : (s.inst i).startSlot ≤ s.slot) :
    s.runDue (s.inst i) = true := by
  simp [State.runDue, hq, hsch, hslot]
theorem startRun_present (habs : s.absent = []) (hdef : s.onDefault (s.inst i) = false) :
    s.startRun i = s.modInst i (fun y => { y with credit := !s.rt.scheduled, phaseSince := s.clk, phase := 0, st := .running, slot := s.slot }) := by
  unfold State.startRun
  extract_lets s1
  have hs1 : s1 = s.modInst i (fun y => { y with credit := s.onDefault y || !s.rt.scheduled, phaseSince := s.clk, phase := 0, st := .running, slot := s.slot }) :=
    modInst_modInst _ _ _ _
  rw [habs, hs1]
  exact modInst_congr (by rw [hdef]; rfl)
end

-- RUN_PERIOD (R228, R259)
theorem execRunPeriod_due {s : State} {i : Nat} (hdone : (s.inst i).st = .done) (hdue : s.periodDue i (s.inst i) = true) (hret : (s.inst i).retiring = false)
    (himg : s.onDefault (s.inst i) = false) : execRunPeriod i s = .next (s.modInst i (fun y => y.rearmed (opsEntryAt s.opsActive i)
      (s.ctx (opsEntryAt s.opsActive i).ctx).kgen (y.startSlot + (tget (0, 0) s.opsActive.timing i).1) s.slot)) := by
  rw [onDefault_of_current s hret] at himg
  simp [execRunPeriod, hdone, hdue, State.dropped, hret, himg]

-- PHASE_DEADLINE (R231)
theorem execPhaseDeadline_aged {s : State} {i : Nat} (hrun : (s.inst i).st = .running) (hcredit : (s.inst i).credit = true)
    (hdue : (s.inst i).phaseSince + s.ops.creditDeadline * 1000 ≤ s.clk) (hrev : (s.inst i).revokedSeen = false) (hpart : s.phaseDone (s.inst i) = false) :
    execPhaseDeadline i s = .next (s.runFail i .aged) := by
  simp [execPhaseDeadline, hrun, hcredit, hdue, hrev, hpart]

-- RESULT_WRITE_RESPONSE (R228)
section
variable {s : State} {g i : Nat} {o : OutReq} {r : Txn}

/-- The state once a result write of run `i` has been answered OK: one fewer is outstanding. -/
def State.resultAnswered (s : State) (g i : Nat) : State := (s.endReq (s.poolNode * 1048576 + g)).modInst i (fun y => { y with out := y.out - 1 })
theorem resultAnswered_inst (s : State) (g i : Nat) : (s.resultAnswered g i).inst i = { s.inst i with out := (s.inst i).out - 1 } :=
  (inst_modInst _ _ _ _).trans (if_pos rfl)
theorem execResultWriteResponse_ok (hreq : s.ownReq g = some o) (hresp : o.resp = some r) (hwho : o.who = .result i) (hst : r.status = 0) :
    execResultWriteResponse g s = .next ((s.resultAnswered g i).delivered i) := by
  simp [execResultWriteResponse, State.resultAnswered, hreq, hresp, hwho, hst, statusOf]
theorem delivered_waits (h : (s.inst i).out ≠ 0) : s.delivered i = s := by
  simp [State.delivered, h]
theorem delivered_ends (hst : (s.inst i).st = .delivering) (hout : (s.inst i).out = 0) (hpsn : (s.inst i).poisoned (s.opsImg (s.inst i)) = 0)
    (hflag : (s.inst i).entry.flagEn = false) (hflags : (s.inst i).flags = 0) : s.delivered i = s.runOk i := by
  simp [State.delivered, hst, hout, hpsn, hflag, hflags]
end

-- OPS.SLUSH_ENTRY (R235)
section
variable {s : State} {v : VCtx} {e : OpsEntry}

theorem opsSlushEntry_accepted (h : Write s v (0x8000, 5) (leBytes 64 (opsEntryWord e))) (hph : s.dev.phase = .slush) (hidle : (s.inst 0).st = .idle)
    (hok : slushEntryOk e = true) : Accepts (.opsSlushEntry v e) v s { s with ops := { s.ops with slushEntry := e } } := by
  have heff : opsSlushEntryWrite e (s.countDatagram v.sess) = .ok ((s.countDatagram v.sess).modOps (fun o => { o with slushEntry := e })) := by
    simp [opsSlushEntryWrite, check, hph, hidle, hok]
  obtain ⟨t, hexec, hans, hmgmt⟩ := vaneWrite_accepts (u := none) h (fun _ hu => nomatch hu) heff
  have hcount : Mgmt (s.modOps (fun o => { o with slushEntry := e })) ((s.countDatagram v.sess).modOps (fun o => { o with slushEntry := e })) := by
    obtain ⟨w, y, o, hw⟩ := countDatagram_mgmt s v.sess
    rw [hw]
    exact ⟨w, y, o, rfl⟩
  exact ⟨t, hexec, hans, hcount.trans hmgmt⟩
theorem opsSlushEntry_refused (h : Write s v (0x8000, 5) (leBytes 64 (opsEntryWord e))) (hph : s.dev.phase ≠ .slush) :
    Aborts (.opsSlushEntry v e) v s abortRefused :=
  vaneWrite_aborts h (fun _ hu => nomatch hu) (by simp [opsSlushEntryWrite, check, hph])
end

/-- Settles O60: under the conditions of each clause the command is one operation on its run (a start with no node absent, a re-arming, a failure with a single
status, the end of the last run) or an accepted or aborted write, and the lemma about that operation gives the clause. -/
theorem runsProceed : Obligations.RunsProceed := by
  refine ⟨fun s i harmed hdef habs hq => ⟨fun hsch hslot hns => ?_, fun hsch hslot => ?_⟩, fun s i hdone hdef hperiod hret hcredit => ?_,
    fun s i hrun hcredit hdue hrev hfails hpart => ?_, fun s g i o r hreq hresp hwho hst hdel => ⟨fun hout => ?_, fun hout hpsn hflag hflags hruns => ?_⟩,
    fun s v e h => ⟨opsSlushEntry_accepted h, opsSlushEntry_refused h⟩⟩
  · have hstart := startRun_present habs hdef
    rw [hsch] at hstart
    exact (execRunStart_due harmed (runDue_scheduled hq hsch hslot hns)).trans (congrArg _ hstart)
  · have hstart := startRun_present habs hdef
    rw [hsch] at hstart
    exact (execRunStart_due harmed (runDue_credit hq hsch hslot)).trans (congrArg _ hstart)
  · have hdue : s.periodDue i (s.inst i) = true := by simp [State.periodDue, hperiod, hcredit]
    refine ⟨_, execRunPeriod_due hdone hdue hret hdef, ?_⟩
    rw [inst_modInst, if_pos rfl]
    exact ⟨rfl, rfl, rfl, rfl, rfl, rfl, fun j hj => (inst_modInst _ _ _ _).trans (if_neg hj), rfl⟩
  · obtain ⟨hidle, hstatus, hcount, hpool⟩ := runFail_spec s i .aged
    rw [failStatus_alone hfails hrev] at hstatus
    exact ⟨_, execPhaseDeadline_aged hrun hcredit hdue hrev hpart, hidle, hstatus, hcount, hpool⟩
  · have hinst := resultAnswered_inst s g i
    have hwait : (s.resultAnswered g i).delivered i = s.resultAnswered g i := delivered_waits (by rw [hinst]; exact Nat.sub_ne_zero_of_lt hout)
    exact ⟨_, (execResultWriteResponse_ok hreq hresp hwho hst).trans (congrArg _ hwait), rfl, hinst, rfl⟩
  · have hinst := resultAnswered_inst s g i
    have hend : (s.resultAnswered g i).delivered i = (s.resultAnswered g i).runOk i :=
      delivered_ends (by rw [hinst]; exact hdel) (by rw [hinst, hout]) (by rw [hinst]; exact hpsn) (by rw [hinst]; exact hflag) (by rw [hinst]; exact hflags)
    obtain ⟨hidle, hstatus, hcount, hpool⟩ := runOk_last (s := s.resultAnswered g i) (i := i) (by rw [hinst]; exact hruns)
    exact ⟨_, (execResultWriteResponse_ok hreq hresp hwho hst).trans (congrArg _ hend), hidle, hstatus, hcount, hpool⟩

end Sys2Proof.Machine
end

section
/-! Collective packets (R219 to R223, R227, R229, R258): which enter a run, and what one that enters does to its rows, side words and mode. -/

namespace Sys2Proof.Machine
open Sys2Proof

-- Arrival (R223)
section
variable {s : State} {a : Nat} {t : Txn} {k : State → State}

/-- The state in which a packet for this package reaches the engine: charged, released, and its run in the phase that is due. -/
def State.atEngine (s : State) (a : Nat) (t : Txn) : State := ((s.takeIn a t).release ((s.takeIn a t).entry t a (s.vcAt a 3))).advance t.inst

theorem arriveCol_badHeader (harr : s.canArrive a = true) (hfilt : s.filtered a = false) (hnode : t.dnode = s.poolNode) (hbad : colHeaderOk t = false) :
    s.arriveCol a t k = (s.atEngine a t).colDiscard := by
  simp [State.arriveCol, State.atEngine, harr, hfilt, hnode, hbad]
/-- The packet is of phase 0 and of one of the contributors, and its run is RUNNING in phase 0 under the packet's context. -/
def Inst.takesFirst (x : Inst) (t : Txn) : Prop := x.st = .running ∧ x.entry.ctx = t.ctx ∧ x.phase = 0 ∧ t.phase = 0 ∧ t.contrib < x.entry.ncontrib
theorem catchUp_samePhase (h : t.phase = (s.inst t.inst).phase) : s.catchUp t = s := by
  simp [State.catchUp, h]
theorem contributes_onDefault {x : Inst} (hdef : s.onDefault x = true) (hph : t.phase = 0) (hc : t.contrib < x.entry.ncontrib) : s.contributes x t = true := by
  by_cases hty : t.ty = .colCtl
  · simp [State.contributes, hty, hdef]
  · simp [State.contributes, hty, hdef, hph, hc]
theorem arriveCol_enters (harr : s.canArrive a = true) (hfilt : s.filtered a = false) (hnode : t.dnode = s.poolNode) (hok : colHeaderOk t = true)
    (hgen : s.kgenCurrent t.ctx t.kgen = true) (htakes : ((s.atEngine a t).inst t.inst).takesFirst t)
    (hdef : (s.atEngine a t).onDefault ((s.atEngine a t).inst t.inst) = true) : s.arriveCol a t k = k (s.atEngine a t) := by
  obtain ⟨hrun, hctx, hph, htph, hc⟩ := htakes
  have hcatch : (s.atEngine a t).catchUp t = s.atEngine a t := catchUp_samePhase (htph.trans hph.symm)
  have htake : instTakes ((s.atEngine a t).inst t.inst) t = true := by simp [instTakes, hrun]
  have hserved : phaseServed ((s.atEngine a t).inst t.inst) t = true := by simp [phaseServed, htph, hph]
  have hcon := contributes_onDefault hdef htph hc
  unfold State.atEngine at *
  simp [State.arriveCol, harr, hfilt, hnode, hok, hgen, hcatch, htake, hctx, hcon, hserved]
end

-- Runs of one phase in which a stripe group has yet to go (R231 to R233)
section
variable {s : State} {i : Nat}

theorem announce_onePhase (h : s.phasesOf (s.inst i) = []) : s.announce i = s := by
  simp [State.announce, h]
theorem advance_onePhase (h : s.phasesOf (s.inst i) = []) : s.advance i = s := by
  simp [State.advance, h]
theorem runCheck_waits (h : (s.inst i).emitted.length ≠ (s.inst i).entry.groups) : s.runCheck i = s := by
  simp [State.runCheck, h]
theorem emitGroup_waits {g : Nat} (h : (s.inst i).groupFull g = false) : s.emitGroup i g = s := by
  simp [State.emitGroup, h]
end
theorem mem_elems {en : OpsEntry} {e : Nat} (h : e < en.nelem) : e ∈ en.elems (e / 64) :=
  List.mem_filter.mpr ⟨List.mem_map.mpr ⟨e % 64, List.mem_range.mpr (Nat.mod_lt _ (by decide)), Nat.div_add_mod _ _⟩, by simpa using h⟩
/-- A stripe group waits for each of its rows. -/
theorem groupFull_of_waiting {x : Inst} {e : Nat} (he : e < x.entry.nelem) (h : (x.row e).arrived ≠ x.entry.full) : x.groupFull (e / 64) = false := by
  have hall : (x.entry.elems (e / 64)).all (fun k => (x.row k).arrived == x.entry.full) = false :=
    List.all_eq_false.mpr ⟨e, mem_elems he, by simpa using h⟩
  rw [Inst.groupFull, hall, Bool.false_and]
theorem phasesOf_entry (s : State) {x y : Inst} (hentry : y.entry = x.entry) (hret : y.retiring = x.retiring) : s.phasesOf y = s.phasesOf x := by
  rw [State.phasesOf, State.phasesOf, State.opsImg, State.opsImg, hentry, hret]

-- What enters a run that waits for more
section
variable {s : State} {i : Nat} {x y : Inst}

/-- A run under way, of one phase, of whose stripe groups none has gone. -/
def State.waits (s : State) (x : Inst) : Prop := x.st = .running ∧ x.emitted = [] ∧ 0 < x.entry.groups ∧ s.phasesOf x = []
/-- What enters a run leaves these fields of it alone. -/
def Inst.sameRun (x y : Inst) : Prop := y.st = x.st ∧ y.emitted = x.emitted ∧ y.entry = x.entry ∧ y.retiring = x.retiring
theorem State.waits.entered (h : s.waits x) (hsame : x.sameRun y) : s.waits y := by
  obtain ⟨hrun, hem, hgroups, hph⟩ := h
  obtain ⟨hst, hem', hentry, hret⟩ := hsame
  exact ⟨hst.trans hrun, hem'.trans hem, hentry ▸ hgroups, (phasesOf_entry s hentry hret).trans hph⟩
/-- A run that waits is as it was when no stripe group has become complete. -/
theorem settleRun_waits {gs : List Nat} (h : s.waits (s.inst i)) (hg : ∀ g ∈ gs, (s.inst i).groupFull g = false) : s.settleRun i gs = s := by
  obtain ⟨_, hem, hgroups, hph⟩ := h
  have hgs : gs.foldl (fun t g => t.emitGroup i g) s = s := by
    induction gs with
    | nil => rfl
    | cons g r ih =>
      rw [List.foldl_cons, emitGroup_waits (hg g List.mem_cons_self)]
      exact ih fun k hk => hg k (List.mem_cons_of_mem _ hk)
  rw [State.settleRun, hgs, announce_onePhase hph, advance_onePhase hph, runCheck_waits (by rw [hem]; exact Nat.ne_of_lt hgroups)]
/-- Contributions that complete no stripe group are all that happens to the run, and the pool is as before. -/
theorem settleRun_entered {v : State} {gs : List Nat} (hw : s.waits (s.inst i)) (hsame : (s.inst i).sameRun y) (hinst : v.inst i = y) (hpool : v.pool = s.pool)
    (hphases : v.phasesOf y = s.phasesOf y) (hg : ∀ g ∈ gs, y.groupFull g = false) : (v.settleRun i gs).inst i = y ∧ (v.settleRun i gs).pool = s.pool := by
  obtain ⟨hrun, hem, hgroups, hph⟩ := hw.entered hsame
  have hwait : v.waits (v.inst i) := by
    rw [hinst]
    exact ⟨hrun, hem, hgroups, hphases.trans hph⟩
  rw [settleRun_waits hwait (by rwa [hinst])]
  exact ⟨hinst, hpool⟩
end

-- COL_DATA (R206, R209, R220)
section
variable {u : State} {t : Txn}

/-- A run to whose row an element has been added, and its arrival counted. -/
def Inst.addElem (x : Inst) (psn : Bool) (ev : Nat × XVal) : Inst := { x with rows := tset x.rows ev.1 (((x.row ev.1).add 1 ev.2).arrive psn) }
theorem addElem_row (x : Inst) (psn : Bool) (ev : Nat × XVal) (j : Nat) :
    (x.addElem psn ev).row j = if j = ev.1 then ((x.row ev.1).add 1 ev.2).arrive psn else x.row j :=
  tget_tset _ _ _ _ _
/-- Without an entry program an element of a SUM is added to its row. -/
theorem enterElem_sum {x : Inst} (img : Image) (contrib : Nat) (psn : Bool) (ev : Nat × XVal) (hkind : x.entry.opkind = 1) (hprog : x.entry.entryProg = 0xFFF) :
    enterElem img contrib psn x ev = x.addElem psn ev := by
  simp [enterElem, needsSide, hasEntry, hkind, hprog, Inst.addElem]
/-- The two elements of a packet of one slot of FP32. -/
def pairElem (t : Txn) (j : Nat) : Nat × XVal := (t.eoff + j, elemVal 0 (packed 0 (leNat t.data) j))
/-- A run into which a packet of two FP32 elements has entered. -/
def Inst.withPair (x : Inst) (t : Txn) : Inst :=
  { (x.addElem t.psn (pairElem t 0)).addElem t.psn (pairElem t 1) with senders := addNew x.senders t.snode }
theorem withPair_row (x : Inst) (t : Txn) (j : Nat) : (x.withPair t).row j =
    if j = t.eoff + 1 then ((x.row (t.eoff + 1)).add 1 (pairElem t 1).2).arrive t.psn
    else if j = t.eoff then ((x.row t.eoff).add 1 (pairElem t 0).2).arrive t.psn else x.row j := by
  have hsecond : (x.withPair t).row j = ((x.addElem t.psn (pairElem t 0)).addElem t.psn (pairElem t 1)).row j := rfl
  rw [hsecond, addElem_row, addElem_row, addElem_row]
  simp [pairElem]
theorem colCount_fp32 (hfmt : t.fmt = 0) (hslots : t.dslots = 1) : colCount t = 2 := by
  rw [colCount, hfmt, hslots]
  rfl
theorem colPackingOk_fp32 (hfmt : t.fmt = 0) (hslots : t.dslots = 1) (heven : t.eoff % 2 = 0) : colPackingOk t = true := by
  have hgroup : t.eoff / 64 = (t.eoff + 2 - 1) / 64 := by omega
  simp only [colPackingOk, colCount_fp32 hfmt hslots, hfmt, fmtMx]
  simpa using hgroup
/-- The elements of a COL_DATA, each with its value. -/
def colElems (t : Txn) : List (Nat × XVal) :=
  ((List.range (colCount t)).map (t.eoff + ·)).map (fun e =>
    (e, if fmtMx t.fmt then mxVal t.fmt (packed t.fmt (leNat t.data) (e - t.eoff)) t.xb else elemVal t.fmt (packed t.fmt (leNat t.data) (e - t.eoff))))
theorem colElems_fp32 (hfmt : t.fmt = 0) (hslots : t.dslots = 1) : colElems t = [pairElem t 0, pairElem t 1] := by
  simp [pairElem, colElems, colCount_fp32 hfmt hslots, hfmt, fmtMx, List.range_succ]
theorem withPair_of_elems {x : Inst} (img : Image) (hkind : x.entry.opkind = 1) (hprog : x.entry.entryProg = 0xFFF) (hfmt : t.fmt = 0) (hslots : t.dslots = 1) :
    { (colElems t).foldl (enterElem img t.contrib t.psn) x with senders := addNew x.senders t.snode } = x.withPair t := by
  have hfold : (colElems t).foldl (enterElem img t.contrib t.psn) x = (x.addElem t.psn (pairElem t 0)).addElem t.psn (pairElem t 1) := by
    rw [colElems_fp32 hfmt hslots, List.foldl_cons, List.foldl_cons, List.foldl_nil, enterElem_sum _ _ _ _ hkind hprog]
    exact enterElem_sum (x := x.addElem t.psn (pairElem t 0)) _ _ _ _ hkind hprog
  rw [hfold, Inst.withPair]
/-- A COL_DATA that passes the last check of R223 enters its elements one by one. -/
theorem colDataIn_accepted (hkind : (u.inst t.inst).entry.opkind = 1) (hin : t.fmt = (u.inst t.inst).entry.inFmt) (hpack : colPackingOk t = true)
    (hfit : t.eoff + colCount t ≤ (u.inst t.inst).entry.nelem)
    (hroom : ∀ j < colCount t, ((u.inst t.inst).row (t.eoff + j)).arrived < (u.inst t.inst).entry.full) :
    ∃ tile n, State.colDataIn t u = ((u.modInst t.inst (fun y =>
      { (colElems t).foldl (enterElem (u.opsImg (u.inst t.inst)) t.contrib t.psn) y with senders := addNew y.senders t.snode })).useFlakes tile n).settleRun
        t.inst [t.eoff / 64] := by
  unfold State.colDataIn
  extract_lets x n d es vals img s1 s2
  refine ⟨_, _, if_neg ?_⟩
  have hes : es.any (fun e => decide (x.entry.full ≤ (x.row e).arrived)) = false := by simpa [es] using hroom
  simp [x, hes, hkind, hin, hpack, n, hfit]
theorem colDataIn_pair (hkind : (u.inst t.inst).entry.opkind = 1) (hprog : (u.inst t.inst).entry.entryProg = 0xFFF) (hw : u.waits (u.inst t.inst))
    (hin : t.fmt = (u.inst t.inst).entry.inFmt) (hfmt : t.fmt = 0) (hslots : t.dslots = 1) (heven : t.eoff % 2 = 0)
    (hfit : t.eoff + 2 ≤ (u.inst t.inst).entry.nelem) (h0 : ((u.inst t.inst).row t.eoff).arrived + 1 < (u.inst t.inst).entry.ncontrib)
    (h1 : ((u.inst t.inst).row (t.eoff + 1)).arrived < (u.inst t.inst).entry.ncontrib) :
    (State.colDataIn t u).inst t.inst = (u.inst t.inst).withPair t ∧ (State.colDataIn t u).pool = u.pool := by
  have hfull : (u.inst t.inst).entry.full = (u.inst t.inst).entry.ncontrib := by simp [OpsEntry.full, hkind]
  have hcount := colCount_fp32 hfmt hslots
  have hroom : ∀ j < colCount t, ((u.inst t.inst).row (t.eoff + j)).arrived < (u.inst t.inst).entry.full := by
    intro j hj
    rw [hcount] at hj
    rw [hfull]
    interval_cases j
    · exact Nat.lt_of_succ_lt h0
    · exact h1
  have hwait : ((u.inst t.inst).withPair t).groupFull (t.eoff / 64) = false := by
    refine groupFull_of_waiting (Nat.lt_of_lt_of_le (by omega) hfit) ?_
    have hrow : (((u.inst t.inst).withPair t).row t.eoff).arrived = ((u.inst t.inst).row t.eoff).arrived + 1 := by
      rw [withPair_row, if_neg (by omega), if_pos rfl]
      rfl
    rw [hrow]
    exact Nat.ne_of_lt (hfull ▸ h0)
  obtain ⟨tile, n, hacc⟩ := colDataIn_accepted hkind hin (colPackingOk_fp32 hfmt hslots heven) (hcount ▸ hfit) hroom
  rw [hacc]
  refine settleRun_entered hw ⟨rfl, rfl, rfl, rfl⟩ ?_ rfl rfl (by simpa using hwait)
  exact (inst_modInst _ _ _ _).trans ((if_pos rfl).trans (withPair_of_elems _ hkind hprog hfmt hslots))
end

-- COL_SIDE (R227)
section
variable {u : State} {t : Txn}

/-- A run that keeps the weight at place `j` of a COL_SIDE for its token and contributor. -/
def Inst.withWeight (x : Inst) (t : Txn) (j : Nat) : Inst :=
  { x with side := tset x.side (sideKey (t.eoff + j) t.contrib) [leAt t.data (4 * j) 4, 0, 0, boolNat t.psn] }
theorem withWeight_side (x : Inst) (t : Txn) (j k : Nat) : tget [] (x.withWeight t j).side (sideKey (t.eoff + k) t.contrib) =
    if k = j then [leAt t.data (4 * j) 4, 0, 0, boolNat t.psn] else tget [] x.side (sideKey (t.eoff + k) t.contrib) := by
  have hkey : sideKey (t.eoff + k) t.contrib = sideKey (t.eoff + j) t.contrib ↔ k = j := by
    unfold sideKey
    omega
  simp only [Inst.withWeight, tget_tset, hkey]
theorem enterSide_weight (hxb : t.xb = 1) (x : Inst) (j : Nat) : enterSide t x j = x.withWeight t j := by
  simp [enterSide, hxb, Inst.withWeight]
/-- A run into which a packet of two weights has entered. -/
def Inst.withWeights (x : Inst) (t : Txn) : Inst := { (x.withWeight t 0).withWeight t 1 with senders := addNew x.senders t.snode }
theorem colSideIn_weights (hw : u.waits (u.inst t.inst)) (hxb : t.xb = 1) (hslots : t.dslots = 1) (hfit : t.eoff + 2 ≤ (u.inst t.inst).entry.nelem) :
    (State.colSideIn t u).inst t.inst = (u.inst t.inst).withWeights t ∧ (State.colSideIn t u).pool = u.pool := by
  have hacc : ∃ tile n, State.colSideIn t u = ((u.modInst t.inst (fun y => y.withWeights t)).useFlakes tile n).settleRun t.inst [] := by
    unfold State.colSideIn
    extract_lets x n bad s1 cost g s2
    have hn : n = 2 := by simp [n, hxb, hslots]
    have hbad : bad = false := by simpa [bad, hxb, hn] using hfit
    have hs1 : s1 = u.modInst t.inst (fun y => y.withWeights t) := by
      simp [s1, hn, List.range_succ, enterSide_weight hxb, Inst.withWeights]
    refine ⟨x.entry.tile g, cost, ?_⟩
    simp only [hbad, hxb, s2, hs1]
    rfl
  obtain ⟨tile, n, hacc⟩ := hacc
  rw [hacc]
  exact settleRun_entered hw ⟨rfl, rfl, rfl, rfl⟩ ((inst_modInst _ _ _ _).trans (if_pos rfl)) rfl rfl fun g hg => absurd hg List.not_mem_nil
theorem withWeights_side (x : Inst) (t : Txn) :
    tget [] (x.withWeights t).side (sideKey t.eoff t.contrib) = [leAt t.data 0 4, 0, 0, boolNat t.psn] := by
  calc tget [] (x.withWeights t).side (sideKey t.eoff t.contrib)
      = tget [] ((x.withWeight t 0).withWeight t 1).side (sideKey (t.eoff + 0) t.contrib) := rfl
    _ = tget [] (x.withWeight t 0).side (sideKey (t.eoff + 0) t.contrib) := (withWeight_side _ t 1 0).trans (if_neg (by decide))
    _ = [leAt t.data 0 4, 0, 0, boolNat t.psn] := (withWeight_side x t 0 0).trans (if_pos rfl)
end

-- COL_PART (R209, R221)
section
variable {u : State} {t : Txn} {q : Partial}

/-- A run to whose row a partial of a lower stage has been added. -/
def Inst.withPart (x : Inst) (t : Txn) (q : Partial) : Inst :=
  { x with
    rows := tmod x.blank x.rows t.eoff (fun w => { w.addPartial x.entry.opkind q with psn := w.psn || q.psn || t.psn }),
    peers := addNew x.peers t.snode }
theorem withPart_row (x : Inst) (t : Txn) (q : Partial) :
    (x.withPart t q).row t.eoff = { (x.row t.eoff).addPartial x.entry.opkind q with psn := (x.row t.eoff).psn || q.psn || t.psn } := by
  simp [Inst.row, Inst.withPart, Inst.blank]
theorem colPartIn_one (hkind : (u.inst t.inst).entry.opkind ≠ 6) (hw : u.waits (u.inst t.inst)) (hparts : partsOf t.xb 8 0 t.data = some [q])
    (hfit : t.eoff < (u.inst t.inst).entry.nelem) (h0 : ((u.inst t.inst).row t.eoff).arrived + 1 < (u.inst t.inst).entry.ncontrib) :
    (State.colPartIn t u).inst t.inst = (u.inst t.inst).withPart t q ∧ (State.colPartIn t u).pool = u.pool := by
  have hfull : (u.inst t.inst).entry.full = (u.inst t.inst).entry.ncontrib := by simp [OpsEntry.full, hkind]
  have hroom : ¬ (u.inst t.inst).entry.full ≤ ((u.inst t.inst).row t.eoff).arrived := by omega
  have hacc : State.colPartIn t u = (u.modInst t.inst (fun y => y.withPart t q)).settleRun t.inst [t.eoff / 64] := by
    simp [State.colPartIn, hparts, hkind, hfit, hroom, Inst.withPart, List.range_succ]
  have hwait : ((u.inst t.inst).withPart t q).groupFull (t.eoff / 64) = false := by
    refine groupFull_of_waiting hfit ?_
    rw [withPart_row]
    exact Nat.ne_of_lt (hfull ▸ h0)
  rw [hacc]
  exact settleRun_entered hw ⟨rfl, rfl, rfl, rfl⟩ ((inst_modInst _ _ _ _).trans (if_pos rfl)) rfl rfl (by simpa using hwait)
end

-- COL_CTL (R229, R258)
section
variable {u : State} {t : Txn}

theorem abortIn_ctxDenied (h : t.eoff = 3) : State.abortIn t u = u.runFail t.inst .ctxDenied := by
  simp [State.abortIn, State.cleanStatus, h, statusOf]
theorem creditIn_onePhase (h : u.phasesOf (u.inst t.inst) = []) : State.creditIn t u = u.modInst t.inst (fun y =>
    { y with phaseSince := if y.credit then y.phaseSince else u.clk, credit := true, credits := (t.snode, t.phase) :: y.credits }) := by
  have hph : ∀ f : Inst → Inst, (f (u.inst t.inst)).entry = (u.inst t.inst).entry → (f (u.inst t.inst)).retiring = (u.inst t.inst).retiring →
      (u.modInst t.inst f).phasesOf ((u.modInst t.inst f).inst t.inst) = [] := by
    intro f hentry hret
    rw [inst_modInst, if_pos rfl]
    exact (phasesOf_entry u hentry hret).trans h
  rw [State.creditIn, announce_onePhase (hph _ rfl rfl), advance_onePhase (hph _ rfl rfl)]
end

/-- Settles O59: the checks of R223 in their order, then for each type the run after its contribution. That any sender of phase 0 contributes under
the built-in default, and that a COL_PART enters whatever the run's IN_FMT, is the model's choice (log 23). -/
theorem collectivePackets : Obligations.CollectivePackets := by
  refine ⟨fun s a c y b x k hmem harr hfilt hnode => ?_, fun u x p hp hkind hprog hst hem hgr hph hin hfmt hslots heven hfit h0 h1 => ?_,
    fun u x p hp hkind hst hem hgr hph hxb hslots hfit => ?_, fun u x p q hp hkind hst hem hgr hph hparts hfit _ h1 => ?_,
    fun u x p hp hfails hrev hstat => ?_, fun u x p hp hst hcredit hph => ?_⟩
  · have hexec : exec (c a x) s = .next (s.arriveCol a { x with ty := y, xb := b } k) := by
      simp only [List.mem_cons, Prod.mk.injEq, List.not_mem_nil, or_false] at hmem
      rcases hmem with ⟨rfl, rfl, rfl, rfl⟩ | ⟨rfl, rfl, rfl, rfl⟩ | ⟨rfl, rfl, rfl, rfl⟩ | ⟨rfl, rfl, rfl, rfl⟩ | ⟨rfl, rfl, rfl, rfl⟩ <;> rfl
    refine ⟨_, rfl, fun hbad => ?_, fun hok hgen hrun hctx hdef htph hph hcon => ?_⟩
    · exact hexec.trans (congrArg _ (arriveCol_badHeader harr hfilt hnode hbad))
    · exact hexec.trans (congrArg _ (arriveCol_enters harr hfilt hnode hok hgen ⟨hrun, hctx, hph, htph, hcon⟩ hdef))
  · subst hp
    obtain ⟨hinst, hpool⟩ := colDataIn_pair hkind hprog ⟨hst, hem, hgr, hph⟩ hin hfmt hslots heven hfit h0 h1
    rw [hinst, withPair_row, withPair_row, if_neg (by omega), if_pos rfl, if_pos rfl]
    exact ⟨rfl, rfl, hpool⟩
  · subst hp
    obtain ⟨hinst, hpool⟩ := colSideIn_weights ⟨hst, hem, hgr, hph⟩ hxb hslots hfit
    rw [hinst]
    exact ⟨withWeights_side _ _, rfl, hpool⟩
  · subst hp
    obtain ⟨hinst, hpool⟩ := colPartIn_one (by rw [hkind]; decide) ⟨hst, hem, hgr, hph⟩ hparts hfit h1
    rw [hinst, withPart_row, hkind]
    exact ⟨rfl, hpool⟩
  · subst hp
    obtain ⟨hidle, hstatus, hcount, hpool⟩ := runFail_spec u x.inst .ctxDenied
    rw [failStatus_alone hfails hrev] at hstatus
    rw [abortIn_ctxDenied hstat]
    exact ⟨hidle, hstatus, hcount, hpool⟩
  · subst hp
    rw [creditIn_onePhase hph, inst_modInst, if_pos rfl]
    exact ⟨rfl, if_neg (by rw [hcredit]; decide), hst, rfl⟩

end Sys2Proof.Machine
end

section
/-! The passing of a nanosecond on an empty queue (R244, R76, R313; log 1): a host access whose wait before a retry ends then is sent again. -/

namespace Sys2Proof.Machine
open Sys2Proof

/-- A host access whose read completed RETRY_LATER: the read waits for its retry until device time 1 (R76, R313). -/
def retryDue : State :=
  { hp := [(0, { accs := [{ id := 0, rid := 0, htag := some 3, ctx := 0, kind := 0, off := 0, len := 8, ro := false, atop := 0, data := [], since := 0,
                            issued := true, left := 1 }] })],
    reqs := [(0, { t := { ty := .rd, size := 7 }, who := .host 0 0 0, issuedAt := 0, timeout := 1, waitUntil := some 1 })] }
theorem step_retryDue_reissues : ∃ t, step retryDue = .next t ∧ (tfind t.reqs 0).map OutReq.waitUntil = some none := ⟨_, rfl, by decide⟩

/-- Refutes O2: its hypotheses leave open a host access whose wait before a retry ends with this nanosecond. The read is sent again (R76, R313), so that its
record among the outstanding requests changes, and not the clocks alone. -/
theorem not_emptyQueuePassesTime : ¬ Obligations.EmptyQueuePassesTime := by
  unfold Obligations.EmptyQueuePassesTime
  rintro ⟨h, _⟩
  obtain ⟨r, hr, _⟩ := h retryDue rfl (by decide) (by decide) (by decide)
  obtain ⟨t, ht, hwait⟩ := step_retryDue_reissues
  rw [ht] at hr
  cases hr
  have hkept : (tfind retryDue.reqs 0).map OutReq.waitUntil = some none := hwait
  exact absurd hkept (by decide)

end Sys2Proof.Machine
end

section
/-! Rack time's quality and its reference (R246 to R248, R250, R252 to R254, R257, R271): what a change of quality moves, the loss of the reference, and the
writes of rack time. -/

namespace Sys2Proof.Machine
open Sys2Proof

/-- Rack time in another quality (R252). -/
def State.rtIn (s : State) (q : Quality) : RackTime :=
  { s.rt with
    quality := q, plausible := 0, refLosses := s.rt.refLosses + boolNat (q == .holdover || q == .unlocked), err := s.rtErr,
    lockedSince := if q == .locked then s.clk else s.rt.lockedSince, lastMark := if q == .acquiring then none else s.rt.lastMark,
    lastPulseAt := if q == .acquiring then none else s.rt.lastPulseAt, refOkSince := if q == .acquiring then some s.clk else s.rt.refOkSince }
/-- A change of quality that ends no scheduled operation moves rack time alone (R252, R257). -/
theorem setQuality_mgmt {s : State} {q : Quality} (hq : s.rt.quality ≠ q) (h : q = .locked ∨ q = .holdover ∨ s.rt.scheduled = false) :
    Mgmt { s with rt := s.rtIn q } (s.setQuality q) := by
  unfold State.setQuality
  rw [if_neg (by simpa using hq)]
  extract_lets s1 s2
  have hmoved : Mgmt { s with rt := s.rtIn q } s2 := (selfChange_mgmt s .rackTime _).trans (event_mgmt _ _ _ _ _ _ _)
  obtain ⟨_, _, _, _, _, _, hrt, _⟩ := hmoved.keeps
  have hends : ((q == .unset || q == .acquiring || q == .unlocked) && s2.rt.scheduled) = false := by
    rw [hrt]
    rcases h with rfl | rfl | hs
    · rfl
    · rfl
    · simp [State.rtIn, hs]
  rw [if_neg (by simp [hends])]
  exact hmoved
/-- The rack time with which a LOCKED device goes into HOLDOVER (R253). -/
def State.rtLost (s : State) : RackTime :=
  { s.rt with
    quality := .holdover, plausible := 0, refLosses := s.rt.refLosses + 1, errAtLoss := s.rt.err, holdSince := s.clk,
    lockedFor := s.clk - s.rt.lockedSince }
theorem rtErr_of_ne_holdover {s : State} (h : s.rt.quality ≠ .holdover) : s.rtErr = s.rt.err := by simp [State.rtErr, h]
theorem refLoss_locked {s : State} (h : s.rt.quality = .locked) : Mgmt { s with rt := s.rtLost } s.refLoss := by
  have herr : (s.modRt (fun r => { r with errAtLoss := r.err, holdSince := s.clk, lockedFor := s.clk - r.lockedSince })).rtErr = s.rt.err :=
    rtErr_of_ne_holdover (by simp [State.modRt, h])
  have hset := setQuality_mgmt (s := s.modRt (fun r => { r with errAtLoss := r.err, holdSince := s.clk, lockedFor := s.clk - r.lockedSince })) (q := .holdover)
    (by simp [State.modRt, h]) (.inr (.inl rfl))
  unfold State.refLoss
  rw [h]
  rw [State.rtIn, herr] at hset
  exact hset
theorem refLoss_unlocked {s : State} (h : s.rt.quality = .unlocked) : s.refLoss = s.modRt (fun r => { r with plausible := 0, lastMark := none }) := by
  rw [State.refLoss, h]
theorem refPresent_of_ne_unset {s : State} (h : s.rt.quality ≠ .unset) : s.refPresent = s := by simp [State.refPresent, h]

section
variable {s : State}
theorem refclkLost_holdover (h : s.rt.quality = .locked) (hsrc : s.rt.source = 0) :
    Does .refclkLost s { s with rt := { s.rtLost with refclk := false } } :=
  ⟨_, by simp [exec, execRefclkLost, hsrc], refLoss_locked (s := s.modRt (fun r => { r with refclk := false })) h⟩
theorem refclkLost_unused (hsrc : s.rt.source ≠ 0) : exec .refclkLost s = .next { s with rt := { s.rt with refclk := false } } := by
  simp [exec, execRefclkLost, hsrc, State.modRt]
theorem epochPulseMissing_holdover (h : s.rt.quality = .locked) (hsrc : s.rt.source = 0) (hs : s.refSilent = true) :
    Does .epochPulseMissing s { s with rt := s.rtLost } :=
  ⟨_, by simp [exec, execEpochPulseMissing, hsrc, hs], refLoss_locked h⟩
theorem timeRecordMissing_holdover (h : s.rt.quality = .locked) (hsrc : s.rt.source = 1) (hs : s.refSilent = true) :
    Does .timeRecordMissing s { s with rt := s.rtLost } :=
  ⟨_, by simp [exec, execTimeRecordMissing, hsrc, hs], refLoss_locked h⟩
theorem holdoverLimit_unlocks (h : s.rt.quality = .holdover) (hlim : s.rt.holdSince + s.holdLimit ≤ s.clk) (hsch : s.rt.scheduled = false) :
    Does .holdoverLimit s { s with rt := { s.rt with quality := .unlocked, plausible := 0, refLosses := s.rt.refLosses + 1, err := s.rtErr } } :=
  ⟨_, by simp [exec, execHoldoverLimit, h, hlim], setQuality_mgmt (q := .unlocked) (by simp [h]) (.inr (.inr hsch))⟩
theorem refclkPresent_kept (h : s.rt.quality ≠ .unset) : exec .refclkPresent s = .next { s with rt := { s.rt with refclk := true } } :=
  congrArg Host.Outcome.next (refPresent_of_ne_unset (s := s.modRt (fun r => { r with refclk := true })) h)
end

/-- Settles O25: a loss of the reference while LOCKED is the one move into HOLDOVER of `refLoss_locked`, whatever command reports it. That the limit keeps `RT.ERR`
in UNLOCKED is the model's choice (log 40). -/
theorem referenceLoss : Obligations.ReferenceLoss := by
  unfold Obligations.ReferenceLoss
  intro s
  exact ⟨fun h => ⟨refclkLost_holdover h, refclkLost_unused, epochPulseMissing_holdover h, timeRecordMissing_holdover h⟩, holdoverLimit_unlocks, refclkPresent_kept⟩

-- What the writes of rack time do (R246, R248, R257, R271)
theorem rtSetWrite_unlocked {s : State} {e : Nat} (he : e < 2 ^ 44) (h : s.rt.quality = .unlocked) :
    rtSetWrite e s = .ok (s.modRt (fun r => { r with setWritten := true, setEpoch := some e })) := by
  have hallowed : s.setAllowed e = true := by simp [State.setAllowed, h]
  simp only [rtSetWrite, check, decide_eq_true he, hallowed, if_true]
  rw [refPresent_of_ne_unset (by simp [State.modRt, h])]
  simp [State.modRt, h]
theorem rtSetWrite_range {e : Nat} (he : 2 ^ 44 ≤ e) (s : State) : rtSetWrite e s = .error abortRange := by
  rw [rtSetWrite, check, if_neg (by simpa using he)]
theorem rtSourceWrite_unlocked {s : State} {src : Nat} (hs : src ≤ 1) (h : s.rt.quality = .unlocked) :
    rtSourceWrite src s = .ok (s.modRt (fun r =>
      { r with source := src, plausible := 0, lastMark := none, partnerQuality := 0, lastPulseAt := none, refOkSince := none })) := by
  rw [rtSourceWrite, check, if_pos (decide_eq_true hs), refLoss_unlocked h]
  exact congrArg Except.ok (refPresent_of_ne_unset (by simp [State.modRt, h]))
theorem rtSrcPortWrite_unlocked {s : State} {p : Nat} (hp : p < 256) (h : s.rt.quality = .unlocked) :
    rtSrcPortWrite p s = .ok (s.modRt (fun r =>
      { r with srcPort := p, plausible := 0, lastMark := none, partnerQuality := 0, lastPulseAt := none, refOkSince := none })) := by
  rw [rtSrcPortWrite, check, if_pos (by simp [Nat.le_of_lt_succ hp]), refLoss_unlocked h]
  exact congrArg Except.ok (refPresent_of_ne_unset (by simp [State.modRt, h]))
theorem rtResumeWrite_locked {s : State} {x : Nat} (h : s.rt.quality = .locked) (hx : s.slot + s.tbl.minLead ≤ x) :
    rtResumeWrite x s = .ok (s.modRt (fun r => { r with resumeSlot := x })) := by simp [rtResumeWrite, check, h, hx]
theorem rtResumeWrite_not_locked {s : State} (h : s.rt.quality ≠ .locked) (x : Nat) : rtResumeWrite x s = .error abortRefused := by
  simp [rtResumeWrite, check, h]

/-- An accepted write whose effect is `w` but for the management side. -/
theorem accepts_of_mgmt {c : Instr} {s w x : State} {v : VCtx} {obj : Nat × Nat} {p : Bytes} {u : EUnit} {eff : State → Except Nat State}
    (hc : exec c s = s.vaneWrite v obj p (some u) eff) (hv : (s.epochRec u).epoch = v.epoch) (hw : Write s v obj p)
    (he : eff (s.countDatagram v.sess) = .ok x) (hm : Mgmt w x) : Accepts c v s w := by
  obtain ⟨t, ht, hans, ht'⟩ := vaneWrite_accepts (u := some u) hw (by rintro _ ⟨⟩; exact hv) he
  exact ⟨t, hc.trans ht, hans, hm.trans ht'⟩
theorem Mgmt.modRt {s t : State} (h : Mgmt s t) (f : RackTime → RackTime) : Mgmt (s.modRt f) (t.modRt f) := by
  obtain ⟨v, e, o, rfl⟩ := h
  exact ⟨v, e, o, rfl⟩
/-- Settles O26: RT.SET, RT.SOURCE and RT.SRC_PORT in UNLOCKED, where a change of reference ends no other state (R246), and RT.RESUME_SLOT in LOCKED. -/
theorem rackTimeWrites : Obligations.RackTimeWrites := by
  unfold Obligations.RackTimeWrites
  intro s v hv
  have hunit : ∀ x, some EUnit.rackTime = some x → (s.epochRec x).epoch = v.epoch := by rintro _ ⟨⟩; exact hv
  have hcount := countDatagram_mgmt s v.sess
  refine ⟨fun e hw he hq => accepts_of_mgmt rfl hv hw (rtSetWrite_unlocked he (by simpa using hq)) (hcount.modRt _),
    fun e hw he => vaneWrite_aborts hw hunit (rtSetWrite_range he _),
    fun hw hq => accepts_of_mgmt rfl hv hw (rtSourceWrite_unlocked (Nat.le_refl 1) (by simpa using hq)) (hcount.modRt _),
    fun p hw hp hq => accepts_of_mgmt rfl hv hw (rtSrcPortWrite_unlocked hp (by simpa using hq)) (hcount.modRt _),
    fun x hw hq hx => accepts_of_mgmt rfl hv hw (rtResumeWrite_locked (by simpa using hq) ?_) (hcount.modRt _),
    fun x hw hq => vaneWrite_aborts hw hunit (rtResumeWrite_not_locked (by simpa using hq) x)⟩
  simpa [State.slot] using hx

end Sys2Proof.Machine
end

section
/-! Pulses, time records and epochs (R247, R249, R250, R254, R257): how a LOCKED device follows them, and what it sends. -/

namespace Sys2Proof.Machine
open Sys2Proof

-- Pulses of a LOCKED device
section
variable {s : State}
/-- Rack time is at the nearest edge but for the offset of a pulse (Table 9-1). -/
theorem refNow_eq_edge_add (s : State) : (s.refNow : Int) = s.nearestEdge + s.pulseOff := by
  unfold State.nearestEdge State.pulseOff
  split <;> omega
theorem execEpochPulse_locked {w : Nat} (hw : 20 ≤ w) (hsrc : s.rt.source = 0) (hclk : s.rt.refclk = true) (h : s.rt.quality = .locked) :
    exec (.epochPulse w) s = .next s.pulseLocked := by
  have hp : s.refPresent = s := by simp [State.refPresent, h]
  simp [exec, execEpochPulse, Nat.not_lt.mpr hw, hsrc, hclk, hp, h]
theorem pulseLocked_slews (h : s.pulseOff.natAbs ≤ 20) : s.pulseLocked =
    { s with rt := { s.rt with slew := -s.pulseOff, plausible := 0, lastPulseAt := some s.clk, lastMark := some (s.clk, s.refNow) } } := by
  have h50 : s.pulseOff.natAbs ≤ 50 := by omega
  simp [State.pulseLocked, State.correct, h, h50, State.slewBy, State.marked4, State.modRt, State.refNow]
theorem pulseLocked_corrects (hlo : 20 < s.pulseOff.natAbs) (hhi : s.pulseOff.natAbs ≤ 50) : s.pulseLocked = (s.stepTo s.nearestEdge).marked4 0 := by
  simp [State.pulseLocked, State.correct, hhi, Nat.not_le.mpr hlo]
theorem pulseLocked_rejects (h : 50 < s.pulseOff.natAbs) : s.pulseLocked = s.rejectMark := by simp [State.pulseLocked, h]
/-- A correction at once moves rack time forward, or holds it for as long as it is ahead (R254). -/
theorem stepTo_eq (s : State) (target : Nat) :
    s.stepTo target = { s with rt := { s.rt with now := max s.rt.now target, hold := s.rt.now - target, slew := 0 } } := by
  unfold State.stepTo State.modRt
  dsimp only
  split
  · next h => simp [h, Nat.sub_eq_zero_of_le h]
  · next h => simp [Nat.max_eq_left (Nat.le_of_not_le h)]
/-- A count that is not held is put to the nearest edge: forward by a step, backward by holding it (R254). -/
theorem pulseLocked_steps (hlo : 20 < s.pulseOff.natAbs) (hhi : s.pulseOff.natAbs ≤ 50) (h0 : s.rt.hold = 0) :
    ∃ r, s.pulseLocked = { s with rt := r } ∧ r.quality = s.rt.quality ∧ r.slew = 0 ∧ r.lastPulseAt = some s.clk ∧
      (s.pulseOff < 0 → r.now = s.rt.now + s.pulseOff.natAbs ∧ r.hold = 0) ∧ (0 < s.pulseOff → r.now = s.rt.now ∧ r.hold = s.pulseOff.natAbs) := by
  have hedge := refNow_eq_edge_add s
  rw [State.refNow, h0, Nat.sub_zero] at hedge
  rw [pulseLocked_corrects hlo hhi, stepTo_eq]
  refine ⟨_, rfl, rfl, rfl, rfl, fun hneg => ?_, fun hpos => ?_⟩
  · show max s.rt.now s.nearestEdge = _ ∧ s.rt.now - s.nearestEdge = 0
    omega
  · show max s.rt.now s.nearestEdge = _ ∧ s.rt.now - s.nearestEdge = _
    omega
end

-- Time records that a device on pins receives (R249, R250)
section
variable {s : State} {p : Nat} {r : TimeRec}
/-- A record of a port that is not the reference leaves its stamps and what it measured of the link. -/
theorem execTime_unfollowed (hr : r.rsvd = 0) (hq : r.quality ≤ 4) (hsrc : s.rt.source = 0) :
    exec (.time p r) s = .next { s with rt := { s.rt with
      ports := tset s.rt.ports p { s.timePort p with lastRxTx := r.txTime, lastRxAt := s.rt.now * 16, delay := s.linkD p r } } } := by
  simp [exec, execTime, hr, Nat.not_lt.mpr hq, hsrc, State.modRt, tmod, State.timePort]
theorem linkD_echoed (h0 : r.echo ≠ 0) (h : r.echo = (s.timePort p).lastTx) : s.linkD p r = some ((s.rt.now * 16 - r.echo - r.turn) / 2) := by
  rw [State.linkD, if_pos]
  simp [h0, ← h]
theorem linkD_other (h : r.echo = 0 ∨ r.echo ≠ (s.timePort p).lastTx) : s.linkD p r = (s.timePort p).delay := by
  rw [State.linkD, if_neg]
  simp only [bne_iff_ne, Bool.and_eq_true, beq_iff_eq, not_and]
  rcases h with h | h
  · exact fun h0 => absurd h h0
  · exact fun _ => h
theorem execTime_filtered (h : 4 < r.quality) :
    exec (.time p r) s = .next { s with link := { s.link with rxFiltered := s.link.rxFiltered + 1 } } := by simp [exec, execTime, h]
end

-- The records that an epoch sends
/-- What sending time records does to the state: stamps of what was sent, the outbox, and the attached end-points that hear them. -/
structure TimeSent (s t : State) : Prop where
  pool : t.pool = s.pool
  ports : t.ports = s.ports
  rt : ∃ l, t.rt = { s.rt with ports := l }
  rx : ∀ p, (t.timePort p).lastRxTx = (s.timePort p).lastRxTx
  tx : ∀ p, (t.timePort p).lastTx = (s.timePort p).lastTx ∨ (t.timePort p).lastTx = s.rt.now * 16
  out : s.out <+: t.out
theorem TimeSent.now {s t : State} (h : TimeSent s t) : t.rt.now = s.rt.now := by
  obtain ⟨l, hl⟩ := h.rt
  rw [hl]
theorem TimeSent.refl (s : State) : TimeSent s s := ⟨rfl, rfl, ⟨_, rfl⟩, fun _ => rfl, fun _ => .inl rfl, List.prefix_rfl⟩
theorem TimeSent.trans {s t u : State} (h : TimeSent s t) (g : TimeSent t u) : TimeSent s u := by
  refine ⟨g.pool.trans h.pool, g.ports.trans h.ports, ?_, fun p => (g.rx p).trans (h.rx p), fun p => ?_, h.out.trans g.out⟩
  · obtain ⟨l, hl⟩ := h.rt
    obtain ⟨l', hl'⟩ := g.rt
    exact ⟨l', by rw [hl', hl]⟩
  · rcases g.tx p with hp | hp
    · rw [hp]; exact h.tx p
    · rw [hp, h.now]; exact .inr rfl
theorem foldl_timeSent {α : Type} {f : State → α → State} (h : ∀ s x, TimeSent s (f s x)) (l : List α) (s : State) : TimeSent s (l.foldl f s) := by
  induction l generalizing s with
  | nil => exact .refl s
  | cons x r ih => exact (h s x).trans (ih _)
theorem emit_timeSent (s : State) (o : Output) : TimeSent s (s.emit o) := ⟨rfl, rfl, ⟨_, rfl⟩, fun _ => rfl, fun _ => .inl rfl, List.prefix_append _ _⟩
theorem modFarun_timeSent (s : State) (n : Nat) (f : Farun → Farun) : TimeSent s (s.modFarun n f) :=
  ⟨rfl, rfl, ⟨_, rfl⟩, fun _ => rfl, fun _ => .inl rfl, List.prefix_rfl⟩
theorem farunRecs_timeSent (s : State) (n : Nat) : TimeSent s (s.farunRecs n) :=
  foldl_timeSent (fun _ _ => (modFarun_timeSent _ _ _).trans (emit_timeSent _ _)) _ _
/-- The stamp of what port p has sent. -/
def State.stampTx (s : State) (p : Nat) : State :=
  s.modRt (fun x => { x with ports := tmod {} x.ports p (fun t => { t with lastTx := s.rt.now * 16 }) })
theorem stampTx_timePort (s : State) (p q : Nat) :
    (s.stampTx p).timePort q = if q = p then { s.timePort p with lastTx := s.rt.now * 16 } else s.timePort q := by
  simp [State.stampTx, State.modRt, State.timePort]
theorem stampTx_timeSent (s : State) (p : Nat) : TimeSent s (s.stampTx p) := by
  refine ⟨rfl, rfl, ⟨_, rfl⟩, fun q => ?_, fun q => ?_, List.prefix_rfl⟩
  · rw [stampTx_timePort]
    split
    · next h => rw [h]
    · rfl
  · rw [stampTx_timePort]
    split
    · exact .inr rfl
    · exact .inl rfl
/-- A port that is trained, and whose partner takes time records (R249). -/
def State.takesTime (s : State) (p : Nat) : Bool :=
  ((s.port p).st == .linked || (s.port p).st == .inService) && (s.port p).partner.format != 0 && (s.port p).partner.role != 3
/-- A record goes out on such a port, and an end-point attached there hears it. -/
theorem sendTime_takesTime {s : State} {p : Nat} (h : s.takesTime p = true) : TimeSent ((s.emit (.time p (s.timeRec p))).stampTx p) (s.sendTime p) := by
  rw [State.takesTime] at h
  rw [State.sendTime, if_pos h]
  dsimp only
  split
  · exact modFarun_timeSent _ _ _
  · exact .refl _
theorem sendTime_timeSent (s : State) (p : Nat) : TimeSent s (s.sendTime p) := by
  by_cases h : s.takesTime p = true
  · exact ((emit_timeSent _ _).trans (stampTx_timeSent _ _)).trans (sendTime_takesTime h)
  · rw [State.takesTime] at h
    rw [State.sendTime, if_neg h]
    exact .refl s
theorem sendTime_sends {s : State} {p : Nat} (h : s.takesTime p = true) :
    ((s.sendTime p).timePort p).lastTx = s.rt.now * 16 ∧ .time p (s.timeRec p) ∈ (s.sendTime p).out := by
  have hs := sendTime_takesTime h
  constructor
  · have hstamp : (((s.emit (.time p (s.timeRec p))).stampTx p).timePort p).lastTx = s.rt.now * 16 := by
      rw [stampTx_timePort, if_pos rfl]; rfl
    rcases hs.tx p with hp | hp
    · exact hp.trans hstamp
    · exact hp
  · exact hs.out.subset (List.mem_append_right _ (List.mem_singleton.mpr rfl))
/-- Every port of the list that takes time records has sent one, with the count, quality and stratum of the device and the stamp that it last received there. -/
theorem foldl_sendTime_sends {s : State} {p : Nat} {l : List Nat} (hp : p ∈ l) (h : s.takesTime p = true) :
    ((l.foldl State.sendTime s).timePort p).lastTx = s.rt.now * 16 ∧ ∃ r, .time p r ∈ (l.foldl State.sendTime s).out ∧
      r.txTime = s.rt.now * 16 ∧ r.quality = s.rt.quality.code ∧ r.stratum = s.rt.stratum ∧ r.echo = (s.timePort p).lastRxTx := by
  obtain ⟨before, after, rfl⟩ := List.append_of_mem hp
  rw [List.foldl_append, List.foldl_cons]
  have hu : TimeSent s (before.foldl State.sendTime s) := foldl_timeSent sendTime_timeSent _ _
  generalize before.foldl State.sendTime s = u at hu ⊢
  have ht : TimeSent (u.sendTime p) (after.foldl State.sendTime (u.sendTime p)) := foldl_timeSent sendTime_timeSent _ _
  obtain ⟨hstamp, hout⟩ := sendTime_sends (s := u) (p := p) (by rw [State.takesTime, State.port, hu.ports]; exact h)
  obtain ⟨k, hk⟩ := hu.rt
  refine ⟨?_, u.timeRec p, ht.out.subset hout, ?_, ?_, ?_, hu.rx p⟩
  · rcases ht.tx p with hp | hp
    · rw [hp, hstamp, hu.now]
    · rw [hp, (sendTime_timeSent u p).now, hu.now]
  · rw [State.timeRec, hu.now]
  · rw [State.timeRec, hk]
  · rw [State.timeRec, hk]
/-- The first nanosecond of an epoch at a pool that is not ONLINE: nothing but the time records (R249, R251, R298). -/
theorem execEpochStart_offline {s : State} (hnow : s.rt.now % 2 ^ 20 = 0) (hpool : s.pool.st = 0) :
    exec .epochStart s = .next (s.farun.foldl (fun u x => u.farunRecs x.1) ((List.range 256).foldl State.sendTime s)) := by
  simp [exec, execEpochStart, hpool, show s.rt.now % 1048576 = 0 from hnow]

/-- Settles O28: the bound of 20 ns that a pulse slews, and the correction at once up to 50 ns, are the model's choice (log 40). -/
theorem rackTimeFollows : Obligations.RackTimeFollows := by
  unfold Obligations.RackTimeFollows
  refine ⟨fun s w hw hsrc hclk hq => ?_, fun s p r x hr hrq hsrc hx => ?_, fun s p r h => execTime_filtered h, fun s hnow hpool => ?_, fun s h0 hslot hq => ?_⟩
  · rw [execEpochPulse_locked hw hsrc hclk hq]
    refine ⟨fun h => congrArg _ (pulseLocked_slews h), fun hlo hhi h0 => ?_, fun h => congrArg _ (pulseLocked_rejects h)⟩
    obtain ⟨r, hr, hrq, hrest⟩ := pulseLocked_steps hlo hhi h0
    exact ⟨r, congrArg _ hr, hrq.trans hq, hrest⟩
  · rw [execTime_unfollowed hr hrq hsrc]
    subst hx
    exact ⟨fun h0 h => by rw [linkD_echoed h0 h]; rfl, fun h => by rw [linkD_other h]; rfl⟩
  · have hrecs : TimeSent ((List.range 256).foldl State.sendTime s) (s.farun.foldl (fun u x => u.farunRecs x.1) ((List.range 256).foldl State.sendTime s)) :=
      foldl_timeSent (fun _ _ => farunRecs_timeSent _ _) _ _
    have hall : TimeSent s _ := (foldl_timeSent sendTime_timeSent (List.range 256) s).trans hrecs
    refine ⟨_, execEpochStart_offline hnow hpool, hall.pool, hall.ports, hall.now, fun p hp hst hformat hrole => ?_⟩
    have htakes : s.takesTime p = true := by rcases hst with hst | hst <;> simp [State.takesTime, hst, hformat, hrole]
    obtain ⟨hstamp, r, hout, hr⟩ := foldl_sendTime_sends (List.mem_range.mpr hp) htakes
    refine ⟨?_, r, hrecs.out.subset hout, hr⟩
    rcases hrecs.tx p with htx | htx
    · exact htx.trans hstamp
    · exact htx.trans (congrArg (· * 16) (foldl_timeSent sendTime_timeSent (List.range 256) s).now)
  · simp [exec, execScheduledResume, h0, hslot, hq, State.modRt]

end Sys2Proof.Machine
end

section
/-! The standby bank of table images (R260, R265 to R269, R417): how it is filled, checked, armed, cancelled and retired. -/

namespace Sys2Proof.Machine
open Sys2Proof

-- A move of the standby bank touches the tables and the management side alone
theorem toBank_mgmt (s : State) (st : BankState) (self : Bool) (f : Tables → Tables) :
    Mgmt { s with tbl := { f s.tbl with stdState := st } } (s.toBank st self f) := noteChange_mgmt _ _ _ _ _
/-- The same where a command has set the managed state before. -/
theorem setMg_toBank_mgmt (s : State) (m : Option Nat) (st : BankState) (self : Bool) (f : Tables → Tables) :
    Mgmt { s with tbl := { f s.tbl with stdState := st } } ((s.setMg .bank m).toBank st self f) :=
  Mgmt.trans ⟨_, s.evt, s.out, rfl⟩ (toBank_mgmt (s.setMg .bank m) st self f)
theorem Mgmt.toBank {s t : State} (h : Mgmt s t) (m : Option Nat) (st : BankState) (self : Bool) (f : Tables → Tables) :
    Mgmt { s with tbl := { f s.tbl with stdState := st } } ((t.setMg .bank m).toBank st self f) := by
  obtain ⟨v, e, o, rfl⟩ := h
  exact Mgmt.trans ⟨v, e, o, rfl⟩ (setMg_toBank_mgmt _ m st self f)

-- Loading (R265, R417)
/-- The bytes of the image once a segment has joined them. -/
def State.imageBytes (s : State) (o : Nat) (d : Bytes) : Bytes := (if o = 0 then [] else s.tbl.stdBytes) ++ d
/-- The standby bank with these bytes: CHECKING where they hold IMG_LEN and as many bytes as it says (Table 9-14). -/
def State.filled (s : State) (bytes : Bytes) : Tables :=
  { s.tbl with
    stdBytes := bytes, stdLen := leAt bytes 8 4, checkSince := s.clk, std := {},
    stdState := if 12 ≤ bytes.length ∧ leAt bytes 8 4 ≤ bytes.length then .checking else .loading }
theorem fillBank_mgmt (s : State) (sess : Nat) (f : VFrame) : Mgmt { s with tbl := s.filled (s.imageBytes f.offset f.payload) } (s.fillBank sess f) := by
  have hbytes : (if f.offset == 0 then [] else s.tbl.stdBytes) ++ f.payload = s.imageBytes f.offset f.payload := by simp [State.imageBytes]
  unfold State.fillBank
  rw [hbytes]
  extract_lets bytes len full s1
  have hstate : (if full then BankState.checking else .loading) = if 12 ≤ bytes.length ∧ leAt bytes 8 4 ≤ bytes.length then .checking else .loading := by
    simp [full, len]
  rw [hstate]
  have hs1 : Mgmt s s1 := ⟨_, s.evt, s.out, rfl⟩
  exact hs1.toBank _ _ _ _
/-- The answer to a frame that writes is a response to the write. -/
theorem refuse_answers {s : State} {v : VCtx} {f : VFrame} (hop : f.op = 2) (hseq : f.seq = v.seq) (a : Nat) : Answered (s.refuse v.sess f a) v a := by
  refine ⟨s.rspFrame f a false [], ?_, rfl, hop, hseq, rfl⟩
  rw [refuse_out, List.getLast?_concat]
theorem judge_accepts {s w : State} {f : VFrame} {u : Option EUnit} {eff : State → Except Nat State} (hu : ∀ x, u = some x → (s.epochRec x).epoch = f.epoch)
    (he : eff s = .ok w) : s.judge f u eff = (0, w.accept u) := by
  have hfresh : u.any (fun x => (s.epochRec x).epoch != f.epoch) = false := by
    cases u with
    | none => rfl
    | some x => simp [hu x rfl]
  rw [State.judge, hfresh, he]
  simp
theorem segmentBad_countDatagram (s : State) (i sess max have_ : Nat) (f : VFrame) :
    (s.countDatagram i).segmentBad sess f max have_ = s.segmentBad sess f max have_ := by
  unfold State.countDatagram
  split <;> rfl
/-- A segment that R417 lets through joins the bank where no image is being checked, armed or retired. -/
theorem imageWrite_fills {s : State} {sess : Nat} {f : VFrame} (hv : (s.epochRec .bank).epoch = f.epoch)
    (hseg : s.segmentBad sess f 4194304 s.tbl.stdBytes.length = none) (hfree : s.bankBusy = false) :
    ∃ w, Mgmt { s with tbl := s.filled (s.imageBytes f.offset f.payload) } w ∧ s.imageWrite sess f = w.refuse sess f 0 := by
  rw [State.imageWrite, hseg]
  dsimp only
  have hj := judge_accepts (s := s) (f := f) (w := s.fillBank sess f) (u := if f.offset == 0 then some .bank else none)
    (eff := fun t => check (!t.bankBusy) abortRefused (.ok (t.fillBank sess f))) (fun x hx => ?_) (by simp [check, hfree])
  · exact ⟨_, (fillBank_mgmt s sess f).trans (accept_mgmt _ _), by rw [State.vaneJudge, hj]⟩
  · split at hx
    · cases hx; exact hv
    · cases hx
/-- The frame of a segment of TBL.IMAGE. -/
def segmentFrame (v : VCtx) (o : Nat) (l : Bool) (d : Bytes) : VFrame := { writeFrame v 0x7100 1 d with offset := o, last := l }
/-- A segment of TBL.IMAGE that comes to its object joins the standby bank (R265, R417, R420). -/
theorem tblImage_accepts {s : State} {v : VCtx} {o : Nat} {l : Bool} {d : Bytes} (hreach : Reaches s v.sess (segmentFrame v o l d))
    (hv : (s.epochRec .bank).epoch = v.epoch) (hseg : s.segmentBad v.sess (segmentFrame v o l d) 4194304 s.tbl.stdBytes.length = none)
    (hfree : s.bankBusy = false) : Accepts (.tblImage v o l d) v s { s with tbl := s.filled (s.imageBytes o d) } := by
  have hserve : exec (.tblImage v o l d) s = .next ((s.countDatagram v.sess).imageWrite v.sess (segmentFrame v o l d)) :=
    congrArg Host.Outcome.next (vaneServe_reaches hreach _)
  obtain ⟨vane, evt, out, hcount⟩ := countDatagram_mgmt s v.sess
  obtain ⟨w, hw, hwrite⟩ := imageWrite_fills (s := s.countDatagram v.sess) (f := segmentFrame v o l d) ((countDatagram_epochRec _ _ _).symm ▸ hv)
    ((segmentBad_countDatagram _ _ _ _ _ _).trans (by simpa using hseg)) (by simpa [State.bankBusy] using hfree)
  refine ⟨_, hserve.trans (congrArg _ hwrite), refuse_answers rfl rfl 0, ?_⟩
  rw [hcount] at hw
  exact (Mgmt.trans ⟨vane, evt, out, rfl⟩ hw).trans (refuse_mgmt _ _ _ _)

-- Checking (R266)
/-- The tables once the standby image has been checked: with it decoded, or with the code of its fault. -/
def State.checked (s : State) : Tables :=
  if (imageCheck s s.tbl.stdBytes).1 = 0 then
    { s.tbl with stdState := .ready, std := decodeImage s.tbl.stdBytes, loadCode := 0, loadType := 0, loadOff := 0 }
  else { s.tbl with
    stdState := .empty, std := {}, stdBytes := [], stdLen := 0, loadCode := (imageCheck s s.tbl.stdBytes).1,
    loadType := (imageCheck s s.tbl.stdBytes).2.1, loadOff := (imageCheck s s.tbl.stdBytes).2.2 }
theorem imageCheckDone_checks {s : State} (h : s.tbl.stdState = .checking) : Does .imageCheckDone s { s with tbl := s.checked } := by
  unfold Does exec execImageCheckDone State.checked
  dsimp only
  rw [if_neg (by simp [h])]
  refine ⟨_, rfl, ?_⟩
  by_cases hok : (imageCheck s s.tbl.stdBytes).1 = 0
  · rw [if_pos hok, if_pos (by simpa using hok)]
    exact setMg_toBank_mgmt _ _ _ _ _
  · rw [if_neg hok, if_neg (by simpa using hok)]
    exact (toBank_mgmt _ _ _ _).trans (event_mgmt _ _ _ _ _ _ _)

/-- Settles O29: that the bank stays LOADING after an early LAST is the model's choice (log 37), as LAST does not enter `State.filled`. -/
theorem imageLoads : Obligations.ImageLoads := by
  unfold Obligations.ImageLoads
  exact ⟨fun s v o l d hreach hv hseg hfree => tblImage_accepts hreach hv hseg hfree, fun s h => imageCheckDone_checks h⟩

end Sys2Proof.Machine
end

section
/-! The tables and the package's role outside the table commands (R269): each operation that a switch-over reaches, the step-up of R441 among them, leaves both. -/

namespace Sys2Proof.Machine
open Sys2Proof

/-- The tables and the role that they give the package are in `t` as in `s`. -/
abbrev SameTables (s t : State) : Prop := t.tbl = s.tbl ∧ t.dev.mode = s.dev.mode
theorem SameTables.refl (s : State) : SameTables s s := ⟨rfl, rfl⟩
theorem SameTables.trans {s t u : State} (h : SameTables s t) (g : SameTables t u) : SameTables s u := by
  obtain ⟨ht, hr⟩ := h
  obtain ⟨gt, gr⟩ := g
  exact ⟨gt.trans ht, gr.trans hr⟩
@[simp] theorem ite_tables (c : Prop) [Decidable c] (s t : State) : (if c then s else t).tbl = if c then s.tbl else t.tbl :=
  apply_ite (fun u : State => u.tbl) c s t
@[simp] theorem ite_role (c : Prop) [Decidable c] (s t : State) : (if c then s else t).dev.mode = if c then s.dev.mode else t.dev.mode :=
  apply_ite (fun u : State => u.dev.mode) c s t
/-- Steps that each keep the tables keep them one after another. -/
@[simp] theorem foldl_tables {α : Type} {f : State → α → State} (h : ∀ s x, SameTables s (f s x)) (l : List α) (s : State) :
    SameTables s (l.foldl f s) := by
  induction l generalizing s with
  | nil => exact .refl s
  | cons x r ih => exact (h s x).trans (ih _)

-- What the management side, carriage, requests that go out and engines reach is neither
theorem Mgmt.tables {s t : State} (h : Mgmt s t) : SameTables s t := by
  obtain ⟨v, e, o, rfl⟩ := h
  exact .refl s
theorem FloodOnly.role {d e : Dev} (h : FloodOnly d e) : e.mode = d.mode := by
  rcases h with rfl | ⟨_, p, x, _, rfl⟩ <;> rfl
theorem Carried.tables {s t : State} (h : Carried s t) : SameTables s t := by
  obtain ⟨dev, vane, evt, out, tel, ports, sw, xact, win, hd, hp, rfl⟩ := h
  exact ⟨rfl, hd.role⟩
theorem Sent.tables {s t : State} (h : Sent s t) : SameTables s t := by
  obtain ⟨r, hr⟩ := h
  exact hr.tables
theorem Moved.tables {s t : State} (h : Moved s t) : SameTables s t := by
  obtain ⟨m, x, r, hc⟩ := h
  exact hc.tables

-- What every family uses
theorem modPool_tables (s : State) (f : Pool → Pool) : SameTables s (s.modPool f) := ⟨rfl, rfl⟩
@[simp] theorem cmdChange_tables (s : State) (u : EUnit) (f : State → State) : SameTables (f s) (s.cmdChange u f) := (cmdChange_mgmt _ _ _).tables
@[simp] theorem selfChange_tables (s : State) (u : EUnit) (f : State → State) : SameTables (f s) (s.selfChange u f) := (selfChange_mgmt _ _ _).tables
@[simp] theorem toPhase_tables (s : State) (ph : Phase) (self : Bool) : SameTables s (s.toPhase ph self) := by simp [SameTables, State.toPhase]
@[simp] theorem settlePhase_tables (s : State) : SameTables s s.settlePhase := (settlePhase_carried _).tables

-- The switch core, and what goes out
@[simp] theorem setAdm_tables (s : State) (a v held out : Nat) : SameTables s (s.setAdm a v held out) := (setAdm_carried _ _ _ _ _).tables
@[simp] theorem charge_tables (s : State) (a v n : Nat) : SameTables s (s.charge a v n) := (charge_carried _ _ _ _).tables
@[simp] theorem freeCells_tables (s : State) (a v n : Nat) : SameTables s (s.freeCells a v n) := (freeCells_carried _ _ _ _).tables
@[simp] theorem addRepin_tables (s : State) (c : RepinCause) (dur : Nat) : SameTables s (s.addRepin c dur) := (addRepin_carried _ _ _).tables
@[simp] theorem markFlow_tables (s : State) (t : Txn) (adm : Nat) : SameTables s (s.markFlow t adm) := (markFlow_carried _ _ _).tables
@[simp] theorem dropMarks_tables (s : State) (p : Mark → Bool) : SameTables s (s.dropMarks p) := (dropMarks_carried _ _).tables
@[simp] theorem enqueue_tables (s : State) (egress vc : Nat) (e : QEntry) : SameTables s (s.enqueue egress vc e) := (enqueue_carried _ _ _ _).tables
@[simp] theorem release_tables (s : State) (e : QEntry) : SameTables s (s.release e) := (release_carried _ _).tables
@[simp] theorem sendRsp_tables (s : State) (e : QEntry) : SameTables s (s.sendRsp e) := (sendRsp_carried _ _).tables
@[simp] theorem failEntry_tables (s : State) (e : QEntry) (st : Nat) (repl : Bool) :
    SameTables s (s.failEntry e st repl) := (failEntry_carried _ _ _ _).tables
@[simp] theorem ageRsp_tables (s : State) (e : QEntry) : SameTables s (s.ageRsp e) := by simp [SameTables, State.ageRsp]
@[simp] theorem failContribs_tables (st : Nat) (m : MarkOf) (l : List Contrib) (s : State) : SameTables s (failContribs st m l s) :=
  (failContribs_carried _ _ _ _).tables
@[simp] theorem countRevoked_tables (s : State) : SameTables s s.countRevoked := by simp [SameTables, State.countRevoked]
@[simp] theorem retire_tables (s : State) (e : QEntry) : SameTables s (s.retire e) := by
  unfold State.retire
  dsimp only
  split
  · simp [SameTables]
  split <;> simp [SameTables]
@[simp] theorem forward_tables (s : State) (e : QEntry) : SameTables s (s.forward e) := (forward_carried _ _).tables
@[simp] theorem issue_tables (s : State) (t : Txn) (who : Purpose) (timeout : Nat) : SameTables s (s.issue t who timeout) := (issue_sent _ _ _ _).tables
@[simp] theorem endReq_tables (s : State) (key : Nat) : SameTables s (s.endReq key) := (endReq_sent _ _).tables
@[simp] theorem sendOut_tables (s : State) (t : Txn) : SameTables s (s.sendOut t) := (sendOut_carried _ _).tables

-- Translation, holds and withdrawals
@[simp] theorem touch_tables (s : State) (tile ctx va : Nat) (hit : Bool) : SameTables s (s.touch tile ctx va hit) := by simp [SameTables, State.touch]
@[simp] theorem countMiss_tables (s : State) (tile : Nat) : SameTables s (s.countMiss tile) := by simp [SameTables, State.countMiss]
@[simp] theorem edgeFail_tables (s : State) (e : QEntry) (st : Nat) : SameTables s (s.edgeFail e st) := by simp [SameTables, State.edgeFail]
@[simp] theorem edgeRetry_tables (s : State) (e : QEntry) : SameTables s (s.edgeRetry e) := by simp [SameTables, State.edgeRetry]
@[simp] theorem edgeForward_tables (s : State) (e : QEntry) (x : TEntry) : SameTables s (s.edgeForward e x) := by simp [SameTables, State.edgeForward]
theorem addMiss_tables {s t : State} {d : Nat} {m : Miss} (h : s.addMiss d m = some t) : SameTables s t :=
  (addMiss_xlated h).moved.tables
@[simp] theorem setHolds_tables (s : State) (tile : Nat) (l : List Held) : SameTables s (s.setHolds tile l) := by simp [SameTables, State.setHolds]
@[simp] theorem sendMgt_tables (s : State) (t : Txn) : SameTables s (s.sendMgt t) := (sendMgt_moved _ _).tables
@[simp] theorem askHost_tables (s : State) (h ctx va asker : Nat) (wr : Bool) : SameTables s (s.askHost h ctx va asker wr) := by simp [SameTables, State.askHost]
@[simp] theorem askPage_tables (s : State) (ctx va : Nat) (wr : Bool) : SameTables s (s.askPage ctx va wr) := by
  unfold State.askPage
  split <;> simp [SameTables]
@[simp] theorem translateDirect_tables (s : State) (e : QEntry) (since : Nat) (first : Bool) : SameTables s (s.translateDirect e since first) := by
  dsimp only [State.translateDirect]
  split
  · simp [SameTables]
  split
  · simp [SameTables]
  split
  · simp [SameTables]
  · next hm => simp [SameTables, addMiss_tables hm]
@[simp] theorem resumeHolds_tables (tile : Nat) (l : List Held) (s : State) : SameTables s (resumeHolds tile l s) := by
  induction l generalizing s with
  | nil => exact .refl s
  | cons h r ih => simp [SameTables, resumeHolds, ih]
@[simp] theorem resumeTile_tables (s : State) (tile : Nat) : SameTables s (s.resumeTile tile) := by simp [SameTables, State.resumeTile]
@[simp] theorem applyNotice_tables (s : State) (home id : Nat) (fa : Bool) (ctx base len2m : Nat) :
    SameTables s (s.applyNotice home id fa ctx base len2m) := (applyNotice_moved _ _ _ _ _ _ _).tables
@[simp] theorem runWd_tables (s : State) (w : Withdrawal) : SameTables s (s.runWd w) := by simp [SameTables, State.runWd]
@[simp] theorem startWd_tables (s : State) (fa : Bool) (ctx base len2m nfa nval : Nat) (cause : WdCause) :
    SameTables s (s.startWd fa ctx base len2m nfa nval cause) := by simp [SameTables, State.startWd]
@[simp] theorem wdNext_tables (n : Nat) (s : State) : SameTables s (wdNext n s) := by
  induction n generalizing s with
  | zero => exact .refl s
  | succ n ih =>
    rw [wdNext]
    split
    · exact .refl _
    split
    · simp [SameTables, ih]
    split
    · exact .refl _
    · simp [SameTables, ih]

-- The pool: poison, the directory, moves, extents
@[simp] theorem moraine_tables (s : State) (m : Moraine) : SameTables s (s.moraine m) := by simp [SameTables, State.moraine]
@[simp] theorem moraineFor_tables (e : Nat) (x : Ext) (cause stack : Nat) (lines : List Nat) (s : State) (page : Nat) :
    SameTables s (moraineFor e x cause stack lines s page) := by simp [SameTables, moraineFor]
@[simp] theorem recordPoison_tables (s : State) (e : Nat) (x : Ext) (cause stack : Nat) (lines : List Nat) :
    SameTables s (s.recordPoison e x cause stack lines) := by simp [SameTables, State.recordPoison]
@[simp] theorem poison_tables (s : State) (e : Nat) (x : Ext) (cause stack : Nat) (lines : List Nat) :
    SameTables s (s.poison e x cause stack lines) := by simp [SameTables, State.poison]
@[simp] theorem dirDrop_tables (s : State) (line h : Nat) : SameTables s (s.dirDrop line h) := by
  unfold State.dirDrop
  split <;> simp [SameTables]
@[simp] theorem noteLost_tables (s : State) (e h : Nat) : SameTables s (s.noteLost e h) := by simp [SameTables, State.noteLost]
@[simp] theorem dirDead_tables (s : State) (line h : Nat) : SameTables s (s.dirDead line h) := by
  unfold State.dirDead
  split
  · simp [SameTables]
  split
  · split <;> simp [SameTables]
  · simp [SameTables]
@[simp] theorem dirClean_tables (s : State) (line : Nat) : SameTables s (s.dirClean line) := by
  unfold State.dirClean
  split <;> simp [SameTables]
@[simp] theorem modMove_tables (s : State) (mv : Nat) (f : Move → Move) : SameTables s (s.modMove mv f) := by simp [SameTables, State.modMove]
@[simp] theorem abortMove_tables (s : State) (mv : Nat) : SameTables s (s.abortMove mv) := by
  unfold State.abortMove
  split <;> simp [SameTables]
@[simp] theorem abortCheck_tables (s : State) (mv : Nat) : SameTables s (s.abortCheck mv) := by
  unfold State.abortCheck
  split <;> simp [SameTables]
@[simp] theorem sendBisnp_tables (s : State) (line h : Nat) : SameTables s (s.sendBisnp line h) := by simp [SameTables, State.sendBisnp]
@[simp] theorem startBackInv_tables (s : State) (line h : Nat) (discard : Bool) (rev : Option (Nat × Nat)) :
    SameTables s (s.startBackInv line h discard rev) := by simp [SameTables, State.startBackInv]
@[simp] theorem backInvExt_tables (s : State) (x : Ext) (only : Option Nat) (discard : Bool) (rev : Option (Nat × Nat)) :
    SameTables s (s.backInvExt x only discard rev) := by simp [SameTables, State.backInvExt]
@[simp] theorem extRelease_tables (s : State) (e : Nat) : SameTables s (s.extRelease e) := by simp [SameTables, State.extRelease]
@[simp] theorem driftIssue_tables (s : State) (mv n : Nat) : SameTables s (s.driftIssue mv n) := by
  induction n generalizing s with
  | zero => exact .refl s
  | succ n ih =>
    rw [State.driftIssue]
    split
    · exact .refl _
    · split
      · exact ((modMove_tables _ _ _).trans (issue_tables _ _ _ _)).trans (ih _)
      · exact .refl _

-- Rings
@[simp] theorem modWork_tables (s : State) (n idx : Nat) (f : Work → Work) : SameTables s (s.modWork n idx f) := (modWork_moved _ _ _ _).tables

-- Contexts and keys
@[simp] theorem setCtx_tables (s : State) (c : Nat) (st : CtxState) : SameTables s (s.setCtx c st) := by simp [SameTables, State.setCtx]
@[simp] theorem sweepQueue_tables (s : State) (c egress : Nat) : SameTables s (s.sweepQueue c egress) := by simp [SameTables, State.sweepQueue]
@[simp] theorem sweepLine_tables (s : State) (c tile : Nat) : SameTables s (s.sweepLine c tile) := by simp [SameTables, State.sweepLine]
@[simp] theorem sweepHolds_tables (s : State) (c tile : Nat) : SameTables s (s.sweepHolds c tile) := by simp [SameTables, State.sweepHolds]
@[simp] theorem sweep_tables (s : State) (c : Nat) : SameTables s (s.sweep c) := by simp [SameTables, State.sweep]
@[simp] theorem revokeGrant_tables (s : State) (e g : Nat) : SameTables s (s.revokeGrant e g) := by simp [SameTables, State.revokeGrant]
@[simp] theorem destroyKey_tables (s : State) (k : Nat) : SameTables s (s.destroyKey k) := by simp [SameTables, State.destroyKey]
@[simp] theorem destroyKeys_tables (s : State) (c : Nat) : SameTables s (s.destroyKeys c) := by simp [SameTables, State.destroyKeys]
@[simp] theorem enterRevoking_tables (s : State) (c : Nat) : SameTables s (s.enterRevoking c) := by simp [SameTables, State.enterRevoking]
@[simp] theorem thaw_tables (s : State) (c : Nat) : SameTables s (s.thaw c) := by simp [SameTables, State.thaw]
@[simp] theorem sendCtx_tables (s : State) (c : Nat) (clean : Bool) : SameTables s (s.sendCtx c clean) := by simp [SameTables, State.sendCtx]
@[simp] theorem modChange_tables (s : State) (c : Nat) (f : CtxChange → CtxChange) : SameTables s (s.modChange c f) := by simp [SameTables, State.modChange]
@[simp] theorem ctxStep_tables (s : State) (ch : CtxChange) (to_ : CtxState) : SameTables s (s.ctxStep ch to_) := by
  unfold State.ctxStep
  split <;> simp [SameTables]
@[simp] theorem ctxAdvance_tables (s : State) (ch : CtxChange) : SameTables s (s.ctxAdvance ch) := by
  dsimp only [State.ctxAdvance]
  split <;> simp [SameTables]
@[simp] theorem ctxAck_tables (s : State) (n c : Nat) : SameTables s (s.ctxAck n c) := by
  unfold State.ctxAck
  split <;> simp [SameTables]
@[simp] theorem ctxAbsent_tables (s : State) (n : Nat) : SameTables s (s.ctxAbsent n) := by simp [SameTables, State.ctxAbsent]

-- Attached end-points
@[simp] theorem farunOut_tables (s : State) (n engine p : Nat) (t : Txn) (dest : Option Nat) :
    SameTables s (s.farunOut n engine p t dest) := by simp [SameTables, State.farunOut]
@[simp] theorem farunSend_tables (s : State) (n engine : Nat) (t0 : Txn) : SameTables s (s.farunSend n engine t0) := by
  dsimp only [State.farunSend]
  split
  · simp [SameTables]
  split <;> simp [SameTables]
@[simp] theorem farunKick_tables (s : State) (n : Nat) : SameTables s (s.farunKick n) := by simp [SameTables, State.farunKick]
@[simp] theorem fenceEnd_tables (s : State) (n engine : Nat) : SameTables s (s.fenceEnd n engine) := by simp [SameTables, State.fenceEnd]
@[simp] theorem farunEnd_tables (s : State) (key engine : Nat) (o : OutReq) (st : Status) (tnode : Nat) :
    SameTables s (s.farunEnd key engine o st tnode) := by simp [SameTables, State.farunEnd]
@[simp] theorem farunSyncEnd_tables (s : State) (key engine : Nat) (o : OutReq) (st : Status) :
    SameTables s (s.farunSyncEnd key engine o st) := by simp [SameTables, State.farunSyncEnd]
@[simp] theorem farunTimeout_tables (s : State) (n : Nat) (p : OutReq → Bool) : SameTables s (s.farunTimeout n p) :=
  foldl_tables (fun _ _ => by split <;> simp [SameTables]) _ _
@[simp] theorem farunPortDown_tables (s : State) (p : Nat) : SameTables s (s.farunPortDown p) := by simp [SameTables, State.farunPortDown]

-- Operator runs
@[simp] theorem sendCol_tables (s : State) (t : Txn) : SameTables s (s.sendCol t) := by simp [SameTables, State.sendCol]
@[simp] theorem sendCtl_tables (s : State) (i kind phase st : Nat) : SameTables s (s.sendCtl i kind phase st) := by simp [SameTables, State.sendCtl]
@[simp] theorem orphanRun_tables (s : State) (i : Nat) : SameTables s (s.orphanRun i) := by simp [SameTables, State.orphanRun]
@[simp] theorem thawStripe_tables (s : State) (e : OpsEntry) : SameTables s (s.thawStripe e) := by simp [SameTables, State.thawStripe]
@[simp] theorem endLaunch_tables (s : State) (i : Nat) (st : Status) : SameTables s (s.endLaunch i st) := by simp [SameTables, State.endLaunch]
@[simp] theorem runFail_tables (s : State) (i : Nat) (st : Status) : SameTables s (s.runFail i st) := by simp [SameTables, State.runFail]
@[simp] theorem creditAll_tables (s : State) : SameTables s s.creditAll := by simp [SameTables, State.creditAll]
@[simp] theorem restoreLanded_tables (s : State) (n : Nat) : SameTables s (s.restoreLanded n) := by simp [SameTables, State.restoreLanded]
@[simp] theorem failTouching_tables (s : State) (n : Nat) : SameTables s (s.failTouching n) := by simp [SameTables, State.failTouching]

-- Departures, and the withdrawals that they end
@[simp] theorem restorePage_tables (s : State) (page fa : Nat) : SameTables s (s.restorePage page fa) := by
  rw [State.restorePage]
  cases s.pool.landed.find? (fun l => l.1 == fa) with
  | none => exact .refl s
  | some l =>
    obtain ⟨_, _, entry⟩ := l
    cases s.restoreFrame page with
    | none => exact (event_mgmt _ _ _ _ _ _ _).tables
    | some g =>
      cases extOfOff s page with
      | none => exact (event_mgmt _ _ _ _ _ _ _).tables
      | some y => exact ((poison_tables _ _ _ _ _ _).trans (modPool_tables _ _)).trans (issue_tables _ _ _ _)
@[simp] theorem setBind_tables (s : State) (c : Nat) (b : Bind) : SameTables s (s.setBind c b) := (setBind_moved _ _ _).tables
@[simp] theorem dropWd_tables (s : State) (id : Nat) : SameTables s (s.dropWd id) := by simp [SameTables, State.dropWd]
@[simp] theorem wdComplete_tables (s : State) (w : Withdrawal) : SameTables s (s.wdComplete w) := by
  dsimp only [State.wdComplete]
  repeat' split
  all_goals simp [SameTables]
@[simp] theorem wdDone_tables (s : State) (n id : Nat) : SameTables s (s.wdDone n id) := by
  unfold State.wdDone
  split <;> simp [SameTables]
@[simp] theorem wdAbsent_tables (s : State) (n : Nat) : SameTables s (s.wdAbsent n) := by simp [SameTables, State.wdAbsent]
@[simp] theorem tableDone_tables (s : State) (n : Nat) : SameTables s (s.tableDone n) := by simp [SameTables, State.tableDone]
@[simp] theorem applyLeave_tables (s : State) (n kind uid slot : Nat) : SameTables s (s.applyLeave n kind uid slot) := by
  unfold State.applyLeave
  split
  · split <;> simp [SameTables]
  · simp [SameTables]
@[simp] theorem sendLeave_tables (s : State) (nodes : List Nat) (kind uid : Nat) : SameTables s (s.sendLeave nodes kind uid) := by simp [SameTables, State.sendLeave]
@[simp] theorem declareLeave_tables (s : State) (nodes : List Nat) (kind uid : Nat) :
    SameTables s (s.declareLeave nodes kind uid) := by simp [SameTables, State.declareLeave]
@[simp] theorem askTable_tables (s : State) : SameTables s s.askTable := by simp [SameTables, State.askTable]

-- Rack time
@[simp] theorem setQuality_tables (s : State) (q : Quality) : SameTables s (s.setQuality q) := by simp [SameTables, State.setQuality]
@[simp] theorem refLoss_tables (s : State) : SameTables s s.refLoss := by
  unfold State.refLoss
  split <;> simp [SameTables]

-- Ports: going down, training anew, and the step-up of R441
@[simp] theorem toPort_tables (s : State) (p : Nat) (st : PortState) (self : Bool) (f : Port → Port) :
    SameTables s (s.toPort p st self f) := by simp [SameTables, State.toPort]
@[simp] theorem modLanes_tables (s : State) (p : Nat) (f : Nat → Lane → Lane) : SameTables s (s.modLanes p f) := by simp [SameTables, State.modLanes]
@[simp] theorem lanesOff_tables (s : State) (p : Nat) : SameTables s (s.lanesOff p) := by simp [SameTables, State.lanesOff]
@[simp] theorem toDetect_tables (s : State) (p n : Nat) (self : Bool) : SameTables s (s.toDetect p n self) := by simp [SameTables, State.toDetect]
@[simp] theorem recordTest_tables (s : State) (p i res : Nat) (c : Nat × Nat) : SameTables s (s.recordTest p i res c) := by simp [SameTables, State.recordTest]
@[simp] theorem abortTest_tables (s : State) (p : Nat) : SameTables s (s.abortTest p) := by
  unfold State.abortTest
  split <;> simp [SameTables]
@[simp] theorem countMelt_tables (s : State) (cls : Nat) : SameTables s (s.countMelt cls) := by simp [SameTables, State.countMelt]
@[simp] theorem downEntry_tables (p : Nat) (s : State) (e : QEntry) : SameTables s (State.downEntry p s e) := by
  unfold State.downEntry
  split
  · split <;> simp [SameTables]
  · simp [SameTables]
  · split <;> simp [SameTables]
  · simp [SameTables]
  · simp [SameTables]
@[simp] theorem downFlit_tables (s : State) (f : RetryFlit) : SameTables s (s.downFlit f) := by
  unfold State.downFlit
  split <;> simp [SameTables]
@[simp] theorem partnerGone_tables (s : State) (p : Nat) : SameTables s (s.partnerGone p) := by
  dsimp only [State.partnerGone]
  split <;> simp [SameTables]
@[simp] theorem portDown_tables (s : State) (p cause : Nat) (self : Bool) (to_ : PortState) :
    SameTables s (s.portDown p cause self to_) := by simp [SameTables, State.portDown]
@[simp] theorem retrainPort_tables (s : State) (p : Nat) (self : Bool) : SameTables s (s.retrainPort p self) := by
  unfold State.retrainPort
  split <;> simp [SameTables]
@[simp] theorem startGroup_tables (s : State) (g : Nat) : SameTables s (s.startGroup g) := by simp [SameTables, State.startGroup]
@[simp] theorem fullCheck_tables (s : State) : SameTables s s.fullCheck := by simp [SameTables, State.fullCheck]
@[simp] theorem stepOn_tables (n : Nat) (s : State) : SameTables s (stepOn n s) := by
  induction n generalizing s with
  | zero => exact .refl s
  | succ n ih =>
    rw [stepOn]
    split
    · exact .refl _
    · simp [SameTables, ih]
@[simp] theorem stepCheck_tables (s : State) : SameTables s s.stepCheck := by simp [SameTables, State.stepCheck]

end Sys2Proof.Machine
end

section
/-! Switching over to a new image (R267 to R269): what the switch itself puts in force, and that what follows it leaves that. -/

namespace Sys2Proof.Machine
open Sys2Proof

/-- Beside the tables and the role, rack time, the pool and the hop count are in `t` as in `s`. -/
def SwitchKept (s t : State) : Prop := SameTables s t ∧ t.rt = s.rt ∧ t.pool = s.pool ∧ t.sw.hops = s.sw.hops
theorem SwitchKept.refl (s : State) : SwitchKept s s := ⟨.refl s, rfl, rfl, rfl⟩
theorem SwitchKept.tables {s t : State} (h : SwitchKept s t) : SameTables s t := h.1
theorem SwitchKept.trans {s t u : State} (h : SwitchKept s t) (g : SwitchKept t u) : SwitchKept s u := by
  obtain ⟨ht, hr, hp, hh⟩ := h
  obtain ⟨gt, gr, gp, gh⟩ := g
  exact ⟨ht.trans gt, gr.trans hr, gp.trans hp, gh.trans hh⟩
theorem foldl_kept {α : Type} {f : State → α → State} (h : ∀ s x, SwitchKept s (f s x)) (l : List α) (s : State) : SwitchKept s (l.foldl f s) := by
  induction l generalizing s with
  | nil => exact .refl s
  | cons x r ih => exact (h s x).trans (ih _)
theorem Mgmt.kept {s t : State} (h : Mgmt s t) : SwitchKept s t := by
  obtain ⟨v, e, o, rfl⟩ := h
  exact .refl s

-- Instances under the new image (R230, R359)
theorem thawStripe_kept (s : State) (e : OpsEntry) : SwitchKept s (s.thawStripe e) := by
  dsimp only [State.thawStripe]
  split
  · exact .refl s
  · exact .refl s
theorem modInst_kept (s : State) (i : Nat) (f : Inst → Inst) : SwitchKept s (s.modInst i f) := .refl s
theorem endLaunch_kept (s : State) (i : Nat) (st : Status) : SwitchKept s (s.endLaunch i st) := by
  unfold State.endLaunch
  extract_lets x s1 s2
  have h2 : SwitchKept s s2 := .refl s
  split
  · exact h2.trans (thawStripe_kept _ _)
  · exact h2
theorem rearm_kept (s : State) (i : Nat) : SwitchKept s (s.rearm i) := by
  unfold State.rearm
  extract_lets x e s1
  have h1 : SwitchKept s s1 := thawStripe_kept _ _
  split
  · exact (h1.trans (modInst_kept _ _ _)).trans (endLaunch_kept _ _ _)
  · exact h1.trans (modInst_kept _ _ _)

-- Marks, end-points and frames
theorem toPhase_kept (s : State) (p : Phase) (self : Bool) : SwitchKept s (s.toPhase p self) :=
  SwitchKept.trans (t := { s with dev := { s.dev with phase := p, phaseSince := s.clk } }) (.refl s) (noteChange_mgmt _ _ _ _ _).kept
theorem settlePhase_kept (s : State) : SwitchKept s s.settlePhase := by
  unfold State.settlePhase
  split
  · exact toPhase_kept _ _ _
  · split
    · exact toPhase_kept _ _ _
    · exact .refl s
theorem addRepin_kept (s : State) (c : RepinCause) (d : Nat) : SwitchKept s (s.addRepin c d) := .refl s
theorem dropMarks_kept (s : State) (p : Mark → Bool) : SwitchKept s (s.dropMarks p) := by
  unfold State.dropMarks State.floodCheck
  split
  · refine SwitchKept.trans ?_ (settlePhase_kept _)
    refine SwitchKept.trans ?_ (addRepin_kept _ _ _)
    exact SwitchKept.trans (t := { s with sw := { s.sw with marks := s.sw.marks.filter (fun m => !p m), flood := false } }) (.refl s) (event_mgmt _ _ _ _ _ _ _).kept
  · exact .refl s
theorem modFarun_kept (s : State) (n : Nat) (f : Farun → Farun) : SwitchKept s (s.modFarun n f) := .refl s
theorem farunRenumber_kept (s : State) (n : Nat) : SwitchKept s (s.farunRenumber n) := by
  dsimp only [State.farunRenumber]
  split
  · exact .refl s
  · exact .refl s
theorem farunRegive_kept (s : State) : SwitchKept s s.farunRegive := foldl_kept (fun _ _ => (modFarun_kept _ _ _).trans (farunRenumber_kept _ _)) _ _
theorem modPort_kept (s : State) (p : Nat) (f : Port → Port) : SwitchKept s (s.modPort p f) := .refl s
theorem noteGiven_kept (s : State) (p : Nat) : SwitchKept s (s.noteGiven p) := by
  unfold State.noteGiven
  split
  · exact Mgmt.kept ⟨_, s.evt, s.out, rfl⟩
  · exact .refl s
theorem emitCap_kept (s : State) (p : Nat) : SwitchKept s (s.emitCap p) := by
  unfold State.emitCap
  split
  · exact (emit_mgmt _ _).kept
  · exact .refl s
theorem sendCap_kept (s : State) (p : Nat) : SwitchKept s (s.sendCap p) := by
  dsimp only [State.sendCap]
  split
  · exact .refl s
  · exact ((noteGiven_kept _ _).trans (modPort_kept _ _ _)).trans (emitCap_kept _ _)

-- The switch
/-- The tables at a switch-over to the standby image for a slot (R269). -/
def State.switched (s : State) (slot : Nat) : Tables :=
  { s.tbl with
    retiring := some s.opsActive, retiringSince := s.clk, active := s.tbl.std, activeBank := 1 - s.tbl.activeBank, std := {}, stdBytes := [], stdLen := 0,
    armSlot := 0, activeSet := s.tbl.std.setId, switchSlot := slot, history := (s.rt.now, s.tbl.std.nodes) :: s.tbl.history.take 64, stdState := .retiring }
/-- The switch puts the standby image in force, with its role and hop count, and scheduled operation on where the device is LOCKED; what follows keeps that, and
where the built-in default has given way to it the step-up of R441 keeps the tables and the role. -/
theorem doSwitch_spec (s : State) (slot : Nat) : ∃ u : State,
    (u.tbl = s.switched slot ∧ u.dev.mode = s.tbl.std.role ∧ u.sw.hops = (if s.tbl.std.role = 0 then 1 else 3) ∧
      u.rt.scheduled = (s.rt.scheduled || s.rt.quality == .locked) ∧ u.pool = s.pool) ∧
    SameTables u (s.doSwitch slot) ∧ (s.builtIn = false → SwitchKept u (s.doSwitch slot)) := by
  unfold State.doSwitch
  extract_lets old wasDefault m s1 s2 dev rt sw ops s3 s3a s3b s4 s5 s6 s7
  have h2 : Mgmt { s1 with tbl := s.switched slot } s2 := setMg_toBank_mgmt s1 _ _ _ _
  obtain ⟨_, _, _, _, _, _, hrt, htbl, _, _, _, _, _, _, _, _, _, hpool, _⟩ := h2.keeps
  have hforce : s3.tbl = s.switched slot ∧ s3.dev.mode = s.tbl.std.role ∧ s3.sw.hops = (if s.tbl.std.role = 0 then 1 else 3) ∧
      s3.rt.scheduled = (s.rt.scheduled || s.rt.quality == .locked) ∧ s3.pool = s.pool := by
    have hhops : s3.sw.hops = if m.role == 0 then 1 else 3 := rfl
    have hsched : s3.rt.scheduled = (s2.rt.scheduled || s2.rt.quality == .locked) := rfl
    refine ⟨htbl, rfl, ?_, ?_, hpool⟩
    · rw [hhops]; simp [m]
    · rw [hsched, hrt]; rfl
  have h5 : SwitchKept s3 s5 := ((((foldl_kept (fun _ _ => thawStripe_kept _ _) _ s3).trans (foldl_kept (fun _ _ => rearm_kept _ _) _ s3a)).trans
    (dropMarks_kept _ _)).trans (farunRegive_kept _)).trans (event_mgmt _ _ _ _ _ _ _).kept
  have h6 : SameTables s5 s6 := by
    unfold s6
    split
    · exact askTable_tables _
    · exact .refl _
  have h7 : SwitchKept s6 s7 := foldl_kept (fun _ _ => sendCap_kept _ _) _ _
  refine ⟨s3, hforce, ?_, fun hb => ?_⟩
  · refine ((h5.tables.trans h6).trans h7.tables).trans ?_
    split
    · exact ((toPhase_tables _ _ _).trans (startGroup_tables _ _)).trans (stepCheck_tables _)
    · exact .refl _
  · have hw : wasDefault = false := hb
    have h56 : s6 = s5 := by simp [s6, hw]
    rw [h56] at h7
    rw [if_neg (by simp [hw])]
    exact h5.trans h7

-- Arming, cancelling and retiring
/-- The conditions of R267 and R43 on an arm for a slot of their own do not look at the management side. -/
theorem Mgmt.armOk {s t : State} (h : Mgmt s t) (x y : Nat) : t.armOk x y = s.armOk x y := by
  obtain ⟨v, e, o, rfl⟩ := h
  rfl
section
variable {s : State} {x y : Nat}
theorem armOk_of_ready (hx : x ≠ 0) (hst : s.tbl.stdState = .ready) (hy : s.tbl.std.version = y) (hlead : s.slot + s.tbl.minLead ≤ x) (hfar : x ≤ s.slot + 2 ^ 30)
    (hunset : s.rt.quality ≠ .unset) (hacq : s.rt.quality ≠ .acquiring) (hassign : s.assignOk (x * 1024) = true) : s.armOk x y = true := by
  have hfar' : x ≤ s.slot + 1073741824 := hfar
  simp [State.armOk, hx, hst, hy, hlead, hfar', hunset, hacq, hassign]
theorem armOk_of_other_version (hy : s.tbl.std.version ≠ y) (x : Nat) : s.armOk x y = false := by simp [State.armOk, hy]
theorem tblArmWrite_arms (hx : x ≠ 0) (h : s.armOk x y = true) :
    tblArmWrite x y s = .ok ((s.setMg .bank (some 4)).toBank .armed false (fun t => { t with armSlot := x })) := by simp [tblArmWrite, check, h, hx]
theorem tblArmWrite_refused (h : s.armOk x y = false) : tblArmWrite x y s = .error abortRefused := by simp [tblArmWrite, check, h]
theorem tblCancelWrite_armed (hst : s.tbl.stdState = .armed) (hy : s.tbl.std.version = y) (h : s.slot + 16 ≤ s.tbl.armSlot) :
    tblCancelWrite y s = .ok ((s.setMg .bank (some 3)).toBank .ready false (fun t => { t with armSlot := 0 })) := by simp [tblCancelWrite, hst, check, hy, h]
theorem tblCancelWrite_late (hst : s.tbl.stdState = .armed) (h : s.tbl.armSlot < s.slot + 16) : tblCancelWrite y s = .error abortRefused := by
  simp [tblCancelWrite, hst, check, Nat.not_le.mpr h]
theorem execSwitchOver_switches (hst : s.tbl.stdState = .armed) (hdue : s.tbl.armSlot ≤ s.slot) (hnow : s.rt.now % 1024 = 0) (hq : s.rt.quality = .locked)
    (hassign : s.assignOk (s.tbl.armSlot * 1024) = true) : exec .switchOver s = .next (s.doSwitch s.tbl.armSlot) := by
  simp [exec, execSwitchOver, hst, Nat.not_lt.mpr hdue, hnow, hq, hassign]
theorem bankRetired_empties (hst : s.tbl.stdState = .retiring) (hruns : ∀ x ∈ s.ops.insts, x.2.retiring = false)
    (hdue : s.tbl.retiringSince + s.ageLimit 0 ≤ s.clk) : Does .bankRetired s { s with tbl := { s.tbl with retiring := none, stdState := .empty } } := by
  have hall : (s.ops.insts.all fun x => !x.2.retiring || x.2.st == .idle || x.2.st == .done || x.2.st == .failed) = true :=
    List.all_eq_true.mpr (fun x hx => by simp [hruns x hx])
  exact ⟨_, by simp only [exec, execBankRetired, hst, hdue, hall]; rfl, toBank_mgmt s .empty true (fun t => { t with retiring := none })⟩
theorem bankRetired_early (h : s.clk < s.tbl.retiringSince + s.ageLimit 0) : exec .bankRetired s = .next s := by
  simp [exec, execBankRetired, Nat.not_le.mpr h]
end

/-- Settles O30: a switch-over puts in force what `State.switched` says, and neither what follows it for instances, marks and partners nor the step-up out of
SLUSH touches that. -/
theorem imageSwitches : Obligations.ImageSwitches := by
  unfold Obligations.ImageSwitches
  refine ⟨fun s v x y hw hv => ?_, fun s v y hw hv hst hy => ?_, fun s hst hdue hnow hq hassign => ?_, fun s hst hruns => ?_⟩
  · have hcount := countDatagram_mgmt s v.sess
    refine ⟨fun hx hst hy hlead hfar hunset hacq hassign => accepts_of_mgmt rfl hv hw (tblArmWrite_arms hx ?_) (hcount.toBank _ _ _ _), fun hy =>
      vaneWrite_aborts hw (by rintro _ ⟨⟩; exact hv) (tblArmWrite_refused ?_)⟩
    · rw [hcount.armOk]; exact armOk_of_ready hx hst hy hlead hfar hunset hacq hassign
    · rw [hcount.armOk]; exact armOk_of_other_version hy x
  · have hcount := countDatagram_mgmt s v.sess
    obtain ⟨_, _, _, _, _, _, hrt, htbl, _⟩ := hcount.keeps
    have hslot : (s.countDatagram v.sess).slot = s.slot := by rw [State.slot, hrt]; rfl
    exact ⟨fun h => accepts_of_mgmt rfl hv hw (tblCancelWrite_armed (by rw [htbl, hst]) (by rw [htbl, hy]) (by rw [htbl, hslot]; exact h)) (hcount.toBank _ _ _ _),
      fun h => vaneWrite_aborts hw (by rintro _ ⟨⟩; exact hv) (tblCancelWrite_late (by rw [htbl, hst]) (by rw [htbl, hslot]; exact h))⟩
  · obtain ⟨u, ⟨htbl, hrole, hhops, hsched, hpool⟩, ⟨hsame, hsameRole⟩, hkept⟩ := doSwitch_spec s s.tbl.armSlot
    rw [htbl] at hsame
    refine ⟨_, execSwitchOver_switches hst hdue hnow hq hassign, ?_⟩
    rw [hsame, hsameRole, hrole]
    refine ⟨rfl, rfl, rfl, rfl, rfl, rfl, rfl, rfl, fun hb => ?_⟩
    obtain ⟨_, hrt, hpoolKept, hhopsKept⟩ := hkept hb
    exact ⟨hhopsKept.trans hhops, by rw [hrt, hsched, hq]; simp, hpoolKept.trans hpool⟩
  · exact ⟨bankRetired_empties hst hruns, bankRetired_early⟩

end Sys2Proof.Machine
end

section
/-! The canonical form of pool memory (R149, R272, R438) under what stores to it: a write, a line supplied by its stripe, a zeroed range. -/

namespace Sys2Proof.Machine
open Sys2Proof

/-- Steps that each keep the canonical form keep it one after another. -/
theorem foldl_wf {α : Type} {f : State → α → State} (h : ∀ s x, Memory.wf s.pool.mem = true → Memory.wf (f s x).pool.mem = true) (l : List α)
    {s : State} (hs : Memory.wf s.pool.mem = true) : Memory.wf (l.foldl f s).pool.mem = true := by
  induction l generalizing s with
  | nil => exact hs
  | cons x r ih => exact ih (h s x hs)
/-- Whatever state the effect of a write gives in canonical form is in canonical form. -/
def EffWf (s : State) (r : Except Nat State) : Prop := Memory.wf s.pool.mem = true → ∀ w, r = .ok w → Memory.wf w.pool.mem = true
theorem EffKeeps.wf {s : State} {r : Except Nat State} (h : EffKeeps s r) : EffWf s r := fun hs w hw => by rw [h w hw, hs]
/-- Whatever next state a command answers in canonical form is in canonical form. -/
def NextWf (s : State) (a : Answer) : Prop := Memory.wf s.pool.mem = true → ∀ t, a = .next t → Memory.wf t.pool.mem = true
theorem NextKeeps.wf {s : State} {a : Answer} (h : NextKeeps s a) : NextWf s a := fun hs t ht => by rw [h t ht, hs]
theorem NextWf.next {s t : State} (h : Memory.wf s.pool.mem = true → Memory.wf t.pool.mem = true) : NextWf s (.next t) := by
  rintro hs _ ⟨⟩
  exact h hs

-- What stores to the pool itself
/-- Granules are taken off the dies; no byte changes. -/
theorem allocGranules_mem (e n i : Nat) (s : State) : (allocGranules e n i s).2.pool.mem = s.pool.mem := by
  induction n generalizing i s with
  | zero => rfl
  | succ n ih =>
    rw [allocGranules]
    split
    · rfl
    · next ht => exact (ih _ _).trans (takeGranule_mem ht)
/-- An activation zeroes the bytes of the extent and no other (R276). -/
theorem extActivate_mem (s : State) (e : Nat) : (s.extActivate e).pool.mem = memZero s.pool.mem (s.ext e).base (s.ext e).len :=
  congrArg (memZero · _ _) (allocGranules_mem e _ 0 s)
section
variable {s : State} (hs : Memory.wf s.pool.mem = true)
include hs
@[simp] theorem poolWrite_wf (o : Nat) (b : Bytes) : Memory.wf (s.poolWrite o b).pool.mem = true := by
  rw [(poolWrite_served s o b).2]
  exact memWrite_wf _ _ _ hs
@[simp] theorem cxlStore_wf (o m : Nat) (b : Bytes) : Memory.wf (s.cxlStore o m b).pool.mem = true := by simp [State.cxlStore, hs]
@[simp] theorem macCheck_wf (o : Nat) : Memory.wf (s.macCheck o).pool.mem = true := by
  unfold State.macCheck
  split
  · exact hs
  split
  · exact hs
  extract_lets s1
  have h1 : Memory.wf s1.pool.mem = true := by
    unfold s1
    split
    · simp [State.modPool, memWrite_wf, hs]
    · exact hs
  split
  · exact h1
  · simp [h1]
theorem extActivate_wf (e : Nat) : Memory.wf (s.extActivate e).pool.mem = true := by
  rw [extActivate_mem]
  exact memZero_wf _ _ _ hs
@[simp] theorem zeroPage_wf (g : Nat) : Memory.wf (s.zeroPage g).pool.mem = true := by
  rw [zeroPage_mem]
  exact memZero_wf _ _ _ hs
end
@[simp] theorem healLine_mem (s : State) (x : Ext) (o : Nat) : (s.healLine x o).pool.mem = s.pool.mem := (healLine_served s x o).2
@[simp] theorem countAccess_mem (s : State) (o : Nat) (rd : Bool) : (s.countAccess o rd).pool.mem = s.pool.mem := rfl
@[simp] theorem cxlFail_mem (s : State) (h dpa st : Nat) : (s.cxlFail h dpa st).pool.mem = s.pool.mem := by simp [State.cxlFail]
@[simp] theorem takeTurn_mem (s : State) : s.takeTurn.pool.mem = s.pool.mem := rfl

section
variable {s : State} (hs : Memory.wf s.pool.mem = true)
include hs
@[simp] theorem cxlTry_wf (h : Nat) (a : HostAcc) : Memory.wf (s.cxlTry h a).1.pool.mem = true := by
  unfold State.cxlTry
  extract_lets off line s1 s0 isRd others setDir r full
  have h0 : Memory.wf s0.pool.mem = true := by
    have h1 : Memory.wf s1.pool.mem = true := by simp [s1, hs]
    unfold s0
    split
    · exact h1
    · exact macCheck_wf h1 _
  have hdir : ∀ t : State, (setDir t).pool.mem = t.pool.mem := fun _ => rfl
  have hr : r.2.pool.mem = s0.pool.mem := by simp [r]
  clear_value s0 s1 setDir r full
  split
  · exact hs
  split
  · split <;> simp [h0]
  split
  · exact h0
  next x _ =>
    have hheal : Memory.wf (if full then s0.healLine x off else s0).pool.mem = true := by
      split <;> simp [h0]
    dsimp only
    split
    · simp [h0]
    split
    · simp [h0]
    split
    · split <;> simp [hdir, hr, h0]
    split
    · simp [h0]
    split
    · simp [h0]
    · simp [hdir, cxlStore_wf hheal]
@[simp] theorem cxlReq_wf (h kind dpa mask : Nat) (b : Bytes) : Memory.wf (s.cxlReq h kind dpa mask b).pool.mem = true := by
  unfold State.cxlReq
  split
  · exact hs
  · dsimp only
    split <;> simp [hs]
@[simp] theorem cxlGoOn_wf (h : Nat) (a : HostAcc) : Memory.wf (s.cxlGoOn h a).pool.mem = true := by
  dsimp only [State.cxlGoOn]
  split
  · split
    · split <;> simp [hs]
    · simp [hs]
  · simp [hs]
@[simp] theorem cxlResume_wf : Memory.wf s.cxlResume.pool.mem = true := foldl_wf (fun _ _ ht => cxlGoOn_wf ht _ _) _ hs
@[simp] theorem endBackInv_wf (l h : Nat) : Memory.wf (s.endBackInv l h).pool.mem = true := cxlResume_wf (by simp [hs])
@[simp] theorem birspAtHome_wf (key l h st : Nat) : Memory.wf (s.birspAtHome key l h st).pool.mem = true := by
  unfold State.birspAtHome
  split <;> simp [hs]
@[simp] theorem hostDead_wf (h : Nat) (self : Bool) : Memory.wf (s.hostDead h self).pool.mem = true := by
  unfold State.hostDead
  split
  · exact hs
  · exact cxlResume_wf (by simp [hs])
@[simp] theorem hostLinkDown_wf (h : Nat) : Memory.wf (s.hostLinkDown h).pool.mem = true := by simp [State.hostLinkDown, hs]
end
@[simp] theorem execBiTimeout_wf (h l : Nat) (s : State) : NextWf s (execBiTimeout h l s) := by
  unfold execBiTimeout
  split
  · exact .next id
  split
  · exact .next id
  split
  · refine .next fun hs => endBackInv_wf ?_ _ _
    split <;> simp [hs]
  · exact .next fun hs => hostDead_wf hs _ _
@[simp] theorem execRwd_wf (h dpa : Nat) (b : Bytes) (s : State) : NextWf s (execRwd h dpa b s) := by
  unfold execRwd
  split
  · exact .next fun hs => cxlReq_wf hs _ _ _ _ _
  dsimp only
  split
  · exact .next id
  split
  · exact .next fun hs => by simp [hs]
  · exact .next id

-- A native request at the home
theorem homeReply_mem (s : State) (e : QEntry) (st : Nat) (b : Bytes) : (s.homeReply e st b).pool.mem = s.pool.mem := by
  simp [State.homeReply]
theorem meetUe_mem (s : State) (t : Txn) : (s.meetUe t).pool.mem = s.pool.mem := by
  dsimp only [State.meetUe]
  split
  · split <;> simp
  · rfl
theorem serveDoorbell_mem (s : State) (t : Txn) : (s.serveDoorbell t).2.2.pool.mem = s.pool.mem := by
  unfold State.serveDoorbell
  dsimp only
  split
  · rfl
  split
  · rfl
  split
  · rfl
  · simp
section
variable {s : State} (hs : Memory.wf s.pool.mem = true)
include hs
theorem performPool_wf (t : Txn) (o : Nat) : Memory.wf (s.performPool t o).2.pool.mem = true := by
  by_cases hr : t.ty = .rd
  · rw [(performPool_read s o hr).2.1, hs]
  by_cases hw : t.ty = .wr
  · rw [(performPool_write s o hw).2.2]
    exact memWrite_wf _ _ _ hs
  by_cases ha : t.ty = .atom
  · rw [(performPool_atomic s o ha).2.2]
    exact memWrite_wf _ _ _ hs
  · unfold State.performPool
    split
    · contradiction
    · contradiction
    · contradiction
    · exact hs
theorem servePool_wf {e : QEntry} {t : Txn} {u : State} (h : s.servePool e t = some u) : Memory.wf u.pool.mem = true := by
  unfold State.servePool at h
  extract_lets off line s0 fresh performed at h
  have h0 : Memory.wf s0.pool.mem = true := by
    unfold s0
    split
    · simp [hs]
    · exact macCheck_wf (by simp [hs]) _
  have hfresh : Memory.wf fresh.2.pool.mem = true := by simp [fresh, h0]
  have hperformed : Memory.wf performed.2.pool.mem = true := performPool_wf h0 _ _
  clear_value s0 fresh performed
  split at h
  · split at h
    · split at h
      · cases h
        simp [homeReply_mem, (countReq_served _ _ _ _).2, hfresh]
      · cases h
        simp [homeReply_mem, h0]
    · cases h
  · cases h
    simp [homeReply_mem, h0]
  · split at h
    · cases h
      simp [homeReply_mem, hperformed]
    · cases h
end
/-- What the head of a line queue comes to: it waits, is discarded or refused, or is served from a state whose bytes are those before it. -/
theorem lineHead_wf (tile : Nat) (ue : Bool) (s : State) : NextWf s (State.lineHead tile ue s) := by
  unfold State.lineHead
  split
  · exact .next id
  split
  · exact .next id
  extract_lets s1 l e1 s2 t r line s3 wait
  have h1 : s1.pool.mem = s.pool.mem := by simp [s1]
  have hl : l.2.pool.mem = s.pool.mem := by simp [l, h1]
  have h2 : s2.pool.mem = s.pool.mem := by
    unfold s2
    split
    · rw [meetUe_mem, hl]
    · exact hl
  have hr : r.2.2.pool.mem = s.pool.mem := by rw [← h2]; exact serveDoorbell_mem _ _
  have hwait : wait.pool.mem = s.pool.mem := by
    unfold wait s3
    split <;> simp [meetUe_mem]
  clear_value s1 l s2 r wait
  split
  · exact .next fun hs => by simp [h1, hs]
  split
  · next ht =>
    refine .next fun hs => ?_
    split at ht
    · cases ht
    · rw [headCheck_mem ht, h1, hs]
  split
  · exact .next fun hs => by split <;> simp [hl, hs]
  split
  · exact .next fun hs => by simp [homeReply_mem, hl, hs]
  split
  · exact .next fun hs => by simp [homeReply_mem, h2, hs]
  split
  · exact .next fun hs => by simp [homeReply_mem, h2, hs]
  split
  · exact .next fun hs => by simp [homeReply_mem, hr, hs]
  split
  · next ht => exact .next fun hs => servePool_wf (by rw [h2, hs]) ht
  · exact .next fun hs => by simp [hwait, hs]
theorem lineRun_wf (tile n : Nat) (s : State) : NextWf s (lineRun tile n s) := by
  induction n generalizing s with
  | zero => exact .next id
  | succ n ih =>
    obtain ⟨t, ht⟩ := lineHead_completes tile false s
    rw [lineRun, ht]
    dsimp only
    have htwf := fun hs => lineHead_wf tile false s hs t ht
    split
    · exact fun hs => ih t (htwf hs)
    · exact .next htwf
theorem execLineQueueHead_wf (tile : Nat) (ue : Bool) (s : State) : NextWf s (execLineQueueHead tile ue s) := by
  unfold execLineQueueHead
  split
  · exact lineRun_wf _ _ _
  · exact lineHead_wf _ _ _
end Sys2Proof.Machine
end

section
/-! The canonical form of pool memory where a response comes to its requester, where a flit is taken, and in a nanosecond (R124, R142, R178). -/

namespace Sys2Proof.Machine
open Sys2Proof

-- What a response does at the requester, but for the end of a back-invalidate
theorem pump_mem (s : State) : s.pump.pool.mem = s.pool.mem := (pump_sent s).mem
theorem pumpBisnps_mem (s : State) : s.pumpBisnps.pool.mem = s.pool.mem := by simp [State.pumpBisnps]
theorem ringFault_mem (s : State) (n st : Nat) : (s.ringFault n st).pool.mem = s.pool.mem := by simp [State.ringFault]
theorem recorded_mem (s : State) (n : Nat) (w : Work) : (s.recorded n w).pool.mem = s.pool.mem := by simp [State.recorded, State.haltRing]
theorem noteBroken_mem (s : State) (n : Nat) (o : OutReq) (r : Txn) : (s.noteBroken n o r).pool.mem = s.pool.mem := by simp [State.noteBroken]
theorem fetchRsp_mem (s : State) (n idx part : Nat) (b : Bytes) : (s.fetchRsp n idx part b).pool.mem = s.pool.mem := by
  dsimp only [State.fetchRsp]
  split
  · split <;> simp [State.fetchedDesc]
  · simp
theorem snapEnd_mem (s : State) (n idx : Nat) (st : Status) : (s.snapEnd n idx st).pool.mem = s.pool.mem := by simp [State.snapEnd]
theorem startMove_mem (s : State) (page word land : Nat) : (s.startMove page word land).pool.mem = s.pool.mem := by simp [State.startMove]
theorem driftScanRsp_mem (s : State) (page : Nat) (r : Txn) : (s.driftScanRsp page r).pool.mem = s.pool.mem := by
  dsimp only [State.driftScanRsp]
  split
  · split
    · simp
    split
    · simp
    repeat' split
    all_goals simp [startMove_mem]
  · simp
theorem driftCopyRsp_mem (s : State) (key mv pos : Nat) (o : OutReq) (r : Txn) (rd : Bool) : (s.driftCopyRsp key mv pos o r rd).pool.mem = s.pool.mem := by
  dsimp only [State.driftCopyRsp]
  split
  · simp
  split
  · split <;> simp
  split
  · split <;> simp
  · simp
theorem driftEntryRsp_mem (s : State) (mv : Nat) : (s.driftEntryRsp mv).pool.mem = s.pool.mem := by
  unfold State.driftEntryRsp
  split
  · rfl
  split
  · simp
  · split <;> simp
theorem splitOne_mem (t : Txn) (st : Nat) (s : State) (x : Contrib × Bytes) : (splitOne t st s x).pool.mem = s.pool.mem := by simp [splitOne]
theorem splitAcc_mem (s : State) (a : AccEntry) (o r : Txn) : (s.splitAcc a o r).pool.mem = s.pool.mem := by
  dsimp only [State.splitAcc]
  split
  · simp
  · simp [splitOne_mem]
theorem bundleRsp_mem (s : State) (key : Nat) (o : OutReq) (r : Txn) (pos : Option Nat) : (s.bundleRsp key o r pos).pool.mem = s.pool.mem := by
  dsimp only [State.bundleRsp]
  split
  · simp
  split
  · split <;> simp
  split
  · simp [State.bundleHdr]
  · simp
theorem farunRsp_mem (s : State) (key e : Nat) (o : OutReq) (r : Txn) : (s.farunRsp key e o r).pool.mem = s.pool.mem := by
  dsimp only [State.farunRsp]
  split
  · split
    · split <;> simp
    · simp
  · simp
theorem strayed_mem (s : State) (r : Txn) : (s.strayed r).pool.mem = s.pool.mem := by
  unfold State.strayed
  split <;> simp
/-- Of all that a response does at its requester only the end of a back-invalidate can store, by the accesses that it lets go on. -/
theorem act_mem (s : State) (key : Nat) {o : OutReq} (r : Txn) (h : ∀ l x, o.who ≠ .backInv l x) : (s.act key o r).pool.mem = s.pool.mem := by
  unfold State.act
  split
  case h_3 =>
    split
    · simp
    split
    · simp [ringFault_mem, noteBroken_mem]
    · split <;> simp [recorded_mem]
  case h_14 hw => exact absurd hw (h _ _)
  case h_15 => split <;> simp [farunRsp_mem]
  all_goals simp [ringFault_mem, noteBroken_mem, fetchRsp_mem, snapEnd_mem, driftScanRsp_mem, driftCopyRsp_mem, driftEntryRsp_mem, splitAcc_mem, bundleRsp_mem]
theorem consume_wf {s : State} (hs : Memory.wf s.pool.mem = true) (key : Nat) (o : OutReq) (r : Txn) : Memory.wf (s.consume key o r).pool.mem = true := by
  unfold State.consume
  have hbreak : Memory.wf (if s.isFarun (key / 1048576) then s else s.breakKey o.t r).pool.mem = true := by
    split <;> simp [hs]
  by_cases h : ∃ l x, o.who = .backInv l x
  · obtain ⟨l, x, hw⟩ := h
    rw [State.act, hw]
    exact birspAtHome_wf hbreak _ _ _ _
  · rw [act_mem _ _ _ fun l x hw => h ⟨l, x, hw⟩]
    exact hbreak
theorem goOn_mem (s : State) : s.goOn.pool.mem = s.pool.mem := by
  unfold State.goOn
  split
  · rfl
  · simp [pump_mem, pumpBisnps_mem]
theorem hostRetry_mem (s : State) : s.hostRetry.pool.mem = s.pool.mem := by simp [State.hostRetry]

/-- What waits goes on as far as it may; of that only the CXL.mem accesses store (R281). -/
theorem tick_wf {s : State} (hs : Memory.wf s.pool.mem = true) : Memory.wf s.tick.pool.mem = true := by
  unfold State.tick
  split
  · exact hs
  · exact cxlResume_wf (by simp [hostRetry_mem, goOn_mem, hs])
theorem execResponseAtRequester_wf (s : State) : NextWf s (execResponseAtRequester s) := by
  unfold execResponseAtRequester
  split
  · exact .next id
  dsimp only
  split
  · exact .next fun hs => by simp [strayed_mem, hs]
  · refine .next fun hs => ?_
    split
    · rw [goOn_mem]
      exact consume_wf (by simp [hs]) _ _ _
    · simp [strayed_mem, hs]
theorem execRequestTimeout_wf (node tag : Nat) (s : State) : NextWf s (execRequestTimeout node tag s) := by
  unfold execRequestTimeout
  split
  · exact .next id
  split
  · exact .next id
  split
  · exact .next id
  · exact .next id
  · exact .next fun hs => by rw [goOn_mem]; exact consume_wf hs _ _ _
theorem execBirsp_wf (a : Nat) (t : Txn) (s : State) : NextWf s (execBirsp a t s) := by
  have harrive : NextWf s (.next (s.arriveRsp a { t with ty := .birsp })) := .next fun hs => by simp [hs]
  dsimp only [execBirsp]
  split
  · split
    · split
      · exact .next fun hs => birspAtHome_wf (by simp [hs]) _ _ _ _
      · exact harrive
    · exact harrive
  · exact harrive

-- Transactions that flits bring
theorem nakNow_mem (s : State) (p : Nat) : (s.nakNow p).pool.mem = s.pool.mem := by simp [State.nakNow]
theorem tagBad_mem (s : State) (p n : Nat) : (s.tagBad p n).pool.mem = s.pool.mem := by simp [State.tagBad, nakNow_mem]
section
variable {s : State} (hs : Memory.wf s.pool.mem = true)
include hs
theorem run_wf {a : Answer} {u : State} (h : NextWf u a) (hu : Memory.wf u.pool.mem = true) : Memory.wf (run a s).pool.mem = true := by
  unfold run
  split
  · exact h hu _ rfl
  · exact hs
theorem sequenced_wf (p : Nat) (f : Flit) {k : State → State} (hk : ∀ t, Memory.wf t.pool.mem = true → Memory.wf (k t).pool.mem = true) :
    Memory.wf (s.sequenced p f k).pool.mem = true := by
  dsimp only [State.sequenced]
  split
  · exact hs
  split
  · exact hk _ (by simp [hs])
  · split <;> simp [nakNow_mem, hs]
/-- Each transaction goes to the command of its type; a BIRSP is the one that can store. -/
theorem deliver_wf (p : Nat) (t : Txn) : Memory.wf (State.deliver p s t).pool.mem = true := by
  have hother : ∀ {u : State} (_ : Memory.wf u.pool.mem = true) {c : Instr} (_ : mayStore c = false), Memory.wf (run (exec c u) u).pool.mem = true :=
    fun hu _ hc => run_wf hu (exec_mem _ _ hc).wf hu
  unfold State.deliver
  split
  · exact hs
  · exact hother hs (c := .rd p t) rfl
  · exact hother hs (c := .wr p t) rfl
  · exact hother hs (c := .atom p t) rfl
  · exact hother hs (c := .resync p t) rfl
  · exact hother hs (c := .bisnp p t) rfl
  · exact hother hs (c := .rspData p t) rfl
  · exact hother hs (c := .rspAtom p t) rfl
  · exact hother hs (c := .rspDone p t) rfl
  · exact run_wf hs (execBirsp_wf _ _ _) hs
  · exact hother hs (c := .colData p t) rfl
  · exact hother hs (c := .colSide p t) rfl
  · exact hother hs (c := .colPart p t) rfl
  · split
    · exact hother hs (c := .colCtlCredit p t) rfl
    · exact hother hs (c := .colCtlAbort p t) rfl
  · exact hother hs (c := .nodeLeave p t) rfl
  · have h1 := hother hs (c := .mgtMsg p t) rfl
    dsimp only
    split
    · exact h1
    split
    · exact run_wf h1 (execWithdrawalNotice_mem _ _ _ _ _ _ _ _ _).wf h1
    · exact hother h1 (c := .ctxStateNotice _ _ _ _ _) rfl
    · exact hother h1 (c := .doneNotice _ _) rfl
    · exact hother h1 (c := .ctxStateAck _ _) rfl
    · exact h1
theorem takeFlit_wf (p : Nat) (b : Bytes) : Memory.wf (s.takeFlit p b).pool.mem = true := by
  have hall : ∀ l : List Txn, Memory.wf (l.foldl (State.deliver p) (s.modPort p fun x => { x with rxSlots := (takeSlots (slotsOf b) { open_ := (s.port p).rxSlots }).open_ })).pool.mem = true :=
    fun l => foldl_wf (fun _ _ ht => deliver_wf ht _ _) _ (by simp [hs])
  dsimp only [State.takeFlit]
  split <;> simp [hall]
theorem takeGroup_wf (p : Nat) (key : LinkKey) (iv pos : Nat) (l : List (Nat × Bytes)) : Memory.wf (takeGroup p key iv pos l s).pool.mem = true := by
  induction l generalizing pos s with
  | nil => exact hs
  | cons g r ih => exact ih (takeFlit_wf hs _ _) _
theorem tagServe_wf (p : Nat) (f : Flit) : Memory.wf (s.tagServe p f).pool.mem = true := by
  unfold State.tagServe
  extract_lets x tagOk formed key t1
  split
  · rw [stepCheck_mem]
    exact takeGroup_wf (by simp [t1, hs]) _ _ _ _ _
  · simp [tagBad_mem, hs]
end
theorem execData_wf (p : Nat) (f : Flit) (s : State) : NextWf s (execData p f s) :=
  .next fun hs => sequenced_wf hs _ _ fun t ht => by
    dsimp only
    split
    · simp [ht]
    · rw [stepCheck_mem]
      exact takeFlit_wf (by simp [ht]) _ _
theorem execTag_wf (p : Nat) (f : Flit) (s : State) : NextWf s (execTag p f s) :=
  .next fun hs => sequenced_wf hs _ _ fun t ht => by
    split
    · exact tagServe_wf ht _ _
    · simp [ht]

end Sys2Proof.Machine
end

section
/-! The canonical form of pool memory under resets, OFF, thermal stages, and the frames of the dictionary (R438, R450, R452, R471). -/

namespace Sys2Proof.Machine
open Sys2Proof

-- Resets leave the memory empty
theorem coldReset_empty (s : State) : s.coldReset.pool.mem = [] := rfl
theorem packageReset_wf {s : State} (hs : Memory.wf s.pool.mem = true) : Memory.wf s.packageReset.pool.mem = true := by
  unfold State.packageReset
  split
  · exact hs
  · simp [State.awaitTable, State.resetKept, Memory.wf, memWfFrom]
theorem execPoolInitDone_wf (s : State) : NextWf s (execPoolInitDone s) := by
  dsimp only [execPoolInitDone]
  split
  · exact .next id
  · exact .next fun _ => by split <;> simp [State.modPool, Memory.wf, memWfFrom]
theorem execHoleZeroed_wf (g : Nat) (s : State) : NextWf s (execHoleZeroed g s) := by
  dsimp only [execHoleZeroed]
  split
  · exact .next fun hs => by simp [hs]
  · exact .next id
-- Host links that go down, and with them the package in OFF
theorem offPort_mem (s : State) (p : Nat) : (s.offPort p).pool.mem = s.pool.mem := by
  unfold State.offPort
  split <;> simp
section
variable {s : State} (hs : Memory.wf s.pool.mem = true)
include hs
@[simp] theorem enterOff_wf : Memory.wf s.enterOff.pool.mem = true := by
  have hports : Memory.wf ((List.range 256).foldl State.offPort (s.toPhase .off true)).pool.mem = true := by
    rw [foldl_mem offPort_mem]
    simpa using hs
  rw [State.enterOff]
  generalize List.range 8 = hosts
  exact foldl_wf (fun _ _ ht => hostLinkDown_wf ht _) hosts hports
theorem thermalDrain_wf : Memory.wf s.thermalDrain.pool.mem = true := by
  unfold State.thermalDrain
  split
  · exact enterOff_wf hs
  · exact enterOff_wf (by simp [hs])
  all_goals simp [hs]
theorem raiseStage_wf (st : Thermal) : Memory.wf (s.raiseStage st).pool.mem = true := by
  dsimp only [State.raiseStage, State.toStage]
  split
  · split
    · exact hs
    split
    · exact thermalDrain_wf (by simp [hs])
    · simp [hs]
  · exact hs
end
theorem execTjSample_wf (die stack : List Int) (s : State) : NextWf s (execTjSample die stack s) := by
  dsimp only [execTjSample]
  split
  · exact .next id
  split
  · split
    · exact .next fun hs => by simp [hs]
    · exact .next fun hs => raiseStage_wf (by simp [hs]) _
  · exact .next fun hs => raiseStage_wf (by simp [hs]) _
theorem execDrainEnd_wf (s : State) : NextWf s (execDrainEnd s) := .next fun hs => by split <;> simp [hs]
theorem execPowerOffAfterExpired_wf (s : State) : NextWf s (execPowerOffAfterExpired s) :=
  .next fun hs => by
    split
    · split <;> simp [hs]
    · exact hs

-- The common course of a Vane write
theorem EffWf.ok {s w : State} (h : Memory.wf s.pool.mem = true → Memory.wf w.pool.mem = true) : EffWf s (.ok w) := by
  rintro hs _ ⟨⟩
  exact h hs
theorem EffWf.check {s : State} {c : Bool} {a : Nat} {r : Except Nat State} (h : EffWf s r) : EffWf s (check c a r) := by
  unfold Machine.check
  split
  · exact h
  · exact (effKeeps_error s a).wf
theorem judge_wf {s : State} {f : VFrame} {u : Option EUnit} {eff : State → Except Nat State} (h : EffWf s (eff s)) (hs : Memory.wf s.pool.mem = true) :
    Memory.wf (s.judge f u eff).2.pool.mem = true := by
  unfold State.judge
  split
  · exact hs
  · split
    · exact hs
    · next w hw => simpa using h hs w hw
theorem vaneJudge_wf {s : State} (sess : Nat) {f : VFrame} {u : Option EUnit} {eff : State → Except Nat State} (h : EffWf s (eff s))
    (hs : Memory.wf s.pool.mem = true) : Memory.wf (s.vaneJudge sess f u eff).pool.mem = true := by
  simpa [State.vaneJudge] using judge_wf h hs
theorem vaneWrite_wf (s : State) (v : VCtx) (obj : Nat × Nat) (p : Bytes) (u : Option EUnit) {eff : State → Except Nat State}
    (h : ∀ t, EffWf t (eff t)) : NextWf s (s.vaneWrite v obj p u eff) :=
  .next fun hs => by
    unfold State.vaneServe
    split
    · exact hs
    split
    · simpa using hs
    split
    · simpa using hs
    split
    · simpa using hs
    · exact vaneJudge_wf _ (h _) (by simpa using hs)
theorem extCtlWrite_wf (e value : Nat) (s : State) : EffWf s (extCtlWrite e value s) := by
  unfold extCtlWrite
  refine .check ?_
  split
  · exact .check (.ok fun hs => by
      rw [cmdChange_mem]
      exact extActivate_wf (by simp [hs]) _)
  · exact .check (.ok fun hs => by simp [hs])
theorem hpCtlWrite_wf (h value : Nat) (s : State) : EffWf s (hpCtlWrite h value s) := by
  by_cases hv : value % 256 = 1
  · unfold hpCtlWrite
    simp only [hv]
    split
    · exact (effKeeps_error s _).wf
    split
    · exact (effKeeps_error s _).wf
    · exact .check (.ok fun hs => by simp [hs])
  · exact (hpCtlWrite_mem h hv s).wf
theorem devCtlWrite_wf (value : Nat) (s : State) : EffWf s (devCtlWrite value s) := by
  unfold devCtlWrite
  split
  · exact .check (.ok fun hs => by simp [hs])
  split
  · exact .ok packageReset_wf
  · exact (effKeeps_error s _).wf

end Sys2Proof.Machine
end

section
/-! The canonical form of pool memory under the dictionary (R411, R417, R424): no row but those of `DEV.CTL`, `EXT.CTL` and `HP.CTL` stores to the pool. -/

namespace Sys2Proof.Machine
open Sys2Proof

/-- A write of a row of the dictionary keeps the canonical form. -/
def RowWf (r : ObjRow) : Prop := ∀ sess k b s, EffWf s (r.write sess k b s)

-- Stores of registers outside the pool
@[simp] theorem modVane_mem (s : State) (f : Vane → Vane) : (modVane s f).pool.mem = s.pool.mem := rfl
@[simp] theorem modSw_mem (s : State) (f : Switch → Switch) : (modSw s f).pool.mem = s.pool.mem := rfl
@[simp] theorem modXact_mem (s : State) (f : Xact → Xact) : (modXact s f).pool.mem = s.pool.mem := rfl
@[simp] theorem modMov_mem (s : State) (f : Mov → Mov) : (modMov s f).pool.mem = s.pool.mem := rfl
@[simp] theorem modLink_mem (s : State) (f : LinkCfg → LinkCfg) : (modLink s f).pool.mem = s.pool.mem := rfl
@[simp] theorem modWin_mem (s : State) (e : Nat) (f : WinEp → WinEp) : (modWin s e f).pool.mem = s.pool.mem := rfl

theorem portCtlWrite_mem (p v : Nat) (s : State) : EffKeeps s (portCtlWrite p v s) := by
  unfold portCtlWrite
  split <;> simp

theorem rowsDev_wf : ∀ r ∈ rowsDev, RowWf r := by
  simp [rowsDev, RowWf, roN, rwN, rwS, woN, epochRow, EffKeeps.wf, devCtlWrite_wf]
theorem rowsVane_wf : ∀ r ∈ rowsVane, RowWf r := by
  simp [rowsVane, RowWf, roN, roB, rwN, rwS, EffKeeps.wf]
theorem rowsSwitch_wf : ∀ r ∈ rowsSwitch, RowWf r := by
  simp [rowsSwitch, RowWf, roN, roB, rwN, rwS, EffKeeps.wf, ageLimitWrite, repinHoldWrite]
theorem rowsPort_wf : ∀ r ∈ rowsPort, RowWf r := by
  simp [rowsPort, RowWf, roN, roB, rwN, rwS, woN, EffKeeps.wf, portCtlWrite_mem, windowModeWrite, portAllowWrite]
theorem rowsLane_wf : ∀ r ∈ rowsLane, RowWf r := by
  simp [rowsLane, RowWf, roN, roB, rwN, rwS, woN, EffKeeps.wf]
theorem rowsXlate_wf : ∀ r ∈ rowsXlate, RowWf r := by
  simp [rowsXlate, RowWf, roN, roB, rwN, rwS, woN, EffKeeps.wf, movTimeoutWrite, aptBaseWrite, aptLog2Write, winTableWrite]
theorem rowsOps_wf : ∀ r ∈ rowsOps, RowWf r := by
  simp [rowsOps, RowWf, roN, roB, rwN, rwS, EffKeeps.wf, graceWrite, slushNodesWrite]
theorem rowsTime_wf : ∀ r ∈ rowsTime, RowWf r := by
  simp [rowsTime, RowWf, roN, roB, rwN, rwS, woN, EffKeeps.wf]
theorem rowsPool_wf : ∀ r ∈ rowsPool, RowWf r := by
  simp [rowsPool, RowWf, roN, roB, rwN, rwS, woN, EffKeeps.wf]
theorem rowsExt_wf : ∀ r ∈ rowsExt, RowWf r := by
  simp [rowsExt, RowWf, roN, roB, rwN, woN, EffKeeps.wf, extField, extCtlWrite_wf]
theorem rowsHost_wf : ∀ r ∈ rowsHost, RowWf r := by
  simp [rowsHost, RowWf, roN, roB, rwN, rwS, woN, EffKeeps.wf, hpModeWrite, nopasidWrite, hpCtlWrite_wf]
theorem rowsSec_wf : ∀ r ∈ rowsSec, RowWf r := by
  simp [rowsSec, RowWf, roN, roB, rwN, rwS, woN, EffKeeps.wf, ctxCtlWrite, keyCtlWrite]
theorem rowsFail_wf : ∀ r ∈ rowsFail, RowWf r := by
  simp [rowsFail, RowWf, roN, roB, rwN, rwS, EffKeeps.wf]

/-- A row that is found is one of the dictionary. -/
theorem findRow_some {i t k : Nat} {r : ObjRow} {l : List ObjRow} (h : findRow i t l = some (r, k)) : r ∈ l := by
  induction l with
  | nil => cases h
  | cons x l ih =>
    rw [findRow] at h
    split at h
    · cases h
      exact .head _
    · exact .tail _ (ih h)
theorem objAt_wf {i t k : Nat} {r : ObjRow} (h : objAt i t = some (r, k)) : RowWf r := by
  have hall : ∀ r ∈ allRows, RowWf r := by
    simp only [allRows, List.forall_mem_append]
    exact ⟨⟨⟨⟨⟨⟨⟨⟨⟨⟨⟨⟨rowsDev_wf, rowsVane_wf⟩, rowsSwitch_wf⟩, rowsPort_wf⟩, rowsLane_wf⟩, rowsXlate_wf⟩, rowsOps_wf⟩, rowsTime_wf⟩, rowsPool_wf⟩,
      rowsExt_wf⟩, rowsHost_wf⟩, rowsSec_wf⟩, rowsFail_wf⟩
  exact hall r (findRow_some h)

-- A frame that is served
theorem measure_mem (s : State) (i t : Nat) : (s.measure i t).pool.mem = s.pool.mem := by
  unfold State.measure
  split
  · simp
  · split <;> simp
theorem put_wf {r : ObjRow} (hr : RowWf r) (sess k : Nat) (f : VFrame) {s : State} (hs : Memory.wf s.pool.mem = true) :
    Memory.wf (r.put sess k f s).2.pool.mem = true := by
  unfold ObjRow.put
  split
  · exact hs
  · exact judge_wf (EffWf.check (hr _ _ _ _)) hs
theorem putSegment_wf {r : ObjRow} (hr : RowWf r) (sess k : Nat) (f : VFrame) {s : State} (hs : Memory.wf s.pool.mem = true) :
    Memory.wf (r.putSegment sess k f s).pool.mem = true := by
  dsimp only [ObjRow.putSegment]
  split
  · simp [hs]
  split
  · exact vaneJudge_wf _ (hr _ _ _ _) (by simp [hs])
  · simp [State.acknowledge, hs]
theorem serveFrame_wf (sess : Nat) (f : VFrame) (s : State) : NextWf s (s.serveFrame sess f) := by
  dsimp only [State.serveFrame]
  split
  · split
    · split
      · exact .next fun hs => by simp [hs]
      · rintro _ _ ⟨⟩
    · split
      · exact .next fun hs => by simp [hs]
      · exact .next fun hs => by simp [hs]
  split
  · exact .next fun hs => by simp [hs]
  next r k hrow =>
    have hr := objAt_wf hrow
    split
    · exact .next fun hs => by simp [measure_mem, hs]
    split
    · exact .next fun hs => by simp [hs]
    split
    · exact .next fun hs => by simp [hs]
    split
    · exact .next fun hs => putSegment_wf hr _ _ _ hs
    · exact .next fun hs => by simp [put_wf hr _ _ _ hs]
theorem serveRaw_wf (sess : Nat) (f : VFrame) {s : State} {k : State → Answer} (hk : ∀ t, NextWf t (k t)) : NextWf s (s.serveRaw sess f k) := by
  dsimp only [State.serveRaw]
  split
  · exact .next id
  split
  · exact .next fun hs => by simpa using hs
  split
  · exact .next fun hs => by simp [hs]
  split
  · exact .next fun hs => by simp [hs]
  split
  · exact .next fun hs => by split <;> simp [hs]
  split
  · exact .next fun hs => by simp [hs]
  · exact fun hs => hk _ (by simpa using hs)
theorem serveTen_wf (f : VFrame) {s : State} (hs : Memory.wf s.pool.mem = true) : Memory.wf (s.serveTen f).2.pool.mem = true := by
  dsimp only [State.serveTen]
  split
  · exact hs
  next hrow =>
    split
    · exact hs
    split
    · exact hs
    split
    · exact hs
    · exact put_wf (objAt_wf hrow) _ _ _ hs
theorem mailEnd_mem (s : State) (h g : Nat) (f : Mailbox → Mailbox) : (s.mailEnd h g f).pool.mem = s.pool.mem := by simp [State.mailEnd]
theorem mailRefuse_mem (s : State) (h g : Nat) : (s.mailRefuse h g).pool.mem = s.pool.mem := by simp [State.mailRefuse, mailEnd_mem]
theorem mailAnswer_mem (s : State) (h g : Nat) (r : VFrame) : (s.mailAnswer h g r).pool.mem = s.pool.mem := by simp [State.mailAnswer, mailEnd_mem]
theorem execMailboxGo_wf (h g : Nat) (req : Bytes) (ctl : Nat) (s : State) : NextWf s (execMailboxGo h g req ctl s) := by
  unfold execMailboxGo
  extract_lets rings busy t f
  have ht : t.pool.mem = s.pool.mem := by
    unfold t
    split <;> simp
  clear_value t
  split
  · exact .next id
  split
  · exact .next fun hs => by rw [ht, hs]
  split
  · exact .next fun hs => by rw [mailRefuse_mem, ht, hs]
  split
  · exact .next fun hs => by rw [mailRefuse_mem, ht, hs]
  split
  · exact .next fun hs => by rw [mailAnswer_mem, ht, hs]
  split
  · exact .next fun hs => by rw [mailRefuse_mem, ht, hs]
  · exact .next fun hs => by rw [mailAnswer_mem]; exact serveTen_wf _ (by rw [ht, hs])

/-- Every command keeps the canonical form: those that `mayStore` does not list keep the bytes, and of the others each store is one of bytes of a line, of a
zeroed range or of nothing at all. -/
theorem exec_wf (c : Instr) (s : State) : NextWf s (exec c s) := by
  by_cases hc : mayStore c = false
  · exact (exec_mem c s hc).wf
  cases c with
  | lineQueueHead tile ue => exact execLineQueueHead_wf tile ue s
  | memRd h dpa m => exact .next fun hs => cxlReq_wf hs _ _ _ _ _
  | memWr h dpa m mask data => exact .next fun hs => cxlReq_wf hs _ _ _ _ _
  | rwd h dpa data => exact execRwd_wf h dpa data s
  | biTimeout h line => exact execBiTimeout_wf h line s
  | birsp adm t => exact execBirsp_wf adm t s
  | data p f => exact execData_wf p f s
  | tag p f => exact execTag_wf p f s
  | responseAtRequester => exact execResponseAtRequester_wf s
  | requestTimeout node tag => exact execRequestTimeout_wf node tag s
  | coldReset => exact .next fun _ => rfl
  | railsOutOfTolerance rail => exact .next fun _ => rfl
  | warmReset lowNs coldLow => exact .next fun hs => by split; exacts [hs, packageReset_wf hs]
  | packageReset v => exact vaneWrite_wf s v _ _ _ (devCtlWrite_wf 2)
  | poolInitDone => exact execPoolInitDone_wf s
  | holeZeroed page => exact execHoleZeroed_wf page s
  | extActivate v e => exact vaneWrite_wf s v _ _ _ (extCtlWrite_wf e 1)
  | read sess f | write sess f | describe sess f => exact serveRaw_wf sess f fun t => serveFrame_wf sess f t
  | mailboxGo h g req ctl => exact execMailboxGo_wf h g req ctl s
  | hostLinkDown h => exact .next fun hs => hostLinkDown_wf hs h
  | hpRefclkLost h => exact .next fun hs => hostLinkDown_wf (by simpa using hs) h
  | declareDead v h => exact vaneWrite_wf s v _ _ _ (hpCtlWrite_wf h 1)
  | drainEnd => exact execDrainEnd_wf s
  | powerOffAfterExpired => exact execPowerOffAfterExpired_wf s
  | tjSample die stack => exact execTjSample_wf die stack s
  | _ => exact absurd rfl hc

/-- Settles O5: a step with a command runs the command, one without lets a nanosecond pass; each keeps the canonical form. -/
theorem stepKeepsMemory : Obligations.StepKeepsMemory := by
  intro s t hs ht
  unfold step at ht
  split at ht
  · cases ht
    exact tick_wf hs
  next c rest _ => exact exec_wf c { s with pending := rest } hs t ht

end Sys2Proof.Machine
end

section
/-! Stacks that fail, dies that are rebuilt or evacuated (R289 to R295): what each step does to the die, its extents and the pool. -/

namespace Sys2Proof.Machine
open Sys2Proof

-- What the accounting of a loss leaves alone
/-- The pool of `t` is that of `s` but for the dies and the moraine log. -/
def DiesAndLog (s t : State) : Prop := ∃ d l h n, t.pool = { s.pool with dies := d, log := l, head := h, linesEver := n }
namespace DiesAndLog
variable {s t u : State}
theorem of_pool (h : t.pool = s.pool) : DiesAndLog s t := ⟨_, _, _, _, h⟩
theorem trans (h : DiesAndLog s t) (g : DiesAndLog t u) : DiesAndLog s u := by
  obtain ⟨d, l, n, k, h⟩ := h
  obtain ⟨d', l', n', k', g⟩ := g
  exact ⟨d', l', n', k', by rw [g, h]⟩
theorem exts (h : DiesAndLog s t) : t.pool.exts = s.pool.exts := by
  obtain ⟨_, _, _, _, h⟩ := h
  rw [h]
theorem ext (h : DiesAndLog s t) (e : Nat) : t.ext e = s.ext e := by rw [State.ext, h.exts, State.ext]
theorem granulesOn (h : DiesAndLog s t) (d c : Nat) : granulesOn t d c = granulesOn s d c := by rw [Machine.granulesOn, h.exts, Machine.granulesOn]
theorem stack (h : DiesAndLog s t) (k : Nat) : t.stack k = s.stack k := by
  obtain ⟨_, _, _, _, h⟩ := h
  rw [State.stack, h, State.stack]
theorem st (h : DiesAndLog s t) : t.pool.st = s.pool.st := by
  obtain ⟨_, _, _, _, h⟩ := h
  rw [h]
theorem parity (h : DiesAndLog s t) : t.pool.parity = s.pool.parity := by
  obtain ⟨_, _, _, _, h⟩ := h
  rw [h]
end DiesAndLog
theorem die_of_pool {s t : State} (h : t.pool = s.pool) (d : Nat) : t.die d = s.die d := by rw [State.die, h, State.die]
@[simp] theorem settlePhase_pool (s : State) : s.settlePhase.pool = s.pool := by
  obtain ⟨_, _, _, _, _, _, _, _, _, _, _, h⟩ := settlePhase_carried s
  rw [h]
/-- The pool of `t` is that of `s` but for the moraine log. -/
def LogOnly (s t : State) : Prop := ∃ l h n, t.pool = { s.pool with log := l, head := h, linesEver := n }
namespace LogOnly
variable {s t u : State}
theorem refl (s : State) : LogOnly s s := ⟨s.pool.log, s.pool.head, s.pool.linesEver, rfl⟩
theorem trans (h : LogOnly s t) (g : LogOnly t u) : LogOnly s u := by
  obtain ⟨l, n, k, h⟩ := h
  obtain ⟨l', n', k', g⟩ := g
  exact ⟨l', n', k', by rw [g, h]⟩
theorem diesAndLog (h : LogOnly s t) : DiesAndLog s t := by
  obtain ⟨l, n, k, h⟩ := h
  exact ⟨s.pool.dies, l, n, k, h⟩
theorem die (h : LogOnly s t) (d : Nat) : t.die d = s.die d := by
  obtain ⟨l, n, k, h⟩ := h
  rw [State.die, h, State.die]
theorem foldl {α : Type} {f : State → α → State} (h : ∀ s x, LogOnly s (f s x)) (l : List α) (s : State) : LogOnly s (l.foldl f s) := by
  induction l generalizing s with
  | nil => exact .refl s
  | cons x r ih => exact (h s x).trans (ih _)
end LogOnly
theorem moraine_logOnly (s : State) (m : Moraine) : LogOnly s (s.moraine m) :=
  ⟨lastN 65536 (s.pool.log ++ [m]), s.pool.head + 1, s.pool.linesEver + m.lines, rfl⟩
theorem moraineFor_logOnly (e : Nat) (x : Ext) (c k : Nat) (l : List Nat) (s : State) (g : Nat) : LogOnly s (moraineFor e x c k l s g) := by
  dsimp only [moraineFor]
  split
  · exact .refl s
  · exact moraine_logOnly _ _
theorem recordPoison_logOnly (s : State) (e : Nat) (x : Ext) (c k : Nat) (l : List Nat) : LogOnly s (s.recordPoison e x c k l) := by
  unfold State.recordPoison
  split
  · exact .refl s
  · extract_lets pages s1
    obtain ⟨l', h, n, h1⟩ : LogOnly s s1 := .foldl (moraineFor_logOnly e x c k l) pages s
    exact ⟨l', h, n, by simp [h1]⟩

-- The state of a die (R289, R294)
theorem setDie_diesAndLog (s : State) (d : Nat) (st : DieState) : DiesAndLog s (s.setDie d st) := by
  unfold State.setDie
  split
  · exact .of_pool rfl
  · exact ⟨(s.modDie d (fun x => { x with st := st })).pool.dies, s.pool.log, s.pool.head, s.pool.linesEver, by simp [State.modDie]⟩
@[simp] theorem setDie_die (s : State) (d : Nat) (st : DieState) : (s.setDie d st).die d = { s.die d with st := st } := by
  unfold State.setDie
  split
  · next h => rw [← eq_of_beq h]
  · simp
theorem retireCheck_diesAndLog (s : State) (d : Nat) : DiesAndLog s (s.retireCheck d) := by
  unfold State.retireCheck
  split
  · exact setDie_diesAndLog _ _ _
  · exact .of_pool rfl
theorem retireCheck_die (s : State) (d : Nat) : (s.retireCheck d).die d =
    { s.die d with st := if (s.die d).st = .exposed ∧ granulesOn s d 0 = false ∧ granulesOn s d 1 = false then .retired else (s.die d).st } := by
  simp only [State.retireCheck, Bool.and_eq_true, beq_iff_eq, Bool.not_eq_true', and_assoc]
  split
  · exact setDie_die _ _ _
  · rfl

-- The failure of a stack (R289, R290, R295)
/-- The state to which the failure of a stack takes its die, of which granules of class P1 lie on it or not. -/
def dieAfterFail (st : DieState) (p1 : Bool) : DieState :=
  match st with
  | .healthy => if p1 then .rebuilding else .exposed
  | .rebuilding => .exposed
  | st => st
/-- What the failure of stack `k` of `s` leaves in `t`. -/
structure StackFails (s t : State) (k : Nat) : Prop where
  stack : (t.stack k).st = .failed
  failed : (t.die (k / 6)).failed = (s.die (k / 6)).failed ++ [k]
  die : ∀ st, st = dieAfterFail (s.die (k / 6)).st (granulesOn s (k / 6) 1) →
    (t.die (k / 6)).st = if st = .exposed ∧ granulesOn s (k / 6) 0 = false ∧ granulesOn s (k / 6) 1 = false then .retired else st
  degraded : s.pool.st ≠ 0 → t.pool.st = 2
theorem failStack_fails {s : State} {k : Nat} (hk : (s.stack k).st ≠ .failed) (cause : Nat) (self : Bool) : StackFails s (s.failStack k cause self) k := by
  have hk' : ((s.stack k).st == .failed) = false := by simpa using hk
  unfold State.failStack
  rw [if_neg (by simp [hk'])]
  extract_lets d s1 s2 s3 s4 s5 s6
  have h3 : s3.die d = { s.die d with failed := (s.die d).failed ++ [k] } := by simp [s3, s2, s1]
  have h3e : s3.pool.exts = s.pool.exts := by simp [s3, s2, s1, State.modDie, State.modStack]
  have h3g (c : Nat) : granulesOn s3 d c = granulesOn s d c := by rw [granulesOn, h3e, granulesOn]
  have h3k : (s3.stack k).st = .failed := by simp [s3, s2, s1]
  have h3s : s3.pool.st = s.pool.st := by simp [s3, s2, s1, State.modDie, State.modStack]
  clear_value s3
  have h4 : (s4.die d).st = dieAfterFail (s.die d).st (granulesOn s d 1) ∧ (s4.die d).failed = (s.die d).failed ++ [k] ∧ DiesAndLog s3 s4 := by
    have h3st : (s3.die d).st = (s.die d).st := by rw [h3]
    unfold s4
    rw [h3st, h3g]
    cases hst : (s.die d).st with
    | healthy | rebuilding => exact ⟨by rw [setDie_die, dieAfterFail], by rw [setDie_die, h3], setDie_diesAndLog _ _ _⟩
    | exposed | retired => exact ⟨h3st.trans hst, by rw [h3], .of_pool rfl⟩
  obtain ⟨h4st, h4f, h4k⟩ := h4
  clear_value s4
  have h45 : LogOnly s4 s5 := .foldl (fun _ _ => recordPoison_logOnly _ _ _ _ _ _) _ _
  have h35 := h4k.trans h45.diesAndLog
  clear_value s5
  have h6k := retireCheck_diesAndLog s6 d
  have h6g (c : Nat) : granulesOn s6 d c = granulesOn s d c := (h35.granulesOn d c).trans (h3g c)
  have h6d : s6.die d = s4.die d := h45.die d
  have hdie : (s6.retireCheck d).settlePhase.die d = (s6.retireCheck d).die d := die_of_pool (settlePhase_pool _) d
  refine ⟨?_, ?_, ?_, fun hst => ?_⟩
  · rw [State.stack, settlePhase_pool]
    exact (congrArg Stack.st ((h6k.stack k).trans (h35.stack k))).trans h3k
  · rw [hdie, retireCheck_die, h6d, h4f]
  · rintro _ rfl
    rw [hdie, retireCheck_die, h6d, h4st, h6g, h6g]
  · rw [settlePhase_pool, h6k.st]
    simp [s6, State.modPool, h35.st, h3s, hst]

theorem failStack_again {s : State} {k : Nat} (hk : (s.stack k).st = .failed) (cause : Nat) (self : Bool) : s.failStack k cause self = s := by
  simp [State.failStack, hk]
theorem stackCtlWrite_fails (k : Nat) (s : State) : stackCtlWrite k 1 s = .ok ((s.setMg (.stack k) (some 2)).failStack k 4 false) := rfl

-- Rebuild and evacuation where one extent with one granule stands (R281, R291, R294)
theorem lineFree_of_empty {s : State} (hl : s.sw.lines = []) (hh : s.hp = []) (tile : Nat) : s.lineFree tile = true := by
  simp [State.lineFree, State.lineQ, State.cxlBefore, hl, hh, tget]
theorem rangeFree_of_empty {s : State} (hl : s.sw.lines = []) (hh : s.hp = []) (b n : Nat) : s.rangeFree b n = true := by simp [State.rangeFree, hl, hh]
theorem ext_of_exts {s : State} {e : Nat} {x : Ext} (h : s.pool.exts = [(e, x)]) : s.ext e = x := by simp [State.ext, h, tget]
theorem modExt_exts {s : State} {e : Nat} {x : Ext} (h : s.pool.exts = [(e, x)]) (f : Ext → Ext) : (s.modExt e f).pool.exts = [(e, f x)] := by
  simp [State.modExt, h, tmod, tget, tset]
theorem granulesOn_single {s : State} {e : Nat} {x : Ext} {g : Granule} (h : s.pool.exts = [(e, x)]) (hst : x.st = .active) (hg : x.granules = [g]) (d c : Nat) :
    granulesOn s d c = (x.pclass == c && g.die == d) := by simp [granulesOn, h, hst, hg]
/-- A granule is taken off a HEALTHY die; that die's free granules alone change. -/
theorem takeGranule_healthy {s t : State} {i : Nat} {n : Granule} (h : s.takeGranule i = some (n, t)) :
    (s.die n.die).st = .healthy ∧ t.pool.exts = s.pool.exts ∧ ∀ j, (t.die j).st = (s.die j).st := by
  have hfree (j : Nat) (hj : 0 < s.freeOnDie j) : (s.die j).st = .healthy := by
    by_contra hne
    simp [State.freeOnDie, hne] at hj
  have hkeeps (j : Nat) (f : Die → Die) (hf : ∀ y, (f y).st = y.st) (k : Nat) : ((s.modDie j f).die k).st = (s.die k).st := by
    rw [die_modDie]
    split
    · next hk => rw [hf, hk]
    · rfl
  unfold State.takeGranule at h
  split at h
  · cases h
  next j hj =>
    have hhealthy := hfree j (by simpa using List.find?_some hj)
    split at h
    · cases h
      exact ⟨hhealthy, rfl, hkeeps j _ fun _ => rfl⟩
    · cases h
      exact ⟨hhealthy, rfl, hkeeps j _ fun _ => rfl⟩
section
variable {s : State} {d e q z : Nat} {x : Ext} {g : Granule} (hexts : s.pool.exts = [(e, x)]) (hst : x.st = .active) (hg : x.granules = [g]) (hd : g.die = d)
include hexts hst hg hd
theorem rebuildAt_single (hpc : x.pclass = 1) :
    s.rebuildAt d = if nextStripe ((s.die d).failed.headD 0 % 6) g.rebuilt < 32768 then some (e, 0) else none := by
  simp [State.rebuildAt, hexts, hst, hpc, hg, hd, granAt]
theorem evacAt_single (hpc : x.pclass = 0) : s.evacAt d = some (e, 0) := by simp [State.evacAt, hexts, hst, hpc, hg, hd, granAt]
/-- The stripe that is treated has its parity erased and is counted in the granule; with the last the die is EXPOSED, and not retired while the granule is on it. -/
theorem rebuildStripe_single (hdie : (s.die d).st = .rebuilding) (hq : (s.die d).failed.headD 0 % 6 = q) (hpc : x.pclass = 1) (hz : z = nextStripe q g.rebuilt)
    (hlt : z < 32768) (hl : s.sw.lines = []) (hh : s.hp = []) :
    ∃ u, u.pool.exts = [(e, { x with granules := [{ g with rebuilt := z + 1 }] })] ∧ u.pool.parity = terase s.pool.parity ((x.base + 320 * z) / 64) ∧
      u.pool.mem = s.pool.mem ∧ u.die d = s.die d ∧
      s.rebuildStripe d = if nextStripe q (z + 1) < 32768 then u else ((u.setDie d .exposed).retireCheck d).settlePhase := by
  have hat : s.rebuildAt d = some (e, 0) := by rw [rebuildAt_single hexts hst hg hd hpc, hq, ← hz, if_pos hlt]
  have h0 : granAt x 0 = g := by simp [granAt, hg]
  have hset : x.granules.set 0 { g with rebuilt := z + 1 } = [{ g with rebuilt := z + 1 }] := by rw [hg, List.set_cons_zero]
  unfold State.rebuildStripe
  rw [if_neg (by simp [hdie]), hat]
  simp only [ext_of_exts hexts, hq, h0, ← hz, lineFree_of_empty hl hh, Nat.zero_mul, Nat.add_zero]
  rw [if_neg (by simp)]
  generalize hs0 : s.modPool _ = s0
  have h0e : s0.pool.exts = [(e, x)] := by rw [← hs0]; exact hexts
  generalize hu : s0.modExt _ _ = u
  have hue : u.pool.exts = [(e, { x with granules := [{ g with rebuilt := z + 1 }] })] := by
    rw [← hu, modExt_exts h0e]
    simp only [h0, ← hz, hset]
  have hud : u.die d = s.die d := by rw [← hu, ← hs0]; rfl
  refine ⟨u, hue, by rw [← hu, ← hs0]; rfl, by rw [← hu, ← hs0]; rfl, hud, ?_⟩
  rw [rebuildAt_single hue hst rfl hd hpc, hud, hq]
  by_cases hn : nextStripe q (z + 1) < 32768 <;> simp [hn]
/-- The one granule moves off the die, and then the die is looked at for retirement. -/
theorem evacuate_single {u : State} {n : Granule} (hev : s.pool.evacuate = true) (hdie : (s.die d).st = .exposed) (hpc : x.pclass = 0)
    (hl : s.sw.lines = []) (hh : s.hp = []) (ht : s.takeGranule e = some (n, u)) :
    ∃ w : State, w.pool.exts = [(e, { x with granules := [n] })] ∧ (w.die d).st = (u.die d).st ∧ s.evacuate d = (w.retireCheck d).settlePhase := by
  have hue := (takeGranule_healthy ht).2.1.trans hexts
  have hp1 : (x.pclass == 1) = false := by simp [hpc]
  unfold State.evacuate
  simp only [hev, hdie, evacAt_single hexts hst hg hd hpc, rangeFree_of_empty hl hh, Nat.add_zero, ht, ext_of_exts hexts, hp1, Bool.false_eq_true, if_false,
    List.foldl_nil]
  refine ⟨_, ?_, ?_, rfl⟩
  · simp [State.modExt, State.modDie, State.modPool, hue, tmod, tget, tset, hg]
  · simp only [modExt_reads, die_modDie, if_true]
    rfl
end

/-- Settles O52: the failure of a stack, one rebuild step and one evacuation step have one lemma each; no byte changes, by the laws on pool memory. -/
theorem stacksFail : Obligations.StacksFail := by
  unfold Obligations.StacksFail
  refine ⟨?_, ?_, ?_, ?_, ?_⟩
  · rintro s c k rfl hk
    have h := failStack_fails hk 1 true
    refine ⟨_, rfl, h.stack, h.failed, failStack_mem _ _ _ _, h.degraded, fun hd h1 => ?_, fun hd h1 h0 => ?_, fun hd h1 h0 => ?_, fun hd h1 => ?_⟩
    · simp [h.die .rebuilding (by rw [hd, h1]; rfl)]
    · simp [h.die .exposed (by rw [hd, h1]; rfl), h0]
    · simp [h.die .exposed (by rw [hd, h1]; rfl), h0, h1]
    · simp [h.die .exposed (by rw [hd]; rfl), h1]
  · exact fun s c hk => congrArg Host.Outcome.next (failStack_again hk 1 true)
  · intro s v k hw hv hk
    obtain ⟨t, ht⟩ := vaneWrite_accepts (u := some (.stack k)) hw (by rintro _ ⟨⟩; exact hv) (stackCtlWrite_fails k _)
    have h := failStack_fails (s := (s.countDatagram v.sess).setMg (.stack k) (some 2)) (k := k) (by simpa [State.setMg] using hk) 4 false
    exact ⟨_, ⟨t, ht⟩, h.stack, by simpa [State.setMg] using h.failed, by simp, fun hp => h.degraded (by simpa [State.setMg] using hp)⟩
  · intro s d e q z x g hdie hq hexts hst hpc hg hd hz hlt hl hh
    obtain ⟨u, hue, hup, hum, hud, hs⟩ := rebuildStripe_single hexts hst hg hd hdie hq hpc hz hlt hl hh
    by_cases hn : nextStripe q (z + 1) < 32768
    · rw [if_pos hn] at hs
      refine ⟨u, congrArg Host.Outcome.next hs, by rw [ext_of_exts hue], by simp [hup], hum, fun _ => by rw [hud, hdie], fun h => ?_⟩
      exact absurd hn (Nat.not_lt.mpr h)
    · rw [if_neg hn] at hs
      have hk := (setDie_diesAndLog u d .exposed).trans (retireCheck_diesAndLog _ d)
      have hon : granulesOn (u.setDie d .exposed) d 1 = true := by
        rw [(setDie_diesAndLog _ _ _).granulesOn, granulesOn_single hue hst rfl]
        simp [hpc, hd]
      have hend := settlePhase_pool ((u.setDie d .exposed).retireCheck d)
      refine ⟨_, congrArg Host.Outcome.next hs, ?_, ?_, by simp [hum], fun h => absurd h hn, fun _ => ?_⟩
      · rw [State.ext, hend, hk.exts, ← State.ext, ext_of_exts hue]
      · rw [hend, hk.parity, hup]
        simp
      · rw [die_of_pool hend, retireCheck_die, setDie_die, hon]
        simp
  · intro s u d e x g n hev hdie hexts hst hpc hg hd hl hh ht
    obtain ⟨w, hwe, hwd, hs⟩ := evacuate_single hexts hst hg hd hev hdie hpc hl hh ht
    obtain ⟨hn, -, hud⟩ := takeGranule_healthy ht
    have hnd : n.die ≠ d := fun h => by
      rw [h, hdie] at hn
      cases hn
    have hoff (c : Nat) : granulesOn w d c = false := by
      rw [granulesOn_single hwe hst rfl]
      simp [hnd]
    have hend := settlePhase_pool (w.retireCheck d)
    refine ⟨_, rfl, ?_, ?_, evacuate_mem _ _⟩
    · rw [hs, State.ext, hend, (retireCheck_diesAndLog w d).exts, ← State.ext, ext_of_exts hwe]
    · rw [hs, die_of_pool hend, retireCheck_die, hwd, hud, hdie, hoff, hoff]
      simp

end Sys2Proof.Machine
end

section
/-! The end of a revocation (R296): it also waits for the accesses that a host port holds and that had passed the pool's checks. -/

namespace Sys2Proof.Machine
open Sys2Proof

/-- While the grantee is a host whose port holds an access to the extent that has passed the checks, a revocation goes on. -/
theorem execRevocationComplete_waits {s : State} {e g : Nat} (hhost : (tget {} (s.ext e).grants g).host = true)
    (hacc : (s.host ((tget {} (s.ext e).grants g).id % 8)).accs.any (fun a => a.passed && inExt (s.ext e) a.off) = true) :
    exec (.revocationComplete e g) s = .next s := by
  show execRevocationComplete e g s = .next s
  simp [execRevocationComplete, hhost, hacc]

/-- The grant of host port 7 to an extent of one page is being revoked; no back-invalidate runs, and the directory and the line queues are empty. -/
def revokingExt : Ext := { st := .active, owner := 9, len := 2 ^ 21, grants := [(0, { id := 7, valid := true, wr := true, host := true, revoked := true, rstate := 1 })] }
/-- A CXL.mem write that has passed the pool's checks and waits in the port. -/
def passedWrite : HostAcc := { cxlAcc 4 8 0 (2 ^ 64 - 1) 0 (List.replicate 64 0) with passed := true }
def revokingState : State := { pool := { st := 1, exts := [(0, revokingExt)] }, hp := [(7, { mode := 2, modeActive := 2, trained := true, st := .active, accs := [passedWrite] })] }
theorem revokingState_waits : exec (.revocationComplete 0 0) revokingState = .next revokingState := execRevocationComplete_waits rfl rfl

/-- Refutes O51: its last clause asks for empty line queues, but not for a host port without accesses. In `revokingState` the port's write has passed the checks,
so the revocation does not complete (R296), and the grant stays with `rstate` 1 where the clause promises 2. -/
theorem not_extentsAndGrants : ¬ Obligations.ExtentsAndGrants := by
  unfold Obligations.ExtentsAndGrants
  rintro ⟨-, -, -, hcompletes⟩
  obtain ⟨t, ht, hstate, -⟩ := hcompletes revokingState 0 0 rfl rfl rfl rfl
  cases revokingState_waits.symm.trans ht
  exact absurd hstate (by decide)

end Sys2Proof.Machine
end

section
/-! The tenant interface of a host port (R329 to R332): the mailbox's GO, the TDISP messages, IDE failures and DOE discovery. -/

namespace Sys2Proof.Machine
open Sys2Proof

section
variable {s : State} {h : Nat}

-- TDISP (R330)
theorem tdispStep_allowed {l : List TdiState} (hl : (s.host h).tdi ∈ l) (msg : Nat) (to_ : TdiState) :
    s.tdispStep h msg l to_ = (s.modHost h (fun p => { p with tdi := to_ })).emit (.tdisp h msg []) := if_pos (List.contains_iff_mem.mpr hl)
theorem tdispStep_denied {l : List TdiState} (hl : (s.host h).tdi ∉ l) (msg : Nat) (to_ : TdiState) :
    s.tdispStep h msg l to_ = s.emit (.tdisp h 0x7F [msg]) := if_neg (mt List.contains_iff_mem.mp hl)
/-- STOP is allowed in each of the four states. -/
theorem mem_tdiStates (x : TdiState) : x ∈ [TdiState.unlocked, .locked, .run, .error] := by cases x <;> decide
theorem execGetDeviceInterfaceReport_tells (ht : (s.host h).tdi = .locked ∨ (s.host h).tdi = .run) :
    execGetDeviceInterfaceReport h s = .next (s.emit (.tdisp h 0x84 [0, 2, 4])) := by
  rcases ht with ht | ht <;> simp [execGetDeviceInterfaceReport, ht]
theorem execGetDeviceInterfaceReport_denied (ht : (s.host h).tdi = .unlocked ∨ (s.host h).tdi = .error) :
    execGetDeviceInterfaceReport h s = .next (s.emit (.tdisp h 0x7F [0x84])) := by
  rcases ht with ht | ht <;> simp [execGetDeviceInterfaceReport, ht]

-- IDE (R329)
theorem execIdeIntegrityFail_link {b : Bool} (hl : (s.host h).linkIde = some b) : execIdeIntegrityFail h 0 s = .next (s.modHost h (fun p =>
    { p with linkIde := p.linkIde.map (fun _ => false), tdi := if p.tdi == .run then .error else p.tdi })) := by
  simp [execIdeIntegrityFail, hl]
theorem execIdeIntegrityFail_selective {n : Nat} (hn : n ≠ 0) (hs : (s.host h).ideSel = [(n, true)]) : execIdeIntegrityFail h n s = .next (s.modHost h (fun p =>
    { p with ideSel := [(n, false)], tdi := if p.tdi == .run then .error else p.tdi })) := by
  have hforce : ¬(!(if n == 0 then (s.host h).linkIde.isSome else (s.host h).ideSel.any (fun x => x.1 == n))) = true := by simp [hn, hs]
  unfold execIdeIntegrityFail
  rw [if_neg hforce]
  exact congrArg Host.Outcome.next (modHost_congr (by simp [hn, hs, tmap]))

-- DOE (R331)
/-- A host port in PCIe mode offers the three protocols of DOE, and tells of each the index of the next. -/
theorem execDoeRequest_discovery {n i : Nat} (hst : (s.host h).st = .active) (hn : n ≤ 65536) (hopen : s.spdmOpen (.doe h) = true)
    (hmode : (s.host h).modeActive = 1) (hi : i < 3) :
    execDoeRequest h n (.discovery i) s = .next (s.emit (.doe h [1, i, if i + 1 < 3 then i + 1 else 0])) := by
  have hserved : ¬((s.host h).st != .active || decide (65536 < n) || !s.spdmOpen (.doe h)) = true := by simp [hst, hopen, Nat.not_lt.mpr hn]
  have hproto : s.doeProtocols h = [(1, 0), (1, 1), (1, 2)] := by simp [State.doeProtocols, hmode]
  have hget : ([(1, 0), (1, 1), (1, 2)] : List (Nat × Nat))[i]? = some (1, i) := by
    match i, hi with
    | 0, _ => rfl
    | 1, _ => rfl
    | 2, _ => rfl
  unfold execDoeRequest
  rw [if_neg hserved, hproto]
  dsimp only
  rw [hget]
  rfl

-- The mailbox (R332)
/-- A GO of a ring group without an enabled ring is REFUSED and counted; the request stands in its page. -/
theorem execMailboxGo_refused {g c : Nat} (b : Bytes) (hst : (s.host h).st = .active) (htdi : (s.host h).tdi ≠ .error) (hrings : s.mov.rings = [])
    (hidle : (tget {} (s.host h).mail g).st ≠ 1) (hgo : c.testBit 31 = true) : execMailboxGo h g b c s =
      .next ((s.modHost h (fun p => { p with mail := tmod {} p.mail g (fun m => { m with req := b, len := field c 0 12 }) })).mailRefuse h g) := by
  have hnone : ((List.range 16).map (fun k => s.ring (16 * g + k))).filter (fun r => r.cfg.enable || r.st == .draining) = [] := by
    simp [State.ring, hrings, tget]
  unfold execMailboxGo
  rw [hnone]
  simp [hst, htdi, hidle, bitOf, hgo]
end

/-- Settles O56: a GO, a TDISP message and an integrity failure each change the one port that they come to, in the states that allow them. -/
theorem tenantInterface : Obligations.TenantInterface := by
  unfold Obligations.TenantInterface
  refine ⟨fun s h g b c hst htdi hrings hidle hgo => ?_, fun s h => ⟨fun ht => ?_, fun ht => ?_, ?_, fun ht => ?_, fun ht => ?_, ?_, ?_, rfl⟩,
    fun s h b => execIdeIntegrityFail_link, fun s h n => execIdeIntegrityFail_selective, fun s h n hst hn hopen hmode => ⟨?_, ?_⟩⟩
  · refine ⟨_, execMailboxGo_refused b hst htdi hrings hidle hgo, ?_⟩
    simp [State.mailRefuse, State.mailEnd]
  · exact congrArg _ (tdispStep_allowed (by simp [ht]) _ _)
  · exact congrArg _ (tdispStep_allowed (by simp [ht]) _ _)
  · exact congrArg _ (tdispStep_allowed (mem_tdiStates _) _ _)
  · exact congrArg _ (tdispStep_denied (by simpa using ht) _ _)
  · exact congrArg _ (tdispStep_denied (by simpa using ht) _ _)
  · exact execGetDeviceInterfaceReport_tells
  · exact execGetDeviceInterfaceReport_denied
  · exact execDoeRequest_discovery (i := 0) hst hn hopen hmode (by decide)
  · exact execDoeRequest_discovery (i := 2) hst hn hopen hmode (by decide)

end Sys2Proof.Machine
end

section
/-! Host ports of CXL mode: what it means that no CXL.mem access waits, and what an operation on the directory, on a port's requests or on its bindings leaves alone. -/

namespace Sys2Proof.Machine
open Sys2Proof

-- Entries of tables
theorem mem_tset {α : Type} {t : Tab α} {i : Nat} {x : α} {q : Nat × α} (h : q ∈ tset t i x) : q = (i, x) ∨ q ∈ t := by
  induction t with
  | nil => exact .inl (List.mem_singleton.mp h)
  | cons y r ih =>
    unfold tset at h
    split at h
    · exact List.mem_cons.mp h
    · split at h
      · exact (List.mem_cons.mp h).imp id (List.mem_cons_of_mem _)
      · rcases List.mem_cons.mp h with rfl | hr
        · exact .inr (List.mem_cons_self ..)
        · exact (ih hr).imp id (List.mem_cons_of_mem _)
theorem tget_default_or_mem {α : Type} (d : α) (t : Tab α) (i : Nat) : tget d t i = d ∨ (i, tget d t i) ∈ t := by
  induction t with
  | nil => exact .inl rfl
  | cons y r ih =>
    obtain ⟨k, v⟩ := y
    rw [tget]
    split
    · next hk => exact .inr (hk ▸ List.mem_cons_self ..)
    · exact ih.imp id (List.mem_cons_of_mem _)

/-- No CXL.mem access waits at a host port: every access that one holds goes into the aperture. -/
def NoCxl (s : State) : Prop := ∀ q ∈ s.hp, ∀ a ∈ q.2.accs, a.kind < 4
section
variable {s t : State}

theorem NoCxl.of_hp (hn : NoCxl s) (h : t.hp = s.hp) : NoCxl t := fun q hq => hn q (h ▸ hq)
theorem NoCxl.modHost (hn : NoCxl s) {h : Nat} {f : HostPort → HostPort} (hf : ∀ a ∈ (f (s.host h)).accs, a.kind < 4) : NoCxl (s.modHost h f) := by
  intro q hq
  rcases mem_tset hq with rfl | hq
  · exact hf
  · exact hn q hq
theorem NoCxl.host (hn : NoCxl s) (h : Nat) : ∀ a ∈ (s.host h).accs, a.kind < 4 := by
  rcases tget_default_or_mem {} s.hp h with hd | hm
  · intro a ha
    rw [State.host, hd] at ha
    exact absurd ha List.not_mem_nil
  · exact hn _ hm
/-- With no CXL.mem access waiting, none goes on. -/
theorem cxlResume_idle (hn : NoCxl s) : s.cxlResume = s := by
  have hnone : s.hp.flatMap (fun q => (q.2.accs.filter (fun a => 4 ≤ a.kind)).map (fun a => (q.1, a))) = [] := by
    simp only [List.flatMap_eq_nil_iff, List.map_eq_nil_iff, List.filter_eq_nil_iff, decide_eq_true_eq, Nat.not_le]
    exact hn
  rw [State.cxlResume, hnone, List.foldl_nil]
theorem cxlBefore_idle (hn : NoCxl s) (tile turn : Nat) : s.cxlBefore tile turn = false := by
  have hlow : ∀ q ∈ s.hp, ∀ a ∈ q.2.accs, ¬4 ≤ a.kind := fun q hq a ha => Nat.not_le.mpr (hn q hq a ha)
  rw [State.cxlBefore, List.any_eq_false]
  intro q hq
  simp only [Bool.not_eq_true, List.any_eq_false, Bool.and_eq_true, decide_eq_true_eq, not_and]
  exact fun a ha h4 => absurd h4.1 (hlow q hq a ha)
end

-- The directory (R320)
/-- `t` differs from `s` in the directory alone. -/
def DirOnly (s t : State) : Prop := ∃ d, t = { s with pool := { s.pool with dir := d } }
theorem DirOnly.refl (s : State) : DirOnly s s := ⟨s.pool.dir, rfl⟩
theorem DirOnly.trans {s t u : State} (h : DirOnly s t) (g : DirOnly t u) : DirOnly s u := by
  obtain ⟨_, rfl⟩ := h
  obtain ⟨d, rfl⟩ := g
  exact ⟨d, rfl⟩
theorem dirDrop_dirOnly (s : State) (line h : Nat) : DirOnly s (s.dirDrop line h) := by
  unfold State.dirDrop
  split
  · exact .refl s
  · exact ⟨_, rfl⟩
theorem foldl_dirOnly {α : Type} {f : State → α → State} (h : ∀ s x, DirOnly s (f s x)) (l : List α) (s : State) : DirOnly s (l.foldl f s) := by
  induction l generalizing s with
  | nil => exact .refl s
  | cons x r ih => exact (h s x).trans (ih _)
/-- The only entry of the directory goes with its only holder. -/
theorem dirDrop_last {s : State} {l h : Nat} {d : DirEnt} (hdir : s.pool.dir = [(l, d)]) (hd : d.drop h = none) : (s.dirDrop l h).pool.dir = [] := by
  simp [State.dirDrop, State.dirOf, hdir, tfind, hd, terase, State.modPool]
theorem drop_owner {d : DirEnt} {h : Nat} (hx : d.excl = true) (ho : d.owner = h) : d.drop h = none := by simp [DirEnt.drop, hx, ho]
theorem drop_sharer {d : DirEnt} {h : Nat} (hx : d.excl = false) (hs : d.sharers = [h]) : d.drop h = none := by simp [DirEnt.drop, hx, hs]

-- Withdrawals for a host that is lost (R96)
theorem startWd_moved (s : State) (fa : Bool) (ctx base len2m nfa nval : Nat) (cause : WdCause) : Moved s (s.startWd fa ctx base len2m nfa nval cause) := by
  unfold State.startWd
  dsimp only
  split
  · exact (modXl_moved _ _).trans (runWd_runs _ _).moved
  · exact (modXl_moved _ _).trans (modXl_moved _ _)
theorem unbindHost_moved (s : State) (h : Nat) : Moved s (s.unbindHost h) :=
  foldl_moved _ (fun _ _ => (startWd_moved _ _ _ _ _ _ _ _).trans (modXl_moved _ _)) _ _

theorem sendBirsp_carried (s : State) (h st : Nat) (t : Txn) : Carried s (s.sendBirsp h st t) := sendRsp_carried _ _

-- The death of a port (R327)
/-- `u` is `s` with host port `h` DEAD: its scan has begun, its back-invalidates, its unanswered BISNPs and its CXL.mem accesses are over. -/
structure PortDies (s u : State) (h : Nat) : Prop where
  host : u.host h = { s.host h with st := .dead, scanning := true, snoops := [], accs := (s.host h).accs.filter (fun a => a.kind ≤ 3) }
  backInvs : u.pool.backInvs = s.pool.backInvs.filter (fun b => b.host != h)
  mem : u.pool.mem = s.pool.mem
  xl : u.xl = s.xl
  node : u.hpNode h = s.hpNode h
  noCxl : NoCxl s → NoCxl u
/-- An ACTIVE port dies and its contexts are unbound; no CXL.mem access waits for it where none waited. -/
theorem hostDead_active {s : State} {h : Nat} (hst : (s.host h).st = .active) (hn : NoCxl s) (self : Bool) :
    ∃ u, PortDies s u h ∧ s.hostDead h self = u.unbindHost h := by
  unfold State.hostDead
  rw [if_neg (by simp [hst])]
  extract_lets s1 s1b s2 s3 s4
  have h1 : Mgmt (s.modHost h (fun p => { p with st := .dead, scanning := true })) s1 := noteChange_mgmt _ _ _ _ _
  obtain ⟨d, h1b⟩ : DirOnly s1 s1b := foldl_dirOnly (fun _ _ => dirDrop_dirOnly _ _ _) _ _
  have h4 : Carried (s3.modHost h (fun p => { p with snoops := [] })) s4 := foldl_carried _ (fun _ _ => sendBirsp_carried _ _ _ _) _ _
  obtain ⟨v, e, o, h1⟩ := h1
  have h3 : ∃ p r, s3 = { s1 with pool := p, reqs := r } ∧ p.backInvs = s1.pool.backInvs.filter (fun b => b.host != h) ∧ p.mem = s1.pool.mem :=
    ⟨s3.pool, s3.reqs, by simp only [s3, s2, State.modPool, h1b], by simp only [s3, s2, State.modPool, h1b], by simp only [s3, s2, State.modPool, h1b]⟩
  obtain ⟨p, r, h3, hbacks, hmem⟩ := h3
  clear_value s1 s1b s2 s3 s4
  subst h1 h3
  have hnode := h4.hpNode h
  obtain ⟨_, _, _, _, _, _, _, _, _, _, hxl, hpool, hhp, _⟩ := h4.keeps
  have hfinal : (s4.modHost h (fun p => { p with accs := p.accs.filter (fun a => a.kind ≤ 3) })).hp = (s.modHost h (fun p =>
      { p with st := .dead, scanning := true, snoops := [], accs := p.accs.filter (fun a => a.kind ≤ 3) })).hp := by
    simp only [State.modHost, hhp, tmod_tmod]
  have hdies : PortDies s (s4.modHost h (fun p => { p with accs := p.accs.filter (fun a => a.kind ≤ 3) })) h :=
    { host := by rw [State.host, hfinal]; exact (host_modHost s h h _).trans (if_pos rfl)
      backInvs := (congrArg Pool.backInvs hpool).trans hbacks
      mem := (congrArg Pool.mem hpool).trans hmem
      xl := hxl
      node := hnode
      noCxl := fun hn => (hn.modHost (fun a ha => hn.host h a (List.mem_filter.mp ha).1)).of_hp hfinal }
  exact ⟨_, hdies, cxlResume_idle ((hdies.noCxl hn).of_hp (unbindHost_moved _ _).hp)⟩
section
variable {s : State} {h : Nat} (hst : (s.host h).st = .active) (hn : NoCxl s) (self : Bool)
include hst hn

theorem hostDead_host : (s.hostDead h self).host h =
    { s.host h with st := .dead, scanning := true, snoops := [], accs := (s.host h).accs.filter (fun a => a.kind ≤ 3) } := by
  obtain ⟨u, hu, hdead⟩ := hostDead_active hst hn self
  rw [hdead, State.host, (unbindHost_moved u h).hp]
  exact hu.host
theorem hostDead_dies : HostDies s (s.hostDead h self) h := by
  have hhost := hostDead_host hst hn self
  obtain ⟨u, hu, hdead⟩ := hostDead_active hst hn self
  have hpool := (unbindHost_moved u h).pool
  refine ⟨by rw [hhost], by rw [hhost], by rw [hhost], fun b hb => ?_, ?_⟩
  · rw [hdead, hpool, hu.backInvs] at hb
    simpa using (List.mem_filter.mp hb).2
  · rw [hdead, hpool, hu.mem]
/-- The only context bound to the port is unbound with its death (R96). -/
theorem hostDead_unbinds {c : Nat} {y : Bind} (hbinds : s.xl.binds = [(c, y)]) (hmode : y.mode = 2) (hhost : y.hostNode = s.hpNode h) :
    ((s.hostDead h self).bind c).mode = 0 := by
  obtain ⟨u, hu, hdead⟩ := hostDead_active hst hn self
  rw [hdead, unbindHost_single (s := u) (by rw [hu.xl, hbinds]) hmode (by rw [hu.node, hhost])]
  simp [State.bind, State.modXl, Bind.unbound]
end

end Sys2Proof.Machine
end

section
/-! The states of a host port (R314, R326, R327): its link, the writes of HP.CTL, and the scan of the directory after its death. -/

namespace Sys2Proof.Machine
open Sys2Proof

theorem Mgmt.modHost {s t : State} (hm : Mgmt s t) (h : Nat) (f : HostPort → HostPort) : Mgmt (s.modHost h f) (t.modHost h f) := by
  obtain ⟨v, e, o, rfl⟩ := hm
  exact ⟨v, e, o, rfl⟩

section
variable {s : State} {h : Nat}

-- The link (R308, R326, R330)
theorem hostLinkUp_activates (hst : (s.host h).st = .linkDown) (hmode : (s.host h).mode ≠ 0) :
    Does (.hostLinkUp h) s (s.modHost h (fun p => { p with trained := true, modeActive := p.mode, st := .active })) := by
  refine ⟨_, congrArg Host.Outcome.next (if_pos (by simp [hst, hmode])), ?_⟩
  have hm := selfChange_mgmt (s.modHost h (fun p => { p with trained := true, modeActive := p.mode })) (.host h)
    (fun t => t.modHost h (fun p => { p with st := .active }))
  rw [modHost_modHost] at hm
  exact hm
/-- The port without its link: its IDE streams have ended, and a running TDI is in ERROR. -/
def State.unlinked (s : State) (h : Nat) : State :=
  s.modHost h (fun p => { p with trained := false, linkIde := none, ideSel := [], tdi := if p.tdi == .run then .error else p.tdi })
theorem unlinked_host (s : State) (h : Nat) : (s.unlinked h).host h =
    { s.host h with trained := false, linkIde := none, ideSel := [], tdi := if (s.host h).tdi == .run then .error else (s.host h).tdi } := by
  simp [State.unlinked]
theorem hostDead_inactive (hst : (s.host h).st ≠ .active) (self : Bool) : s.hostDead h self = s := if_pos (by simpa using hst)

-- The writes of HP.CTL (R314, R326)
theorem hpCtlWrite_dies (hst : (s.host h).st = .active) : hpCtlWrite h 1 s = .ok ((s.setMg (.host h) (some 2)).hostDead h false) := by
  simp [hpCtlWrite, field, check, hst]
theorem hpCtlWrite_notActive (hst : (s.host h).st ≠ .active) : hpCtlWrite h 1 s = .error abortRefused := by
  simp [hpCtlWrite, field, check, hst]
theorem hpCtlWrite_revives (hst : (s.host h).st = .dead) (ht : (s.host h).trained = true) (hscan : (s.host h).scanning = false) :
    hpCtlWrite h 2 s = .ok ((s.setMg (.host h) none).cmdChange (.host h) (fun t => t.modHost h (fun p => { p with st := .active }))) := by
  simp [hpCtlWrite, field, check, hst, ht, hscan]
theorem hpCtlWrite_untrained (ht : (s.host h).trained = false) : hpCtlWrite h 2 s = .error abortRefused := by
  simp [hpCtlWrite, field, check, ht]
theorem hpCtlWrite_clears {r : Nat} (hr : r < 2 ^ 16) :
    hpCtlWrite h (3 + 65536 * r) s = .ok (s.modHost h (fun p => { p with stalled := p.stalled.filter (· != r) })) := by
  have hcmd : (3 + 65536 * r) % 256 = 3 := by omega
  have hlow : field (3 + 65536 * r) 8 8 = 0 := by rw [field]; omega
  have hmid : field (3 + 65536 * r) 16 16 = r := by rw [field]; omega
  have hhigh : field (3 + 65536 * r) 32 32 = 0 := by rw [field]; omega
  simp [hpCtlWrite, hcmd, hlow, hmid, hhigh]

-- The scan (R327)
theorem foldl_hp {α : Type} {f : State → α → State} (hf : ∀ s x, (f s x).hp = s.hp) (l : List α) (s : State) : (l.foldl f s).hp = s.hp := by
  induction l generalizing s with
  | nil => rfl
  | cons x r ih => exact (ih _).trans (hf s x)
theorem moraineFor_hp (e : Nat) (x : Ext) (c k : Nat) (l : List Nat) (s : State) (g : Nat) : (moraineFor e x c k l s g).hp = s.hp := by
  dsimp only [moraineFor]
  split
  · rfl
  · simp [State.moraine]
theorem poison_hp (s : State) (e : Nat) (x : Ext) (c k : Nat) (l : List Nat) : (s.poison e x c k l).hp = s.hp := by
  unfold State.poison State.recordPoison
  dsimp only
  split
  · rfl
  · simp [foldl_hp (moraineFor_hp e x c k l)]
/-- A poisoning changes the poison of its lines and the moraine log, and nothing else of the pool. -/
theorem poison_logOnly (s : State) (e : Nat) (x : Ext) (c k : Nat) (l : List Nat) :
    LogOnly (s.modPool (fun p => { p with poison := l.foldl (fun t n => tset t n c) p.poison })) (s.poison e x c k l) := recordPoison_logOnly _ _ _ _ _ _

/-- The lines that a host holds, and those among them that it holds exclusively. -/
def State.heldLines (s : State) (h : Nat) : List Nat := (s.pool.dir.filter (fun d => d.2.hosts.contains h)).map Prod.fst
def State.exclLines (s : State) (h : Nat) : List Nat := (s.pool.dir.filter (fun d => d.2.excl && d.2.owner == h)).map Prod.fst
/-- The loss of those of the lines that lie in an extent (R327, R328). -/
def loseIn (h : Nat) (lost : List Nat) (s : State) (x : Nat × Ext) : State :=
  if (lost.filter (fun n => x.2.st != .unused && inExt x.2 (64 * n))).isEmpty then s
  else (s.poison x.1 x.2 5 31 (lost.filter (fun n => x.2.st != .unused && inExt x.2 (64 * n)))).noteLost x.1 h
theorem scanEnd_eq (s : State) (h : Nat) : s.scanEnd h =
    ((s.pool.exts.foldl (loseIn h (s.exclLines h)) ((s.heldLines h).foldl (fun t l => t.dirDrop l h) s)).modHost h
      (fun p => { p with linesLost := p.linesLost + (s.exclLines h).length, scanning := false })).event 4 0x04 2 h (s.exclLines h).length 0 := rfl
theorem loseIn_hp (h : Nat) (lost : List Nat) (s : State) (x : Nat × Ext) : (loseIn h lost s x).hp = s.hp := by
  unfold loseIn
  split
  · rfl
  · exact poison_hp _ _ _ _ _ _
theorem loseIn_nil (h : Nat) (s : State) (x : Nat × Ext) : loseIn h [] s x = s := rfl
theorem scanEnd_host (s : State) (h : Nat) : (s.scanEnd h).host h =
    { s.host h with linesLost := (s.host h).linesLost + (s.exclLines h).length, scanning := false } := by
  obtain ⟨d, hdrop⟩ : DirOnly s ((s.heldLines h).foldl (fun t l => t.dirDrop l h) s) := foldl_dirOnly (fun _ _ => dirDrop_dirOnly _ _ _) _ _
  have hhp : (s.pool.exts.foldl (loseIn h (s.exclLines h)) ((s.heldLines h).foldl (fun t l => t.dirDrop l h) s)).host h = s.host h := by
    rw [State.host, foldl_hp (loseIn_hp _ _), hdrop, State.host]
  have hend : ∀ (t : State) (f : HostPort → HostPort) (n : Nat), ((t.modHost h f).event 4 0x04 2 h n 0).host h = f (t.host h) := by simp
  rw [scanEnd_eq, hend, hhp]

section
variable {l : Nat} {d : DirEnt}

/-- With nothing in the directory the scan's end is all that it does. -/
theorem scanEnd_empty (hdir : s.pool.dir = []) : Mgmt (s.modHost h (fun p => { p with scanning := false })) (s.scanEnd h) := by
  have hheld : s.heldLines h = [] := by simp [State.heldLines, hdir]
  have hexcl : s.exclLines h = [] := by simp [State.exclLines, hdir]
  rw [scanEnd_eq, hheld, hexcl, List.foldl_nil, List.foldl_fixed' (loseIn_nil h s)]
  exact event_mgmt _ _ _ _ _ _ _
theorem heldLines_single (hdir : s.pool.dir = [(l, d)]) (hh : d.hosts = [h]) : s.heldLines h = [l] := by simp [State.heldLines, hdir, hh]
theorem scanEnd_pool (hdir : s.pool.dir = [(l, d)]) (hh : d.hosts = [h]) :
    (s.scanEnd h).pool = (s.pool.exts.foldl (loseIn h (s.exclLines h)) (s.dirDrop l h)).pool := by
  rw [scanEnd_eq, heldLines_single hdir hh]
  simp
/-- A line that the port shared is free after the scan. -/
theorem scanEnd_shared (hdir : s.pool.dir = [(l, d)]) (hx : d.excl = false) (hs : d.sharers = [h]) :
    (s.scanEnd h).pool.dir = [] ∧ (s.scanEnd h).pool.poison = s.pool.poison ∧ s.exclLines h = [] := by
  have hexcl : s.exclLines h = [] := by simp [State.exclLines, hdir, hx]
  have hpool := scanEnd_pool hdir (h := h) (by simp [DirEnt.hosts, hx, hs])
  rw [hexcl, List.foldl_fixed' (loseIn_nil h _)] at hpool
  rw [hpool]
  obtain ⟨e, hdrop⟩ := dirDrop_dirOnly s l h
  exact ⟨dirDrop_last hdir (drop_sharer hx hs), by rw [hdrop], hexcl⟩
/-- A line that the port held exclusively is free and poisoned HOST_LOST after the scan. -/
theorem scanEnd_exclusive {e : Nat} {x : Ext} (hdir : s.pool.dir = [(l, d)]) (hx : d.excl = true) (ho : d.owner = h) (hexts : s.pool.exts = [(e, x)])
    (hst : x.st ≠ .unused) (hin : inExt x (64 * l) = true) :
    (s.scanEnd h).pool.dir = [] ∧ tget 0 (s.scanEnd h).pool.poison l = 5 ∧ s.exclLines h = [l] := by
  have hexcl : s.exclLines h = [l] := by simp [State.exclLines, hdir, hx, ho]
  have hlose : loseIn h [l] (s.dirDrop l h) (e, x) = ((s.dirDrop l h).poison e x 5 31 [l]).noteLost e h := by simp [loseIn, hst, hin]
  have hpool := scanEnd_pool hdir (h := h) (by simp [DirEnt.hosts, hx, ho])
  obtain ⟨g, n, k, hlog⟩ := poison_logOnly (s.dirDrop l h) e x 5 31 [l]
  rw [hexcl, hexts, List.foldl_cons, List.foldl_nil, hlose] at hpool
  rw [hpool]
  refine ⟨?_, ?_, hexcl⟩
  · show ((s.dirDrop l h).poison e x 5 31 [l]).pool.dir = []
    rw [hlog]
    exact dirDrop_last hdir (drop_owner hx ho)
  · show tget 0 ((s.dirDrop l h).poison e x 5 31 [l]).pool.poison l = 5
    rw [hlog]
    exact tget_tset_same _ _ _ _
end
end

-- A write of HP.CTL that comes to its object
section
variable {s : State} {v : VCtx} {h : Nat} (hv : (s.epochRec (.host h)).epoch = v.epoch)
include hv

theorem hpCtl_accepts {n : Nat} {w : State} (hw : Write s v (hpCtlObj h) (leBytes 8 n)) (he : hpCtlWrite h n (s.countDatagram v.sess) = .ok w) :
    ∃ t, s.vaneWrite v (hpCtlObj h) (leBytes 8 n) (some (.host h)) (hpCtlWrite h n) = .next t ∧ Answered t v 0 ∧ MgmtOnly w t :=
  vaneWrite_accepts hw (fun _ e => by rw [← Option.some.inj e, hv]) he
theorem hpCtl_aborts {n : Nat} (hw : Write s v (hpCtlObj h) (leBytes 8 n)) (he : hpCtlWrite h n (s.countDatagram v.sess) = .error abortRefused) :
    ∃ t, s.vaneWrite v (hpCtlObj h) (leBytes 8 n) (some (.host h)) (hpCtlWrite h n) = .next t ∧ Answered t v abortRefused ∧ MgmtOnly s t :=
  vaneWrite_aborts hw (fun _ e => by rw [← Option.some.inj e, hv]) he
theorem declareDead_dies (hw : Write s v (hpCtlObj h) (leBytes 8 1)) (hst : (s.host h).st = .active) (hn : NoCxl s) :
    ∃ w, Accepts (.declareDead v h) v s w ∧ HostDies s w h := by
  have hbase : Mgmt s ((s.countDatagram v.sess).setMg (.host h) (some 2)) := (countDatagram_mgmt _ _).trans (setMg_mgmt _ _ _)
  have hacc := hpCtl_accepts hv hw (hpCtlWrite_dies (s := s.countDatagram v.sess) (by simpa using hst))
  obtain ⟨a, e, o, hbase⟩ := hbase
  have hdead := hostDead_dies (s := (s.countDatagram v.sess).setMg (.host h) (some 2)) (h := h) (by simpa using hst)
    (hn.of_hp (by rw [hbase])) false
  refine ⟨_, hacc, ?_⟩
  obtain ⟨h1, h2, h3, h4, hmem⟩ := hdead
  exact ⟨h1, h2, h3, h4, by rw [hmem, hbase]⟩
theorem revive_accepts (hw : Write s v (hpCtlObj h) (leBytes 8 2)) (hst : (s.host h).st = .dead) (ht : (s.host h).trained = true)
    (hscan : (s.host h).scanning = false) : Accepts (.revive v h) v s (s.modHost h (fun p => { p with st := .active })) := by
  obtain ⟨t, hexec, hans, hm⟩ := hpCtl_accepts hv hw (hpCtlWrite_revives (s := s.countDatagram v.sess) (by simpa using hst) (by simpa using ht) (by simpa using hscan))
  have hbase : Mgmt s ((s.countDatagram v.sess).setMg (.host h) none) := (countDatagram_mgmt _ _).trans (setMg_mgmt _ _ _)
  exact ⟨t, hexec, hans, ((hbase.modHost h _).trans (cmdChange_mgmt _ _ _)).trans hm⟩
theorem clearRid_accepts {r : Nat} (hr : r < 2 ^ 16) (hw : Write s v (hpCtlObj h) (leBytes 8 (3 + 65536 * r))) :
    Accepts (.clearRid v h r) v s (s.modHost h (fun p => { p with stalled := p.stalled.filter (· != r) })) := by
  obtain ⟨t, hexec, hans, hm⟩ := hpCtl_accepts hv hw (hpCtlWrite_clears hr)
  rw [← Nat.mod_eq_of_lt hr] at hexec
  exact ⟨t, hexec, hans, ((countDatagram_mgmt _ _).modHost h _).trans hm⟩
end

theorem execDeadScanDone_ends {s : State} {h : Nat} (hst : (s.host h).st = .dead) (hscan : (s.host h).scanning = true) :
    exec (.deadScanDone h) s = .next (s.scanEnd h) := congrArg Host.Outcome.next (if_pos (by simp [hst, hscan]))

/-- Settles O53: whatever kills an ACTIVE port comes to `hostDead`, behind which nothing goes on where no CXL.mem access waits; the end of the scan frees
the entries that name the port and poisons the lines that it held exclusively. -/
theorem hostPortStates : Obligations.HostPortStates := by
  unfold Obligations.HostPortStates
  refine ⟨fun s h => hostLinkUp_activates, fun s h hst => ?_, fun s h hst hn => ?_, fun s v h hw hv => ⟨fun hst hn => declareDead_dies hv hw hst hn, fun hst => ?_⟩,
    fun s v h hw hv hst => ⟨revive_accepts hv hw hst, fun ht => ?_⟩, fun s v h r hr hw hv => clearRid_accepts hv hr hw,
    fun s h hst hscan => ⟨fun hdir => ?_, fun l e d x hdir hx ho hexts hact hin => ?_, fun l d hdir hx hs => ?_⟩⟩
  · exact congrArg Host.Outcome.next (hostDead_inactive (s := s.unlinked h) (by rw [unlinked_host]; exact hst) true)
  · have hact : ((s.unlinked h).host h).st = .active := by rw [unlinked_host]; exact hst
    have hidle : NoCxl (s.unlinked h) := NoCxl.modHost hn (NoCxl.host hn h)
    have hhost := hostDead_host hact hidle true
    rw [unlinked_host] at hhost
    refine ⟨(s.unlinked h).hostDead h true, rfl, hostDead_dies hact hidle true, ?_, ?_, ?_, ?_, fun c y hbinds hmode hnode _ => hostDead_unbinds hact hidle true hbinds hmode hnode⟩
    · rw [hhost]
    · rw [hhost]
    · rw [hhost]
    · rw [hhost]
      simp
  · exact hpCtl_aborts hv hw (hpCtlWrite_notActive (by simpa using hst))
  · exact hpCtl_aborts hv hw (hpCtlWrite_untrained (by simpa using ht))
  · exact ⟨_, execDeadScanDone_ends hst hscan, scanEnd_empty hdir⟩
  · obtain ⟨hfree, hpoison, hexcl⟩ := scanEnd_exclusive hdir hx ho hexts (by simp [hact]) hin
    exact ⟨_, execDeadScanDone_ends hst hscan, hfree, hpoison, by rw [scanEnd_host, hexcl]; rfl, by rw [scanEnd_host], scanEnd_mem s h⟩
  · obtain ⟨hfree, hpoison, hexcl⟩ := scanEnd_shared hdir hx hs
    exact ⟨_, execDeadScanDone_ends hst hscan, hfree, hpoison, by rw [scanEnd_host, hexcl]; rfl, by rw [scanEnd_host], scanEnd_mem s h⟩

end Sys2Proof.Machine
end

section
/-! CXL.mem at a host port (R317 to R325): what a request comes to where its turn has come, and how a back-invalidate ends. -/

namespace Sys2Proof.Machine
open Sys2Proof

-- Stores of lines
/-- `t` has the outbox, the directory and the back-invalidates of `s`. -/
structure HoldersKept (s t : State) : Prop where
  out : t.out = s.out
  dir : t.pool.dir = s.pool.dir
  backInvs : t.pool.backInvs = s.pool.backInvs
theorem HoldersKept.refl (s : State) : HoldersKept s s := ⟨rfl, rfl, rfl⟩
theorem HoldersKept.trans {s t u : State} (h : HoldersKept s t) (g : HoldersKept t u) : HoldersKept s u :=
  ⟨g.out.trans h.out, g.dir.trans h.dir, g.backInvs.trans h.backInvs⟩
theorem modPool_holdersKept (s : State) {f : Pool → Pool} (hf : ∀ p, (f p).dir = p.dir ∧ (f p).backInvs = p.backInvs) : HoldersKept s (s.modPool f) :=
  ⟨rfl, (hf s.pool).1, (hf s.pool).2⟩
theorem putParity_holdersKept (s : State) (x : Ext) (o : Nat) : HoldersKept s (s.putParity x o) := by
  unfold State.putParity
  dsimp only
  split
  · exact .refl s
  · exact modPool_holdersKept s fun _ => ⟨rfl, rfl⟩
theorem putMac_holdersKept (s : State) (x : Ext) (o : Nat) : HoldersKept s (s.putMac x o) := by
  unfold State.putMac
  split
  · exact modPool_holdersKept s fun _ => ⟨rfl, rfl⟩
  · exact .refl s
theorem poolWrite_holdersKept (s : State) (o : Nat) (b : Bytes) : HoldersKept s (s.poolWrite o b) := by
  have hstore := modPool_holdersKept s (f := fun p => { p with mem := memWrite p.mem o b }) fun _ => ⟨rfl, rfl⟩
  unfold State.poolWrite
  dsimp only
  split
  · exact (hstore.trans (putParity_holdersKept _ _ _)).trans (putMac_holdersKept _ _ _)
  · exact hstore
theorem modDie_holdersKept (s : State) (d : Nat) (f : Die → Die) : HoldersKept s (s.modDie d f) := ⟨rfl, rfl, rfl⟩
theorem healLine_holdersKept (s : State) (x : Ext) (o : Nat) : HoldersKept s (s.healLine x o) := by
  unfold State.healLine
  extract_lets s1
  have h1 : HoldersKept s s1 := by
    unfold s1
    split
    · refine .trans (modPool_holdersKept s ?_) (modDie_holdersKept _ _ _)
      exact fun _ => ⟨rfl, rfl⟩
    · exact .refl s
  exact h1.trans (modPool_holdersKept s1 fun _ => ⟨rfl, rfl⟩)
theorem countAccess_holdersKept (s : State) (o : Nat) (r : Bool) : HoldersKept s (s.countAccess o r) := modPool_holdersKept s fun _ => ⟨rfl, rfl⟩
/-- The line that a CXL.mem write stores: under the mask its own bytes, elsewhere those of the pool. -/
def State.merged (s : State) (o mask : Nat) (b : Bytes) : Bytes :=
  (List.range 64).map (fun i => if mask.testBit i then b.getD i 0 else (s.poolRead o 64).getD i 0)
theorem cxlStore_eq (s : State) (o mask : Nat) (b : Bytes) : s.cxlStore o mask b = s.poolWrite o (s.merged o mask b) := rfl
theorem length_merged (s : State) (o mask : Nat) (b : Bytes) : (s.merged o mask b).length = 64 := by simp [State.merged]
theorem getD_merged (s : State) (o mask : Nat) (b : Bytes) {i : Nat} (hi : i < 64) :
    (s.merged o mask b).getD i 0 = if mask.testBit i then b.getD i 0 else (s.poolRead o 64).getD i 0 := by
  simp [State.merged, hi]
theorem slice_whole {b : Bytes} {n : Nat} (h : b.length = n) : slice b 0 n = b := by
  subst h
  simp [slice]
theorem testBit_fullMask {i : Nat} (hi : i < 64) : (2 ^ 64 - 1).testBit i = true := by
  rw [Nat.testBit_two_pow_sub_one]
  exact decide_eq_true hi
/-- A store leaves in the line what its mask says, and every other byte as it was. -/
theorem cxlStore_bytes {s t : State} (hsafe : MemSafe s) {o mask : Nat} {b : Bytes} (hmem : t.pool.mem = (s.cxlStore o mask b).pool.mem) :
    (∀ i, i < 64 → memGet t.pool.mem (o + i) = if mask.testBit i then b.getD i 0 else (s.poolRead o 64).getD i 0) ∧
    (∀ a, a < o ∨ o + 64 ≤ a → memGet t.pool.mem a = memGet s.pool.mem a) := by
  rw [cxlStore_eq, (poolWrite_served _ _ _).2] at hmem
  obtain ⟨hout, hin⟩ := stored_bytes hsafe (length_merged s o mask b) hmem
  exact ⟨fun i hi => (hin i hi).trans (getD_merged _ _ _ _ hi), hout⟩

-- What a request meets
/-- Host port `h` runs in CXL mode, no access waits for a line, and the pool offset `o` lies in a line of an ACTIVE extent that nothing but the grants can deny. -/
structure CxlLine (s : State) (h o e : Nat) (x : Ext) : Prop where
  st : (s.host h).st = .active
  mode : (s.host h).modeActive = 2
  lines : s.sw.lines = []
  idle : NoCxl s
  door : inDoorbell o = false
  ext : extOfOff s o = some (e, x)
  act : x.st = .active
  page : (tget {} s.pool.counters (o / 2 ^ 21)).hole = false
  clear : (s.key x.keySlot).sealed = false
  mac : x.mac = false
  sound : s.linePoison x o = 0

section
variable {s : State} {h e : Nat} {x : Ext} {a : HostAcc}

theorem CxlLine.turn (hl : CxlLine s h a.off e x) : s.cxlTurn a = true := by
  simp [State.cxlTurn, State.lineQ, hl.lines, tget, cxlBefore_idle hl.idle]
theorem CxlLine.status (hl : CxlLine s h a.off e x) (ty : TType) : s.cxlStatus h a.off ty = extCheck x ty none (some h) := by
  simp [-Nat.reducePow, State.cxlStatus, hl.door, hl.ext, hl.act, hl.page, hl.clear]

/-- The line as the attempt finds it: no dead host's entry and no MAC to check, the state itself. -/
theorem CxlLine.checked (hl : CxlLine s h a.off e x) (hclean : ∀ n, s.dirClean n = s) (c : Bool) (l : List Nat) :
    (if c then l.foldl State.dirClean s else (l.foldl State.dirClean s).macCheck a.off) = s := by
  rw [List.foldl_fixed' hclean, macCheck_unkept hl.ext hl.mac, ite_self]

/-- The entry of a line in the directory, set or freed. -/
def State.setEntry (s : State) (line : Nat) (d : Option DirEnt) : State :=
  s.modPool (fun p => { p with dir := match d with | some d => tset p.dir line d | none => terase p.dir line })

variable (hl : CxlLine s h a.off e x) (hclean : ∀ n, s.dirClean n = s) (hp : a.passed = false)
include hl hclean hp

theorem cxlTry_readDenied {st : Status} (hk : a.kind ≠ 7 ∧ a.kind ≠ 8) (hst : extCheck x .rd none (some h) = some st) :
    s.cxlTry h a = (((s.cxlFail h a.off st.code).freshBytes 64).2.emit (.cxlDrs h a.off true ((s.cxlFail h a.off st.code).freshBytes 64).1), true) := by
  unfold State.cxlTry
  dsimp only
  rw [hl.checked hclean, hl.turn, hp]
  simp [hk, hl.status, hst]
theorem cxlTry_writeDenied {st : Status} (hk : a.kind = 7 ∨ a.kind = 8) (hst : extCheck x .wr none (some h) = some st) :
    s.cxlTry h a = ((s.cxlFail h a.off st.code).emit (.cxlNdr h a.off), true) := by
  unfold State.cxlTry
  dsimp only
  rw [hl.checked hclean, hl.turn, hp]
  rcases hk with hk | hk <;> simp [hk, hl.status, hst]
theorem cxlTry_reads (hk : a.kind ≠ 7 ∧ a.kind ≠ 8) (hst : extCheck x .rd none (some h) = none) (hdir : s.pool.dir = []) :
    s.cxlTry h a = (((s.countAccess a.off true).setEntry (a.off / 64) (dirAfter none h a.kind (s.slot % 2 ^ 32))).emit
      (.cxlDrs h a.off false (s.poolRead a.off 64)), true) := by
  unfold State.cxlTry
  dsimp only
  rw [hl.checked hclean, hl.turn, hp]
  simp [hk, hl.status, hst, hl.ext, hl.sound, State.dirOf, hdir, tfind, othersFor, State.dirVictim]
  rfl
theorem cxlTry_writes (hk : a.kind = 7 ∨ a.kind = 8) (hst : extCheck x .wr none (some h) = none) (hdir : s.pool.dir = []) :
    s.cxlTry h a = (((((if a.atop == 2 ^ 64 - 1 then s.healLine x a.off else s).cxlStore a.off a.atop a.data).countAccess a.off false).setEntry (a.off / 64)
      (dirAfter none h a.kind (s.slot % 2 ^ 32))).emit (.cxlNdr h a.off), true) := by
  unfold State.cxlTry
  dsimp only
  rw [hl.checked hclean, hl.turn, hp]
  rcases hk with hk | hk <;> simp [hk, hl.status, hst, hl.ext, hl.sound, State.dirOf, hdir, tfind, othersFor] <;> rfl
theorem cxlTry_waits {g : Nat} (hk : a.kind ≠ 7 ∧ a.kind ≠ 8) (hst : extCheck x .rd none (some h) = none)
    (ho : othersFor (s.dirOf (a.off / 64)) h a.kind = [g]) : s.cxlTry h a = (s.startBackInv (a.off / 64) g false none, false) := by
  unfold State.cxlTry
  dsimp only
  rw [hl.checked hclean, hl.turn, hp]
  simp [hk, hl.status, hst, hl.ext, ho]
end

-- A request as it arrives (R281, R321)
/-- A CXL.mem request to the line at `o` as it takes its turn, and the state in which it has. -/
def State.cxlNew (s : State) (h kind o mask : Nat) (b : Bytes) : HostAcc :=
  { cxlAcc (s.host h).nextAcc kind o mask s.clk b with turn := s.sw.nextTurn }
def State.cxlArrived (s : State) (h : Nat) : State := s.takeTurn.modHost h (fun p => { p with nextAcc := p.nextAcc + 1 })

section
variable {s : State} {h d o e k m : Nat} {x : Ext} {b : Bytes}

theorem arrived_out (s : State) (h : Nat) : (s.cxlArrived h).out = s.out := rfl
theorem arrived_pool (s : State) (h : Nat) : (s.cxlArrived h).pool = s.pool := rfl
theorem arrived_host (s : State) (h : Nat) : (s.cxlArrived h).host h = { s.host h with nextAcc := (s.host h).nextAcc + 1 } := by
  rw [State.cxlArrived, host_modHost, if_pos rfl]
  rfl
theorem CxlLine.arrived (hl : CxlLine s h o e x) : CxlLine (s.cxlArrived h) h o e x where
  st := by rw [arrived_host]; exact hl.st
  mode := by rw [arrived_host]; exact hl.mode
  lines := hl.lines
  idle := NoCxl.modHost (s := s.takeTurn) hl.idle (hl.idle.host h)
  door := hl.door
  ext := hl.ext
  act := hl.act
  page := hl.page
  clear := hl.clear
  mac := hl.mac
  sound := hl.sound
/-- A request that is answered at once, and one that is held, by what the attempt on its line comes to. -/
theorem cxlReq_done {t : State} (hl : CxlLine s h o e x) (ho : o = d / 64 * 64) (ht : (s.cxlArrived h).cxlTry h (s.cxlNew h k o m b) = (t, true)) :
    s.cxlReq h k d m b = t := by
  have hserved : ¬((s.host h).st != .active || (s.host h).modeActive != 2) = true := by simp [hl.st, hl.mode]
  rw [ho] at ht
  unfold State.cxlNew State.cxlArrived at ht
  unfold State.cxlReq
  rw [if_neg hserved]
  dsimp only at ht ⊢
  rw [ht]
  rfl
theorem cxlReq_held {t : State} (hl : CxlLine s h o e x) (ho : o = d / 64 * 64) (ht : (s.cxlArrived h).cxlTry h (s.cxlNew h k o m b) = (t, false)) :
    s.cxlReq h k d m b = t.modHost h (fun p =>
      { p with accs := p.accs ++ [{ s.cxlNew h k o m b with passed := (s.cxlArrived h).cxlPassed h (s.cxlNew h k o m b) }] }) := by
  have hserved : ¬((s.host h).st != .active || (s.host h).modeActive != 2) = true := by simp [hl.st, hl.mode]
  rw [ho] at ht ⊢
  unfold State.cxlNew State.cxlArrived at ht ⊢
  unfold State.cxlReq
  rw [if_neg hserved]
  dsimp only at ht ⊢
  rw [ht]
  rfl
theorem arrived_unheld (hdir : s.pool.dir = []) (n : Nat) : (s.cxlArrived h).dirClean n = s.cxlArrived h :=
  dirClean_unheld (by rw [State.dirOf, arrived_pool, hdir, tfind])
theorem emit_out (s : State) (y : Output) : (s.emit y).out = s.out ++ [y] := rfl
theorem setEntry_dir (hdir : s.pool.dir = []) (n : Nat) (y : Option DirEnt) : (s.setEntry n y).pool.dir = (y.map (fun z => (n, z))).toList := by
  cases y <;> simp [State.setEntry, State.modPool, hdir, tset, terase]
theorem setEntry_out (s : State) (n : Nat) (y : Option DirEnt) : (s.setEntry n y).out = s.out := rfl
theorem cxlFail_out (s : State) (h o st : Nat) : (s.cxlFail h o st).out = s.out ++ [.msix h 0] := rfl
theorem cxlFail_pool (s : State) (h o st : Nat) : (s.cxlFail h o st).pool = s.pool := rfl
theorem cxlFail_log (s : State) (h o st : Nat) : ((s.cxlFail h o st).host h).cxlLog = (s.host h).cxlLog ++ [(o, st)] := by simp [State.cxlFail]

/-- The state from which a write is performed, healed where the write is of the whole line, gives the store the same bytes. -/
theorem healed_keeps {w : State} (hw : w = if m == 2 ^ 64 - 1 then s.healLine x o else s) : HoldersKept s w ∧
    w.pool.mem = s.pool.mem ∧ ∀ i, i < 64 → m.testBit i = false → (w.poolRead o 64).getD i 0 = (s.poolRead o 64).getD i 0 := by
  subst hw
  split
  · next hm =>
    refine ⟨healLine_holdersKept s x o, healLine_mem s x o, fun i hi hoff => absurd (testBit_fullMask hi) ?_⟩
    rw [← eq_of_beq hm, hoff]
    exact Bool.false_ne_true
  · exact ⟨.refl s, rfl, fun _ _ _ => rfl⟩

variable (hl : CxlLine s h o e x) (ho : o = d / 64 * 64)
include hl ho

/-- A read of a line that nobody holds returns it, and the directory says what Table 11-6 does. -/
theorem cxlReq_reads {t : State} (ht : t = s.cxlReq h k d m b) (hk : k ≠ 7 ∧ k ≠ 8) (hst : extCheck x .rd none (some h) = none) (hdir : s.pool.dir = []) :
    t.out = s.out ++ [.cxlDrs h o false (s.poolRead o 64)] ∧ t.pool.mem = s.pool.mem ∧
      t.pool.dir = ((dirAfter none h k (s.slot % 2 ^ 32)).map (fun y => (o / 64, y))).toList := by
  have htry := cxlTry_reads (a := s.cxlNew h k o m b) hl.arrived (arrived_unheld hdir) rfl hk hst hdir
  have hcount := countAccess_holdersKept (s.cxlArrived h) o true
  have hend : t = (((s.cxlArrived h).countAccess o true).setEntry (o / 64) (dirAfter none h k (s.slot % 2 ^ 32))).emit
      (.cxlDrs h o false (s.poolRead o 64)) := ht.trans (cxlReq_done hl ho htry)
  obtain ⟨u, hu⟩ : ∃ u, u = ((s.cxlArrived h).countAccess o true) := ⟨_, rfl⟩
  rw [← hu] at hend hcount
  have hmem : u.pool.mem = s.pool.mem := by rw [hu, countAccess_mem, arrived_pool]
  rw [hend, emit_out, setEntry_out, hcount.out, arrived_out]
  exact ⟨rfl, hmem, setEntry_dir (hcount.dir.trans hdir) _ _⟩
/-- A write of a line that nobody holds stores the bytes that its mask names. -/
theorem cxlReq_writes {t : State} (ht : t = s.cxlReq h k d m b) (hk : k = 7 ∨ k = 8) (hst : extCheck x .wr none (some h) = none) (hdir : s.pool.dir = [])
    (hsafe : MemSafe s) : t.out = s.out ++ [.cxlNdr h o] ∧ t.pool.dir = [] ∧
      (∀ i, i < 64 → memGet t.pool.mem (o + i) = if m.testBit i then b.getD i 0 else (s.poolRead o 64).getD i 0) ∧
      (∀ a, a < o ∨ o + 64 ≤ a → memGet t.pool.mem a = memGet s.pool.mem a) := by
  have htry := cxlTry_writes (a := s.cxlNew h k o m b) hl.arrived (arrived_unheld hdir) rfl hk hst hdir
  obtain ⟨w, hw⟩ : ∃ w, w = if m == 2 ^ 64 - 1 then (s.cxlArrived h).healLine x o else s.cxlArrived h := ⟨_, rfl⟩
  obtain ⟨u, hu⟩ : ∃ u, u = (w.cxlStore o m b).countAccess o false := ⟨_, rfl⟩
  have hnone : dirAfter none h k (s.slot % 2 ^ 32) = none := by rcases hk with rfl | rfl <;> rfl
  have hend : t = (u.setEntry (o / 64) none).emit (.cxlNdr h o) := by
    rw [ht, hu, hw, ← hnone]
    exact cxlReq_done hl ho htry
  obtain ⟨hheal, hmem, hold⟩ := healed_keeps hw
  have hkept : HoldersKept w u := by
    rw [hu]
    exact (poolWrite_holdersKept _ _ _).trans (countAccess_holdersKept _ _ _)
  have hsafe' : MemSafe w := by
    rw [MemSafe, hmem]
    exact hsafe
  obtain ⟨hin, hrest⟩ := cxlStore_bytes (t := u) hsafe' (by rw [hu]; exact countAccess_mem _ _ _)
  rw [hmem] at hrest
  rw [hend, emit_out, setEntry_out, hkept.out, hheal.out, arrived_out]
  refine ⟨rfl, setEntry_dir (hkept.dir.trans (hheal.dir.trans hdir)) _ none, fun i hi => (hin i hi).trans ?_, hrest⟩
  cases hbit : m.testBit i with
  | true => rfl
  | false => exact hold i hi hbit
/-- A read that the grants deny is answered with poison, logged and signalled (R319). -/
theorem cxlReq_readDenied {t : State} (ht : t = s.cxlReq h k d m b) {st : Status} (hk : k ≠ 7 ∧ k ≠ 8) (hst : extCheck x .rd none (some h) = some st)
    (hdir : s.pool.dir = []) : (∃ r, t.out = s.out ++ [.msix h 0, .cxlDrs h o true r]) ∧ (t.host h).cxlLog = (s.host h).cxlLog ++ [(o, st.code)] ∧
      t.pool = s.pool := by
  have htry := cxlTry_readDenied (a := s.cxlNew h k o m b) hl.arrived (arrived_unheld hdir) rfl hk hst
  obtain ⟨u, hu⟩ : ∃ u, u = (s.cxlArrived h).cxlFail h o st.code := ⟨_, rfl⟩
  have hend : t = (u.freshBytes 64).2.emit (.cxlDrs h o true (u.freshBytes 64).1) := by
    rw [ht, hu]
    exact cxlReq_done hl ho htry
  have hout : u.out = s.out ++ [.msix h 0] := by rw [hu, cxlFail_out, arrived_out]
  refine ⟨⟨(u.freshBytes 64).1, ?_⟩, ?_, ?_⟩
  · simp [hend, emit_out, hout]
  · simp [hend, hu, cxlFail_log, arrived_host]
  · simp [hend, hu, cxlFail_pool, arrived_pool]
/-- A write that the grants deny is answered without effect, logged and signalled (R319). -/
theorem cxlReq_writeDenied {t : State} (ht : t = s.cxlReq h k d m b) {st : Status} (hk : k = 7 ∨ k = 8) (hst : extCheck x .wr none (some h) = some st)
    (hdir : s.pool.dir = []) : t.out = s.out ++ [.msix h 0, .cxlNdr h o] ∧ (t.host h).cxlLog = (s.host h).cxlLog ++ [(o, st.code)] ∧ t.pool = s.pool := by
  have htry := cxlTry_writeDenied (a := s.cxlNew h k o m b) hl.arrived (arrived_unheld hdir) rfl hk hst
  have hend : t = ((s.cxlArrived h).cxlFail h o st.code).emit (.cxlNdr h o) := ht.trans (cxlReq_done hl ho htry)
  refine ⟨?_, ?_, ?_⟩
  · simp [hend, emit_out, cxlFail_out, arrived_out]
  · simp [hend, cxlFail_log, arrived_host]
  · simp [hend, cxlFail_pool, arrived_pool]
end

-- The line of another host (R321, R323)
theorem sendBisnp_keeps (s : State) (n g j : Nat) : (s.sendBisnp n g).out = s.out ∧ ((s.sendBisnp n g).host j).accs = (s.host j).accs := by
  unfold State.sendBisnp
  split
  · exact ⟨rfl, rfl⟩
  · extract_lets tag t s1 y s2
    have h1 : (s1.host j).accs = (s.host j).accs := by
      rw [host_modHost]
      split
      · next hj => rw [hj]; rfl
      · rfl
    obtain ⟨ports, sw, hc, _⟩ := (charge_charged s2 256 1 1).keeps
    rw [hc]
    exact ⟨rfl, h1⟩
theorem startBackInv_keeps (s : State) (n g j : Nat) (discard : Bool) (rev : Option (Nat × Nat)) :
    (s.startBackInv n g discard rev).out = s.out ∧ ((s.startBackInv n g discard rev).host j).accs = (s.host j).accs := by
  unfold State.startBackInv
  split
  · exact ⟨rfl, rfl⟩
  · exact sendBisnp_keeps _ n g j
theorem othersFor_owner {d : DirEnt} {g h : Nat} (hx : d.excl = true) (ho : d.owner = g) (hne : g ≠ h) : othersFor (some d) h 4 = [g] := by
  simp [othersFor, DirEnt.hosts, hx, ho, hne]
section
variable {s : State} {h d o e g : Nat} {x : Ext} {y : DirEnt}

theorem arrived_alive (hdir : s.pool.dir = [(o / 64, y)]) (hx : y.excl = true) (hown : y.owner = g) (hne : g ≠ h) (hst : (s.host g).st ≠ .dead) (n : Nat) :
    (s.cxlArrived h).dirClean n = s.cxlArrived h := by
  have hn : (s.cxlArrived h).dirOf n = if o / 64 = n then some y else none := by
    rw [State.dirOf, arrived_pool, hdir, tfind, tfind]
  split at hn
  · have hg : (s.cxlArrived h).host g = s.host g := by
      rw [State.cxlArrived, host_modHost, if_neg hne]
      rfl
    exact dirClean_alive hn hx hown (by rw [hg]; exact hst)
  · exact dirClean_unheld hn
/-- A read of a line that another living host holds waits in its port, past the checks, while that host is back-invalidated. -/
theorem cxlReq_waits (hl : CxlLine s h o e x) (ho : o = d / 64 * 64) (hnone : (s.host h).accs = []) (hdir : s.pool.dir = [(o / 64, y)]) (hx : y.excl = true)
    (hown : y.owner = g) (hne : g ≠ h) (hst : (s.host g).st ≠ .dead) (hgrant : extCheck x .rd none (some h) = none) {t : State} (ht : t = s.cxlReq h 4 d 0 []) :
    ∃ a b, (t.host h).accs = [a] ∧ a.kind = 4 ∧ a.off = o ∧ a.passed = true ∧ b ∈ t.pool.backInvs ∧ b.line = o / 64 ∧ b.host = g ∧ t.out = s.out ∧
      t.pool.mem = s.pool.mem := by
  have hentry : (s.cxlArrived h).dirOf (o / 64) = some y := by rw [State.dirOf, arrived_pool, hdir, tfind, if_pos rfl]
  have htry := cxlTry_waits (a := s.cxlNew h 4 o 0 []) hl.arrived (arrived_alive hdir hx hown hne hst) rfl (show (4 : Nat) ≠ 7 ∧ (4 : Nat) ≠ 8 by decide) hgrant
    (by rw [show (s.cxlNew h 4 o 0 []).off = o from rfl, hentry]; exact othersFor_owner hx hown hne)
  have hpassed : (s.cxlArrived h).cxlPassed h (s.cxlNew h 4 o 0 []) = true := by
    rw [State.cxlPassed, CxlLine.turn (a := s.cxlNew h 4 o 0 []) hl.arrived, CxlLine.status (a := s.cxlNew h 4 o 0 []) hl.arrived]
    exact congrArg Option.isNone hgrant
  obtain ⟨u, hu⟩ : ∃ u, u = (s.cxlArrived h).startBackInv (o / 64) g false none := ⟨_, rfl⟩
  obtain ⟨hout, haccs⟩ := startBackInv_keeps (s.cxlArrived h) (o / 64) g h false none
  obtain ⟨b, hb, hline, hhost⟩ := startBackInv_underway (s.cxlArrived h) (o / 64) g false none
  have hmem := startBackInv_mem (s.cxlArrived h) (o / 64) g false none
  have hend : t = u.modHost h (fun p => { p with accs := p.accs ++ [{ s.cxlNew h 4 o 0 [] with passed := true }] }) := by
    rw [ht, hu, ← hpassed]
    exact cxlReq_held hl ho htry
  rw [← hu] at hout haccs hb hmem
  rw [arrived_host] at haccs
  refine ⟨{ s.cxlNew h 4 o 0 [] with passed := true }, b, ?_, rfl, rfl, rfl, by rw [hend]; exact hb, hline, hhost, by rw [hend]; exact hout, by rw [hend]; exact hmem⟩
  rw [hend, host_modHost, if_pos rfl]
  exact congrArg (· ++ [{ s.cxlNew h 4 o 0 [] with passed := true }]) (haccs.trans hnone)
end

-- Write-backs and BIRsps (R323)
section
variable {s : State} {h d : Nat} {b : Bytes} {x : BackInv}

/-- The state in which the only back-invalidate has been answered by the host. -/
def State.cleared (s : State) (x : BackInv) : State := s.modPool (fun p => { p with backInvs := [{ x with cleared := true }] })
theorem backInvOf_single (hb : s.pool.backInvs = [x]) (hl : x.line = d / 64) (hh : x.host = h) : s.backInvOf (d / 64) h = some x := by
  simp [State.backInvOf, hb, hl, hh]
theorem modPool_clears (hb : s.pool.backInvs = [x]) :
    s.modPool (fun p => { p with backInvs := p.backInvs.map (fun y => if y.line == x.line && y.host == x.host then { y with cleared := true } else y) }) =
      s.cleared x := by
  simp [State.cleared, State.modPool, hb]
section
variable (hb : s.pool.backInvs = [x]) (hl : x.line = d / 64) (hh : x.host = h)
include hb hl hh

theorem execRwd_discards (hd : x.discard = true) : execRwd h d b s = .next (s.cleared x) := by
  unfold execRwd
  rw [backInvOf_single hb hl hh]
  dsimp only
  rw [← hh, modPool_clears hb, if_pos hd]
theorem execRwd_stores {e : Nat} {y : Ext} (hd : x.discard = false) (hext : extOfOff s (64 * (d / 64)) = some (e, y)) :
    execRwd h d b s =
      .next ((((s.cleared x).healLine y (64 * (d / 64))).cxlStore (64 * (d / 64)) (2 ^ 64 - 1) (slice b 0 64)).countAccess (64 * (d / 64)) false) := by
  unfold execRwd
  rw [backInvOf_single hb hl hh]
  dsimp only
  rw [← hh, modPool_clears hb, if_neg (by rw [hd]; exact Bool.false_ne_true), hl, hext]
/-- A write-back that is not discarded is stored, and the back-invalidate has its answer. -/
theorem execRwd_writesBack (hd : x.discard = false) (hlen : b.length = 64) (hsafe : MemSafe s) (hext : (extOfOff s (64 * (d / 64))).isSome = true) :
    ∃ t, execRwd h d b s = .next t ∧ t.pool.backInvs = [{ x with cleared := true }] ∧ (∀ i, i < 64 → memGet t.pool.mem (64 * (d / 64) + i) = b.getD i 0) ∧
      (∀ a, a < 64 * (d / 64) ∨ 64 * (d / 64) + 64 ≤ a → memGet t.pool.mem a = memGet s.pool.mem a) := by
  obtain ⟨⟨e, y⟩, hey⟩ := Option.isSome_iff_exists.mp hext
  obtain ⟨w, hw⟩ : ∃ w, w = (s.cleared x).healLine y (64 * (d / 64)) := ⟨_, rfl⟩
  have hexec := execRwd_stores (b := b) hb hl hh hd hey
  rw [← hw, slice_whole hlen] at hexec
  have hkept : HoldersKept (s.cleared x) (w.cxlStore (64 * (d / 64)) (2 ^ 64 - 1) b) := by
    rw [hw]
    exact (healLine_holdersKept _ _ _).trans (poolWrite_holdersKept _ _ _)
  have hmem : w.pool.mem = s.pool.mem := by
    rw [hw]
    exact healLine_mem _ _ _
  obtain ⟨hin, hrest⟩ := cxlStore_bytes (s := w) (t := (w.cxlStore (64 * (d / 64)) (2 ^ 64 - 1) b).countAccess (64 * (d / 64)) false)
    (by rw [MemSafe, hmem]; exact hsafe) (countAccess_mem _ _ _)
  rw [hmem] at hrest
  refine ⟨_, hexec, hkept.backInvs, fun i hi => (hin i hi).trans (if_pos (testBit_fullMask hi)), hrest⟩
end
end

section
variable {s : State} {h d q : Nat}

theorem cls_fail (x : Txn) (st node : Nat) : (x.fail st node).ty.cls = 2 := by
  unfold Txn.fail
  dsimp only
  split <;> rfl
/-- A BIRSP goes by the route of its request to the end of its queue, whatever has changed at the port. -/
theorem sendBirsp_queued {x : Txn} {st : Nat} (f : HostPort → HostPort) (hq : s.egress (257 + h) x.snode (x.fail st (s.hpNode h)).key = some q) (hq' : q < 256) :
    Queued s ((s.modHost h f).sendBirsp h st x) q 2 (x.fail st (s.hpNode h)) (257 + h) := by
  have hvc : ((s.modHost h f).entry (x.fail st (s.hpNode h)) (257 + h) 2).queueVc = 2 := by
    show (x.fail st (s.hpNode h)).ty.cls + 5 * (2 / 5) = 2
    rw [cls_fail]
  have hsend : (s.modHost h f).sendBirsp h st x = (s.modHost h f).enqueue q 2 ((s.modHost h f).entry (x.fail st (s.hpNode h)) (257 + h) 2) :=
    (sendRsp_enqueue hq (Nat.ne_of_lt hq')).trans (congrArg (fun v => State.enqueue _ q v _) hvc)
  rw [hsend]
  exact Queued.of_repliesAs (modHost_repliesAs s h h f) (enqueue_queued (.refl _) q 2 _ rfl)
theorem execM2sBirsp_answers {x : Txn} (hs : (s.host h).snoops = [(d / 64 * 64, x)]) :
    execM2sBirsp h d s = .next ((s.modHost h (fun p => { p with snoops := [] })).sendBirsp h 0 x) := by
  have hempty : s.modHost h (fun p => { p with snoops := p.snoops.erase (d / 64 * 64, x) }) = s.modHost h (fun p => { p with snoops := [] }) :=
    modHost_congr (by rw [hs, List.erase_cons_head])
  unfold execM2sBirsp
  rw [hs, show [(d / 64 * 64, x)].find? (fun r => r.1 == d / 64 * 64) = some (d / 64 * 64, x) by simp]
  exact congrArg (fun u => Host.Outcome.next (State.sendBirsp u h 0 x)) hempty
theorem execM2sBirsp_idle (hs : (s.host h).snoops = []) : execM2sBirsp h d s = .next s := by
  unfold execM2sBirsp
  rw [hs, List.find?_nil]
end

/-- The three commands that write a line while no back-invalidate is under way come to a request that writes it. -/
theorem exec_cxlWrite {s : State} {c : Instr} {h d m : Nat} {b : Bytes} (hb : s.pool.backInvs = []) (hlen : b.length = 64) (hm : m < 2 ^ 64)
    (hc : c = .memWr h d .invalid m b ∨ c = .memWr h d .any m b ∨ (c = .rwd h d b ∧ m = 2 ^ 64 - 1)) :
    ∃ k, (k = 7 ∨ k = 8) ∧ exec c s = .next (s.cxlReq h k d m b) := by
  have hwrite : ∀ k, s.cxlReq h k d (m % 2 ^ 64) (slice b 0 64) = s.cxlReq h k d m b := fun k => by rw [Nat.mod_eq_of_lt hm, slice_whole hlen]
  rcases hc with rfl | rfl | ⟨rfl, rfl⟩
  · exact ⟨7, .inl rfl, congrArg _ (hwrite 7)⟩
  · exact ⟨8, .inr rfl, congrArg _ (hwrite 8)⟩
  · have hnone : s.backInvOf (d / 64) h = none := by rw [State.backInvOf, hb, List.find?_nil]
    refine ⟨8, .inr rfl, ?_⟩
    show execRwd h d b s = _
    rw [execRwd, hnone, slice_whole hlen]

-- BI_TIMEOUT (R325)
/-- A line that was not given up in a revocation is poisoned, and the grant notes it (R325). -/
def State.revokePoison (s : State) (e g l : Nat) : State :=
  (s.poison e (s.ext e) 6 31 [l]).modExt e (fun x => { x with grants := tmod {} x.grants g (fun y => { y with poisonedAny := true }) })
section
variable {s : State} {h l : Nat} {x : BackInv} (hb : s.pool.backInvs = [x]) (hl : x.line = l) (hh : x.host = h)
include hb hl hh

theorem execBiTimeout_early (hearly : s.clk < x.since + (s.host h).biTimeout * 1000) : execBiTimeout h l s = .next s := by
  simp [execBiTimeout, State.backInvOf, hb, hl, hh, hearly]
theorem execBiTimeout_dies (hdue : x.since + (s.host h).biTimeout * 1000 ≤ s.clk) (hr : x.revoke = none) : execBiTimeout h l s = .next (s.hostDead h true) := by
  simp [execBiTimeout, State.backInvOf, hb, hl, hh, Nat.not_lt.mpr hdue, hr]
theorem execBiTimeout_poisons {e g : Nat} {y : DirEnt} (hdue : x.since + (s.host h).biTimeout * 1000 ≤ s.clk) (hr : x.revoke = some (e, g)) (hc : x.cleared = false)
    (hdir : s.pool.dir = [(l, y)]) (hx : y.excl = true) (ho : y.owner = h) : execBiTimeout h l s =
      .next ((s.revokePoison e g l).endBackInv l h) := by
  simp [State.revokePoison, execBiTimeout, State.backInvOf, State.dirOf, tfind, hdir, hx, ho, hc, hb, hl, hh, Nat.not_lt.mpr hdue, hr]
end
theorem dirDrop_hp (s : State) (l h : Nat) : (s.dirDrop l h).hp = s.hp := by
  obtain ⟨_, hdrop⟩ := dirDrop_dirOnly s l h
  rw [hdrop]
/-- The end of a back-invalidate where no CXL.mem access waits: the request and the host's entry are gone. -/
theorem endBackInv_idle {s : State} (hn : NoCxl s) (l h : Nat) : ∃ r, s.endBackInv l h =
    (State.modPool { s with reqs := r } (fun p => { p with backInvs := p.backInvs.filter (fun b => !(b.line == l && b.host == h)) })).dirDrop l h := by
  exact ⟨_, cxlResume_idle (hn.of_hp (dirDrop_hp _ l h))⟩
/-- The end of the only back-invalidate, for the only holder of the only line in the directory. -/
theorem endBackInv_last {s : State} (hn : NoCxl s) {l h : Nat} {x : BackInv} {y : DirEnt} (hb : s.pool.backInvs = [x]) (hl : x.line = l) (hh : x.host = h)
    (hdir : s.pool.dir = [(l, y)]) (hdrop : y.drop h = none) :
    (s.endBackInv l h).pool = { s.pool with backInvs := [], dir := [] } ∧ (s.endBackInv l h).hp = s.hp := by
  obtain ⟨r, hend⟩ := endBackInv_idle hn l h
  rw [hend]
  refine ⟨?_, dirDrop_hp _ _ _⟩
  simp [State.dirDrop, State.dirOf, State.modPool, hb, hl, hh, hdir, tfind, hdrop, terase]
theorem poison_holders (s : State) (e : Nat) (x : Ext) (c k : Nat) (l : List Nat) :
    (s.poison e x c k l).pool.dir = s.pool.dir ∧ (s.poison e x c k l).pool.backInvs = s.pool.backInvs := by
  obtain ⟨_, _, _, hlog⟩ := poison_logOnly s e x c k l
  rw [hlog]
  exact ⟨rfl, rfl⟩
theorem poison_line (s : State) (e : Nat) (x : Ext) (c k n : Nat) : tget 0 (s.poison e x c k [n]).pool.poison n = c := by
  obtain ⟨_, _, _, hlog⟩ := poison_logOnly s e x c k [n]
  rw [hlog]
  exact tget_tset_same _ _ _ _
theorem modExt_holders (s : State) (e : Nat) (f : Ext → Ext) : (s.modExt e f).pool.dir = s.pool.dir ∧ (s.modExt e f).pool.backInvs = s.pool.backInvs ∧
    (s.modExt e f).pool.mem = s.pool.mem ∧ (s.modExt e f).pool.poison = s.pool.poison := ⟨rfl, rfl, rfl, rfl⟩
theorem revokePoison_pool (s : State) (e g l : Nat) : (s.revokePoison e g l).pool.dir = s.pool.dir ∧ (s.revokePoison e g l).pool.backInvs = s.pool.backInvs ∧
    (s.revokePoison e g l).pool.mem = s.pool.mem ∧ tget 0 (s.revokePoison e g l).pool.poison l = 6 := by
  obtain ⟨hdir, hbacks⟩ := poison_holders s e (s.ext e) 6 31 [l]
  obtain ⟨hdir', hbacks', hmem', hpoison'⟩ := modExt_holders (s.poison e (s.ext e) 6 31 [l]) e
    (fun x => { x with grants := tmod {} x.grants g (fun y => { y with poisonedAny := true }) })
  rw [State.revokePoison, hdir', hbacks', hmem', hpoison']
  exact ⟨hdir, hbacks, poison_mem _ _ _ _ _ _, poison_line _ _ _ _ _ _⟩
theorem revokePoison_hp (s : State) (e g l : Nat) : (s.revokePoison e g l).hp = s.hp := by simp [State.revokePoison, poison_hp]
theorem revokePoison_grant (s : State) (e g l : Nat) : (tget {} ((s.revokePoison e g l).ext e).grants g).poisonedAny = true := by
  rw [State.revokePoison, ext_modExt, if_pos rfl]
  simp
/-- During a revocation the only back-invalidate ends at its deadline, for the only holder of the only line in the directory: the line is poisoned. -/
theorem execBiTimeout_revokes {s : State} (hn : NoCxl s) {l h e g : Nat} {x : BackInv} {y : DirEnt} (hb : s.pool.backInvs = [x]) (hl : x.line = l)
    (hh : x.host = h) (hdue : x.since + (s.host h).biTimeout * 1000 ≤ s.clk) (hr : x.revoke = some (e, g)) (hc : x.cleared = false)
    (hdir : s.pool.dir = [(l, y)]) (hx : y.excl = true) (ho : y.owner = h) : ∃ t, execBiTimeout h l s = .next t ∧ t.pool.backInvs = [] ∧ t.pool.dir = [] ∧
      tget 0 t.pool.poison l = 6 ∧ (tget {} (t.ext e).grants g).poisonedAny = true ∧ (t.host h).st = (s.host h).st ∧ t.pool.mem = s.pool.mem := by
  obtain ⟨hdir', hbacks, hmem, hpoison⟩ := revokePoison_pool s e g l
  have hhp := revokePoison_hp s e g l
  obtain ⟨hpool, hhp'⟩ := endBackInv_last (hn.of_hp hhp) (hbacks.trans hb) hl hh (hdir'.trans hdir) (drop_owner hx ho)
  refine ⟨_, execBiTimeout_poisons hb hl hh hdue hr hc hdir hx ho, ?_, ?_, ?_, ?_, ?_, ?_⟩
  · rw [hpool]
  · rw [hpool]
  · rw [hpool]
    exact hpoison
  · rw [State.ext, hpool]
    exact revokePoison_grant s e g l
  · rw [State.host, hhp', hhp, State.host]
  · rw [hpool]
    exact hmem

/-- A port holds nothing where none does, and then no CXL.mem access waits. -/
theorem accs_none {s : State} (h0 : ∀ q ∈ s.hp, q.2.accs = []) (h : Nat) : (s.host h).accs = [] := by
  rcases tget_default_or_mem {} s.hp h with hd | hm
  · rw [State.host, hd]
  · exact h0 _ hm
theorem noCxl_of_none {s : State} (h0 : ∀ q ∈ s.hp, q.2.accs = []) : NoCxl s := fun q hq _ ha => absurd (h0 q hq ▸ ha) List.not_mem_nil

/-- Settles O54: a request whose turn has come is answered by what `cxlTry` finds of its line, and one that another host holds up waits; a back-invalidate ends with
the host's write-back or BIRsp, with the port's death, or in a revocation with the line poisoned. -/
theorem cxlRequests : Obligations.CxlRequests := by
  unfold Obligations.CxlRequests
  refine ⟨fun s h d o e x hst hmode hlines haccs ho hdoor hext hact hpage hclear hmac hsound => ?_, fun s h d b x hb hl hh => ⟨fun hd => execRwd_discards hb hl hh hd,
    fun hd hlen hsafe hext => execRwd_writesBack hb hl hh hd hlen hsafe hext⟩, fun s h d q x hs hq hq' => ?_, fun s h d => execM2sBirsp_idle,
    fun s h l x hb hl hh hn => ⟨execBiTimeout_early hb hl hh, fun hdue hr hst => ?_, fun e g y hdue hr hc hdir hx ho => ?_⟩⟩
  · have hl : CxlLine s h o e x := ⟨hst, hmode, hlines, noCxl_of_none haccs, hdoor, hext, hact, hpage, hclear, hmac, hsound⟩
    refine ⟨fun hdir hg => ⟨?_, ?_, ?_⟩, fun c m b hdir hb hg hlen hsafe hm hc => ?_, fun st hdir hg => ?_, fun st m b hdir hg => ?_,
      fun g y hdir hx hy hne halive hg => ?_⟩
    · exact ⟨_, rfl, cxlReq_reads hl ho rfl (by decide) hg hdir⟩
    · exact ⟨_, rfl, cxlReq_reads hl ho rfl (by decide) hg hdir⟩
    · exact ⟨_, rfl, cxlReq_reads hl ho rfl (by decide) hg hdir⟩
    · obtain ⟨k, hk, hexec⟩ := exec_cxlWrite hb hlen hm hc
      exact ⟨_, hexec, cxlReq_writes hl ho rfl hk hg hdir hsafe⟩
    · obtain ⟨⟨r, hout⟩, hlog, hpool⟩ := cxlReq_readDenied hl ho (t := s.cxlReq h 4 d 0 []) rfl (by decide) hg hdir
      exact ⟨_, r, rfl, hout, hlog, by rw [hpool], by rw [hpool, hdir]⟩
    · obtain ⟨hout, hlog, hpool⟩ := cxlReq_writeDenied hl ho (t := s.cxlReq h 8 d (m % 2 ^ 64) (slice b 0 64)) rfl (.inr rfl) hg hdir
      exact ⟨_, rfl, hout, hlog, by rw [hpool], by rw [hpool, hdir]⟩
    · obtain ⟨a, b, haccs, hkind, hoff, hpassed, hb, hline, hhost, hout, hmem⟩ := cxlReq_waits hl ho (accs_none haccs h) hdir hx hy hne halive hg rfl
      exact ⟨_, a, b, rfl, haccs, hkind, hoff, hpassed, hb, hline, hhost, hout, hmem⟩
  · have hqueued := sendBirsp_queued (fun p => { p with snoops := [] }) hq hq'
    obtain ⟨_, _, _, _, _, _, _, _, _, _, _, hpool, hhp, _⟩ := (sendBirsp_carried (s.modHost h (fun p => { p with snoops := [] })) h 0 x).keeps
    refine ⟨_, execM2sBirsp_answers hs, ?_, hqueued, hpool⟩
    rw [State.host, hhp, ← State.host, host_modHost, if_pos rfl]
  · exact ⟨_, execBiTimeout_dies hb hl hh hdue hr, hostDead_dies hst hn true⟩
  · exact execBiTimeout_revokes hn hb hl hh hdue hr hc hdir hx ho

end Sys2Proof.Machine
end

section
/-! The SPDM responder (R349, R351): a broker's delivery of a bundle key, and the response that each one gets. -/

namespace Sys2Proof.Machine
open Sys2Proof

section
variable {s : State} {i p n : Nat}
/-- A broker's delivery in its own session is answered with what becomes of the key. -/
theorem execBkeyDeliver_answers {x : Nat × State} (hi : i ≠ 0) (hopen : s.spdmOpen (s.session i).chan = true) (hans : s.answers i = true)
    (hbroker : s.brokerSession i = true) (hx : s.bkeyDeliver i p n = x) :
    exec (.bkeyDeliver i p n) s = .next (x.2.emit (.spdm (s.session i).chan 0x7E [x.1])) := by
  show execBkeyDeliver i p n s = _
  simp [execBkeyDeliver, State.vendorRequest, State.spdmSay, hi, hopen, hans, hbroker, hx]
/-- What becomes of a delivered key (R351), by the checks in their order: the record, the slot, the context. -/
theorem bkeyDeliver_malformed (h : n ≠ 56 ∨ field p 0 8 ≠ 1 ∨ 64 ≤ field p 8 8 ∨ field p 36 28 ≠ 0) : s.bkeyDeliver i p n = (3, s) :=
  if_pos (by simpa [or_assoc] using h)

variable (hform : n = 56 ∧ field p 0 8 = 1 ∧ field p 8 8 < 64 ∧ field p 36 28 = 0)
include hform
theorem bkeyDeliver_inUse (hused : (tget {} s.sec.bkeys (field p 8 8)).used = true) : s.bkeyDeliver i p n = (1, s) := by
  obtain ⟨hn, hver, hslot, hrsvd⟩ := hform
  simp [State.bkeyDeliver, hn, hver, hslot, hrsvd, hused]
theorem bkeyDeliver_inactive (hused : (tget {} s.sec.bkeys (field p 8 8)).used = false) (hst : (s.ctx (field p 16 16)).st ≠ .active) :
    s.bkeyDeliver i p n = (2, s) := by
  obtain ⟨hn, hver, hslot, hrsvd⟩ := hform
  simp [State.bkeyDeliver, hn, hver, hslot, hrsvd, hused, hst]
theorem bkeyDeliver_kept (hused : (tget {} s.sec.bkeys (field p 8 8)).used = false) (hst : (s.ctx (field p 16 16)).st = .active)
    (hgen : (s.ctx (field p 16 16)).kgen = field p 32 4) :
    s.bkeyDeliver i p n = (0, s.modSec (fun x => { x with bkeys := tset x.bkeys (field p 8 8) {
      used := true, ctx := field p 16 16, kgen := field p 32 4, bundle := field p 64 64, key := field p 128 256, expiry := field p 384 64 } })) := by
  obtain ⟨hn, hver, hslot, hrsvd⟩ := hform
  simp [State.bkeyDeliver, hn, hver, hslot, hrsvd, hused, hst, hgen]
end

theorem execSpdmRequest_endSession {s : State} {ch : SpdmChan} {i : Nat} (hopen : s.spdmOpen ch = true) (hon : s.sessionOn ch i = true)
    (hest : (s.session i).established = true) : exec (.spdmRequest ch (.endSession i)) s = .next ((s.closeSession i).emit (.spdm ch 0x6C [i])) := by
  show execSpdmRequest ch _ s = _
  simp [execSpdmRequest, State.spdmServe, State.spdmSay, hopen, hon, hest]

/-- Settles O18: a delivery is judged by its record, its slot and its context in this order, and its session answers with the verdict; the other clauses are the
responder's cases. -/
theorem spdmSessions : Obligations.SpdmSessions := by
  unfold Obligations.SpdmSessions
  refine ⟨fun s ch hopen => congrArg _ (if_pos hopen), fun s ch i hopen _ => execSpdmRequest_endSession hopen,
    fun s i p n hi hopen hans hbroker => ?_, fun s i hi => congrArg _ (if_neg (by simpa using hi))⟩
  have answers {x : Nat × State} := execBkeyDeliver_answers (x := x) (p := p) (n := n) hi hopen hans hbroker
  refine ⟨fun hn hver hslot hrsvd => ?_, fun h => answers (bkeyDeliver_malformed h)⟩
  have hform : n = 56 ∧ field p 0 8 = 1 ∧ field p 8 8 < 64 ∧ field p 36 28 = 0 := ⟨hn, hver, hslot, hrsvd⟩
  exact ⟨fun hused hst hgen => answers (bkeyDeliver_kept hform hused hst hgen), fun hused => answers (bkeyDeliver_inUse hform hused),
    fun hused hst => answers (bkeyDeliver_inactive hform hused hst)⟩

end Sys2Proof.Machine
end

section
/-! Key slots, bundle loads and bundle keys (R342, R343, R351 to R354): the writes of `KEY.CTL` and `KEY.BUNDLE_LOAD`, the steps of a load, and its end. -/

namespace Sys2Proof.Machine
open Sys2Proof

-- Requests issued after updates that leave the clock, the package's node and the generation of the request's context alone
theorem issues_of_issue {s u : State} {t : Txn} (hclk : u.clk = s.clk) (hnode : u.poolNode = s.poolNode)
    (hgen : (u.ctx t.ctx).kgen = (s.ctx t.ctx).kgen) (who : Purpose) : Issues s (u.issue t who s.reqTimeout) t who := by
  obtain ⟨g, hg⟩ := issueAs_spec u u.poolNode t who s.reqTimeout
  obtain ⟨_, _, _, _, _, _, _, _, hreqs, _⟩ := hg.keeps
  refine ⟨g, ?_⟩
  rw [State.issue, hreqs, hnode, tfind_tset, if_pos rfl, hclk, issuedTxn, hgen]
theorem modSec_poolNode (s : State) (f : Sec → Sec) : (s.modSec f).poolNode = s.poolNode := rfl
theorem modSec_reqTimeout (s : State) (f : Sec → Sec) : (s.modSec f).reqTimeout = s.reqTimeout := rfl
theorem issues_of_modSec {s : State} {f : Sec → Sec} (hctx : (f s.sec).ctxs = s.sec.ctxs) (t : Txn) (who : Purpose) :
    Issues s ((s.modSec f).issue t who s.reqTimeout) t who :=
  issues_of_issue (s := s) (u := s.modSec f) (t := t) rfl (modSec_poolNode s f) (congrArg (fun l => (tget {} l t.ctx).kgen) hctx) who
/-- The generation that a requester writes into its request is the context's. -/
theorem Issues.withKgen {s t : State} {x : Txn} {who : Purpose} (g : Nat) (h : Issues s t { x with kgen := g } who) : Issues s t x who := by
  obtain ⟨tag, htag⟩ := h
  refine ⟨tag, htag.trans ?_⟩
  unfold ownFa
  dsimp only
  split <;> rfl


-- Key slots
theorem keyGenerateWrite_loads {s : State} {k c : Nat} (hl : (s.key k).loaded = false) (hst : (s.ctx c).st = .active) :
    ∃ w, keyGenerateWrite k false c s = .ok w ∧ (w.key k).loaded = true ∧ (w.key k).host = false ∧ (w.key k).owner = c ∧
      (w.key k).kgen = (s.ctx c).kgen ∧ (∀ j, j ≠ k → w.key j = s.key j) ∧ w.pool = s.pool := by
  refine ⟨_, if_pos (by simp [hl, hst]), ?_⟩
  simp +contextual [State.cmdChange]
theorem destroyKey_empties (s : State) (k : Nat) : ((s.destroyKey k).key k).loaded = false ∧ ∀ j, j ≠ k → (s.destroyKey k).key j = s.key j := by
  simp +contextual [State.destroyKey, State.cmdChange]

-- What is left of a bundle load when it ends
/-- A load that ends takes its bundle key with it, and touches contexts, keys and the pool nowhere. -/
structure LoadEnds (s t : State) (st : BundlePhase) (cause : Nat) : Prop where
  st : t.sec.bundle.st = st
  cause : t.sec.bundle.cause = cause
  erased : (tget {} t.sec.bkeys s.sec.bundle.bslot).used = false
  keys : t.sec.keys = s.sec.keys
  pool : t.pool = s.pool
theorem endBundle_ends (s : State) (st : BundlePhase) (cause : Nat) : LoadEnds s (s.endBundle st cause) st cause := by
  unfold State.endBundle
  extract_lets b s1
  have h1 : LoadEnds s s1 st cause := ⟨rfl, rfl, by simp [s1, State.modSec, State.orphanLoad, b], rfl, rfl⟩
  split
  · exact h1
  · obtain ⟨_, _, _, hpool, _, hsec, _⟩ := (issue_sent s1 (storeTxn 0 b.nfa b.nval 8 0) (.notify 2 0) s.reqTimeout).keeps
    obtain ⟨h2, h3, h4, h5, h6⟩ := h1
    exact ⟨by rw [hsec, h2], by rw [hsec, h3], by rw [hsec, h4], by rw [hsec, h5], by rw [hpool, h6]⟩
/-- A load that is DONE seals the slot that keys its extent (R346, R354). -/
theorem loadDone_ends (s : State) : ∃ u, LoadEnds u s.loadDone .done 0 ∧ u.sec.bundle = s.sec.bundle ∧ u.pool = s.pool ∧
    ∀ e x, extOfOff s s.sec.bundle.dst = some (e, x) → (u.key x.keySlot).sealed = true := by
  refine ⟨_, endBundle_ends _ _ _, ?_⟩
  cases hext : extOfOff s s.sec.bundle.dst with
  | none => simp
  | some y => exact ⟨rfl, rfl, fun e x h => by simp_all⟩

-- The reads and writes of a load
theorem bundleReads_sent (a n : Nat) (s : State) : Sent s (bundleReads a n s) := by
  induction n generalizing a s with
  | zero => exact .refl s
  | succ n ih => exact (issue_sent _ _ _ _).trans (ih _ _)
theorem coverOf_line {a : Nat} (ha : a % 64 = 0) : coverOf a 64 = (a / 64, 1) := Prod.ext rfl (by simp only [coverOf]; omega)
/-- The read of an aligned line of the bundle. -/
theorem readBundle_line {s : State} {a : Nat} (ha : a % 64 = 0) :
    s.readBundle a 64 = (s.modSec (fun x => { x with bundle := { x.bundle with buf := [], left := 1 } })).issue (readTxn 0 a 64 0 false) (.bundleRead a) s.reqTimeout := by
  have hline : 64 * (a / 64) = a := by omega
  simp only [State.readBundle, coverOf_line ha, bundleReads, hline]
  rfl
theorem readBundle_keeps (s : State) (a n : Nat) : (s.readBundle a n).pool = s.pool ∧
    (s.readBundle a n).sec.bundle = { s.sec.bundle with buf := [], left := (coverOf a n).2 } := by
  obtain ⟨_, _, _, hpool, _, hsec, _⟩ :=
    (bundleReads_sent (64 * (coverOf a n).1) (coverOf a n).2 (s.modSec (fun x => { x with bundle := { x.bundle with buf := [], left := (coverOf a n).2 } }))).keeps
  exact ⟨hpool, congrArg Sec.bundle hsec⟩

/-- The load that a record begins. -/
def loadOf (r : Nat) : Bundle :=
  { st := .running, bslot := field r 0 6, src := field r 64 64, dst := field r 128 64, nfa := field r 192 64, nval := field r 256 64 }
/-- What `KEY.BUNDLE_LOAD` asks of its record (R353). -/
structure LoadRecord (r : Nat) : Prop where
  rsvd : field r 6 58 = 0
  src : isFa (field r 64 64) = true
  srcLine : field r 64 64 % 64 = 0
  dstLine : field r 128 64 % 64 = 0
  nfa : isFa (field r 192 64) = true
  nfaWord : field r 192 64 % 8 = 0

section
variable {s : State} {r : Nat}
theorem bundleLoadChecked_begins {b : BKey} (hr : LoadRecord r) (hphase : s.dev.phase ≠ .drain) (hpool : s.pool.st ≠ 0) (hb : b = tget {} s.sec.bkeys (field r 0 6))
    (hused : b.used = true) (hst : (s.ctx b.ctx).st = .active) (hgen : (s.ctx b.ctx).kgen = b.kgen) (hidle : s.sec.bundle.st ≠ .running) :
    bundleLoadChecked r s = .ok ((s.modSec (fun x => { x with bundle := loadOf r })).readBundle (field r 64 64) 64) := by
  subst hb
  simp [loadOf, bundleLoadChecked, bundleLoadWrite, check, hr.rsvd, hr.src, hr.dstLine, hr.nfa, hr.nfaWord, hphase, hpool, hused, hst, hgen, hidle]
theorem bundleLoadChecked_drain (hphase : s.dev.phase = .drain) : bundleLoadChecked r s = .error abortRefused := by
  simp [bundleLoadChecked, check, hphase]
theorem bundleLoadChecked_unused (hused : (tget {} s.sec.bkeys (field r 0 6)).used = false) : bundleLoadChecked r s = .error abortRefused := by
  simp [bundleLoadChecked, bundleLoadWrite, check, hused]
end

-- BUNDLE_CHUNK, by where the load stands
section
variable {s : State} {b : Bundle} {k : BKey} (hb : b = s.sec.bundle) (hk : k = tget {} s.sec.bkeys b.bslot) (hrun : b.st = .running) (hleft : b.left = 0) (hhdr : b.hdr ≠ [])
include hb hk hrun hleft hhdr
theorem bundleChunk_left (hst : (s.ctx k.ctx).st ≠ .active) : s.bundleChunk = s.endBundle .failed 5 := by
  subst hk hb
  simp [State.bundleChunk, hrun, hleft, hhdr, hst]
variable (hst : (s.ctx k.ctx).st = .active)
include hst
theorem bundleChunk_next (hbuf : b.buf = []) (hmore : b.chunk + 1 < b.nchunks) :
    s.bundleChunk = (s.modSec (fun x => { x with bundle := { b with chunk := b.chunk + 1 } })).readChunk := by
  subst hk hb
  simp [State.bundleChunk, hrun, hleft, hhdr, hst, hbuf, hmore]
theorem bundleChunk_done (hbuf : b.buf = []) (hlast : b.nchunks ≤ b.chunk + 1) : s.bundleChunk = s.loadDone := by
  subst hk hb
  simp [State.bundleChunk, hrun, hleft, hhdr, hst, hbuf, Nat.not_lt.mpr hlast]
variable (hbuf : b.buf ≠ []) (hlen : chunkLen b.plainLen b.chunk = 64)
include hbuf hlen
theorem bundleChunk_bad (hopen : Config.bundleOpen k.key k.bundle b.chunk b.hdr (b.bytes (b.src + chunkAt b.chunk) 80) = none) :
    s.bundleChunk = s.endBundle .failed 2 := by
  subst hk hb
  simp [State.bundleChunk, hrun, hleft, hhdr, hst, hbuf, hlen, hopen]
theorem bundleChunk_writes {d : Bytes} (hopen : Config.bundleOpen k.key k.bundle b.chunk b.hdr (b.bytes (b.src + chunkAt b.chunk) 80) = some d) :
    s.bundleChunk = (s.modSec (fun x => { x with bundle := { b with buf := [], left := 1, written := b.written + 64 } })).issue
      { ty := .wr, size := 63, ctx := k.ctx, kgen := k.kgen, addr := s.poolFa (b.dst + b.chunk * 1048576), data := slice d 0 64 }
      (.bundleWrite (b.dst + b.chunk * 1048576)) s.reqTimeout := by
  subst hk hb
  have hslice : slice (slice d 0 64) 0 64 = slice d 0 64 := slice_whole (by simp [slice])
  simp only [State.bundleChunk, hrun, hleft, hst, hlen, hopen]
  simp [hhdr, hbuf, bundleWrites, hslice]
  rfl
end

theorem exec_bundleChunk {s t : State} (h : s.bundleChunk = t) : exec .bundleChunk s = .next t := congrArg Host.Outcome.next h

-- BUNDLE_KEY_EXPIRY
section
variable {s : State} {b : Nat}
theorem execBundleKeyExpiry_late (hused : (tget {} s.sec.bkeys b).used = true) (hexp : (tget {} s.sec.bkeys b).expiry ≠ 0)
    (hlate : (tget {} s.sec.bkeys b).expiry < s.slot) : exec (.bundleKeyExpiry b) s =
    .next (if s.sec.bundle.st == .running && s.sec.bundle.bslot == b then s.endBundle .failed 2 else s.modSec (fun x => { x with bkeys := tset x.bkeys b {} })) := by
  show execBundleKeyExpiry b s = _
  simp [execBundleKeyExpiry, hused, hexp, hlate]
theorem execBundleKeyExpiry_early (hearly : s.slot ≤ (tget {} s.sec.bkeys b).expiry) : exec (.bundleKeyExpiry b) s = .next s := by
  show execBundleKeyExpiry b s = _
  simp [execBundleKeyExpiry, Nat.not_lt.mpr hearly]
end

-- The writes of `KEY.CTL` and `KEY.BUNDLE_LOAD`
section
variable {s : State} {v : VCtx}
theorem keyGenerate_accepts {k c : Nat} (hw : Write s v keyCtlObj (keyCtlBytes 1 k false c)) (he : (s.epochRec (.key k)).epoch = v.epoch)
    (hl : (s.key k).loaded = false) (hst : (s.ctx c).st = .active) : ∃ w : State, Accepts (.keyGenerate v k false c) v s w ∧ (w.key k).loaded = true ∧
      (w.key k).host = false ∧ (w.key k).owner = c ∧ (w.key k).kgen = (s.ctx c).kgen ∧ (∀ j, j ≠ k → w.key j = s.key j) ∧ w.pool = s.pool := by
  obtain ⟨w, hok, hkey⟩ := keyGenerateWrite_loads (s := s.countDatagram v.sess) (k := k) (c := c) (by simpa using hl) (by simpa using hst)
  exact ⟨w, vaneWrite_accepts hw (by rintro _ ⟨⟩; exact he) hok, by simpa using hkey⟩
theorem countDatagram_keyInUse (s : State) (i k : Nat) : (s.countDatagram i).keyInUse k = s.keyInUse k := by simp [State.keyInUse]
theorem keyDestroy_accepts {k : Nat} (hw : Write s v keyCtlObj (keyCtlBytes 2 k false 0)) (he : (s.epochRec (.key k)).epoch = v.epoch)
    (hfree : s.keyInUse k = false) : ∃ w : State, Accepts (.keyDestroy v k) v s w ∧ (w.key k).loaded = false ∧ ∀ j, j ≠ k → w.key j = s.key j := by
  refine ⟨_, vaneWrite_accepts hw (by rintro _ ⟨⟩; exact he) (if_pos (by rw [countDatagram_keyInUse, hfree]; rfl)), ?_⟩
  simpa using destroyKey_empties ((s.countDatagram v.sess).setMg (.key k) (some 0)) k
theorem keyDestroy_aborts {k : Nat} (hw : Write s v keyCtlObj (keyCtlBytes 2 k false 0)) (he : (s.epochRec (.key k)).epoch = v.epoch)
    (hused : s.keyInUse k = true) : Aborts (.keyDestroy v k) v s abortRefused :=
  vaneWrite_aborts hw (by rintro _ ⟨⟩; exact he) (if_neg (by simp [countDatagram_keyInUse, hused]))

variable {r : Nat} (hw : Write s v bundleObj (leBytes 40 r))
include hw
theorem bundleLoad_accepts {b : BKey} (hr : LoadRecord r) (hphase : s.dev.phase ≠ .drain) (hpool : s.pool.st ≠ 0) (hb : b = tget {} s.sec.bkeys (field r 0 6))
    (hused : b.used = true) (hst : (s.ctx b.ctx).st = .active) (hgen : (s.ctx b.ctx).kgen = b.kgen) (hidle : s.sec.bundle.st ≠ .running) :
    ∃ w, Accepts (.bundleLoad v r) v s w ∧ w.sec.bundle = { loadOf r with left := 1 } ∧
      Issues s w (readTxn 0 (field r 64 64) 64 0 false) (.bundleRead (field r 64 64)) ∧ w.pool = s.pool := by
  have hm := countDatagram_mgmt s v.sess
  have hsec : (s.countDatagram v.sess).sec = s.sec := by simp
  have hok := bundleLoadChecked_begins (s := s.countDatagram v.sess) hr (by simpa using hphase) (by simpa using hpool) (by rwa [hsec]) hused
    (by simpa using hst) (by simpa using hgen) (by rwa [hsec])
  obtain ⟨hload, hbundle⟩ := readBundle_keeps ((s.countDatagram v.sess).modSec (fun x => { x with bundle := loadOf r })) (field r 64 64) 64
  refine ⟨_, vaneWrite_accepts hw (by simp) hok, by rw [hbundle, coverOf_line hr.srcLine]; rfl, ?_, hload.trans (by simp)⟩
  rw [readBundle_line hr.srcLine]
  have hnode : (s.countDatagram v.sess).poolNode = s.poolNode := (Moved.of_mgmt hm).poolNode
  have hreq : (s.countDatagram v.sess).reqTimeout = s.reqTimeout := by simp [State.reqTimeout]
  rw [modSec_reqTimeout, hreq]
  exact issues_of_issue (by simp) (by rw [modSec_poolNode, modSec_poolNode, hnode]) (by simp [State.ctx, State.modSec]) _
theorem bundleLoad_drain (hphase : s.dev.phase = .drain) : Aborts (.bundleLoad v r) v s abortRefused :=
  vaneWrite_aborts hw (by simp) (bundleLoadChecked_drain (by simpa using hphase))
theorem bundleLoad_unused (hused : (tget {} s.sec.bkeys (field r 0 6)).used = false) : Aborts (.bundleLoad v r) v s abortRefused :=
  vaneWrite_aborts hw (by simp) (bundleLoadChecked_unused (by simpa using hused))
end

/-- Settles O58: the writes of `KEY.CTL` and `KEY.BUNDLE_LOAD` are judged as R342, R343 and R353 say; a chunk's step is the one of the load's stand, and every load that ends
takes its key with it. -/
theorem keysAndBundles : Obligations.KeysAndBundles := by
  unfold Obligations.KeysAndBundles
  refine ⟨fun s v k c => keyGenerate_accepts, fun s v k hw he => ⟨keyDestroy_accepts hw he, keyDestroy_aborts hw he⟩,
    fun s v r hw => ⟨fun b hphase hpool hb hused hst hgen hidle hrsvd hsrc hsrcLine hdst hnfa hnfaWord => ?_, bundleLoad_drain hw, bundleLoad_unused hw⟩,
    fun s b k hb hk hrun hleft hhdr _ => ⟨fun hst => ?_, fun r hst hbuf hlen hr => ?_, fun hst hbuf hmore => ?_, fun hst hbuf hlast => ?_⟩,
    fun s hidle => congrArg _ (if_pos (by simp [hidle])),
    fun s b hused hexp => ⟨fun hlate hidle => ?_, fun hlate hrun hslot => ?_, execBundleKeyExpiry_early⟩⟩
  · obtain ⟨w, hacc, hbundle, hissues, hpool'⟩ := bundleLoad_accepts hw ⟨hrsvd, hsrc, hsrcLine, hdst, hnfa, hnfaWord⟩ hphase hpool hb hused hst hgen hidle
    rw [loadOf] at hbundle
    exact ⟨w, hacc, by simp [hbundle], by simp [hbundle], by simp [hbundle], by simp [hbundle], by simp [hbundle], by simp [hbundle], by simp [hbundle], hissues, hpool'⟩
  · have hends := endBundle_ends s .failed 5
    exact ⟨_, exec_bundleChunk (bundleChunk_left hb hk hrun hleft hhdr hst), hends.st, hends.cause, hb ▸ hends.erased, hends.pool⟩
  · cases r with
    | none =>
      have hends := endBundle_ends s .failed 2
      exact ⟨_, exec_bundleChunk (bundleChunk_bad hb hk hrun hleft hhdr hst hbuf hlen hr.symm), hends.pool, fun _ => ⟨hends.st, hends.cause, hb ▸ hends.erased⟩, by simp⟩
    | some d =>
      have hwrites := bundleChunk_writes hb hk hrun hleft hhdr hst hbuf hlen hr.symm
      obtain ⟨_, _, _, hpool, _, hsec, _⟩ := (issue_sent (s.modSec (fun x => { x with bundle := { b with buf := [], left := 1, written := b.written + 64 } }))
        { ty := .wr, size := 63, ctx := k.ctx, kgen := k.kgen, addr := s.poolFa (b.dst + b.chunk * 1048576), data := slice d 0 64 }
        (.bundleWrite (b.dst + b.chunk * 1048576)) s.reqTimeout).keeps
      refine ⟨_, exec_bundleChunk hwrites, hpool, by simp, fun d' hd => ?_⟩
      cases hd
      refine ⟨by rw [hsec]; exact hrun, by rw [hsec]; rfl, by rw [hsec]; rfl, Issues.withKgen k.kgen (issues_of_modSec rfl _ _)⟩
  · obtain ⟨hpool, hbundle⟩ := readBundle_keeps (s.modSec (fun x => { x with bundle := { b with chunk := b.chunk + 1 } }))
      (b.src + chunkAt (b.chunk + 1)) (chunkLen b.plainLen (b.chunk + 1) + 16)
    exact ⟨_, exec_bundleChunk (bundleChunk_next hb hk hrun hleft hhdr hst hbuf hmore), (congrArg Bundle.st hbundle).trans hrun, congrArg Bundle.chunk hbundle, hpool⟩
  · obtain ⟨u, hends, hbundle, hpool, hsealed⟩ := loadDone_ends s
    refine ⟨_, exec_bundleChunk (bundleChunk_done hb hk hrun hleft hhdr hst hbuf hlast), hends.st, hends.cause, by rw [hb, ← hbundle]; exact hends.erased, fun e x h => ?_,
      hends.pool.trans hpool⟩
    rw [State.key, hends.keys]
    exact hsealed e x (hb ▸ h)
  · rw [execBundleKeyExpiry_late hused hexp hlate, if_neg (by simp [hidle])]
    rfl
  · have hends := endBundle_ends s .failed 2
    refine ⟨_, (execBundleKeyExpiry_late hused hexp hlate).trans (congrArg _ (if_pos (by simp [hrun, hslot]))), hends.st, hends.cause, hslot ▸ hends.erased, hends.pool⟩

end Sys2Proof.Machine
end

section
/-! The link side of ports, and contexts with their changes, under what goes on beside them (R178, R335, R388): carriage, translation, the pool's bookkeeping and
the operators' runs move credits of ports and nothing else of these. -/

namespace Sys2Proof.Machine
open Sys2Proof

/-- The link side of a port: all of it but the credits that admission grants. -/
def linkSide (t : Tab Port) (p : Nat) : Port := { tget {} t p with ccOut := [], cellsAdmitted := 0 }
/-- The link sides of the ports are in `t` as in `s`. -/
abbrev SameLinks (s t : State) : Prop := linkSide t.ports = linkSide s.ports
/-- The link sides of the ports, the contexts and their changes are in `t` as in `s`. -/
abbrev SameSides (s t : State) : Prop := linkSide t.ports = linkSide s.ports ∧ t.sec.ctxs = s.sec.ctxs ∧ t.sec.changes = s.sec.changes
theorem SameSides.refl (s : State) : SameSides s s := ⟨rfl, rfl, rfl⟩
theorem SameSides.trans {s t u : State} (h : SameSides s t) (g : SameSides t u) : SameSides s u := by
  obtain ⟨hl, hc, hh⟩ := h
  obtain ⟨gl, gc, gh⟩ := g
  exact ⟨gl.trans hl, gc.trans hc, gh.trans hh⟩
@[simp] theorem ite_linkSide (c : Prop) [Decidable c] (s t : State) :
    linkSide (if c then s else t).ports = if c then linkSide s.ports else linkSide t.ports := apply_ite (fun u : State => linkSide u.ports) c s t
@[simp] theorem ite_ctxs (c : Prop) [Decidable c] (s t : State) : (if c then s else t).sec.ctxs = if c then s.sec.ctxs else t.sec.ctxs :=
  apply_ite (fun u : State => u.sec.ctxs) c s t
@[simp] theorem ite_changes (c : Prop) [Decidable c] (s t : State) : (if c then s else t).sec.changes = if c then s.sec.changes else t.sec.changes :=
  apply_ite (fun u : State => u.sec.changes) c s t
/-- Steps that each keep the sides keep them one after another. -/
@[simp] theorem foldl_sides {α : Type} {f : State → α → State} (h : ∀ s x, SameSides s (f s x)) (l : List α) (s : State) : SameSides s (l.foldl f s) := by
  induction l generalizing s with
  | nil => exact .refl s
  | cons x r ih => exact (h s x).trans (ih _)
@[simp] theorem foldl_links {α : Type} {f : State → α → State} (h : ∀ s x, SameLinks s (f s x)) (l : List α) (s : State) : SameLinks s (l.foldl f s) := by
  induction l generalizing s with
  | nil => rfl
  | cons x r ih => exact (ih _).trans (h s x)
theorem Mgmt.sides {s t : State} (h : Mgmt s t) : SameSides s t := by
  obtain ⟨v, e, o, rfl⟩ := h
  exact .refl s
theorem Charged.sides {s t : State} (h : Charged s t) : SameSides s t := by
  refine ⟨funext fun p => ?_, ?_⟩
  · obtain ⟨c, n, hp⟩ := h.port p
    rw [State.port, State.port] at hp
    rw [linkSide, hp]
    rfl
  · obtain ⟨ports, sw, rfl, _⟩ := h.keeps
    exact ⟨rfl, rfl⟩

-- What every family uses
@[simp] theorem cmdChange_sides (s : State) (u : EUnit) (f : State → State) : SameSides (f s) (s.cmdChange u f) := (cmdChange_mgmt _ _ _).sides
@[simp] theorem selfChange_sides (s : State) (u : EUnit) (f : State → State) : SameSides (f s) (s.selfChange u f) := (selfChange_mgmt _ _ _).sides
theorem modPool_sides (s : State) (f : Pool → Pool) : SameSides s (s.modPool f) := .refl s
@[simp] theorem toPhase_sides (s : State) (ph : Phase) (self : Bool) : SameSides s (s.toPhase ph self) := by simp [SameSides, State.toPhase]
@[simp] theorem settlePhase_sides (s : State) : SameSides s s.settlePhase := by
  unfold State.settlePhase
  simp [SameSides]

-- Admission, marks and queues
@[simp] theorem setAdm_sides (s : State) (a v held out : Nat) : SameSides s (s.setAdm a v held out) := (setAdm_charged _ _ _ _ _).sides
@[simp] theorem charge_sides (s : State) (a v n : Nat) : SameSides s (s.charge a v n) := (charge_charged _ _ _ _).sides
@[simp] theorem freeCells_sides (s : State) (a v n : Nat) : SameSides s (s.freeCells a v n) := (freeCells_charged _ _ _ _).sides
@[simp] theorem release_sides (s : State) (e : QEntry) : SameSides s (s.release e) := (release_charged _ _).sides
@[simp] theorem addRepin_sides (s : State) (c : RepinCause) (dur : Nat) : SameSides s (s.addRepin c dur) := .refl s
@[simp] theorem enterFlood_sides (s : State) : SameSides s s.enterFlood := by simp [SameSides, State.enterFlood]
@[simp] theorem floodCheck_sides (s : State) : SameSides s s.floodCheck := by simp [SameSides, State.floodCheck]
@[simp] theorem addMark_sides (s : State) (m : Mark) : SameSides s (s.addMark m) := by simp [SameSides, State.addMark]
@[simp] theorem markFlow_sides (s : State) (t : Txn) (adm : Nat) : SameSides s (s.markFlow t adm) := addMark_sides _ _
@[simp] theorem dropMarks_sides (s : State) (p : Mark → Bool) : SameSides s (s.dropMarks p) := floodCheck_sides _
@[simp] theorem enqueue_sides (s : State) (egress vc : Nat) (e : QEntry) : SameSides s (s.enqueue egress vc e) := .refl s
@[simp] theorem sendRsp_sides (s : State) (e : QEntry) : SameSides s (s.sendRsp e) := by
  unfold State.sendRsp
  split <;> simp [SameSides, State.toInbox]
@[simp] theorem failEntry_sides (s : State) (e : QEntry) (st : Nat) (repl : Bool) : SameSides s (s.failEntry e st repl) := by simp [SameSides, State.failEntry]
@[simp] theorem ageRsp_sides (s : State) (e : QEntry) : SameSides s (s.ageRsp e) := by simp [SameSides, State.ageRsp]
@[simp] theorem failContribs_sides (st : Nat) (m : MarkOf) (l : List Contrib) (s : State) : SameSides s (failContribs st m l s) := by
  induction l generalizing s with
  | nil => exact .refl s
  | cons c r ih => simp [SameSides, failContribs, ih]
@[simp] theorem discard_sides (s : State) (e : QEntry) (m : MarkOf) : SameSides s (s.discard e m) := by
  unfold State.discard
  split <;> simp [SameSides]
@[simp] theorem markDiscard_sides (s : State) (e : QEntry) : SameSides s (s.markDiscard e) := by simp [SameSides, State.markDiscard]
@[simp] theorem countRevoked_sides (s : State) : SameSides s s.countRevoked := ⟨rfl, rfl, rfl⟩
@[simp] theorem retire_sides (s : State) (e : QEntry) : SameSides s (s.retire e) := by
  unfold State.retire
  dsimp only
  split
  · simp [SameSides]
  split <;> simp [SameSides]

-- The way of a request, and what goes out
@[simp] theorem accretePut_sides (s : State) (q : List QEntry) (e : QEntry) (tile home : Nat) : SameSides s (s.accretePut q e tile home).2 := by
  unfold State.accretePut
  split
  · exact .refl s
  split
  · split
    · exact (release_sides _ _).trans (charge_sides _ _ _ _)
    · simp [SameSides, apply_ite Prod.snd]
  · simp [SameSides, apply_ite Prod.snd]
@[simp] theorem winDeny_sides (s : State) (e : Nat) : SameSides s (s.winDeny e) := .refl s
@[simp] theorem putTurn_sides (s : State) (e : QEntry) : SameSides s (s.putTurn e) := by
  unfold State.putTurn
  split
  · simp [SameSides]
  dsimp only
  split
  · exact .refl s
  · simp [SameSides]
@[simp] theorem putReq_sides (s : State) (e : QEntry) (eg : Nat) : SameSides s (s.putReq e eg) := by
  simp [SameSides, State.putReq, State.putLine, State.takeTurn]
@[simp] theorem agedOrPut_sides (s : State) (e : QEntry) (eg : Nat) : SameSides s (s.agedOrPut e eg) := by simp [SameSides, State.agedOrPut]
@[simp] theorem forward_sides (s : State) (e : QEntry) : SameSides s (s.forward e) := by
  unfold State.forward
  dsimp only
  split
  · simp [SameSides]
  split
  · simp [SameSides]
  split <;> simp [SameSides]
@[simp] theorem issueAs_sides (s : State) (node : Nat) (t : Txn) (who : Purpose) (timeout : Nat) : SameSides s (s.issueAs node t who timeout) := by
  simp [SameSides, State.issueAs, State.launch]
@[simp] theorem issue_sides (s : State) (t : Txn) (who : Purpose) (timeout : Nat) : SameSides s (s.issue t who timeout) := issueAs_sides _ _ _ _ _
@[simp] theorem endReq_sides (s : State) (key : Nat) : SameSides s (s.endReq key) := .refl s
@[simp] theorem sendOut_sides (s : State) (t : Txn) : SameSides s (s.sendOut t) := by
  unfold State.sendOut
  split <;> simp [SameSides]

-- Translation, holds and withdrawals
@[simp] theorem touch_sides (s : State) (tile ctx va : Nat) (hit : Bool) : SameSides s (s.touch tile ctx va hit) := by simp [SameSides, State.touch]
@[simp] theorem countMiss_sides (s : State) (tile : Nat) : SameSides s (s.countMiss tile) := by simp [SameSides, State.countMiss]
@[simp] theorem edgeFail_sides (s : State) (e : QEntry) (st : Nat) : SameSides s (s.edgeFail e st) := by simp [SameSides, State.edgeFail]
@[simp] theorem edgeRetry_sides (s : State) (e : QEntry) : SameSides s (s.edgeRetry e) := by simp [SameSides, State.edgeRetry]
@[simp] theorem edgeForward_sides (s : State) (e : QEntry) (x : TEntry) : SameSides s (s.edgeForward e x) := by simp [SameSides, State.edgeForward]
theorem addMiss_sides {s t : State} {d : Nat} {m : Miss} (h : s.addMiss d m = some t) : SameSides s t := by
  obtain ⟨x, l, rfl⟩ := addMiss_xlated h
  exact .refl s
@[simp] theorem setHolds_sides (s : State) (tile : Nat) (l : List Held) : SameSides s (s.setHolds tile l) := by simp [SameSides, State.setHolds]
@[simp] theorem sendMgt_sides (s : State) (t : Txn) : SameSides s (s.sendMgt t) := sendOut_sides _ _
@[simp] theorem askHost_sides (s : State) (h ctx va asker : Nat) (wr : Bool) : SameSides s (s.askHost h ctx va asker wr) := by simp [SameSides, State.askHost]
@[simp] theorem askPage_sides (s : State) (ctx va : Nat) (wr : Bool) : SameSides s (s.askPage ctx va wr) := by
  unfold State.askPage
  split <;> simp [SameSides]
@[simp] theorem translateDirect_sides (s : State) (e : QEntry) (since : Nat) (first : Bool) : SameSides s (s.translateDirect e since first) := by
  dsimp only [State.translateDirect]
  split
  · simp [SameSides]
  split
  · simp [SameSides]
  split
  · simp [SameSides]
  · next hm => simp [SameSides, addMiss_sides hm]
@[simp] theorem resumeHolds_sides (tile : Nat) (l : List Held) (s : State) : SameSides s (resumeHolds tile l s) := by
  induction l generalizing s with
  | nil => exact .refl s
  | cons h r ih => simp [SameSides, resumeHolds, ih]
@[simp] theorem resumeTile_sides (s : State) (tile : Nat) : SameSides s (s.resumeTile tile) := by simp [SameSides, State.resumeTile]
@[simp] theorem redoLine_sides (s : State) (p : Purpose) : SameSides s (s.redoLine p) := by
  unfold State.redoLine
  split <;> exact .refl s
@[simp] theorem unholdStale_sides (s : State) (key : Nat) : SameSides s (unholdStale s key) := by
  unfold unholdStale
  split
  · split <;> simp [SameSides]
  · exact .refl s
@[simp] theorem applyNotice_sides (s : State) (home id : Nat) (fa : Bool) (ctx base len2m : Nat) :
    SameSides s (s.applyNotice home id fa ctx base len2m) :=
  foldl_sides unholdStale_sides _ _
@[simp] theorem runWd_sides (s : State) (w : Withdrawal) : SameSides s (s.runWd w) := by simp [SameSides, State.runWd]
@[simp] theorem startWd_sides (s : State) (fa : Bool) (ctx base len2m nfa nval : Nat) (cause : WdCause) :
    SameSides s (s.startWd fa ctx base len2m nfa nval cause) := by simp [SameSides, State.startWd]
@[simp] theorem wdNext_sides (n : Nat) (s : State) : SameSides s (wdNext n s) := by
  induction n generalizing s with
  | zero => exact .refl s
  | succ n ih =>
    rw [wdNext]
    split
    · exact .refl _
    split
    · simp [SameSides, ih]
    split
    · exact .refl _
    · simp [SameSides, ih]

-- The pool: poison, the directory, moves, extents
@[simp] theorem moraine_sides (s : State) (m : Moraine) : SameSides s (s.moraine m) := by simp [SameSides, State.moraine]
@[simp] theorem moraineFor_sides (e : Nat) (x : Ext) (cause stack : Nat) (lines : List Nat) (s : State) (page : Nat) :
    SameSides s (moraineFor e x cause stack lines s page) := by simp [SameSides, moraineFor]
@[simp] theorem recordPoison_sides (s : State) (e : Nat) (x : Ext) (cause stack : Nat) (lines : List Nat) :
    SameSides s (s.recordPoison e x cause stack lines) := by simp [SameSides, State.recordPoison]
@[simp] theorem poison_sides (s : State) (e : Nat) (x : Ext) (cause stack : Nat) (lines : List Nat) :
    SameSides s (s.poison e x cause stack lines) := by simp [SameSides, State.poison]
@[simp] theorem dirDrop_sides (s : State) (line h : Nat) : SameSides s (s.dirDrop line h) := by
  unfold State.dirDrop
  split <;> simp [SameSides]
@[simp] theorem noteLost_sides (s : State) (e h : Nat) : SameSides s (s.noteLost e h) := by simp [SameSides, State.noteLost]
@[simp] theorem dirDead_sides (s : State) (line h : Nat) : SameSides s (s.dirDead line h) := by
  unfold State.dirDead
  split
  · simp [SameSides]
  split
  · split <;> simp [SameSides]
  · simp [SameSides]
@[simp] theorem dirClean_sides (s : State) (line : Nat) : SameSides s (s.dirClean line) := by
  unfold State.dirClean
  split <;> simp [SameSides]
@[simp] theorem modMove_sides (s : State) (mv : Nat) (f : Move → Move) : SameSides s (s.modMove mv f) := by simp [SameSides, State.modMove]
@[simp] theorem abortMove_sides (s : State) (mv : Nat) : SameSides s (s.abortMove mv) := by
  unfold State.abortMove
  split <;> simp [SameSides]
@[simp] theorem abortCheck_sides (s : State) (mv : Nat) : SameSides s (s.abortCheck mv) := by
  unfold State.abortCheck
  split <;> simp [SameSides]
@[simp] theorem sendBisnp_sides (s : State) (line h : Nat) : SameSides s (s.sendBisnp line h) := by simp [SameSides, State.sendBisnp]
@[simp] theorem startBackInv_sides (s : State) (line h : Nat) (discard : Bool) (rev : Option (Nat × Nat)) :
    SameSides s (s.startBackInv line h discard rev) := by simp [SameSides, State.startBackInv]
@[simp] theorem backInvExt_sides (s : State) (x : Ext) (only : Option Nat) (discard : Bool) (rev : Option (Nat × Nat)) :
    SameSides s (s.backInvExt x only discard rev) := by simp [SameSides, State.backInvExt]
@[simp] theorem extRelease_sides (s : State) (e : Nat) : SameSides s (s.extRelease e) := by simp [SameSides, State.extRelease]
@[simp] theorem driftIssue_sides (s : State) (mv n : Nat) : SameSides s (s.driftIssue mv n) := by
  induction n generalizing s with
  | zero => exact .refl s
  | succ n ih =>
    rw [State.driftIssue]
    split
    · exact .refl _
    · split
      · exact ((modMove_sides _ _ _).trans (issue_sides _ _ _ _)).trans (ih _)
      · exact .refl _

-- Rings
@[simp] theorem modWork_sides (s : State) (n idx : Nat) (f : Work → Work) : SameSides s (s.modWork n idx f) := .refl s

-- Contexts and keys
@[simp] theorem setCtx_links (s : State) (c : Nat) (st : CtxState) : SameLinks s (s.setCtx c st) := by simp [SameLinks, State.setCtx]
@[simp] theorem sweepQueue_sides (s : State) (c egress : Nat) : SameSides s (s.sweepQueue c egress) := by simp [SameSides, State.sweepQueue]
@[simp] theorem sweepLine_sides (s : State) (c tile : Nat) : SameSides s (s.sweepLine c tile) := by simp [SameSides, State.sweepLine]
@[simp] theorem sweepHolds_sides (s : State) (c tile : Nat) : SameSides s (s.sweepHolds c tile) := by simp [SameSides, State.sweepHolds]
@[simp] theorem sweep_sides (s : State) (c : Nat) : SameSides s (s.sweep c) := by simp [SameSides, State.sweep]
@[simp] theorem revokeGrant_sides (s : State) (e g : Nat) : SameSides s (s.revokeGrant e g) := by simp [SameSides, State.revokeGrant]
@[simp] theorem destroyKey_sides (s : State) (k : Nat) : SameSides s (s.destroyKey k) := by
  simp [SameSides, State.destroyKey, State.modKey]
@[simp] theorem destroyKeys_sides (s : State) (c : Nat) : SameSides s (s.destroyKeys c) := by simp [SameSides, State.destroyKeys]
@[simp] theorem enterRevoking_sides (s : State) (c : Nat) : SameSides s (s.enterRevoking c) := by simp [SameSides, State.enterRevoking]
@[simp] theorem thaw_sides (s : State) (c : Nat) : SameSides s (s.thaw c) := by simp [SameSides, State.thaw]
@[simp] theorem sendCtx_sides (s : State) (c : Nat) (clean : Bool) : SameSides s (s.sendCtx c clean) := by simp [SameSides, State.sendCtx]
@[simp] theorem modChange_links (s : State) (c : Nat) (f : CtxChange → CtxChange) : SameLinks s (s.modChange c f) := rfl
-- Attached end-points
@[simp] theorem farunOut_sides (s : State) (n engine p : Nat) (t : Txn) (dest : Option Nat) :
    SameSides s (s.farunOut n engine p t dest) := by simp [SameSides, State.farunOut]
@[simp] theorem farunSend_sides (s : State) (n engine : Nat) (t0 : Txn) : SameSides s (s.farunSend n engine t0) := by
  dsimp only [State.farunSend]
  split
  · simp [SameSides]
  split <;> simp [SameSides]
@[simp] theorem farunKick_sides (s : State) (n : Nat) : SameSides s (s.farunKick n) := by simp [SameSides, State.farunKick]
@[simp] theorem fenceEnd_sides (s : State) (n engine : Nat) : SameSides s (s.fenceEnd n engine) := by simp [SameSides, State.fenceEnd]
@[simp] theorem farunEnd_sides (s : State) (key engine : Nat) (o : OutReq) (st : Status) (tnode : Nat) :
    SameSides s (s.farunEnd key engine o st tnode) := by simp [SameSides, State.farunEnd]
@[simp] theorem farunSyncEnd_sides (s : State) (key engine : Nat) (o : OutReq) (st : Status) :
    SameSides s (s.farunSyncEnd key engine o st) := by simp [SameSides, State.farunSyncEnd]
@[simp] theorem farunTimeout_sides (s : State) (n : Nat) (p : OutReq → Bool) : SameSides s (s.farunTimeout n p) :=
  foldl_sides (fun _ _ => by split <;> simp [SameSides]) _ _
@[simp] theorem farunPortDown_sides (s : State) (p : Nat) : SameSides s (s.farunPortDown p) := by simp [SameSides, State.farunPortDown]

-- Operator runs
@[simp] theorem sendCol_sides (s : State) (t : Txn) : SameSides s (s.sendCol t) := by simp [SameSides, State.sendCol]
@[simp] theorem sendCtl_sides (s : State) (i kind phase st : Nat) : SameSides s (s.sendCtl i kind phase st) := by simp [SameSides, State.sendCtl]
@[simp] theorem orphanRun_sides (s : State) (i : Nat) : SameSides s (s.orphanRun i) := by simp [SameSides, State.orphanRun]
@[simp] theorem thawStripe_sides (s : State) (e : OpsEntry) : SameSides s (s.thawStripe e) := by simp [SameSides, State.thawStripe]
@[simp] theorem endLaunch_sides (s : State) (i : Nat) (st : Status) : SameSides s (s.endLaunch i st) := by simp [SameSides, State.endLaunch]
@[simp] theorem runFail_sides (s : State) (i : Nat) (st : Status) : SameSides s (s.runFail i st) := by simp [SameSides, State.runFail]
@[simp] theorem creditAll_sides (s : State) : SameSides s s.creditAll := by simp [SameSides, State.creditAll]
@[simp] theorem restoreLanded_sides (s : State) (n : Nat) : SameSides s (s.restoreLanded n) := by simp [SameSides, State.restoreLanded]
@[simp] theorem failTouching_sides (s : State) (n : Nat) : SameSides s (s.failTouching n) := by simp [SameSides, State.failTouching]

-- Departures, and the withdrawals that they end
@[simp] theorem restorePage_sides (s : State) (page fa : Nat) : SameSides s (s.restorePage page fa) := by
  rw [State.restorePage]
  cases s.pool.landed.find? (fun l => l.1 == fa) with
  | none => exact .refl s
  | some l =>
    obtain ⟨_, _, entry⟩ := l
    cases s.restoreFrame page with
    | none => exact (event_mgmt _ _ _ _ _ _ _).sides
    | some g =>
      cases extOfOff s page with
      | none => exact (event_mgmt _ _ _ _ _ _ _).sides
      | some y => exact ((poison_sides _ _ _ _ _ _).trans (modPool_sides _ _)).trans (issue_sides _ _ _ _)
@[simp] theorem setBind_sides (s : State) (c : Nat) (b : Bind) : SameSides s (s.setBind c b) := foldl_sides (fun _ _ => sendOut_sides _ _) _ _
@[simp] theorem dropWd_sides (s : State) (id : Nat) : SameSides s (s.dropWd id) := by simp [SameSides, State.dropWd]
@[simp] theorem ctxStep_links (s : State) (ch : CtxChange) (to_ : CtxState) : SameLinks s (s.ctxStep ch to_) := by
  unfold State.ctxStep
  split <;> simp [SameLinks]
@[simp] theorem ctxAdvance_links (s : State) (ch : CtxChange) : SameLinks s (s.ctxAdvance ch) := by
  dsimp only [State.ctxAdvance]
  split <;> simp [SameLinks]
@[simp] theorem ctxAck_links (s : State) (n c : Nat) : SameLinks s (s.ctxAck n c) := by
  unfold State.ctxAck
  split <;> simp [SameLinks]
@[simp] theorem ctxAbsent_links (s : State) (n : Nat) : SameLinks s (s.ctxAbsent n) := by simp [SameLinks, State.ctxAbsent]

@[simp] theorem wdComplete_links (s : State) (w : Withdrawal) : SameLinks s (s.wdComplete w) := by
  dsimp only [State.wdComplete]
  repeat' split
  all_goals simp [SameLinks]
@[simp] theorem wdDone_links (s : State) (n id : Nat) : SameLinks s (s.wdDone n id) := by
  unfold State.wdDone
  split <;> simp [SameLinks]
@[simp] theorem wdAbsent_links (s : State) (n : Nat) : SameLinks s (s.wdAbsent n) := by simp [SameLinks, State.wdAbsent]
@[simp] theorem tableDone_links (s : State) (n : Nat) : SameLinks s (s.tableDone n) := by simp [SameLinks, State.tableDone]
@[simp] theorem applyLeave_links (s : State) (n kind uid slot : Nat) : SameLinks s (s.applyLeave n kind uid slot) := by
  unfold State.applyLeave
  split
  · split <;> simp [SameLinks]
  · simp [SameLinks]
@[simp] theorem sendLeave_links (s : State) (nodes : List Nat) (kind uid : Nat) : SameLinks s (s.sendLeave nodes kind uid) := by simp [SameLinks, State.sendLeave]
@[simp] theorem declareLeave_links (s : State) (nodes : List Nat) (kind uid : Nat) :
    SameLinks s (s.declareLeave nodes kind uid) := by simp [SameLinks, State.declareLeave]

-- Rack time
@[simp] theorem setQuality_links (s : State) (q : Quality) : SameLinks s (s.setQuality q) := by simp [SameLinks, State.setQuality]
@[simp] theorem refLoss_links (s : State) : SameLinks s s.refLoss := by
  unfold State.refLoss
  split <;> simp [SameLinks]


-- A port that goes down (R195, R388)
/-- What `GoesDown` says of a port. -/
def Port.down (x : Port) : PortState × Bool × Nat × Nat × Nat × Nat × List RetryFlit :=
  (x.st, x.idling, x.downCount, x.downCause, x.downSlot, x.downAt, x.retry)
/-- What `GoesDown` says of the ports is the same in `t` as in `s`. -/
def SameDown (s t : State) : Prop := ∀ p, (t.port p).down = (s.port p).down
theorem SameDown.trans {s t u : State} (h : SameDown s t) (g : SameDown t u) : SameDown s u := fun p => (g p).trans (h p)
theorem SameDown.of_links {s t : State} (h : SameLinks s t) : SameDown s t := fun p =>
  (congrArg Port.down (congrFun h p) : (linkSide t.ports p).down = (linkSide s.ports p).down)
@[simp] theorem linkReset_retry (x : Port) : x.linkReset.retry = [] := rfl
theorem modPort_down (s : State) (i : Nat) {f : Port → Port} (hf : ∀ x, (f x).down = x.down) : SameDown s (s.modPort i f) := by
  intro p
  rw [port_modPort]
  split
  · next h => rw [hf, h]
  · rfl
theorem goesDown_iff {s t : State} {p cause : Nat} :
    GoesDown s t p cause ↔ (t.port p).down = (.detect, true, (s.port p).downCount + 1, cause, s.slot, s.clk, []) := by simp [GoesDown, Port.down]
theorem goesDown_of_sameDown {s t u : State} {p cause : Nat} (h : GoesDown s t p cause) (hd : SameDown t u) : GoesDown s u p cause :=
  goesDown_iff.mpr ((hd p).trans (goesDown_iff.mp h))

@[simp] theorem modLanes_sides (s : State) (p : Nat) (f : Nat → Lane → Lane) : SameSides s (s.modLanes p f) := by simp [SameSides, State.modLanes]
@[simp] theorem recordTest_sides (s : State) (p i res : Nat) (c : Nat × Nat) : SameSides s (s.recordTest p i res c) := by simp [SameSides, State.recordTest]
@[simp] theorem countMelt_sides (s : State) (cls : Nat) : SameSides s (s.countMelt cls) := .refl s
@[simp] theorem downEntry_sides (p : Nat) (s : State) (e : QEntry) : SameSides s (State.downEntry p s e) := by
  unfold State.downEntry
  split
  · split <;> simp [SameSides]
  · simp [SameSides]
  · split <;> simp [SameSides]
  · simp [SameSides]
  · simp [SameSides]
@[simp] theorem downFlit_sides (s : State) (f : RetryFlit) : SameSides s (s.downFlit f) := by
  unfold State.downFlit
  split <;> simp [SameSides]
theorem abortTest_down (s : State) (p : Nat) : SameDown s (s.abortTest p) := by
  unfold State.abortTest
  split
  · exact fun _ => rfl
  · exact (modPort_down s p (f := fun x => { x with test := none }) fun _ => rfl).trans (.of_links (foldl_links (fun u i => (recordTest_sides u p i 3 _).1) _ _))
theorem partnerGone_down (s : State) (p : Nat) : SameDown s (s.partnerGone p) := by
  unfold State.partnerGone
  extract_lets x
  split
  · exact fun _ => rfl
  · next s1 s2 _ f _ =>
    have h1 : SameDown s s1 := modPort_down s p fun _ => rfl
    have h2 : SameLinks s1 s2 := (farunPortDown_sides s1 p).1
    exact h1.trans (.of_links (by simp [SameLinks, h2]))
/-- A port of any state that goes down to DETECT with a cause has gone down with it. -/
theorem portDown_goesDown (s : State) (p cause : Nat) (self : Bool) : GoesDown s (s.portDown p cause self .detect) p cause := by
  unfold State.portDown
  extract_lets x entries s1 s2 s3 s4 s5
  have h1 : GoesDown s s1 p cause := by simp [s1, State.toPort, GoesDown]
  have h2 : SameDown s1 s2 := (((SameDown.of_links (modLanes_sides s1 p _).1).trans (abortTest_down _ p)).trans
    (.of_links (event_mgmt _ 2 0x01 1 p cause 0).sides.1)).trans (modPort_down _ p fun _ => rfl)
  have h3 : SameLinks s2 s3 := by simp [SameLinks, s3]
  have h4 : SameLinks s3 s4 := by simp [SameLinks, s4]
  have h5 : SameDown s4 s5 := partnerGone_down (s4.addRepin _ _) p
  clear_value s1 s2 s3 s4 s5
  have hs5 := goesDown_of_sameDown h1 (h2.trans ((SameDown.of_links (h4.trans h3)).trans h5))
  split
  · exact goesDown_of_sameDown hs5 (.of_links (refLoss_links _))
  · exact hs5

end Sys2Proof.Machine
end

section
/-! Contexts (R334 to R337, R355): ACTIVATE and STOP at the home, the notice of another home, and the acknowledgements that take a change from state to state. -/

namespace Sys2Proof.Machine
open Sys2Proof

-- What a change of state touches at this package before messages go out
/-- `t` differs from `s` only in the management side, contexts and keys, translations, operators and rings. -/
def Turned (s t : State) : Prop := ∃ v e o x l p m, t = { s with vane := v, evt := e, out := o, sec := x, xl := l, ops := p, mov := m }
theorem Turned.trans {s t u : State} (h : Turned s t) (g : Turned t u) : Turned s u := by
  obtain ⟨_, _, _, _, _, _, _, rfl⟩ := h
  obtain ⟨v, e, o, x, l, p, m, rfl⟩ := g
  exact ⟨v, e, o, x, l, p, m, rfl⟩
theorem Turned.of_mgmt {s t : State} (h : Mgmt s t) : Turned s t := by
  obtain ⟨v, e, o, rfl⟩ := h
  exact ⟨v, e, o, s.sec, s.xl, s.ops, s.mov, rfl⟩
theorem modSec_turned (s : State) (f : Sec → Sec) : Turned s (s.modSec f) := ⟨s.vane, s.evt, s.out, _, s.xl, s.ops, s.mov, rfl⟩
theorem modCtx_turned (s : State) (c : Nat) (f : Ctx → Ctx) : Turned s (s.modCtx c f) := ⟨s.vane, s.evt, s.out, _, s.xl, s.ops, s.mov, rfl⟩
theorem setCtx_turned (s : State) (c : Nat) (st : CtxState) : Turned s (s.setCtx c st) := (modCtx_turned s c _).trans (.of_mgmt (cmdChange_mgmt _ _ _))
theorem modChange_turned (s : State) (c : Nat) (f : CtxChange → CtxChange) : Turned s (s.modChange c f) := modSec_turned _ _
theorem thaw_turned (s : State) (c : Nat) : Turned s (s.thaw c) := ⟨s.vane, s.evt, s.out, _, _, _, _, rfl⟩
theorem Turned.keeps {s t : State} (h : Turned s t) : t.clk = s.clk ∧ t.pool = s.pool ∧ t.xact = s.xact := by
  obtain ⟨_, _, _, _, _, _, _, rfl⟩ := h
  exact ⟨rfl, rfl, rfl⟩
theorem Turned.routed {s t : State} (h : Turned s t) : Routed s t := by
  obtain ⟨_, _, _, _, _, _, _, rfl⟩ := h
  exact ⟨rfl, fun _ _ => rfl, fun _ _ _ => rfl, rfl⟩
theorem Turned.ctxScope {s t : State} (h : Turned s t) : t.ctxScope = s.ctxScope := by
  obtain ⟨_, _, _, _, _, _, _, rfl⟩ := h
  rfl
theorem Turned.canReserve {s t : State} (h : Turned s t) (a v n : Nat) : t.canReserve a v n = s.canReserve a v n := by
  obtain ⟨_, _, _, _, _, _, _, rfl⟩ := h
  rfl
theorem Turned.slot {s t : State} (h : Turned s t) : t.slot = s.slot := by
  obtain ⟨_, _, _, _, _, _, _, rfl⟩ := h
  rfl
theorem Turned.mgt {s t : State} (h : Turned s t) (d k w : Nat) : t.mgt d k w = s.mgt d k w := by
  rw [State.mgt, State.mgt, h.routed.node, h.slot]

-- Contexts under the operations of a change
@[simp] theorem ctx_setCtx (s : State) (c d : Nat) (st : CtxState) : (s.setCtx c st).ctx d =
    if d = c then { s.ctx c with st := st, slot := s.slot, freeAt := if st == .free then some s.clk else (s.ctx c).freeAt } else s.ctx d := by
  simp [State.setCtx, State.cmdChange]
@[simp] theorem setCtx_changes (s : State) (c : Nat) (st : CtxState) : (s.setCtx c st).sec.changes = s.sec.changes := by
  simp [State.setCtx, State.cmdChange, State.modCtx]
@[simp] theorem setCtx_thawCount (s : State) (c : Nat) (st : CtxState) : (s.setCtx c st).sec.thawCount = s.sec.thawCount := by
  simp [State.setCtx, State.cmdChange, State.modCtx]
theorem Sent.ctx {s t : State} (h : Sent s t) (d : Nat) : t.ctx d = s.ctx d := by
  obtain ⟨_, _, _, _, _, hsec, _⟩ := h.keeps
  rw [State.ctx, State.ctx, hsec]
theorem ctx_of_sides {s t : State} (h : SameSides s t) (d : Nat) : t.ctx d = s.ctx d := by
  obtain ⟨_, hctxs, _⟩ := h
  rw [State.ctx, State.ctx, hctxs]
/-- No translation of a context is left in the cache after its thaw. -/
theorem cacheOf_thaw {s : State} {c i : Nat} {e : TEntry} (he : e ∈ (s.thaw c).cacheOf i) : e.ctx ≠ c := by
  have hcache : (s.thaw c).cacheOf i = (s.cacheOf i).filter (fun e => e.ctx != c) :=
    tget_tmap [] s.xl.cache (fun _ l => l.filter (fun e => e.ctx != c)) i rfl
  rw [hcache, List.mem_filter] at he
  simpa using he.2

-- Messages of a change
theorem sendMgt_sent (s : State) (t : Txn) : Sent s (s.sendMgt t) := .of_carried (sendOut_carried s t)
theorem sendCtx_sent (s : State) (c : Nat) (clean : Bool) : Sent s (s.sendCtx c clean) := foldl_sent _ (fun _ _ => sendMgt_sent _ _) _ _
theorem sendCtxAck_sent (s : State) (c : Nat) : Sent s (s.sendCtxAck c) := by
  unfold State.sendCtxAck
  split
  · exact sendMgt_sent _ _
  · exact .refl s
/-- A message goes out at once where its class has room at the point and nothing waits (R120, R178). -/
theorem sendOut_queued {s : State} {x : Txn} {q : Nat} (hw : s.xact.waits = []) (hroom : s.canReserve 265 x.ty.cls x.cells = true)
    (hq : s.egress 265 x.dnode x.key = some q) (hq' : q ≠ 256) : Queued s (s.sendOut x) q x.ty.cls x 265 := by
  have hc := charge_charged s 265 x.ty.cls x.cells
  have hout : s.sendOut x = (s.charge 265 x.ty.cls x.cells).enqueue q x.ty.cls ((s.charge 265 x.ty.cls x.cells).entry x 265 x.ty.cls) := by
    simp [State.sendOut, hq, hq', hroom, hw]
  rw [hout]
  exact enqueue_queued hc _ _ _ hc.clk
/-- A package that has done its part of another home's change says so to that home. -/
theorem sendCtxAck_queued {s t : State} {h c q : Nat} (ht : Turned s t) (hhome : (t.ctx c).home = h) (hdone : t.ctxPartDone c = true)
    (hw : s.xact.waits = []) (hroom : s.canReserve 265 4 (s.mgt h 7 c).cells = true) (hq : s.egress 265 h (s.mgt h 7 c).key = some q) (hq' : q ≠ 256) :
    Queued s (t.sendCtxAck c) q 4 (s.mgt h 7 c) 265 := by
  obtain ⟨_, _, hxact⟩ := ht.keeps
  have hack : t.sendCtxAck c = t.sendOut (s.mgt h 7 c) := by rw [State.sendCtxAck, if_pos hdone, hhome, ht.mgt, State.sendMgt]
  rw [hack]
  exact Queued.of_routed ht.routed (sendOut_queued (x := s.mgt h 7 c) (by rw [hxact, hw]) (by rw [ht.canReserve]; exact hroom)
    (by rw [ht.routed.egress]; exact hq) hq')

-- The end of a change
/-- The command of a change ends: the change is over, and its completion store goes out. -/
def State.endChange (s : State) (ch : CtxChange) (timeout : Nat) : State :=
  let t := s.modSec (fun x => { x with changes := x.changes.filter (fun y => y.c != ch.c) })
  if ch.nfa == 0 then t else t.issue (storeTxn 0 ch.nfa ch.nval 8 0) (.notify 1 ch.c) timeout
section
variable {s : State} {ch : CtxChange}
theorem ctxAdvance_active (h : ch.to_ = .active) : s.ctxAdvance ch = s.endChange ch s.reqTimeout := by simp [State.ctxAdvance, State.endChange, h]
theorem ctxAdvance_stopping (h : ch.to_ = .stopping) : s.ctxAdvance ch = s.ctxStep ch .revoking := by simp [State.ctxAdvance, h]
theorem ctxAdvance_revoking (h : ch.to_ = .revoking) : s.ctxAdvance ch = s.ctxStep ch .thawing := by simp [State.ctxAdvance, h]
theorem ctxAdvance_thawing (h : ch.to_ = .thawing) : s.ctxAdvance ch = ((s.setCtx ch.c .free).sendCtx ch.c false).endChange ch s.reqTimeout := by
  simp [State.ctxAdvance, State.endChange, h]
theorem endChange_sent (timeout : Nat) :
    Sent (s.modSec (fun x => { x with changes := x.changes.filter (fun y => y.c != ch.c) })) (s.endChange ch timeout) := by
  unfold State.endChange
  dsimp only
  split
  · exact .refl _
  · exact issue_sent _ _ _ _
theorem endChange_ctx (timeout d : Nat) : (s.endChange ch timeout).ctx d = s.ctx d := (endChange_sent timeout).ctx d
theorem endChange_changes (timeout : Nat) : (s.endChange ch timeout).sec.changes = s.sec.changes.filter (fun y => y.c != ch.c) := by
  obtain ⟨_, _, _, _, _, hsec, _⟩ := (endChange_sent (s := s) (ch := ch) timeout).keeps
  rw [hsec]
  rfl
theorem endChange_pool (timeout : Nat) : (s.endChange ch timeout).pool = s.pool := by
  obtain ⟨_, _, _, hpool, _⟩ := (endChange_sent (s := s) (ch := ch) timeout).keeps
  exact hpool
/-- The completion store goes out under context 0 from any state that has the clock, the node and context 0 of `u`. -/
theorem endChange_issues {u : State} (hclk : s.clk = u.clk) (hnode : s.poolNode = u.poolNode) (hgen : (s.ctx 0).kgen = (u.ctx 0).kgen) (hnfa : ch.nfa ≠ 0) :
    Issues u (s.endChange ch u.reqTimeout) (storeTxn 0 ch.nfa ch.nval 8 0) (.notify 1 ch.c) := by
  rw [State.endChange, if_neg (by simp [hnfa])]
  exact issues_of_issue (by simpa [State.modSec]) (by rw [modSec_poolNode, hnode]) hgen _
end

-- Stopping at a package (R351, R355)
@[simp] theorem ringDrain_sides (s : State) (n : Nat) : SameSides s (s.ringDrain n) := by simp [SameSides, State.ringDrain]
@[simp] theorem instAbort_sides (i : Nat) (s : State) : SameSides s (instAbort i s) := by
  unfold instAbort
  split <;> simp [SameSides]
/-- What stopping leaves: contexts and changes as they were, no bundle key of the context, and every byte of the pool. -/
structure StopsHere (s t : State) (c : Nat) : Prop where
  ctxs : t.sec.ctxs = s.sec.ctxs
  changes : t.sec.changes = s.sec.changes
  erased : ∀ k, (tget {} t.sec.bkeys k).used = true → (tget {} t.sec.bkeys k).ctx ≠ c
  mem : t.pool.mem = s.pool.mem
theorem StopsHere.of_moved {s t u : State} {c : Nat} (h : StopsHere s t c) (hm : Moved t u) : StopsHere s u c := by
  obtain ⟨hctxs, hchanges, herased, hmem⟩ := h
  obtain ⟨_, _, _, hpool, _, hsec, _⟩ := hm.keeps
  exact ⟨by rw [hsec, hctxs], by rw [hsec, hchanges], by rwa [hsec], by rw [hpool, hmem]⟩
theorem StopsHere.trans_sides {s t u : State} {c : Nat} (h : StopsHere t u c) (hs : SameSides s t) (hm : t.pool.mem = s.pool.mem) : StopsHere s u c := by
  obtain ⟨_, hctxs, hchanges⟩ := hs
  exact ⟨h.ctxs.trans hctxs, h.changes.trans hchanges, h.erased, h.mem.trans hm⟩
theorem StopsHere.modPool {s t : State} {c : Nat} (h : StopsHere s t c) {f : Pool → Pool} (hf : (f t.pool).mem = t.pool.mem) : StopsHere s (t.modPool f) c :=
  ⟨h.ctxs, h.changes, h.erased, hf.trans h.mem⟩
theorem eraseBkeys_stops (s : State) (c : Nat) : StopsHere s (s.eraseBkeys c) c := by
  refine ⟨rfl, rfl, fun k => ?_, rfl⟩
  have hk : tget {} (s.eraseBkeys c).sec.bkeys k = if (tget {} s.sec.bkeys k).used && (tget {} s.sec.bkeys k).ctx == c then {} else tget {} s.sec.bkeys k :=
    tget_tmap {} s.sec.bkeys (fun _ b => if b.used && b.ctx == c then {} else b) k (by simp)
  rw [hk]
  split
  · simp
  · next h => exact fun hu hc => h (by simp [hu, hc])
theorem endBundle_stops {s t : State} {c : Nat} (h : StopsHere s t c) (st : BundlePhase) (cause : Nat) : StopsHere s (t.endBundle st cause) c := by
  obtain ⟨hctxs, hchanges, herased, hmem⟩ := h
  unfold State.endBundle
  extract_lets b t1
  have h1 : StopsHere s t1 c := by
    refine ⟨hctxs, hchanges, fun k => ?_, hmem⟩
    show (tget {} (tset t.sec.bkeys b.bslot {}) k).used = true → (tget {} (tset t.sec.bkeys b.bslot {}) k).ctx ≠ c
    rw [tget_tset]
    split
    · simp
    · exact herased k
  split
  · exact h1
  · exact h1.of_moved (issue_moved _ _ _ _)
theorem abortCheck_stops {s t : State} {c : Nat} (h : StopsHere s t c) (mv : Nat) : StopsHere s (t.abortCheck mv) c := by
  unfold State.abortCheck
  split
  · split
    · unfold State.abortMove
      split
      · exact h
      · extract_lets t1
        exact (h.modPool rfl : StopsHere s t1 c).of_moved (issue_moved _ _ _ _)
    · exact h
  · exact h
theorem enterStopping_stops (s : State) (c : Nat) : StopsHere s (s.enterStopping c instAbort) c := by
  unfold State.enterStopping
  extract_lets s1 s2 s3 s4 hit s5
  have h1 : SameSides s s1 := foldl_sides (fun t n => by simp [SameSides]) _ s
  have h2 : SameSides s1 s2 := foldl_sides (fun t i => instAbort_sides i t) _ s1
  have hm1 : s1.pool.mem = s.pool.mem := by simp [s1]
  have hm2 : s2.pool.mem = s1.pool.mem := by simp [s2]
  have h4 : StopsHere s s4 c := by
    have h3 : StopsHere s s3 c := (eraseBkeys_stops s2 c).trans_sides (h1.trans h2) (hm2.trans hm1)
    clear_value s3
    unfold s4
    split
    · exact endBundle_stops h3 _ _
    · exact h3
  have h5 : StopsHere s s5 c := h4.modPool rfl
  generalize s5.pool.movesNow.filter hit = l
  clear_value s5
  induction l generalizing s5 with
  | nil => exact h5
  | cons m l ih => exact ih _ (abortCheck_stops h5 m.id)
/-- The part of a package in a stop (R355): submissions end, and where it is home of the context's binding its withdrawal begins. -/
def State.stopPart (s u : State) (c : Nat) : State :=
  if (s.bind c).mode != 0 && (s.bind c).homeNode == s.poolNode then (u.enterStopping c instAbort).startCtxWd c (.stop c) else u.enterStopping c instAbort
theorem stopPart_stops (s u : State) (c : Nat) : StopsHere u (s.stopPart u c) c := by
  unfold State.stopPart
  split
  · exact (enterStopping_stops u c).of_moved (startWd_moved _ _ _ _ _ _ _ _)
  · exact enterStopping_stops u c
/-- A withdrawal that comes to its home stands in its list, whether it runs or waits (R110). -/
theorem startWd_listed (s : State) (fa : Bool) (ctx base len2m nfa nval : Nat) (cause : WdCause) :
    ∃ y ∈ (s.startWd fa ctx base len2m nfa nval cause).xl.wds, y.ctx = ctx ∧ y.fa = fa ∧ y.cause = cause := by
  by_cases h : s.wdActive < 256
  · obtain ⟨waits, hruns⟩ := (startWd_runs h fa ctx base len2m nfa nval cause).runs
    exact ⟨_, hruns, rfl, rfl, rfl⟩
  · rw [State.startWd, if_neg h]
    exact ⟨_, List.mem_append_right _ (List.mem_singleton_self _), rfl, rfl, rfl⟩
theorem stopPart_withdraws {s u : State} {c : Nat} (hmode : (s.bind c).mode ≠ 0) (hhome : (s.bind c).homeNode = s.poolNode) :
    ∃ y ∈ (s.stopPart u c).xl.wds, y.ctx = c ∧ y.fa = false ∧ y.cause = .stop c := by
  rw [State.stopPart, if_pos (by simp [hmode, hhome])]
  exact startWd_listed _ _ _ _ _ _ _ _

-- ACTIVATE (R336, R337)
/-- A context with its next generation, and its home here. -/
def State.renewed (s : State) (c : Nat) (clean : Bool) : State :=
  let k := ((s.ctx c).kgen + 1) % 16
  s.modCtx c (fun y => { y with kgen := k, mask := (if clean then 0 else y.mask) ||| 2 ^ k, home := s.poolNode })
/-- A context as ACTIVATE makes it. -/
def State.activated (s : State) (c : Nat) (clean : Bool) : State := ((s.renewed c clean).setMg (.ctx c) (some 1)).setCtx c .active
theorem activated_turned (s : State) (c : Nat) (clean : Bool) : Turned s (s.activated c clean) :=
  ((modCtx_turned _ _ _).trans (.of_mgmt (setMg_mgmt _ _ _))).trans (setCtx_turned _ _ _)
theorem activated_changes (s : State) (c : Nat) (clean : Bool) : (s.activated c clean).sec.changes = s.sec.changes := by
  rw [State.activated, setCtx_changes]
  rfl
theorem activated_ctx_self (s : State) (c : Nat) (clean : Bool) : ((s.activated c clean).ctx c).st = .active ∧
    ((s.activated c clean).ctx c).kgen = ((s.ctx c).kgen + 1) % 16 ∧ ((s.activated c clean).ctx c).mask.testBit (((s.ctx c).kgen + 1) % 16) = true ∧
    ((s.activated c clean).ctx c).home = s.poolNode := by
  simp [State.activated, State.renewed]
theorem activated_ctx_other {s : State} {c d : Nat} (h : d ≠ c) (clean : Bool) : (s.activated c clean).ctx d = s.ctx d := by
  simp [State.activated, State.renewed, h]
/-- The change that a write of ACTIVATE begins. -/
def State.activation (s : State) (c nfa nval : Nat) : CtxChange := { c := c, to_ := .active, waiting := s.ctxScope, nfa := nfa, nval := nval }
/-- The context as ACTIVATE makes it, its change begun and announced to the scope. -/
def State.announced (s : State) (c nfa nval : Nat) (clean : Bool) : State :=
  ((s.activated c clean).modSec (fun y => { y with changes := y.changes ++ [s.activation c nfa nval] })).sendCtx c clean
/-- What ACTIVATE asks of its context (R336, R337). -/
structure Activates (s : State) (c nfa : Nat) (clean : Bool) : Prop where
  ctx : c ≠ 0
  free : (s.ctx c).st = .free
  word : nfa % 8 = 0
  fa : isFa nfa = true
  idle : s.sec.changes = []
  fresh : (s.ctx c).mask.testBit (((s.ctx c).kgen + 1) % 16) = false ∨ clean = true
  waited : (s.ctx c).freeAt = none ∨ ∃ a, (s.ctx c).freeAt = some a ∧ a + s.ageLimit 0 + s.ageLimit 2 ≤ s.clk
section
variable {s : State} {c n x : Nat} {b : Bool}
theorem ctxActivateWrite_ok (h : Activates s c n b) : ctxActivateWrite c b n x s =
    .ok (if s.ctxScope.isEmpty then (s.announced c n x b).ctxAdvance (s.activation c n x) else s.announced c n x b) := by
  obtain ⟨hctx, hfree, hword, hfa, hidle, hfresh, hwaited⟩ := h
  refine (if_pos (by simp [hword, hfa])).trans (if_pos ?_)
  rcases hwaited with hnone | ⟨a, hsome, hle⟩
  · simp [hctx, hfree, hidle, hfresh, hnone]
  · simp [hctx, hfree, hidle, hfresh, hsome, hle]
theorem ctxActivateWrite_refused (h : c = 0 ∨ (s.ctx c).st ≠ .free) : ctxActivateWrite c b n x s = .error abortRefused := by
  unfold ctxActivateWrite check
  dsimp only
  split
  · exact if_neg (by rcases h with h | h <;> simp [h])
  · rfl
end
/-- What ACTIVATE leaves once its change is announced. -/
structure Announced (s t : State) (c nfa nval : Nat) : Prop where
  clk : t.clk = s.clk
  pool : t.pool = s.pool
  node : t.poolNode = s.poolNode
  timeout : t.reqTimeout = s.reqTimeout
  st : (t.ctx c).st = .active
  kgen : (t.ctx c).kgen = ((s.ctx c).kgen + 1) % 16
  mask : (t.ctx c).mask.testBit (((s.ctx c).kgen + 1) % 16) = true
  home : (t.ctx c).home = s.poolNode
  other : ∀ d, d ≠ c → t.ctx d = s.ctx d
  changes : t.sec.changes = s.sec.changes ++ [s.activation c nfa nval]
theorem announced_announced (s : State) (c nfa nval : Nat) (clean : Bool) : Announced s (s.announced c nfa nval clean) c nfa nval := by
  have hsent : Sent _ (s.announced c nfa nval clean) := sendCtx_sent _ c clean
  have hturned := (activated_turned s c clean).trans (modSec_turned _ (fun y => { y with changes := y.changes ++ [s.activation c nfa nval] }))
  obtain ⟨hclk, hmov, _, hpool, _, hsec, _⟩ := hsent.keeps
  obtain ⟨hclk', hpool', _⟩ := hturned.keeps
  obtain ⟨hst, hkgen, hmask, hhome⟩ := activated_ctx_self s c clean
  have hctx : ∀ d, (s.announced c nfa nval clean).ctx d = (s.activated c clean).ctx d := hsent.ctx
  have hmov' : (s.activated c clean).mov = s.mov := by simp [State.activated, State.setCtx, State.cmdChange, State.setMg, State.modEpoch, State.renewed]
  exact ⟨hclk.trans hclk', hpool.trans hpool', (Moved.of_sent hsent).poolNode.trans hturned.routed.node,
    congrArg (fun m : Mov => m.timeout * 1000) (hmov.trans hmov'), by rw [hctx, hst], by rw [hctx, hkgen], by rw [hctx, hmask], by rw [hctx, hhome],
    fun d hd => by rw [hctx, activated_ctx_other hd], by rw [hsec, ← activated_changes s c clean]; rfl⟩
/-- What an accepted ACTIVATE leaves: the change that waits for the scope, or its completion store where the scope is empty. -/
structure CtxActivated (s t : State) (c nfa nval : Nat) : Prop where
  st : (t.ctx c).st = .active
  kgen : (t.ctx c).kgen = ((s.ctx c).kgen + 1) % 16
  mask : (t.ctx c).mask.testBit (((s.ctx c).kgen + 1) % 16) = true
  home : (t.ctx c).home = s.poolNode
  other : ∀ d, d ≠ c → t.ctx d = s.ctx d
  pool : t.pool = s.pool
  waits : s.ctxScope ≠ [] → t.sec.changes = [{ c := c, to_ := .active, waiting := s.ctxScope, nfa := nfa, nval := nval }]
  ends : s.ctxScope = [] → t.sec.changes = []
  completes : s.ctxScope = [] → nfa ≠ 0 → Issues s t (storeTxn 0 nfa nval 8 0) (.notify 1 c)
theorem Issues.of_mgmt {s t u : State} {y : Txn} {who : Purpose} (h : Mgmt s t) (hi : Issues t u y who) : Issues s u y who := by
  have hnode := (Moved.of_mgmt h).poolNode
  obtain ⟨_, _, _, rfl⟩ := h
  rw [Issues, hnode] at hi
  exact hi
section
variable {s : State} {v : VCtx} {c n x : Nat} {b : Bool}
theorem ctxActivateWrite_activates (h : Activates s c n b) : ∃ w, ctxActivateWrite c b n x s = .ok w ∧ CtxActivated s w c n x := by
  have ha := announced_announced s c n x b
  refine ⟨_, ctxActivateWrite_ok h, ?_⟩
  by_cases hscope : s.ctxScope = []
  · rw [if_pos (by simp [hscope]), ctxAdvance_active rfl, ha.timeout]
    have hctx : ∀ d, ((s.announced c n x b).endChange (s.activation c n x) s.reqTimeout).ctx d = (s.announced c n x b).ctx d := endChange_ctx _
    exact ⟨by rw [hctx, ha.st], by rw [hctx, ha.kgen], by rw [hctx, ha.mask], by rw [hctx, ha.home], fun d hd => by rw [hctx, ha.other d hd],
      by rw [endChange_pool, ha.pool], (absurd hscope ·), fun _ => by simp [endChange_changes, ha.changes, h.idle, State.activation],
      fun _ => endChange_issues (ch := s.activation c n x) ha.clk ha.node (by rw [ha.other 0 h.ctx.symm])⟩
  · rw [if_neg (by simp [hscope])]
    exact ⟨ha.st, ha.kgen, ha.mask, ha.home, ha.other, ha.pool, fun _ => by rw [ha.changes, h.idle]; rfl, (absurd · hscope), (absurd · hscope)⟩
theorem ctxActivate_accepts (hw : Write s v ctxCtlObj (ctxCtlBytes 1 c b n x)) (he : (s.epochRec (.ctx c)).epoch = v.epoch) (h : Activates s c n b) :
    ∃ w, Accepts (.ctxActivate v c b n x) v s w ∧ CtxActivated s w c n x := by
  have hm := countDatagram_mgmt s v.sess
  have hscope : (s.countDatagram v.sess).ctxScope = s.ctxScope := (Turned.of_mgmt hm).ctxScope
  have h' : Activates (s.countDatagram v.sess) c n b := by
    obtain ⟨hctx, hfree, hword, hfa, hidle, hfresh, hwaited⟩ := h
    exact ⟨hctx, by simpa, hword, hfa, by simpa, by simpa, by simpa [State.ageLimit]⟩
  obtain ⟨w, hok, hst, hkgen, hmask, hhome, hother, hpool, hwait, hends, hdone⟩ := ctxActivateWrite_activates (x := x) h'
  rw [hscope] at hwait hends hdone
  exact ⟨w, vaneWrite_accepts hw (by rintro _ ⟨⟩; exact he) hok, hst, by simpa using hkgen, by simpa using hmask, by simpa using hhome, by simpa using hother,
    by simpa using hpool, hwait, hends, fun h0 hn => Issues.of_mgmt hm (hdone h0 hn)⟩
theorem ctxActivate_aborts (hw : Write s v ctxCtlObj (ctxCtlBytes 1 c b n x)) (he : (s.epochRec (.ctx c)).epoch = v.epoch)
    (h : c = 0 ∨ (s.ctx c).st ≠ .free) : Aborts (.ctxActivate v c b n x) v s abortRefused :=
  vaneWrite_aborts hw (by rintro _ ⟨⟩; exact he) (ctxActivateWrite_refused (by simpa))

-- STOP (R335, R336, R355)
/-- The change that a write of STOP begins. -/
def State.stopChange (s : State) (c nfa nval : Nat) : CtxChange := { c := c, to_ := .stopping, waiting := s.poolNode :: s.ctxScope, nfa := nfa, nval := nval }
/-- A context of this home as STOP makes it, its change begun. -/
def State.stopped (s : State) (c nfa nval : Nat) : State :=
  (((s.modCtx c (fun y => { y with home := s.poolNode })).setMg (.ctx c) (some 0)).setCtx c .stopping).modSec
    (fun y => { y with changes := (y.changes.filter (fun z => z.c != c)) ++ [s.stopChange c nfa nval] })
theorem stopped_ctx (s : State) (c nfa nval : Nat) : ((s.stopped c nfa nval).ctx c).st = .stopping ∧ ((s.stopped c nfa nval).ctx c).home = s.poolNode := by
  have hctx : (s.stopped c nfa nval).ctx c = (((s.modCtx c (fun y => { y with home := s.poolNode })).setMg (.ctx c) (some 0)).setCtx c .stopping).ctx c := rfl
  rw [hctx]
  simp
theorem stopped_changes (s : State) (c nfa nval : Nat) : s.stopChange c nfa nval ∈ (s.stopped c nfa nval).sec.changes :=
  List.mem_append_right _ (List.mem_singleton_self _)
theorem stopped_mem (s : State) (c nfa nval : Nat) : (s.stopped c nfa nval).pool.mem = s.pool.mem := by
  simp [State.stopped, State.modSec]
theorem ctxStopWrite_ok (hc : c ≠ 0) (hst : (s.ctx c).st = .active) (hhome : (s.ctx c).home = s.poolNode) (hword : n % 8 = 0) (hfa : isFa n = true) :
    ctxStopWrite instAbort c n x s = .ok ((s.stopPart (s.stopped c n x) c).sendCtx c false) := by
  refine (if_pos (by simp [hword, hfa])).trans ((if_pos (by simp [hc, hst, hhome])).trans ?_)
  simp [hst, State.stopPart, State.stopped, State.stopChange]
theorem ctxStopWrite_refused (hst : (s.ctx c).st = .free) : ctxStopWrite instAbort c n x s = .error abortRefused := by
  unfold ctxStopWrite check
  dsimp only
  split
  · exact if_neg (by simp [hst])
  · rfl
/-- What an accepted STOP leaves. -/
structure CtxStopped (s t : State) (c nfa nval : Nat) : Prop where
  st : (t.ctx c).st = .stopping
  home : (t.ctx c).home = s.poolNode
  erased : ∀ k, (tget {} t.sec.bkeys k).used = true → (tget {} t.sec.bkeys k).ctx ≠ c
  waits : s.stopChange c nfa nval ∈ t.sec.changes
  withdraws : (s.bind c).mode ≠ 0 → (s.bind c).homeNode = s.poolNode → ∃ y ∈ t.xl.wds, y.ctx = c ∧ y.fa = false ∧ y.cause = .stop c
  mem : t.pool.mem = s.pool.mem
theorem stopPart_stopped (s : State) (c nfa nval : Nat) : CtxStopped s ((s.stopPart (s.stopped c nfa nval) c).sendCtx c false) c nfa nval := by
  have hs := (stopPart_stops s (s.stopped c nfa nval) c).of_moved (.of_sent (sendCtx_sent _ c false))
  obtain ⟨_, _, hxl, _⟩ := (sendCtx_sent (s.stopPart (s.stopped c nfa nval) c) c false).keeps
  obtain ⟨hst, hhome⟩ := stopped_ctx s c nfa nval
  rw [State.ctx, ← hs.ctxs] at hst hhome
  exact ⟨hst, hhome, hs.erased, by rw [hs.changes]; exact stopped_changes _ _ _ _, fun hmode hh => by rw [hxl]; exact stopPart_withdraws hmode hh,
    hs.mem.trans (stopped_mem _ _ _ _)⟩
theorem ctxStop_accepts (hw : Write s v ctxCtlObj (ctxCtlBytes 2 c false n x)) (he : (s.epochRec (.ctx c)).epoch = v.epoch)
    (hc : c ≠ 0) (hst : (s.ctx c).st = .active) (hhome : (s.ctx c).home = s.poolNode) (hword : n % 8 = 0) (hfa : isFa n = true) :
    ∃ w, Accepts (.ctxStop v c n x) v s w ∧ CtxStopped s w c n x := by
  have hm := countDatagram_mgmt s v.sess
  have hscope : (s.countDatagram v.sess).ctxScope = s.ctxScope := (Turned.of_mgmt hm).ctxScope
  obtain ⟨hst', hhome', herased, hwaits, hwithdraws, hmem⟩ := stopPart_stopped (s.countDatagram v.sess) c n x
  rw [State.stopChange, hscope, poolNode_countDatagram] at hwaits
  exact ⟨_, vaneWrite_accepts hw (by rintro _ ⟨⟩; exact he) (ctxStopWrite_ok hc (by simpa) (by simpa) hword hfa), hst', by simpa using hhome', herased, hwaits,
    by simpa using hwithdraws, by simpa using hmem⟩
theorem ctxStop_aborts (hw : Write s v ctxCtlObj (ctxCtlBytes 2 c false n x)) (he : (s.epochRec (.ctx c)).epoch = v.epoch) (hst : (s.ctx c).st = .free) :
    Aborts (.ctxStop v c n x) v s abortRefused :=
  vaneWrite_aborts hw (by rintro _ ⟨⟩; exact he) (ctxStopWrite_refused (by simpa))
end

-- The notice of another home (R335)
/-- A context whose home and generation a notice of state `st` has brought. -/
def State.told (s : State) (home c st kgen : Nat) (clean : Bool) : State :=
  s.modCtx c (fun y => { y with home := home, kgen := kgen, mask := if st == 1 then (if clean then 0 else y.mask) ||| 2 ^ kgen else y.mask })
theorem told_turned (s : State) (home c st kgen : Nat) (clean : Bool) : Turned s (s.told home c st kgen clean) := modCtx_turned _ _ _
section
variable {s : State} {h c k q : Nat} {b : Bool}
theorem exec_ctxStateNotice (hh : h ≠ s.poolNode) (hc : c ≠ 0) (st : Nat) :
    exec (.ctxStateNotice h c st k b) s = .next ((s.ctxNotice instAbort h c st k b).sendCtxAck c) := if_neg (by simp [hh, hc])
theorem ctxNotice_active : s.ctxNotice instAbort h c 1 k b = ((s.told h c 1 k b).setMg (.ctx c) (some 1)).setCtx c .active := rfl
theorem ctxNotice_free : s.ctxNotice instAbort h c 0 k b = (s.told h c 0 k b).setCtx c .free := rfl
theorem ctxNotice_stopping : s.ctxNotice instAbort h c 2 k b = s.stopPart (((s.told h c 2 k b).setMg (.ctx c) (some 0)).setCtx c .stopping) c := rfl

/-- The state, the generation, the home and the change of a context that only a notice's own setting has touched since. -/
theorem setCtx_told (st : CtxState) (n : Nat) {u : State} (hu : u.ctx c = (s.told h c n k b).ctx c) :
    ((u.setCtx c st).ctx c).st = st ∧ ((u.setCtx c st).ctx c).kgen = k ∧ ((u.setCtx c st).ctx c).home = h := by
  simp [hu, State.told]
theorem notice_active (hh : h ≠ s.poolNode) (hc : c ≠ 0) (hw : s.xact.waits = []) (hroom : s.canReserve 265 4 (s.mgt h 7 c).cells = true)
    (hq : s.egress 265 h (s.mgt h 7 c).key = some q) (hq' : q ≠ 256) : ∃ t, exec (.ctxStateNotice h c 1 k b) s = .next t ∧ (t.ctx c).st = .active ∧
    (t.ctx c).kgen = k ∧ (t.ctx c).home = h ∧ Queued s t q 4 (s.mgt h 7 c) 265 ∧ t.pool = s.pool := by
  have hturned : Turned s (s.ctxNotice instAbort h c 1 k b) :=
    ((told_turned s h c 1 k b).trans (.of_mgmt (setMg_mgmt _ _ _))).trans (setCtx_turned _ _ _)
  obtain ⟨hst, hkgen, hhome⟩ := setCtx_told (s := s) (h := h) (c := c) (k := k) (b := b) .active 1 (u := (s.told h c 1 k b).setMg (.ctx c) (some 1)) rfl
  rw [← ctxNotice_active] at hst hkgen hhome
  have hsent := sendCtxAck_sent (s.ctxNotice instAbort h c 1 k b) c
  obtain ⟨_, _, _, hpool, _⟩ := hsent.keeps
  obtain ⟨_, hpool', _⟩ := hturned.keeps
  refine ⟨_, exec_ctxStateNotice hh hc 1, by rw [hsent.ctx, hst], by rw [hsent.ctx, hkgen], by rw [hsent.ctx, hhome], ?_, hpool.trans hpool'⟩
  exact sendCtxAck_queued hturned hhome (by simp [State.ctxPartDone, State.ownPartDone, hst]) hw hroom hq hq'
theorem notice_thawing (hh : h ≠ s.poolNode) (hc : c ≠ 0) (hw : s.xact.waits = []) (hroom : s.canReserve 265 4 (s.mgt h 7 c).cells = true)
    (hq : s.egress 265 h (s.mgt h 7 c).key = some q) (hq' : q ≠ 256) : ∃ t, exec (.ctxStateNotice h c 4 k b) s = .next t ∧ (t.ctx c).st = .thawing ∧
    (t.ctx c).kgen = k ∧ Queued s t q 4 (s.mgt h 7 c) 265 ∧ t.sec.thawCount = s.sec.thawCount + 256 ∧
    (∀ (i : Nat) (e : TEntry), e ∈ t.cacheOf i → e.ctx ≠ c) ∧ t.pool = s.pool := by
  have hturned : Turned s (s.ctxNotice instAbort h c 4 k b) := ((told_turned s h c 4 k b).trans (setCtx_turned _ _ _)).trans (thaw_turned _ _)
  obtain ⟨hst, hkgen, hhome⟩ := setCtx_told (s := s) (h := h) (c := c) (k := k) (b := b) .thawing 4 (u := s.told h c 4 k b) rfl
  have hctx : (s.ctxNotice instAbort h c 4 k b).ctx c = ((s.told h c 4 k b).setCtx c .thawing).ctx c := rfl
  rw [← hctx] at hst hkgen hhome
  have hsent := sendCtxAck_sent (s.ctxNotice instAbort h c 4 k b) c
  obtain ⟨_, _, hxl, hpool, _, hsec, _⟩ := hsent.keeps
  obtain ⟨_, hpool', _⟩ := hturned.keeps
  refine ⟨_, exec_ctxStateNotice hh hc 4, by rw [hsent.ctx, hst], by rw [hsent.ctx, hkgen], ?_, ?_, fun i e he => ?_, hpool.trans hpool'⟩
  · exact sendCtxAck_queued hturned hhome (by simp [State.ctxPartDone, State.ownPartDone, hst]) hw hroom hq hq'
  · rw [hsec]
    exact congrArg (· + 256) (setCtx_thawCount (s.told h c 4 k b) c .thawing)
  · rw [State.cacheOf, hxl] at he
    exact cacheOf_thaw he
theorem notice_free (hh : h ≠ s.poolNode) (hc : c ≠ 0) : ∃ t, exec (.ctxStateNotice h c 0 k b) s = .next t ∧ (t.ctx c).st = .free ∧
    (t.ctx c).kgen = k ∧ (t.ctx c).freeAt = some s.clk ∧ t.pool = s.pool := by
  have hturned : Turned s (s.ctxNotice instAbort h c 0 k b) := (told_turned s h c 0 k b).trans (setCtx_turned _ _ _)
  obtain ⟨hst, hkgen, _⟩ := setCtx_told (s := s) (h := h) (c := c) (k := k) (b := b) .free 0 (u := s.told h c 0 k b) rfl
  rw [← ctxNotice_free] at hst hkgen
  have hfree : ((s.ctxNotice instAbort h c 0 k b).ctx c).freeAt = some s.clk := by
    obtain ⟨hclk, _⟩ := (told_turned s h c 0 k b).keeps
    simp [ctxNotice_free, hclk]
  have hsent := sendCtxAck_sent (s.ctxNotice instAbort h c 0 k b) c
  obtain ⟨_, _, _, hpool, _⟩ := hsent.keeps
  obtain ⟨_, hpool', _⟩ := hturned.keeps
  exact ⟨_, exec_ctxStateNotice hh hc 0, by rw [hsent.ctx, hst], by rw [hsent.ctx, hkgen], by rw [hsent.ctx, hfree], hpool.trans hpool'⟩
theorem notice_stopping (hh : h ≠ s.poolNode) (hc : c ≠ 0) : ∃ t, exec (.ctxStateNotice h c 2 k b) s = .next t ∧ (t.ctx c).st = .stopping ∧
    (t.ctx c).kgen = k ∧ t.pool.mem = s.pool.mem ∧ ∀ j, (tget {} t.sec.bkeys j).used = true → (tget {} t.sec.bkeys j).ctx ≠ c := by
  obtain ⟨hst, hkgen, _⟩ := setCtx_told (s := s) (h := h) (c := c) (k := k) (b := b) .stopping 2 (u := (s.told h c 2 k b).setMg (.ctx c) (some 0)) rfl
  have hs := (stopPart_stops s (((s.told h c 2 k b).setMg (.ctx c) (some 0)).setCtx c .stopping) c).of_moved (.of_sent (sendCtxAck_sent _ c))
  rw [State.ctx, ← hs.ctxs] at hst hkgen
  refine ⟨_, (exec_ctxStateNotice hh hc 2).trans (by rw [ctxNotice_stopping]), hst, hkgen, hs.mem.trans ?_, hs.erased⟩
  simp [State.told]
end

-- Acknowledgements (R335)
/-- A change as its next state begins: this package and the scope have to acknowledge it. -/
def State.nextChange (s : State) (y : CtxChange) (st : CtxState) : CtxChange := { y with to_ := st, waiting := s.poolNode :: s.ctxScope }
theorem Turned.nextChange {s t : State} (h : Turned s t) : t.nextChange = s.nextChange := by
  funext y st
  rw [State.nextChange, State.nextChange, h.routed.node, h.ctxScope]
theorem ctxStep_revoking (s : State) (ch : CtxChange) : s.ctxStep ch .revoking =
    (((s.setCtx ch.c .revoking).modChange ch.c (fun z => s.nextChange z .revoking)).enterRevoking ch.c).sendCtx ch.c false := rfl
theorem ctxStep_thawing (s : State) (ch : CtxChange) : s.ctxStep ch .thawing =
    (((s.setCtx ch.c .thawing).modChange ch.c (fun z => s.nextChange z .thawing)).thaw ch.c).sendCtx ch.c false := rfl
/-- A context in its next state at its home, once every package has acknowledged the last one. -/
def State.ctxStepped (s : State) (c : Nat) (st : CtxState) : State :=
  ((s.modChange c (fun z => { z with waiting := [] })).setCtx c st).modChange c (fun z => s.nextChange z st)
theorem ctxStepped_turned (s : State) (c : Nat) (st : CtxState) : Turned s (s.ctxStepped c st) :=
  ((modChange_turned _ _ _).trans (setCtx_turned _ _ _)).trans (modChange_turned _ _ _)
theorem ctxStepped_ctx (s : State) (c : Nat) (st : CtxState) : ((s.ctxStepped c st).ctx c).st = st := by
  have hctx : (s.ctxStepped c st).ctx c = ((s.modChange c (fun z => { z with waiting := [] })).setCtx c st).ctx c := rfl
  simp [hctx]
section
variable {s : State} {f c : Nat} {y : CtxChange}
theorem exec_ctxStateAck (hf : f ≠ s.poolNode) : exec (.ctxStateAck f c) s = .next (s.ctxAck f c) := if_neg (by simp [hf])
variable (hf : f ≠ s.poolNode) (hch : s.sec.changes = [y]) (hc : y.c = c)
include hch hc
theorem modChange_only (g : CtxChange → CtxChange) : (s.modChange c g).sec.changes = [g y] := by
  simp [State.modChange, State.modSec, hch, hc]
include hf
/-- The acknowledgement of another package that is not the last. -/
theorem ctxAck_more {g : Nat} (hw : y.waiting = [f, g]) (hg : g ≠ f) : s.ctxAck f c = s.modChange c (fun z => { z with waiting := [g] }) := by
  simp [State.ctxAck, hch, hc, hw, hf, hg]
/-- The last acknowledgement takes the change on. -/
theorem ctxAck_last (hw : y.waiting = [f]) : s.ctxAck f c = (s.modChange c (fun z => { z with waiting := [] })).ctxAdvance { y with waiting := [] } := by
  simp [State.ctxAck, hch, hc, hw, hf]
theorem ctxAck_thawing (hw : y.waiting = [f]) (hto : y.to_ = .revoking) : s.ctxAck f c = ((s.ctxStepped c .thawing).thaw c).sendCtx c false := by
  rw [ctxAck_last hf hch hc hw, ctxAdvance_revoking (ch := { y with waiting := [] }) hto, ctxStep_thawing, (modChange_turned s c _).nextChange, State.ctxStepped]
  simp only [hc]
theorem ctxAck_revoking (hw : y.waiting = [f]) (hto : y.to_ = .stopping) : s.ctxAck f c = ((s.ctxStepped c .revoking).enterRevoking c).sendCtx c false := by
  rw [ctxAck_last hf hch hc hw, ctxAdvance_stopping (ch := { y with waiting := [] }) hto, ctxStep_revoking, (modChange_turned s c _).nextChange, State.ctxStepped]
  simp only [hc]
omit hf in
theorem ctxStepped_changes (st : CtxState) : (s.ctxStepped c st).sec.changes = [s.nextChange y st] := by
  have h1 := modChange_only (s := s) hch hc (fun z => { z with waiting := [] })
  rw [State.ctxStepped, modChange_only (y := { y with waiting := [] }) (by rw [setCtx_changes, h1]) hc]
  rfl
theorem ack_thawing (hw : y.waiting = [f]) (hto : y.to_ = .revoking) : ∃ t, exec (.ctxStateAck f c) s = .next t ∧ (t.ctx c).st = .thawing ∧
    t.sec.changes = [s.nextChange y .thawing] ∧ (∀ (i : Nat) (e : TEntry), e ∈ t.cacheOf i → e.ctx ≠ c) ∧ t.pool = s.pool := by
  have hst := ctxStepped_ctx s c .thawing
  have hchanges := ctxStepped_changes hch hc .thawing
  obtain ⟨_, hpool, _⟩ := (ctxStepped_turned s c .thawing).keeps
  have hack := ctxAck_thawing hf hch hc hw hto
  generalize s.ctxStepped c .thawing = u at *
  have hsent := sendCtx_sent (u.thaw c) c false
  obtain ⟨_, _, hxl, hpool', _, hsec, _⟩ := hsent.keeps
  refine ⟨_, (exec_ctxStateAck hf).trans (congrArg _ hack), by rw [hsent.ctx]; exact hst, by rw [hsec]; exact hchanges, fun i e he => ?_, hpool'.trans hpool⟩
  rw [State.cacheOf, hxl] at he
  exact cacheOf_thaw he
theorem ack_revoking (hw : y.waiting = [f]) (hto : y.to_ = .stopping) : ∃ t, exec (.ctxStateAck f c) s = .next t ∧ (t.ctx c).st = .revoking ∧
    t.sec.changes = [s.nextChange y .revoking] := by
  have hsides := (enterRevoking_sides (s.ctxStepped c .revoking) c).trans (sendCtx_sides _ c false)
  have hctx := ctx_of_sides hsides c
  obtain ⟨_, _, hchs⟩ := hsides
  exact ⟨_, (exec_ctxStateAck hf).trans (congrArg _ (ctxAck_revoking hf hch hc hw hto)), by rw [hctx, ctxStepped_ctx],
    by rw [hchs, ctxStepped_changes hch hc]⟩
theorem ack_free (hw : y.waiting = [f]) (hto : y.to_ = .thawing) : ∃ t, exec (.ctxStateAck f c) s = .next t ∧ (t.ctx c).st = .free ∧ t.sec.changes = [] ∧
    (y.nfa ≠ 0 → c ≠ 0 → Issues s t (storeTxn 0 y.nfa y.nval 8 0) (.notify 1 c)) ∧ t.pool = s.pool := by
  subst hc
  have hu := modChange_turned s y.c (fun z => { z with waiting := [] })
  have hsent := sendCtx_sent ((s.modChange y.c (fun z => { z with waiting := [] })).setCtx y.c .free) y.c false
  obtain ⟨hclk, _, _, hpool, _, hsec, _⟩ := hsent.keeps
  have hturned := hu.trans (setCtx_turned _ y.c .free)
  obtain ⟨hclk', hpool', _⟩ := hturned.keeps
  have h1 := modChange_only (s := s) hch rfl (fun z => { z with waiting := [] })
  refine ⟨_, (exec_ctxStateAck hf).trans (congrArg _ ((ctxAck_last hf hch rfl hw).trans (ctxAdvance_thawing hto))), ?_, ?_, fun hn hc => ?_, ?_⟩
  · simp [endChange_ctx, hsent.ctx]
  · simp [endChange_changes, hsec, h1]
  · refine endChange_issues (u := s) (ch := { y with waiting := [] }) (hclk.trans hclk') ((Moved.of_sent hsent).poolNode.trans hturned.routed.node) ?_ hn
    rw [hsent.ctx, ctx_setCtx, if_neg hc.symm]
    rfl
  · exact (endChange_pool _).trans (hpool.trans hpool')
end

/-- Settles O57: each state of a context is one step of its home, which the notice repeats at every package; what a step touches before its messages go out
is `Turned`, what a stop leaves is `StopsHere`, and a change ends in its completion store. -/
theorem contextsChange : Obligations.ContextsChange := by
  unfold Obligations.ContextsChange
  refine ⟨fun s v c n x k b hw he => ⟨fun hc hst hk hword hfa hidle hfresh hwaited => ?_, fun hc => ctxActivate_aborts hw he (.inl hc), fun hst => ctxActivate_aborts hw he (.inr hst)⟩,
    fun s v c n x hw he => ⟨fun hc hst hhome hword hfa => ?_, ctxStop_aborts hw he⟩,
    fun s h c k q b hh hc => ⟨fun hw hroom hq hq' => ⟨notice_active hh hc hw hroom hq hq', notice_thawing hh hc hw hroom hq hq'⟩, notice_free hh hc, notice_stopping hh hc⟩,
    fun s f c y hf hch hc => ⟨fun g hw hg => ?_, ack_thawing hf hch hc, ack_revoking hf hch hc, ack_free hf hch hc⟩⟩
  · subst hk
    obtain ⟨w, hacc, hst', hkgen, hmask, hhome, hother, hpool, hwaits, hends, hdone⟩ := ctxActivate_accepts (x := x) hw he ⟨hc, hst, hword, hfa, hidle, hfresh, hwaited⟩
    exact ⟨w, hacc, hst', hkgen, hmask, hhome, hother, hpool, hwaits, fun h0 => ⟨hends h0, hdone h0⟩⟩
  · obtain ⟨w, hacc, hst', hhome', herased, hwaits, hwithdraws, hmem⟩ := ctxStop_accepts hw he hc hst hhome hword hfa
    exact ⟨w, hacc, hst', hhome', herased, hwaits, hwithdraws, hmem⟩
  · rw [exec_ctxStateAck hf, ctxAck_more hf hch hc hw hg, State.modChange, State.modSec]
    simp [hch, hc]

end Sys2Proof.Machine
end

section
/-! Flits of a port in service (R369 to R379), with the tags and key updates of a port that is ON (R348). -/

namespace Sys2Proof.Machine
open Sys2Proof

-- Ports and outputs under each other's updates
theorem modPort_congr {s : State} {p : Nat} {f g : Port → Port} (h : f (s.port p) = g (s.port p)) : s.modPort p f = s.modPort p g := by
  have hports : tmod {} s.ports p f = tmod {} s.ports p g := tmod_congr _ _ _ _ _ h
  rw [State.modPort, hports]
  rfl
theorem emit_modPort (s : State) (o : Output) (p : Nat) (f : Port → Port) : (s.emit o).modPort p f = (s.modPort p f).emit o := rfl
theorem foldl_emit {α : Type} (g : α → Output) (l : List α) (s : State) : l.foldl (fun t x => t.emit (g x)) s = { s with out := s.out ++ l.map g } := by
  induction l generalizing s with
  | nil => simp
  | cons x r ih =>
    rw [List.foldl_cons, ih]
    simp [State.emit]
theorem stepCheck_idle {s : State} (h : s.dev.stepGroup = none) : s.stepCheck = s := by simp [State.stepCheck, stepOn, h]

-- Link-control bytes (R370, R371, R373)
/-- What a replay does where anything awaits its acknowledgement (R378). -/
theorem replay_sends {s : State} {p : Nat} (h : (s.port p).retry ≠ []) : s.replay p =
    { s.modPort p (fun y => { y with replays := y.replays + 1, flitsReplayed := y.flitsReplayed + y.retry.length, ackAt := s.clk }) with
      out := s.out ++ (s.port p).retry.map (fun f => .flit p f.seq ((s.port p).codewords % max 1 (popc 4 (s.port p).lanesIn)) f.lcb f.body) } := by
  rw [State.replay, if_neg (by simpa using h), foldl_emit]
  rfl
@[simp] theorem replay_dev (s : State) (p : Nat) : (s.replay p).dev = s.dev := by
  by_cases h : (s.port p).retry = []
  · simp [State.replay, h]
  · rw [replay_sends h]
    rfl
@[simp] theorem lcbIn_dev (s : State) (p lcb : Nat) : (s.lcbIn p lcb).dev = s.dev := by
  unfold State.lcbIn
  dsimp only
  split
  · split <;> simp
  split
  · rfl
  split <;> simp
theorem lcbCredit_eq {v n : Nat} (hv : v < 10) (hn : n < 512) : lcbCredit 1 v n = 5 + 8 * v + 128 * n := by
  simp only [lcbCredit, pack]
  omega
theorem lcbAck_eq {n : Nat} (hn : n < 2048) : lcbAck 1 n false = 1 + 8 * n := by
  simp only [lcbAck, pack, boolNat, Bool.false_eq_true, if_false]
  omega
theorem lcbIn_credit {s : State} {p v n : Nat} (hv : v < 10) (hn : n < 512) : s.lcbIn p (lcbCredit 1 v n) = s.modPort p (fun x => { x with
    txCredit := tset x.txCredit v (tget 0 x.txCredit v + (n + 512 - tget 0 x.ccIn v % 512) % 512), ccIn := tset x.ccIn v n }) := by
  have hbit : (5 + 8 * v + 128 * n).testBit 2 = true := by simp only [Nat.testBit_eq_decide_div_mod_eq, decide_eq_true_eq]; omega
  have hvc : field (5 + 8 * v + 128 * n) 3 4 = v := by simp only [field]; omega
  have hcc : field (5 + 8 * v + 128 * n) 7 9 = n := by simp only [field]; omega
  rw [lcbCredit_eq hv hn, State.lcbIn, if_pos hbit, hvc, hcc, if_neg (by omega)]
  rfl
theorem lcbIn_ack {s : State} {p n : Nat} {r : RetryFlit} {l : List RetryFlit} (hn : n < 2048) (hr : (s.port p).retry = r :: l) (hseq : r.seq = n) :
    s.lcbIn p (lcbAck 1 n false) = s.modPort p (fun x => { x with retry := l, ackAt := s.clk }) := by
  have h2 : (1 + 8 * n).testBit 2 = false := by simp only [Nat.testBit_eq_decide_div_mod_eq, decide_eq_false_iff_not]; omega
  have h15 : (1 + 8 * n).testBit 15 = false := by simp only [Nat.testBit_eq_decide_div_mod_eq, decide_eq_false_iff_not]; omega
  have h14 : (1 + 8 * n).testBit 14 = false := by simp only [Nat.testBit_eq_decide_div_mod_eq, decide_eq_false_iff_not]; omega
  have hf : field (1 + 8 * n) 3 11 = n := by simp only [field]; omega
  have hdrop : ackDrop n (r :: l) = l := by simp [ackDrop, hseq]
  rw [lcbAck_eq hn, State.lcbIn, if_neg (by simp [h2]), if_neg (by simp [h15]), hf, hr, hdrop, if_neg (by simp [h14])]
  exact modPort_congr (by simp [hr])

-- A flit in sequence (R369, R375)
/-- A flit in sequence has counted, with its link-control bytes. -/
def State.inSequence (s : State) (p : Nat) (f : Flit) : State :=
  (s.modPort p (fun y => { y with rxSeq := (y.rxSeq + 1) % 2048, nak := false })).lcbIn p f.lcb
/-- A DATA flit has counted besides. -/
def State.dataCounted (s : State) (p : Nat) : State := s.modPort p (fun x => { x with flitsRx := x.flitsRx + 1, rxFlits := x.rxFlits + 1 })
section
variable {s : State} {p : Nat} {f : Flit} (hst : (s.port p).st = .inService)
include hst
theorem sequenced_passes (hpass : flitPasses f (s.port p).rxSeq = true) (k : State → State) : s.sequenced p f k = k (s.inSequence p f) := by
  simp [State.sequenced, hst, hpass, State.inSequence]
theorem exec_data_on (hpass : flitPasses f (s.port p).rxSeq = true) (hon : ((s.inSequence p f).port p).cryptState = 2) : exec (.data p f) s =
    .next ((s.inSequence p f).modPort p (fun x => { x with flitsRx := x.flitsRx + 1, rxFlits := x.rxFlits + 1, group := x.group ++ [(f.lcb, f.body)] })) := by
  refine congrArg Host.Outcome.next ((sequenced_passes hst hpass _).trans ((if_pos (by simp [hon])).trans ?_))
  rw [modPort_modPort]
theorem exec_data_off (hpass : flitPasses f (s.port p).rxSeq = true) (hoff : ((s.inSequence p f).port p).cryptState ≠ 2) : exec (.data p f) s =
    .next ((((s.inSequence p f).dataCounted p).sendAck p false).takeFlit p f.body).stepCheck :=
  congrArg Host.Outcome.next ((sequenced_passes hst hpass _).trans (if_neg (by simp [hoff])))
/-- A flit that passes under no sequence number asks for a replay (R377). -/
theorem exec_data_bad (hbad : flitPasses f (s.port p).rxSeq = false) (hno : passesUnder f 2047 ((s.port p).rxSeq + 1) = none) (hnak : (s.port p).nak = false) :
    exec (.data p f) s = .next ((s.modPort p (fun x => { x with nak := true, nakAt := s.clk, naksSent := x.naksSent + 1 })).emit
      (.lcb p (lcbAck 1 (((s.port p).rxSeq + 2047) % 2048) true))) := by
  refine congrArg Host.Outcome.next ?_
  simp [State.sequenced, hst, hbad, hno, State.nakNow, hnak, State.sendAck]
end
/-- A DATA flit of a port that is OFF, acknowledged, with the slots `l` of an unfinished transaction kept. -/
def State.slotsKept (u : State) (p : Nat) (l : List Nat) : State :=
  (u.modPort p (fun x => { x with flitsRx := x.flitsRx + 1, rxFlits := x.rxFlits + 1, rxSlots := l })).emit (.lcb p (lcbAck 1 (u.port p).ackSeq false))
/-- The transactions that a flit completes are delivered one after another. -/
theorem takeFlit_delivers {u : State} {p : Nat} {body : Bytes} {r : Parsed} (hr : takeSlots (slotsOf body) { open_ := (u.port p).rxSlots } = r) (hf : r.framing = false) :
    ((u.dataCounted p).sendAck p false).takeFlit p body = r.txns.foldl (State.deliver p) (u.slotsKept p r.open_) := by
  have hport : (((u.dataCounted p).sendAck p false).port p).rxSlots = (u.port p).rxSlots := by simp [State.sendAck, State.dataCounted]
  have hseq : ((u.dataCounted p).port p).ackSeq = (u.port p).ackSeq := by simp [State.dataCounted, Port.ackSeq]
  have hkept : ((u.dataCounted p).sendAck p false).modPort p (fun x => { x with rxSlots := r.open_ }) = u.slotsKept p r.open_ := by
    rw [State.sendAck, if_neg (by simp), hseq, emit_modPort, State.dataCounted, modPort_modPort]
    rfl
  rw [State.takeFlit, hport, hr]
  simp only [hf, hkept]
  rfl
theorem deliver_rd {s : State} {p : Nat} {x : Txn} (h : x.ty = .rd) : exec (.rd p x) s = .next (State.deliver p s x) := by
  rw [State.deliver, h]
  rfl

-- A TAG flit in sequence (R348, R375, R377)
section
variable {s : State} {p : Nat} {f : Flit} (hst : (s.port p).st = .inService) (hpass : flitPasses f (s.port p).rxSeq = true)
include hst hpass
theorem exec_tag_off (hoff : ((s.inSequence p f).port p).cryptState ≠ 2) :
    exec (.tag p f) s = .next ((s.inSequence p f).emit (.lcb p (lcbAck 1 ((s.inSequence p f).port p).ackSeq false))) :=
  congrArg Host.Outcome.next ((sequenced_passes hst hpass _).trans (if_neg (by simp [hoff])))
theorem exec_tag_on (hon : ((s.inSequence p f).port p).cryptState = 2) : exec (.tag p f) s = .next ((s.inSequence p f).tagServe p f) :=
  congrArg Host.Outcome.next ((sequenced_passes hst hpass _).trans (if_pos (by simp [hon])))
end
/-- A TAG flit that names the group of a port: its length is the group's, and nothing else is in it. -/
structure NamesGroup (x : Port) (f : Flit) : Prop where
  some : 0 < x.group.length
  most : x.group.length ≤ 16
  length : leAt f.body 16 1 = x.group.length
  rsvd : leAt f.body 17 39 = 0
section
variable {u : State} {p : Nat} {f : Flit} {x : Port} (hx : x = u.port p) (hold : x.oldRx = none) (hg : NamesGroup x f)
include hx hold hg
theorem tagServe_verifies (htag : leAt f.body 0 16 = (Config.gcmTag x.rxKey.key (x.rxKey.groupIv x.rxGroupNo) x.group).toNat) :
    u.tagServe p f = (takeGroup p x.rxKey (x.rxKey.groupIv x.rxGroupNo) 0 x.group
      ((u.modPort p (fun y => { y with group := [], rxGroupNo := y.rxGroupNo + 1 })).sendAck p false)).stepCheck := by
  obtain ⟨hsome, hmost, hlength, hrsvd⟩ := hg
  subst hx
  have hne : (u.port p).group ≠ [] := List.ne_nil_of_length_pos hsome
  simp [State.tagServe, hold, hne, hmost, hlength, hrsvd, htag]
theorem tagServe_fails (htag : leAt f.body 0 16 ≠ (Config.gcmTag x.rxKey.key (x.rxKey.groupIv x.rxGroupNo) x.group).toNat) :
    u.tagServe p f = u.tagBad p x.group.length := by
  subst hx
  simp [State.tagServe, hold, htag]
end
/-- The first tag that fails: its group is thrown away and asked for again (R377). -/
theorem tagBad_first {u : State} {p n : Nat} (h : (u.port p).tagFailAt = []) : u.tagBad p n =
    (u.modPort p (fun y => { y with tagFails := y.tagFails + 1, tagFailAt := [u.clk], group := [], rxSeq := (y.rxSeq + 4095 - n) % 2048,
                                    nak := true, nakAt := u.clk, naksSent := y.naksSent + 1 })).emit
      (.lcb p (lcbAck 1 ((((u.port p).rxSeq + 4095 - n) % 2048 + 2047) % 2048) true)) := by
  simp [State.tagBad, h, State.nakNow, State.sendAck]

-- What comes at its time (R348, R370, R377 to R379)
section
variable {s : State} {p : Nat}
theorem exec_keyUpdate (hon : (s.port p).cryptState = 2) (hlong : 2 ^ 40 ≤ (s.port p).txFlits) (hleads : s.leads p = false) :
    exec (.keyUpdate p) s = .next (s.modPort p (fun y => { y with
      secret := Config.updatedSecret y.secret, txKey := linkKey (Config.updatedSecret y.secret) false, rxKey := linkKey (Config.updatedSecret y.secret) true,
      oldRx := some y.rxKey, rxFlits := 0, txFlits := 0 })) := by
  have hdue : ¬ (((s.port p).cryptState != 2 || (decide ((s.port p).rxFlits < 2 ^ 40) && decide ((s.port p).txFlits < 2 ^ 40))) = true) := by
    simp only [Bool.or_eq_true, Bool.and_eq_true, decide_eq_true_eq, not_or, not_and, Nat.not_lt]
    exact ⟨by simp [hon], fun _ => hlong⟩
  refine (if_neg hdue).trans (congrArg Host.Outcome.next ?_)
  simp [hleads, State.nextKeys]
variable (hst : (s.port p).st = .inService)
include hst
theorem exec_nakRepeat (hnak : (s.port p).nak = true) (hlate : (s.port p).nakAt + 200 ≤ s.clk) : exec (.nakRepeat p) s =
    .next ((s.modPort p (fun y => { y with nakAt := s.clk, naksSent := y.naksSent + 1 })).emit (.lcb p (lcbAck 1 (((s.port p).rxSeq + 2047) % 2048) true))) := by
  refine congrArg Host.Outcome.next ((if_pos (by simp [hst, hnak, hlate])).trans ?_)
  simp [State.sendAck]
theorem exec_replayTimeout (hretry : (s.port p).retry ≠ []) (hlate : (s.port p).ackAt + 1000 ≤ s.clk) : exec (.replayTimeout p) s = .next (s.replay p) :=
  congrArg Host.Outcome.next (if_pos (by simp [hst, hretry, hlate]))
theorem exec_ackTimeout {r : RetryFlit} {l : List RetryFlit} (hretry : (s.port p).retry = r :: l) (hlate : r.sentAt + 4000 ≤ s.clk) :
    exec (.ackTimeout p) s = .next (s.portDown p 3 true .detect) := congrArg Host.Outcome.next (if_pos (by simp [hst, hretry, hlate]))
theorem exec_creditRefresh {c : Nat} (hc : c < 10) :
    exec (.creditRefresh p c) s = .next (s.emit (.lcb p (lcbCredit 1 c (tget 0 (s.port p).ccOut c % 512)))) :=
  congrArg Host.Outcome.next (if_pos (by simp [hst, hc]))
theorem exec_idle {f : Flit} (hpass : flitPasses f 0xFFFF = true) : exec (.idle p f) s = .next (s.lcbIn p f.lcb) :=
  congrArg Host.Outcome.next (if_pos (by simp [hst, hpass]))
end

/-- Settles O35: a flit that passes counts by `inSequence` whatever its kind; the rest is what its kind and the port's keys ask for. -/
theorem flitsInSequence : Obligations.FlitsInSequence := by
  unfold Obligations.FlitsInSequence
  refine ⟨fun s p f hst hpass => ⟨s.inSequence p f, rfl, exec_data_on hst hpass, fun r hoff hr hf => ⟨fun hnone hstep => ?_, fun x hone hty => ?_⟩⟩,
    fun s p f hst hbad hno hnak => exec_data_bad hst hbad hno hnak,
    fun s p v n f hst hpass => ⟨fun hlcb hv hn => ?_, fun r l hlcb hn hretry hseq => ?_⟩,
    fun s p f hst hpass => ⟨s.inSequence p f, (s.inSequence p f).port p, rfl, rfl, fun hon hold hsome hmost hlength hrsvd => ⟨fun htag => ⟨_, rfl, ?_⟩, fun htag hfirst => ?_⟩, exec_tag_off hst hpass⟩,
    fun s p => exec_nakRepeat, fun s p hst hretry hlate => ?_,
    fun s p r l hst hretry hlate => ⟨_, exec_ackTimeout hst hretry hlate, portDown_goesDown _ _ _ _⟩,
    fun s p c hst => exec_creditRefresh hst, fun s p => exec_keyUpdate⟩
  · have hidle : ((s.inSequence p f).slotsKept p r.open_).dev.stepGroup = none := by simpa [State.slotsKept, State.inSequence]
    rw [exec_data_off hst hpass hoff, takeFlit_delivers hr hf, hnone, List.foldl_nil, stepCheck_idle hidle]
    rfl
  · refine ⟨_, deliver_rd hty, ?_⟩
    rw [exec_data_off hst hpass hoff, takeFlit_delivers hr hf, hone]
    rfl
  · rw [exec_idle hst hpass, hlcb, lcbIn_credit hv hn]
  · rw [exec_idle hst hpass, hlcb, lcbIn_ack hn hretry hseq]
  · rw [exec_tag_on hst hpass hon, tagServe_verifies rfl hold ⟨hsome, hmost, hlength, hrsvd⟩ htag]
    rfl
  · rw [exec_tag_on hst hpass hon, tagServe_fails rfl hold ⟨hsome, hmost, hlength, hrsvd⟩ htag, tagBad_first hfirst]
  · rw [exec_replayTimeout hst hretry hlate, replay_sends hretry]

end Sys2Proof.Machine
end

section
/-! Lanes and the states of a port (R380, R397, R404, R405): how a lane reads after its port's lanes have changed, what a change of state is but for the management
side, and what the end of a test leaves. -/

namespace Sys2Proof.Machine
open Sys2Proof

-- Updates of lanes
/-- `t` differs from `s` only in its lanes and on the management side. -/
def LanesOnly (s t : State) : Prop := ∃ l v e o, t = { s with lanes := l, vane := v, evt := e, out := o }
namespace LanesOnly
variable {s t u : State}
theorem refl (s : State) : LanesOnly s s := ⟨s.lanes, s.vane, s.evt, s.out, rfl⟩
theorem trans (h : LanesOnly s t) (g : LanesOnly t u) : LanesOnly s u := by
  obtain ⟨_, _, _, _, rfl⟩ := h
  obtain ⟨l, v, e, o, rfl⟩ := g
  exact ⟨l, v, e, o, rfl⟩
theorem of_mgmt (h : Mgmt s t) : LanesOnly s t := by
  obtain ⟨v, e, o, rfl⟩ := h
  exact ⟨s.lanes, v, e, o, rfl⟩
theorem foldl {α : Type} {f : State → α → State} (h : ∀ s x, LanesOnly s (f s x)) (l : List α) (s : State) : LanesOnly s (l.foldl f s) := by
  induction l generalizing s with
  | nil => exact .refl s
  | cons x r ih => exact (h s x).trans (ih _)
theorem keeps (h : LanesOnly s t) : t.clk = s.clk ∧ t.dev = s.dev ∧ t.link = s.link ∧ t.rt = s.rt ∧ t.ports = s.ports ∧ t.pool = s.pool := by
  obtain ⟨_, _, _, _, rfl⟩ := h
  exact ⟨rfl, rfl, rfl, rfl, rfl, rfl⟩
theorem port (h : LanesOnly s t) (p : Nat) : t.port p = s.port p := by
  obtain ⟨_, _, _, _, rfl⟩ := h
  rfl
theorem pool (h : LanesOnly s t) : t.pool = s.pool := by
  obtain ⟨_, _, _, _, rfl⟩ := h
  rfl
end LanesOnly
theorem modLane_lanesOnly (s : State) (l : Nat) (f : Lane → Lane) : LanesOnly s (s.modLane l f) := ⟨_, s.vane, s.evt, s.out, rfl⟩
theorem modLanes_lanesOnly (s : State) (p : Nat) (f : Nat → Lane → Lane) : LanesOnly s (s.modLanes p f) := .foldl (fun _ _ => modLane_lanesOnly _ _ _) _ _
@[simp] theorem modLanes_keeps (s : State) (p : Nat) (f : Nat → Lane → Lane) :
    (s.modLanes p f).clk = s.clk ∧ (s.modLanes p f).dev = s.dev ∧ (s.modLanes p f).link = s.link ∧ (s.modLanes p f).rt = s.rt ∧ (s.modLanes p f).ports = s.ports ∧
    (s.modLanes p f).pool = s.pool := (modLanes_lanesOnly s p f).keeps
@[simp] theorem modLanes_port (s : State) (p : Nat) (f : Nat → Lane → Lane) (q : Nat) : (s.modLanes p f).port q = s.port q := (modLanes_lanesOnly s p f).port q
@[simp] theorem modLanes_out (s : State) (p : Nat) (f : Nat → Lane → Lane) : (s.modLanes p f).out = s.out := rfl
/-- Each lane of the port is changed by its place in it, and no other lane. -/
@[simp] theorem lane_modLanes (s : State) (p : Nat) (f : Nat → Lane → Lane) (l : Nat) :
    (s.modLanes p f).lane l = if l / 4 = p then f (l % 4) (s.lane l) else s.lane l := by
  simp only [State.modLanes, List.range_succ, List.range_zero, List.nil_append, List.cons_append, List.foldl_cons, List.foldl_nil, lane_modLane]
  by_cases h : l / 4 = p
  · obtain hr | hr | hr | hr : l = 4 * p + 0 ∨ l = 4 * p + 1 ∨ l = 4 * p + 2 ∨ l = 4 * p + 3 := by omega
    all_goals subst hr; simp [Nat.mul_add_div]
  · rw [if_neg h, if_neg (by omega), if_neg (by omega), if_neg (by omega), if_neg (by omega)]
theorem lane_modLanes_at (s : State) (p : Nat) (f : Nat → Lane → Lane) {i : Nat} (hi : i < 4) :
    (s.modLanes p f).lane (4 * p + i) = f i (s.lane (4 * p + i)) := by
  rw [lane_modLanes, if_pos (by omega), Nat.mul_add_mod, Nat.mod_eq_of_lt hi]
theorem mem_bitsOf_four {n i : Nat} : i ∈ bitsOf 4 n ↔ i < 4 ∧ n.testBit i = true := by simp [bitsOf]

-- Changes of a port's state
theorem port_modPort_same (s : State) (p : Nat) (f : Port → Port) : (s.modPort p f).port p = f (s.port p) := by simp
theorem Mgmt.modPort {s t : State} (h : Mgmt s t) (p : Nat) (f : Port → Port) : Mgmt (s.modPort p f) (t.modPort p f) := by
  obtain ⟨v, e, o, rfl⟩ := h
  exact ⟨v, e, o, rfl⟩
theorem Mgmt.modLane {s t : State} (h : Mgmt s t) (l : Nat) (f : Lane → Lane) : Mgmt (s.modLane l f) (t.modLane l f) := by
  obtain ⟨v, e, o, rfl⟩ := h
  exact ⟨v, e, o, rfl⟩
theorem Mgmt.modLanes {s t : State} (h : Mgmt s t) (p : Nat) (f : Nat → Lane → Lane) : Mgmt (s.modLanes p f) (t.modLanes p f) := by
  unfold State.modLanes
  generalize List.range 4 = l
  induction l generalizing s t with
  | nil => exact h
  | cons i r ih => exact ih (h.modLane _ _)
theorem Mgmt.port {s t : State} (h : Mgmt s t) (p : Nat) : t.port p = s.port p := by
  obtain ⟨v, e, o, rfl⟩ := h
  rfl
theorem Mgmt.pool {s t : State} (h : Mgmt s t) : t.pool = s.pool := by
  obtain ⟨v, e, o, rfl⟩ := h
  rfl
theorem Mgmt.lane {s t : State} (h : Mgmt s t) (l : Nat) : t.lane l = s.lane l := by
  obtain ⟨v, e, o, rfl⟩ := h
  rfl
theorem toPort_mgmt (s : State) (p : Nat) (st : PortState) (self : Bool) (f : Port → Port) :
    Mgmt (s.modPort p (fun x => { f x with st := st, stSince := s.clk })) (s.toPort p st self f) := noteChange_mgmt _ _ _ _ _
/-- A port in DETECT anew at a device time, after `n` attempts. -/
def Port.anew (x : Port) (now n : Nat) : Port := { x.linkReset with st := .detect, stSince := now, attempts := n }
/-- A return to DETECT, but for the management side, while attempts are left (R380). -/
theorem toDetect_mgmt {s : State} {p n : Nat} (self : Bool) (h : n < s.link.trainTries) :
    Mgmt ((s.modPort p (fun x => x.anew s.clk n)).lanesOff p) (s.toDetect p n self) := by
  rw [State.toDetect, if_neg (by omega), State.lanesOff, State.lanesOff]
  exact (toPort_mgmt s p .detect self (fun x => { x.linkReset with attempts := n })).modLanes p _

-- Tests and their records (R400, R403, R404)
/-- The record of a lane's test that ended in a slot with a result and its counts. -/
def Lane.tested (l : Lane) (slot res : Nat) (c : Nat × Nat) : Lane :=
  { l with bertBits := c.1, bertErrs := c.2, bertSlot := slot, bertRes := res, bertPass := if res == 1 then some slot else l.bertPass }
theorem recordTest_mgmt (s : State) (p i res : Nat) (c : Nat × Nat) :
    Mgmt (s.modLane (4 * p + i) (fun l => l.tested s.slot res c)) (s.recordTest p i res c) := by
  dsimp only [State.recordTest]
  split
  · exact event_mgmt _ _ _ _ _ _ _
  · exact .refl _
theorem recordTest_lanesOnly (s : State) (p i res : Nat) (c : Nat × Nat) : LanesOnly s (s.recordTest p i res c) :=
  (modLane_lanesOnly _ _ _).trans (.of_mgmt (recordTest_mgmt _ _ _ _ _))
theorem recordTest_bertRes (s : State) (p i res : Nat) (c : Nat × Nat) (l : Nat) :
    ((s.recordTest p i res c).lane l).bertRes = if l = 4 * p + i then res else (s.lane l).bertRes := by
  rw [(recordTest_mgmt _ _ _ _ _).lane, lane_modLane]
  split <;> rfl
theorem recordTests_bertRes {p res : Nat} {g : Nat → Nat × Nat} (l : List Nat) (s : State) {j : Nat} (hj : j ∈ l) :
    ((l.foldl (fun u i => u.recordTest p i res (g i)) s).lane (4 * p + j)).bertRes = res := by
  induction l using List.reverseRecOn with
  | nil => cases hj
  | append_singleton r i ih =>
    rw [List.foldl_append, List.foldl_cons, List.foldl_nil, recordTest_bertRes]
    split
    · rfl
    · next hne =>
      rcases List.mem_append.mp hj with hr | hi
      · exact ih hr
      · exact absurd (by rw [List.mem_singleton.mp hi]) hne
theorem abortTest_none {s : State} {p : Nat} (h : (s.port p).test = none) : s.abortTest p = s := by simp [State.abortTest, h]
section
variable {s : State} {p : Nat} {x : Test} (hx : (s.port p).test = some x)
include hx
/-- The abort of a test takes it from its port; the rest is its lanes' records. -/
theorem abortTest_lanesOnly : LanesOnly (s.modPort p (fun y => { y with test := none })) (s.abortTest p) := by
  rw [State.abortTest, hx]
  exact .foldl (fun _ _ => recordTest_lanesOnly _ _ _ _ _) _ _
theorem abortTest_bertRes {i : Nat} (hi : i < 4) (hbit : x.lanes.testBit i = true) : ((s.abortTest p).lane (4 * p + i)).bertRes = 3 := by
  rw [State.abortTest, hx]
  exact recordTests_bertRes _ _ (mem_bitsOf_four.mpr ⟨hi, hbit⟩)
/-- A test that is stopped on a port out of service ends ABORTED, and the port trains anew (R401). -/
theorem stopTest_detects (hst : (s.port p).st ≠ .inService) (htries : 0 < s.link.trainTries) :
    ((s.stopTest p).port p).st = .detect ∧ ((s.stopTest p).port p).test = none ∧
    (∀ i, i < 4 → x.lanes.testBit i = true → ((s.stopTest p).lane (4 * p + i)).bertRes = 3) ∧ (s.stopTest p).pool = s.pool := by
  have habort := abortTest_lanesOnly hx
  obtain ⟨_, _, hlink, _, _, _⟩ := habort.keeps
  have hdetect : Mgmt (((s.abortTest p).modPort p (fun y => y.anew (s.abortTest p).clk 0)).lanesOff p) (s.stopTest p) := by
    have hstop : s.stopTest p = (s.abortTest p).toDetect p 0 true := by simp [State.stopTest, hx, hst]
    rw [hstop]
    exact toDetect_mgmt true (by rw [hlink]; exact htries)
  refine ⟨?_, ?_, fun i hi hbit => ?_, ?_⟩
  · rw [hdetect.port]
    simp [State.lanesOff, Port.anew]
  · rw [hdetect.port]
    simp [State.lanesOff, habort.port, Port.anew, Port.linkReset]
  · rw [hdetect.lane, State.lanesOff, lane_modLanes_at _ _ _ hi]
    exact abortTest_bertRes hx hi hbit
  · rw [hdetect.pool]
    simp [State.lanesOff, habort.pool]
end

end Sys2Proof.Machine
end

section
/-! The step-up of R441 under a port that goes down: its group is moved by the step-up alone, so a device in none goes on without one. -/

namespace Sys2Proof.Machine
open Sys2Proof

@[simp] theorem ite_stepGroup (c : Prop) [Decidable c] (s t : State) : (if c then s else t).dev.stepGroup = if c then s.dev.stepGroup else t.dev.stepGroup :=
  apply_ite (fun u : State => u.dev.stepGroup) c s t
@[simp] theorem foldl_stepGroup {α : Type} {f : State → α → State} (h : ∀ s x, (f s x).dev.stepGroup = s.dev.stepGroup) (l : List α) (s : State) :
    (l.foldl f s).dev.stepGroup = s.dev.stepGroup := by
  induction l generalizing s with
  | nil => rfl
  | cons x r ih => exact (ih _).trans (h s x)
theorem Carried.stepGroup {s t : State} (h : Carried s t) : t.dev.stepGroup = s.dev.stepGroup := by
  obtain ⟨dev, vane, evt, out, tel, ports, sw, xact, win, rfl | ⟨_, p, x, _, rfl⟩, hp, rfl⟩ := h <;> rfl
theorem Moved.stepGroup {s t : State} (h : Moved s t) : t.dev.stepGroup = s.dev.stepGroup := by
  obtain ⟨m, x, r, hc⟩ := h
  exact hc.stepGroup

-- What carriage and engines reach
@[simp] theorem cmdChange_stepGroup (s : State) (u : EUnit) (f : State → State) : (s.cmdChange u f).dev.stepGroup = (f s).dev.stepGroup :=
  (Carried.of_mgmt (cmdChange_mgmt _ _ _)).stepGroup
@[simp] theorem selfChange_stepGroup (s : State) (u : EUnit) (f : State → State) : (s.selfChange u f).dev.stepGroup = (f s).dev.stepGroup :=
  (Carried.of_mgmt (selfChange_mgmt _ _ _)).stepGroup
@[simp] theorem settlePhase_stepGroup (s : State) : s.settlePhase.dev.stepGroup = s.dev.stepGroup := (settlePhase_carried _).stepGroup
@[simp] theorem setAdm_stepGroup (s : State) (a v held out : Nat) : (s.setAdm a v held out).dev.stepGroup = s.dev.stepGroup := (setAdm_carried _ _ _ _ _).stepGroup
@[simp] theorem charge_stepGroup (s : State) (a v n : Nat) : (s.charge a v n).dev.stepGroup = s.dev.stepGroup := (charge_carried _ _ _ _).stepGroup
@[simp] theorem freeCells_stepGroup (s : State) (a v n : Nat) : (s.freeCells a v n).dev.stepGroup = s.dev.stepGroup := (freeCells_carried _ _ _ _).stepGroup
@[simp] theorem addRepin_stepGroup (s : State) (c : RepinCause) (dur : Nat) : (s.addRepin c dur).dev.stepGroup = s.dev.stepGroup := (addRepin_carried _ _ _).stepGroup
@[simp] theorem markFlow_stepGroup (s : State) (t : Txn) (adm : Nat) : (s.markFlow t adm).dev.stepGroup = s.dev.stepGroup := (markFlow_carried _ _ _).stepGroup
@[simp] theorem dropMarks_stepGroup (s : State) (p : Mark → Bool) : (s.dropMarks p).dev.stepGroup = s.dev.stepGroup := (dropMarks_carried _ _).stepGroup
@[simp] theorem enqueue_stepGroup (s : State) (egress vc : Nat) (e : QEntry) : (s.enqueue egress vc e).dev.stepGroup = s.dev.stepGroup := rfl
@[simp] theorem release_stepGroup (s : State) (e : QEntry) : (s.release e).dev.stepGroup = s.dev.stepGroup := (release_carried _ _).stepGroup
@[simp] theorem sendRsp_stepGroup (s : State) (e : QEntry) : (s.sendRsp e).dev.stepGroup = s.dev.stepGroup := (sendRsp_carried _ _).stepGroup
@[simp] theorem failEntry_stepGroup (s : State) (e : QEntry) (st : Nat) (repl : Bool) : (s.failEntry e st repl).dev.stepGroup = s.dev.stepGroup := (failEntry_carried _ _ _ _).stepGroup
@[simp] theorem failContribs_stepGroup (st : Nat) (m : MarkOf) (l : List Contrib) (s : State) : (failContribs st m l s).dev.stepGroup = s.dev.stepGroup :=
  (failContribs_carried _ _ _ _).stepGroup
@[simp] theorem forward_stepGroup (s : State) (e : QEntry) : (s.forward e).dev.stepGroup = s.dev.stepGroup := (forward_carried _ _).stepGroup
@[simp] theorem sendOut_stepGroup (s : State) (t : Txn) : (s.sendOut t).dev.stepGroup = s.dev.stepGroup := (sendOut_carried _ _).stepGroup
@[simp] theorem sendMgt_stepGroup (s : State) (t : Txn) : (s.sendMgt t).dev.stepGroup = s.dev.stepGroup := (sendMgt_moved _ _).stepGroup
@[simp] theorem sendCtl_stepGroup (s : State) (i kind phase st : Nat) : (s.sendCtl i kind phase st).dev.stepGroup = s.dev.stepGroup := (sendCtl_carried _ _ _ _ _).stepGroup
@[simp] theorem issue_stepGroup (s : State) (t : Txn) (who : Purpose) (timeout : Nat) : (s.issue t who timeout).dev.stepGroup = s.dev.stepGroup := (issue_moved _ _ _ _).stepGroup
@[simp] theorem endReq_stepGroup (s : State) (key : Nat) : (s.endReq key).dev.stepGroup = s.dev.stepGroup := rfl
@[simp] theorem setBind_stepGroup (s : State) (c : Nat) (b : Bind) : (s.setBind c b).dev.stepGroup = s.dev.stepGroup := (setBind_moved _ _ _).stepGroup
@[simp] theorem startWd_stepGroup (s : State) (fa : Bool) (ctx base len2m nfa nval : Nat) (cause : WdCause) :
    (s.startWd fa ctx base len2m nfa nval cause).dev.stepGroup = s.dev.stepGroup := (startWd_moved _ _ _ _ _ _ _ _).stepGroup
@[simp] theorem sendCtx_stepGroup (s : State) (c : Nat) (clean : Bool) : (s.sendCtx c clean).dev.stepGroup = s.dev.stepGroup := (Moved.of_sent (sendCtx_sent _ _ _)).stepGroup

-- Contexts: the sweep of what waits for a translation, and the rest of REVOKING (R356)
@[simp] theorem edgeFail_stepGroup (s : State) (e : QEntry) (st : Nat) : (s.edgeFail e st).dev.stepGroup = s.dev.stepGroup := by simp [State.edgeFail]
@[simp] theorem edgeRetry_stepGroup (s : State) (e : QEntry) : (s.edgeRetry e).dev.stepGroup = s.dev.stepGroup := by simp [State.edgeRetry]
@[simp] theorem setHolds_stepGroup (s : State) (tile : Nat) (l : List Held) : (s.setHolds tile l).dev.stepGroup = s.dev.stepGroup := rfl
@[simp] theorem askPage_stepGroup (s : State) (ctx va : Nat) (wr : Bool) : (s.askPage ctx va wr).dev.stepGroup = s.dev.stepGroup := by
  unfold State.askPage
  split <;> simp [State.askHost]
@[simp] theorem translateDirect_stepGroup (s : State) (e : QEntry) (since : Nat) (first : Bool) : (s.translateDirect e since first).dev.stepGroup = s.dev.stepGroup := by
  dsimp only [State.translateDirect]
  have hmiss : (s.countMiss e.adm).dev.stepGroup = s.dev.stepGroup := by simp [State.countMiss]
  split
  · simp
  split
  · simp [State.edgeForward, State.touch]
  split
  · simp [hmiss]
  · next hm => simp [(addMiss_xlated hm).moved.stepGroup, hmiss]
@[simp] theorem resumeTile_stepGroup (s : State) (tile : Nat) : (s.resumeTile tile).dev.stepGroup = s.dev.stepGroup := by
  rw [State.resumeTile]
  suffices h : ∀ (l : List Held) (u : State), (resumeHolds tile l u).dev.stepGroup = u.dev.stepGroup from h _ _
  intro l
  induction l with
  | nil => exact fun _ => rfl
  | cons h r ih => simp [resumeHolds, ih]
@[simp] theorem retire_stepGroup (s : State) (e : QEntry) : (s.retire e).dev.stepGroup = s.dev.stepGroup := by
  have hcount : ∀ u : State, u.countRevoked.dev.stepGroup = u.dev.stepGroup := fun _ => rfl
  have hage : ∀ u : State, (u.ageRsp e).dev.stepGroup = u.dev.stepGroup := fun u => by simp [State.ageRsp]
  dsimp only [State.retire]
  repeat' split
  all_goals simp [hcount, hage]
@[simp] theorem sweep_stepGroup (s : State) (c : Nat) : (s.sweep c).dev.stepGroup = s.dev.stepGroup := by
  simp [State.sweep, State.sweepQueue, State.sweepLine, State.sweepHolds, State.countRevoked]
@[simp] theorem poison_stepGroup (s : State) (e : Nat) (x : Ext) (cause stack : Nat) (lines : List Nat) : (s.poison e x cause stack lines).dev.stepGroup = s.dev.stepGroup := by
  simp [State.poison, State.recordPoison, moraineFor, State.moraine]
@[simp] theorem abortMove_stepGroup (s : State) (mv : Nat) : (s.abortMove mv).dev.stepGroup = s.dev.stepGroup := by
  unfold State.abortMove
  split <;> simp
@[simp] theorem dirClean_stepGroup (s : State) (line : Nat) : (s.dirClean line).dev.stepGroup = s.dev.stepGroup := by
  have hdrop : ∀ (u : State) (h : Nat), (u.dirDrop line h).dev.stepGroup = u.dev.stepGroup := fun u h => by
    unfold State.dirDrop
    split <;> rfl
  have hdead : ∀ (u : State) (h : Nat), (u.dirDead line h).dev.stepGroup = u.dev.stepGroup := fun u h => by
    dsimp only [State.dirDead]
    split
    · rfl
    split
    · split <;> simp [State.noteLost, hdrop]
    · exact hdrop u h
  unfold State.dirClean
  split
  · rfl
  · exact foldl_stepGroup hdead _ _
@[simp] theorem backInvExt_stepGroup (s : State) (x : Ext) (only : Option Nat) (discard : Bool) (rev : Option (Nat × Nat)) :
    (s.backInvExt x only discard rev).dev.stepGroup = s.dev.stepGroup := by
  have hsend : ∀ (u : State) (line h : Nat), (u.sendBisnp line h).dev.stepGroup = u.dev.stepGroup := fun u line h => by simp [State.sendBisnp]
  have hstart : ∀ (u : State) (line h : Nat), (u.startBackInv line h discard rev).dev.stepGroup = u.dev.stepGroup := fun u line h => by
    simp [State.startBackInv, hsend]
  simp [State.backInvExt, hstart]
@[simp] theorem abortCheck_stepGroup (s : State) (mv : Nat) : (s.abortCheck mv).dev.stepGroup = s.dev.stepGroup := by
  unfold State.abortCheck
  split <;> simp
@[simp] theorem enterRevoking_stepGroup (s : State) (c : Nat) : (s.enterRevoking c).dev.stepGroup = s.dev.stepGroup := by
  simp [State.enterRevoking, State.extRelease, State.revokeGrant, State.destroyKeys, State.destroyKey]
@[simp] theorem setCtx_stepGroup (s : State) (c : Nat) (st : CtxState) : (s.setCtx c st).dev.stepGroup = s.dev.stepGroup := by simp [State.setCtx]
@[simp] theorem ctxStep_stepGroup (s : State) (ch : CtxChange) (to_ : CtxState) : (s.ctxStep ch to_).dev.stepGroup = s.dev.stepGroup := by
  unfold State.ctxStep
  split <;> simp [State.modChange, State.thaw]
@[simp] theorem ctxAck_stepGroup (s : State) (n c : Nat) : (s.ctxAck n c).dev.stepGroup = s.dev.stepGroup := by
  have hadvance : ∀ (u : State) (ch : CtxChange), (u.ctxAdvance ch).dev.stepGroup = u.dev.stepGroup := fun u ch => by
    dsimp only [State.ctxAdvance]
    split <;> simp
  unfold State.ctxAck
  split <;> simp [hadvance, State.modChange]

-- Withdrawals that a departure ends (R108, R466)
@[simp] theorem wdNext_stepGroup (n : Nat) (s : State) : (wdNext n s).dev.stepGroup = s.dev.stepGroup := by
  have hrun : ∀ (u : State) (w : Withdrawal), (u.runWd w).dev.stepGroup = u.dev.stepGroup := fun u w => (runWd_runs u w).moved.stepGroup
  induction n generalizing s with
  | zero => rfl
  | succ n ih =>
    rw [wdNext]
    repeat' split
    all_goals simp [ih, hrun]
@[simp] theorem driftIssue_stepGroup (s : State) (mv n : Nat) : (s.driftIssue mv n).dev.stepGroup = s.dev.stepGroup := by
  induction n generalizing s with
  | zero => rfl
  | succ n ih =>
    rw [State.driftIssue]
    repeat' split
    all_goals simp [ih, State.modMove]
theorem modPool_stepGroup (s : State) (f : Pool → Pool) : (s.modPool f).dev.stepGroup = s.dev.stepGroup := rfl
@[simp] theorem restorePage_stepGroup (s : State) (page fa : Nat) : (s.restorePage page fa).dev.stepGroup = s.dev.stepGroup := by
  rw [State.restorePage]
  cases s.pool.landed.find? (fun l => l.1 == fa) with
  | none => rfl
  | some l =>
    obtain ⟨_, _, entry⟩ := l
    cases s.restoreFrame page with
    | none => exact (event_carried _ _ _ _ _ _ _).stepGroup
    | some g =>
      cases extOfOff s page with
      | none => exact (event_carried _ _ _ _ _ _ _).stepGroup
      | some y => exact (issue_stepGroup _ _ _ _).trans ((modPool_stepGroup _ _).trans (poison_stepGroup _ _ _ _ _ _))
@[simp] theorem wdDone_stepGroup (s : State) (n id : Nat) : (s.wdDone n id).dev.stepGroup = s.dev.stepGroup := by
  have hcomplete : ∀ (u : State) (w : Withdrawal), (u.wdComplete w).dev.stepGroup = u.dev.stepGroup := fun u w => by
    dsimp only [State.wdComplete]
    repeat' split
    all_goals simp [State.dropWd, State.modMove]
  unfold State.wdDone
  split <;> simp [hcomplete]

-- Runs and end-points
@[simp] theorem runFail_stepGroup (s : State) (i : Nat) (st : Status) : (s.runFail i st).dev.stepGroup = s.dev.stepGroup := by
  have hthaw : ∀ (u : State) (e : OpsEntry), (u.thawStripe e).dev.stepGroup = u.dev.stepGroup := fun u e => by simp [State.thawStripe]
  have horphan : ∀ u : State, (u.orphanRun i).dev.stepGroup = u.dev.stepGroup := fun _ => rfl
  have hend : ∀ (u : State) (st : Status), (u.endLaunch i st).dev.stepGroup = u.dev.stepGroup := fun u st => by
    simp [State.endLaunch, hthaw, (modWork_moved _ _ _ _).stepGroup]
  simp [State.runFail, horphan, hend]
@[simp] theorem farunKick_stepGroup (s : State) (n : Nat) : (s.farunKick n).dev.stepGroup = s.dev.stepGroup := by
  have hsend : ∀ (u : State) (m engine : Nat) (t : Txn), (u.farunSend m engine t).dev.stepGroup = u.dev.stepGroup := fun u m engine t => by
    dsimp only [State.farunSend]
    repeat' split
    all_goals simp [State.farunOut]
  simp [State.farunKick, hsend]
@[simp] theorem farunTimeout_stepGroup (s : State) (n : Nat) (p : OutReq → Bool) : (s.farunTimeout n p).dev.stepGroup = s.dev.stepGroup :=
  foldl_stepGroup (fun _ _ => by split <;> simp [State.farunEnd, State.farunSyncEnd, State.fenceEnd]) _ _

-- What a port that goes down reaches (R195, R388, R461, R464)
@[simp] theorem declareLeave_stepGroup (s : State) (nodes : List Nat) (kind uid : Nat) : (s.declareLeave nodes kind uid).dev.stepGroup = s.dev.stepGroup := by
  have hleave : ∀ (u : State) (n slot : Nat), (u.applyLeave n kind uid slot).dev.stepGroup = u.dev.stepGroup := fun u n slot => by
    unfold State.applyLeave
    repeat' split
    all_goals simp [State.failTouching, State.restoreLanded, State.wdAbsent, State.ctxAbsent, State.tableDone]
  simp [State.declareLeave, State.sendLeave, hleave]
@[simp] theorem refLoss_stepGroup (s : State) : s.refLoss.dev.stepGroup = s.dev.stepGroup := by
  unfold State.refLoss
  split <;> simp [State.setQuality, State.creditAll]
@[simp] theorem abortTest_stepGroup (s : State) (p : Nat) : (s.abortTest p).dev.stepGroup = s.dev.stepGroup := by
  unfold State.abortTest
  split <;> simp [State.recordTest]
@[simp] theorem downEntry_stepGroup (p : Nat) (s : State) (e : QEntry) : (State.downEntry p s e).dev.stepGroup = s.dev.stepGroup := by
  unfold State.downEntry
  repeat' split
  all_goals simp [State.countMelt]
@[simp] theorem downFlit_stepGroup (s : State) (f : RetryFlit) : (s.downFlit f).dev.stepGroup = s.dev.stepGroup := by
  unfold State.downFlit
  split <;> simp [State.countMelt]
@[simp] theorem partnerGone_stepGroup (s : State) (p : Nat) : (s.partnerGone p).dev.stepGroup = s.dev.stepGroup := by
  dsimp only [State.partnerGone]
  split <;> simp [State.farunPortDown]
/-- A port that goes down leaves the step-up where it stands. -/
@[simp] theorem portDown_stepGroup (s : State) (p cause : Nat) (self : Bool) (to_ : PortState) :
    (s.portDown p cause self to_).dev.stepGroup = s.dev.stepGroup := by simp [State.portDown, State.toPort, State.lanesOff]

end Sys2Proof.Machine
end

section
/-! Entry into service (R384, R447, R448, R463): what a port that has come to it, and all beside it, keep. -/

namespace Sys2Proof.Machine
open Sys2Proof

/-- A port but for what its entry into service sets: its state, sequence numbers and retry buffer, the credits granted, and the counts of its attachment. -/
def Port.beside (x : Port) : Port :=
  { x with st := .disabled, stSince := 0, txSeq := 0, rxSeq := 0, retry := [], attempts := 0, leaving := false, attaches := 0, attachSlot := 0, ackAt := 0,
           ccOut := [], cellsAdmitted := 0 }
/-- A lane but for the start of its window. -/
def Lane.beside (l : Lane) : Lane := { l with winSince := 0 }
/-- What the entry of a port into service leaves alone: the pool, the step-up's group, and of ports and lanes all but what it sets. -/
structure BesideService (s t : State) : Prop where
  pool : t.pool = s.pool
  stepGroup : t.dev.stepGroup = s.dev.stepGroup
  port : ∀ p, (t.port p).beside = (s.port p).beside
  lane : ∀ l, (t.lane l).beside = (s.lane l).beside
namespace BesideService
variable {s t u : State}
theorem refl (s : State) : BesideService s s := ⟨rfl, rfl, fun _ => rfl, fun _ => rfl⟩
theorem trans (h : BesideService s t) (g : BesideService t u) : BesideService s u :=
  ⟨g.pool.trans h.pool, g.stepGroup.trans h.stepGroup, fun p => (g.port p).trans (h.port p), fun l => (g.lane l).trans (h.lane l)⟩
theorem foldl {α : Type} {f : State → α → State} (h : ∀ s x, BesideService s (f s x)) (l : List α) (s : State) : BesideService s (l.foldl f s) := by
  induction l generalizing s with
  | nil => exact .refl s
  | cons x r ih => exact (h s x).trans (ih _)
theorem of_mgmt (h : Mgmt s t) : BesideService s t := by
  obtain ⟨v, e, o, rfl⟩ := h
  exact ⟨rfl, rfl, fun _ => rfl, fun _ => rfl⟩
/-- Carriage moves credits of ports alone. -/
theorem of_carried (h : Carried s t) (hl : SameLinks s t) : BesideService s t := by
  obtain ⟨_, _, _, _, _, _, hlanes, _, _, _, _, hpool, _⟩ := h.keeps
  refine ⟨hpool, h.stepGroup, fun p => ?_, fun l => by rw [State.lane, hlanes, State.lane]⟩
  exact (congrArg Port.beside (congrFun hl p) : (linkSide t.ports p).beside = (linkSide s.ports p).beside)
theorem bertRes (h : BesideService s t) (l : Nat) : (t.lane l).bertRes = (s.lane l).bertRes := (congrArg Lane.bertRes (h.lane l) : (t.lane l).beside.bertRes = (s.lane l).beside.bertRes)
end BesideService
theorem modPort_besideService (s : State) (p : Nat) {f : Port → Port} (hf : ∀ x, (f x).beside = x.beside) : BesideService s (s.modPort p f) := by
  refine ⟨rfl, rfl, fun q => ?_, fun _ => rfl⟩
  rw [port_modPort]
  split
  · next h => rw [hf, h]
  · rfl
theorem toPort_besideService (s : State) (p : Nat) (st : PortState) (self : Bool) {f : Port → Port} (hf : ∀ x, (f x).beside = x.beside) :
    BesideService s (s.toPort p st self f) :=
  (modPort_besideService s p (f := fun x => { f x with st := st, stSince := s.clk }) hf).trans
    (.of_mgmt (toPort_mgmt s p st self f))
theorem modLanes_besideService (s : State) (p : Nat) {f : Nat → Lane → Lane} (hf : ∀ i l, (f i l).beside = l.beside) :
    BesideService s (s.modLanes p f) := by
  refine ⟨by simp, by simp, fun q => by simp, fun l => ?_⟩
  rw [lane_modLanes]
  split
  · exact hf _ _
  · rfl
theorem grant_besideService (s : State) (a v n : Nat) : BesideService s (s.grant a v n) := .of_carried (grant_carried _ _ _ _) (grant_charged _ _ _ _).sides.1
theorem setAdm_besideService (s : State) (a v held out : Nat) : BesideService s (s.setAdm a v held out) :=
  .of_carried (setAdm_carried _ _ _ _ _) (setAdm_charged _ _ _ _ _).sides.1
theorem grantFloors_besideService (s : State) (p : Nat) : BesideService s (s.grantFloors p) := by
  refine .foldl (fun t v => ?_) _ _
  dsimp only
  split
  · exact ((setAdm_besideService _ _ _ _ _).trans (grant_besideService _ _ _ _)).trans (.of_mgmt (emit_mgmt _ _))
  · exact setAdm_besideService _ _ _ _ _
theorem settlePhase_besideService (s : State) : BesideService s s.settlePhase := .of_carried (settlePhase_carried _) (settlePhase_sides _).1
theorem sendMgt_besideService (s : State) (t : Txn) : BesideService s (s.sendMgt t) := .of_carried (sendOut_carried _ _) (sendMgt_sides _ _).1
theorem declareReturn_besideService (s : State) (nodes : List Nat) (uid : Nat) : BesideService s (s.declareReturn nodes uid) := by
  have hsend : BesideService s (s.sendLeave nodes 8 uid) := .foldl (fun _ _ => .foldl (fun _ _ => sendMgt_besideService _ _) _ _) _ _
  refine hsend.trans (.foldl (fun t n => ?_) _ _)
  unfold State.applyReturn
  extract_lets s1
  have hreturn : BesideService t s1 := ⟨rfl, rfl, fun _ => rfl, fun _ => rfl⟩
  exact (hreturn.trans (.of_mgmt (event_mgmt _ _ _ _ _ _ _))).trans (settlePhase_besideService _)
theorem farun_besideService (s : State) (x : Tab Farun) : BesideService s { s with farun := x } := ⟨rfl, rfl, fun _ => rfl, fun _ => rfl⟩
theorem attachFarun_besideService (s : State) (p node : Nat) (c : CapFrame) : BesideService s (s.attachFarun p node c) := by
  have hrenumber : ∀ (u : State) (n : Nat), BesideService u (u.farunRenumber n) := fun u n => by
    dsimp only [State.farunRenumber]
    split
    · exact .refl u
    · exact farun_besideService u _
  exact (farun_besideService s _).trans (hrenumber _ _)
theorem partnerBack_besideService (s : State) (p : Nat) : BesideService s (s.partnerBack p) := by
  unfold State.partnerBack
  split
  · exact .refl s
  · next f _ =>
    extract_lets n s1
    have hattach : BesideService s s1 := by
      unfold s1
      split
      · exact attachFarun_besideService _ _ _ _
      · exact .refl s
    split
    · split
      · exact hattach.trans (declareReturn_besideService _ _ _)
      · exact hattach
    · split
      · exact declareReturn_besideService _ _ _
      · exact .refl s
theorem enterService_besideService (s : State) (p : Nat) : BesideService s (s.enterService p) := by
  unfold State.enterService
  extract_lets s1 s2
  have hport : BesideService s s1 := toPort_besideService s p .inService true fun _ => rfl
  have hlanes : BesideService s1 s2 := (BesideService.of_mgmt (modEpoch_mgmt _ _ _)).trans (modLanes_besideService _ _ fun _ _ => rfl)
  exact ((hport.trans hlanes).trans (grantFloors_besideService _ _)).trans (partnerBack_besideService _ _)
/-- A port that may enter service does, and any other stays as it is: either way what is beside its entry stays. -/
theorem tryService_besideService (s : State) (p : Nat) : BesideService s (s.tryService p) := by
  unfold State.tryService
  split
  · exact enterService_besideService s p
  · exact .refl s
/-- A port that is not LINKED does not enter service. -/
theorem tryService_unlinked {s : State} {p : Nat} (h : (s.port p).st ≠ .linked) : s.tryService p = s := by simp [State.tryService, State.canServe, h]

end Sys2Proof.Machine
end

section
/-! The commands of a port and of a lane (R380, R387, R390, R396, R397, R399, R401). -/

namespace Sys2Proof.Machine
open Sys2Proof

-- What their writes do to an object
theorem maskOf_bitsOf_four {n : Nat} (h : n ≤ 15) : maskOf (bitsOf 4 n) = n := by
  have hall : ∀ k : Fin 16, maskOf (bitsOf 4 k) = k := by decide
  exact hall ⟨n, by omega⟩
section
variable {u : State} {p l : Nat}
theorem portEnableWrite_enables (hst : (u.port p).st = .disabled) (hidle : u.dev.stepGroup = none) : ∃ w, portEnableWrite p true u = .ok w ∧
    Mgmt (u.modPort p (fun x => { x with enable := true, st := .detect, stSince := u.clk, attempts := 0, idling := false })) w := by
  refine ⟨_, ?_, noteChange_mgmt u _ (.port p) false false⟩
  rw [portEnableWrite, if_pos rfl, if_pos (by simp [hst]), stepCheck_idle (by simpa using hidle), modPort_modPort]
theorem retrainWrite_retrains (hst : (u.port p).st = .lock) (hnone : (u.port p).test = none) (htries : 0 < u.link.trainTries) :
    ∃ w, retrainWrite p u = .ok w ∧ Mgmt ((u.modPort p (fun x => x.anew u.clk 0)).lanesOff p) w := by
  refine ⟨_, ?_, toDetect_mgmt false htries⟩
  simp [retrainWrite, check, hst, State.retrainPort, abortTest_none hnone]
theorem retrainWrite_disabled (hst : (u.port p).st = .disabled) : retrainWrite p u = .error abortRefused := by simp [retrainWrite, check, hst]
theorem testWrite_linked (hst : (u.port p).st = .linked) (hkind : (u.port p).utgeod = false) (hnone : (u.port p).test = none) : ∃ w, testWrite p u = .ok w ∧
    Mgmt (u.modPort p (fun y => { y with
      test := some {
        lanes := y.lanesIn ||| y.lanesOut, dur := y.bertTime * 1000, leader := true,
        window := false, acked := false, sent := true, since := u.clk, ended := false, endAt := 0, results := [], peers := [] } })) w := by
  refine ⟨_, ?_, emit_mgmt _ (.ctrl p 8 [(u.port p).lanesIn ||| (u.port p).lanesOut, 1, 1, (u.port p).bertTime * 1000])⟩
  simp only [testWrite, hst, hkind, abortTest_none hnone, check]
  exact congrArg (fun t : State => Except.ok (t.emit _)) (modPort_congr rfl)
theorem rewidenWrite_widens (hst : (u.port p).st = .inService) (hsome : (u.port p).lanesOut ≠ 0) (hmost : (u.port p).lanesOut ≤ 15)
    (hlanes : ∀ i, (u.lane (4 * p + i)).st ≠ 3) :
    rewidenWrite p u = .ok (u.modPort p (fun y => { y with wideMask := y.wideMask ||| (u.port p).lanesOut, wideStage := 1 })) := by
  have hall : (bitsOf 4 (u.port p).lanesOut).filter (fun i => (u.lane (4 * p + i)).st != 3) = bitsOf 4 (u.port p).lanesOut :=
    List.filter_eq_self.mpr (fun i _ => by simp [hlanes])
  simp [rewidenWrite, check, hst, hall, maskOf_bitsOf_four hmost, State.widen, hsome]
theorem laneSlipWrite_slips (hst : (u.port (l / 4)).st = .lock) : laneSlipWrite l 1 u =
    .ok ((u.modLane l (fun x => { x with slips := (x.slips + 1) % 8192, lockOn := false })).modPort (l / 4)
      (fun y => { y with locked := y.locked &&& (15 ^^^ 2 ^ (l % 4)) })) := by
  simp [laneSlipWrite, check, hst]
theorem laneSlipWrite_inService (hst : (u.port (l / 4)).st = .inService) (hlane : (u.lane l).st = 1) : laneSlipWrite l 1 u = .error abortRefused := by
  simp [laneSlipWrite, check, hst, hlane]
theorem laneCtlWrite_scans (hlane : (u.lane l).st ≠ 0) : laneCtlWrite l 1 u = .ok (u.modLane l (fun x => { x with scanning := some u.slot })) := by
  simp [laneCtlWrite, hlane]
end
/-- A write that is accepted, whose effect is `w` but for the management side. -/
theorem vaneWrite_accepts_mgmt {s w x : State} {v : VCtx} {obj : Nat × Nat} {p : Bytes} {u : Option EUnit} {eff : State → Except Nat State} (h : Write s v obj p)
    (hu : ∀ y, u = some y → (s.epochRec y).epoch = v.epoch) (he : eff (s.countDatagram v.sess) = .ok x) (hw : Mgmt w x) :
    ∃ t, s.vaneWrite v obj p u eff = .next t ∧ Answered t v 0 ∧ MgmtOnly w t := by
  obtain ⟨t, hexec, hans, hmgmt⟩ := vaneWrite_accepts h hu he
  exact ⟨t, hexec, hans, hw.trans hmgmt⟩

-- The commands
section
variable {s : State} {v : VCtx} {p l : Nat}
theorem portEnable_accepts (he : (s.epochRec (.port p)).epoch = v.epoch) (hidle : s.dev.stepGroup = none) (hw : Write s v (portObj p, 1) [1])
    (hst : (s.port p).st = .disabled) : Accepts (.portEnable v p true) v s
      (s.modPort p (fun x => { x with enable := true, st := .detect, stSince := s.clk, attempts := 0, idling := false })) := by
  have hcount := countDatagram_mgmt s v.sess
  obtain ⟨x, hx, hmgmt⟩ := portEnableWrite_enables (u := s.countDatagram v.sess) (p := p) (by simpa using hst) (by simpa using hidle)
  simp only [countDatagram_keeps] at hmgmt
  exact vaneWrite_accepts_mgmt hw (by rintro y ⟨⟩; exact he) hx ((hcount.modPort _ _).trans hmgmt)
theorem portCtlRetrain_accepts (he : (s.epochRec (.port p)).epoch = v.epoch) (hw : Write s v (portObj p, 8) [1]) (hst : (s.port p).st = .lock)
    (hnone : (s.port p).test = none) (htries : 0 < s.link.trainTries) :
    Accepts (.portCtlRetrain v p) v s ((s.modPort p (fun x => x.anew s.clk 0)).lanesOff p) := by
  obtain ⟨x, hx, hmgmt⟩ := retrainWrite_retrains (u := s.countDatagram v.sess) (p := p) (by simpa using hst) (by simpa using hnone) (by simpa using htries)
  simp only [countDatagram_keeps] at hmgmt
  exact vaneWrite_accepts_mgmt hw (by rintro y ⟨⟩; exact he) hx ((((countDatagram_mgmt s v.sess).modPort _ _).modLanes _ _).trans hmgmt)
theorem portCtlRetrain_disabled (he : (s.epochRec (.port p)).epoch = v.epoch) (hw : Write s v (portObj p, 8) [1]) (hst : (s.port p).st = .disabled) :
    Aborts (.portCtlRetrain v p) v s abortRefused :=
  vaneWrite_aborts hw (by rintro y ⟨⟩; exact he) (retrainWrite_disabled (by simpa using hst))
theorem portTest_accepts (he : (s.epochRec (.port p)).epoch = v.epoch) (hw : Write s v (portObj p, 8) [2]) (hst : (s.port p).st = .linked)
    (hkind : (s.port p).utgeod = false) (hnone : (s.port p).test = none) : Accepts (.portTest v p) v s (s.modPort p (fun y => { y with
      test := some {
        lanes := y.lanesIn ||| y.lanesOut, dur := y.bertTime * 1000, leader := true,
        window := false, acked := false, sent := true, since := s.clk, ended := false, endAt := 0, results := [], peers := [] } })) := by
  obtain ⟨x, hx, hmgmt⟩ := testWrite_linked (u := s.countDatagram v.sess) (p := p) (by simpa using hst) (by simpa using hkind) (by simpa using hnone)
  simp only [countDatagram_keeps] at hmgmt
  exact vaneWrite_accepts_mgmt hw (by rintro y ⟨⟩; exact he) hx (((countDatagram_mgmt s v.sess).modPort _ _).trans hmgmt)
theorem rewiden_accepts (he : (s.epochRec (.port p)).epoch = v.epoch) (hw : Write s v (portObj p, 8) [3]) (hst : (s.port p).st = .inService)
    (hsome : (s.port p).lanesOut ≠ 0) (hmost : (s.port p).lanesOut ≤ 15) (hlanes : ∀ i : Nat, (s.lane (4 * p + i)).st ≠ 3) :
    Accepts (.rewiden v p) v s (s.modPort p (fun y => { y with wideMask := y.wideMask ||| (s.port p).lanesOut, wideStage := 1 })) := by
  have hx := rewidenWrite_widens (u := s.countDatagram v.sess) (p := p) (by simpa using hst) (by simpa using hsome) (by simpa using hmost) (by simpa using hlanes)
  simp only [countDatagram_reads] at hx
  exact vaneWrite_accepts_mgmt hw (by rintro y ⟨⟩; exact he) hx ((countDatagram_mgmt s v.sess).modPort _ _)
theorem laneSlip_accepts (hw : Write s v (laneObj l, 3) [1]) (hst : (s.port (l / 4)).st = .lock) : Accepts (.laneSlip v l) v s
    ((s.modLane l (fun x => { x with slips := (x.slips + 1) % 8192, lockOn := false })).modPort (l / 4) (fun y => { y with locked := y.locked &&& (15 ^^^ 2 ^ (l % 4)) })) :=
  vaneWrite_accepts_mgmt hw (by rintro y ⟨⟩) (laneSlipWrite_slips (by simpa using hst)) (((countDatagram_mgmt s v.sess).modLane _ _).modPort _ _)
theorem laneSlip_inService (hw : Write s v (laneObj l, 3) [1]) (hst : (s.port (l / 4)).st = .inService) (hlane : (s.lane l).st = 1) :
    Aborts (.laneSlip v l) v s abortRefused :=
  vaneWrite_aborts hw (by rintro y ⟨⟩) (laneSlipWrite_inService (by simpa using hst) (by simpa using hlane))
theorem laneScan_accepts (hw : Write s v (laneObj l, 9) [1]) (hlane : (s.lane l).st ≠ 0) :
    Accepts (.laneScan v l) v s (s.modLane l (fun x => { x with scanning := some s.slot })) := by
  have hx := laneCtlWrite_scans (u := s.countDatagram v.sess) (l := l) (by simpa using hlane)
  have hslot : (s.countDatagram v.sess).slot = s.slot := by simp [State.slot]
  rw [hslot] at hx
  exact vaneWrite_accepts_mgmt hw (by rintro y ⟨⟩) hx ((countDatagram_mgmt s v.sess).modLane _ _)
theorem rebase_accepts (hw : Write s v (laneObj l, 9) [2]) : Accepts (.rebase v l) v s (s.modLane l (fun x => { x with bases := [] })) :=
  vaneWrite_accepts_mgmt hw (by rintro y ⟨⟩) rfl ((countDatagram_mgmt s v.sess).modLane _ _)
end

/-- Settles O32: a write that is accepted has its object's effect, one that is refused has none. -/
theorem portAndLaneWrites : Obligations.PortAndLaneWrites := by
  unfold Obligations.PortAndLaneWrites
  exact ⟨fun s v p he hidle => ⟨portEnable_accepts he hidle, portCtlRetrain_accepts he, portCtlRetrain_disabled he, portTest_accepts he, rewiden_accepts he⟩,
    fun s v l => ⟨laneSlip_accepts, laneSlip_inService, laneScan_accepts, rebase_accepts⟩⟩

end Sys2Proof.Machine
end

section
/-! Training, state by state (R380 to R383, R385, R389). -/

namespace Sys2Proof.Machine
open Sys2Proof

/-- A change of state after a change of the port is one change of it, but for the management side. -/
theorem toPort_modPort_mgmt (s : State) (p : Nat) (st : PortState) (self : Bool) (f g : Port → Port) :
    Mgmt (s.modPort p (fun x => { g (f x) with st := st, stSince := s.clk })) ((s.modPort p f).toPort p st self g) := by
  have h := toPort_mgmt (s.modPort p f) p st self g
  rw [modPort_modPort] at h
  exact h
-- A lane's lock and the port's deskew leave the state where the other has not come
section
variable {s : State} {p : Nat}
theorem lockCheck_undeskewed (h : (s.port p).deskewed = false) : s.lockCheck p = s := by simp [State.lockCheck, h]
theorem lockCheck_unlocked (h : (s.port p).locked ≠ (s.port p).signalled) : s.lockCheck p = s := by simp [State.lockCheck, h]
/-- EQUALISE or VERIFY that fails for the first time at a rate runs once more (R383). -/
theorem rateFailed_again (h : (s.port p).eqTries = 0) :
    Mgmt (s.modPort p (fun y => { y with st := .equalise, stSince := s.clk, eqTries := 1, equalised := false })) (s.rateFailed p) := by
  rw [State.rateFailed, if_pos (by simp [h])]
  exact toPort_mgmt s p .equalise true (fun y => { y with eqTries := 1, equalised := false })
theorem rateFailed_idle (h : (s.port p).eqTries = 0) (hidle : s.dev.stepGroup = none) : (s.rateFailed p).stepCheck = s.rateFailed p := by
  obtain ⟨_, _, _, hdev, _⟩ := (rateFailed_again h).keeps
  exact stepCheck_idle (by rw [hdev]; exact hidle)
end

section
variable {s : State} {p : Nat}
theorem signalDetected_locks {m : Nat} (hst : (s.port p).st = .detect) (hidling : (s.port p).idling = false) (hm : m % 16 ≠ 0) :
    Does (.signalDetected p m) s ((s.modPort p (fun x => { x with st := .lock, stSince := s.clk, signalled := m % 16, locked := 0, deskewed := false })).modLanes p
      (fun _ l => { l with lockOn := false, inverted := false, slips := 0 })) := by
  refine ⟨_, if_neg (by simp [hst, hidling, hm]), ?_⟩
  exact (toPort_mgmt s p .lock true (fun y => { y with signalled := m % 16, locked := 0, deskewed := false })).modLanes p _
theorem exec_laneLock {l n : Nat} {b : Bool} (hn : 8 ≤ n) (hst : (s.port (l / 4)).st = .lock) (hdeskew : (s.port (l / 4)).deskewed = false)
    (hsignal : (s.port (l / 4)).signalled.testBit (l % 4) = true) :
    exec (.laneLock l n b) s = .next ((s.modLane l (fun x => { x with lockOn := true, inverted := b })).modPort (l / 4)
      (fun x => { x with locked := x.locked ||| 2 ^ (l % 4) })) := by
  have hserved : ¬((decide (n < 8) || !((s.port (l / 4)).st == .lock || (s.port (l / 4)).st == .test || (s.lane l).st == 2)) = true) := by simp [hst, hn]
  refine (if_neg hserved).trans (congrArg Host.Outcome.next ((if_pos (by simp [hst, hsignal])).trans ?_))
  exact lockCheck_undeskewed (by simp [hdeskew])
theorem exec_deskew {k : Nat} (hst : (s.port p).st = .lock) (hk : k ≤ 4) (hlocked : (s.port p).locked ≠ (s.port p).signalled) :
    exec (.deskew p [0, 1, 2, 3] k) s = .next (s.modPort p (fun x => { x with deskewed := true, sent := { x.sent with reversed := false } })) := by
  refine ((if_neg (by simp [hst])).trans ((if_neg (by simp [risingList])).trans (if_neg (by omega)))).trans (congrArg Host.Outcome.next ?_)
  exact lockCheck_unlocked (by simpa using hlocked)
/-- The eighth record in a row that is the partner's and echoes the own NONCE ends EXCHANGE, at a rate above 0 with equalisation (R382). -/
theorem train_equalises {r : TrainRec} (hst : (s.port p).st = .exchange) (hrsvd : r.rsvd = 0) (hformat : r.format ≤ 1) (hrole : r.role ≤ 3)
    (hrates : r.rates.testBit 0 = true) (hmatch : trainMismatch (s.port p) r = false) (hecho : r.echo = (s.port p).sent.nonce)
    (hlast : (s.port p).lastTrain = some r) (hsame : (s.port p).sameTrain = 7) (hrate : s.agreed p r ≠ 0) :
    Does (.train p r) s (s.modPort p (fun y => { y with
      st := .equalise, stSince := s.clk, sent := { y.sent with echo := r.nonce }, lastTrain := some r, sameTrain := 8,
      partner := r, agreedRate := s.agreed p r, eqTries := 0, equalised := false })) := by
  refine ⟨_, ?_, toPort_modPort_mgmt s p .equalise true (fun y => { y with
    sent := { y.sent with echo := r.nonce }, lastTrain := some r, sameTrain := 8, partner := r, agreedRate := s.agreed p r })
    (fun y => { y with eqTries := 0, equalised := false })⟩
  show execTrain p r s = _
  unfold execTrain
  rw [if_neg (by simp [hst, PortState.code, hrsvd, hformat, hrole, hrates]), if_neg (by simp [hst]), if_neg (by simp [hmatch])]
  simp [hecho, hlast, hsame, modPort_modPort, hrate]
theorem equaliseConverged_verifies {c : Nat} (hst : (s.port p).st = .equalise) : Does (.equaliseConverged p c) s
    ((s.modPort p (fun y => { y with st := .verify, stSince := s.clk, equalised := true })).modLanes p (fun i l =>
      if (s.port p).locked.testBit i then { l with eq := c, conv := tset l.conv (nextRate (s.port p).partner (s.port p).agreedRate (s.port p).rate) c } else l)) := by
  refine ⟨_, if_pos (by simp [hst]), ?_⟩
  exact (toPort_mgmt s p .verify true (fun y => { y with equalised := true })).modLanes p _
theorem verifyEnd_equalises {b : List Nat} (hidle : s.dev.stepGroup = none) (hst : (s.port p).st = .verify) (htries : (s.port p).eqTries = 0) :
    Does (.verifyEnd p b true) s (s.modPort p (fun y => { y with st := .equalise, stSince := s.clk, eqTries := 1, equalised := false })) := by
  refine ⟨_, (if_pos (by simp [hst])).trans (congrArg Host.Outcome.next ?_), rateFailed_again htries⟩
  rw [if_neg (by simp [State.verified]), rateFailed_idle htries hidle]
theorem trainingTimeout_equalises (hidle : s.dev.stepGroup = none) (hst : (s.port p).st = .equalise) (htries : (s.port p).eqTries = 0)
    (hlate : (s.port p).stSince + 40000000 ≤ s.clk) :
    Does (.trainingTimeout p) s (s.modPort p (fun y => { y with st := .equalise, stSince := s.clk, eqTries := 1, equalised := false })) := by
  refine ⟨_, ?_, rateFailed_again htries⟩
  show execTrainingTimeout p s = _
  simp [execTrainingTimeout, hst, State.overdue, hlate, rateFailed_idle htries hidle]
end

/-- Settles O33: each step of training is a change of the port's state, which the epochs of the management side follow. -/
theorem trainingAdvances : Obligations.TrainingAdvances := by
  unfold Obligations.TrainingAdvances
  refine ⟨fun s p m => signalDetected_locks, fun s l n b => exec_laneLock, fun s p k => exec_deskew, fun s p r => train_equalises, fun s p hst => ?_,
    fun s p c => equaliseConverged_verifies, fun s p b => verifyEnd_equalises, fun s p => trainingTimeout_equalises⟩
  exact congrArg Host.Outcome.next (if_pos (by simp [hst]))

end Sys2Proof.Machine
end

section
/-! Capability frames and SPDM messages on a link (R374, R443, R445, R448). -/

namespace Sys2Proof.Machine
open Sys2Proof

-- Capability frames
/-- What a port holds of capability frames: the partner's frame and its CSEQ, the last identity, and what a new identity clears and begins. -/
def Port.heard (x : Port) : Option CapFrame × Nat × Nat × List Nat × Nat := (x.partnerCap, x.rxCseq, x.lastUid, x.allow, x.joinUntil)
theorem BesideService.heard {s t : State} (h : BesideService s t) (p : Nat) : (t.port p).heard = (s.port p).heard :=
  (congrArg Port.heard (h.port p) : (t.port p).beside.heard = (s.port p).beside.heard)
theorem BesideService.capSent {s t : State} (h : BesideService s t) (p : Nat) : (t.port p).capSent = (s.port p).capSent :=
  (congrArg Port.capSent (h.port p) : (t.port p).beside.capSent = (s.port p).beside.capSent)
/-- Outside a step-up an entry into service ends with no step of it. -/
theorem tryService_stepCheck {s : State} {p : Nat} (h : s.dev.stepGroup = none) : (s.tryService p).stepCheck = s.tryService p :=
  stepCheck_idle ((tryService_besideService s p).stepGroup.trans h)
section
variable (s : State) (p : Nat) (f : CapFrame)
theorem emitCap_mgmt : Mgmt s (s.emitCap p) := by
  unfold State.emitCap
  split
  · exact emit_mgmt _ _
  · exact .refl s
theorem noteGiven_mgmt : Mgmt s (s.noteGiven p) := by
  unfold State.noteGiven
  split
  · exact ⟨_, s.evt, s.out, rfl⟩
  · exact .refl s
/-- The sending of a frame holds it as the one sent, under the next CSEQ. -/
def Port.capSends (x : Port) (f : CapFrame) : Port :=
  { x with capSent := some { f with cseq := x.nextCseq, echo := 0 }, capTxAck := false, nextCseq := (x.nextCseq + 1) % 65535 }
theorem sendCap_unchanged (h : (s.port p).capSent.map (fun g => { g with cseq := 0, echo := 0 }) = some (s.capContent p)) : s.sendCap p = s := by
  simp [State.sendCap, h]
theorem sendCap_changed (h : (s.port p).capSent.map (fun g => { g with cseq := 0, echo := 0 }) ≠ some (s.capContent p)) :
    Mgmt (s.modPort p (fun y => y.capSends (s.capContent p))) (s.sendCap p) := by
  rw [State.sendCap, if_neg (by simpa using h)]
  exact ((noteGiven_mgmt s p).modPort p _).trans (emitCap_mgmt _ _)
theorem sendCap_heard : ((s.sendCap p).port p).heard = (s.port p).heard := by
  by_cases h : (s.port p).capSent.map (fun g => { g with cseq := 0, echo := 0 }) = some (s.capContent p)
  · rw [sendCap_unchanged s p h]
  · rw [(sendCap_changed s p h).port, port_modPort_same]
    rfl
theorem sendCap_stepGroup : (s.sendCap p).dev.stepGroup = s.dev.stepGroup := by
  by_cases h : (s.port p).capSent.map (fun g => { g with cseq := 0, echo := 0 }) = some (s.capContent p)
  · rw [sendCap_unchanged s p h]
  · obtain ⟨_, _, _, hdev, _⟩ := (sendCap_changed s p h).keeps
    rw [hdev]
    rfl
theorem sendCap_pool : (s.sendCap p).pool = s.pool := (sendCap_kept s p).2.2.1
/-- Once sent, the frame of a port shows the port's status (Table 15-6). -/
theorem sendCap_shows_status : ∃ g, ((s.sendCap p).port p).capSent = some g ∧ g.status = s.capStatus p := by
  by_cases h : (s.port p).capSent.map (fun g => { g with cseq := 0, echo := 0 }) = some (s.capContent p)
  · rw [sendCap_unchanged s p h]
    obtain ⟨g, hg, hcontent⟩ := Option.map_eq_some_iff.mp h
    exact ⟨g, hg, by simpa [State.capContent] using congrArg CapFrame.status hcontent⟩
  · rw [(sendCap_changed s p h).port, port_modPort_same]
    exact ⟨_, rfl, rfl⟩
theorem newPartner_lastUid : ((s.newPartner p f).port p).lastUid = f.uid := by
  unfold State.newPartner
  extract_lets x
  split <;> simp
theorem newPartner_clears (h0 : (s.port p).lastUid ≠ 0) (h : (s.port p).lastUid ≠ f.uid) :
    ((s.newPartner p f).port p).allow = [] ∧ ((s.newPartner p f).port p).joinUntil = (s.port p).downAt + s.ageLimit 0 + s.ageLimit 2 := by
  rw [State.newPartner, if_neg (by simp [h0, h])]
  simp
theorem newPartner_keeps : (s.newPartner p f).dev = s.dev ∧ (s.newPartner p f).pool = s.pool := by
  unfold State.newPartner
  extract_lets x
  split <;> simp
theorem noteLeaving_besideService : BesideService s (s.noteLeaving p f) := by
  unfold State.noteLeaving
  split
  · exact (modPort_besideService s p (f := fun y => { y with leaving := true }) fun _ => rfl).trans (.of_mgmt (setMg_mgmt _ _ _))
  · exact .refl s
end
section
variable {s : State} {p : Nat} {f : CapFrame}
theorem exec_cap_refused (hused : s.linkUsed p = true) (hbad : s.capBad p f = true) :
    exec (.cap p f) s = .next (s.modPort p (fun y => { y with framesRefused := y.framesRefused + 1, attachSlot := s.slot })) :=
  (if_neg (by simp [hused])).trans (if_pos hbad)
/-- A good frame is held as the partner's, with its CSEQ, beside what its identity did (R445, R449). -/
theorem exec_cap_heard (hused : s.linkUsed p = true) (hgood : s.capBad p f = false) (hidle : s.dev.stepGroup = none) :
    ∃ t, exec (.cap p f) s = .next t ∧
      (t.port p).heard = (some f, f.cseq, f.uid, ((s.newPartner p f).port p).allow, ((s.newPartner p f).port p).joinUntil) ∧ t.pool = s.pool := by
  obtain ⟨hdev, hpool⟩ := newPartner_keeps s p f
  have hleave := noteLeaving_besideService (s.newPartner p f) p f
  let u := ((s.newPartner p f).noteLeaving p f).modPort p (fun y => { y with
    partnerCap := some f, rxCseq := f.cseq, capTxAck := y.capTxAck || y.capSent.any (fun g => g.cseq == f.echo) })
  let w := if f.cseq == (s.port p).rxCseq then u.sendCap p else (u.sendCap p).emitCap p
  have hsent : BesideService (u.sendCap p) w := by
    unfold w
    split
    · exact .refl _
    · exact .of_mgmt (emitCap_mgmt _ _)
  have hserved := hsent.trans (tryService_besideService w p)
  have hidle' : w.dev.stepGroup = none := by
    rw [hsent.stepGroup, sendCap_stepGroup, ← hidle, ← hdev, ← hleave.stepGroup]
    rfl
  refine ⟨w.tryService p, ((if_neg (by simp [hused])).trans (if_neg (by simp [hgood]))).trans (congrArg Host.Outcome.next (tryService_stepCheck hidle')), ?_, ?_⟩
  · have hheard := hleave.heard p
    rw [hserved.heard, sendCap_heard, port_modPort_same]
    simp only [Port.heard, Prod.mk.injEq] at hheard ⊢
    obtain ⟨_, _, huid, hallow, hjoin⟩ := hheard
    exact ⟨trivial, trivial, huid.trans (newPartner_lastUid s p f), hallow, hjoin⟩
  · rw [hserved.pool, sendCap_pool, ← hpool, ← hleave.pool]
    rfl
theorem exec_capRepeat (hused : s.linkUsed p = true) (hformat : (s.port p).utgeod = false) (hack : (s.port p).capTxAck = false) (hsent : (s.port p).capSent = some f)
    (hsame : (s.port p).capSent.map (fun g => { g with cseq := 0, echo := 0 }) = some (s.capContent p)) :
    exec (.capRepeat p) s = .next (s.emit (.cap p { f with echo := (s.port p).rxCseq })) := by
  refine ((if_neg (by simp [hused, hformat])).trans (if_neg (by simp [hack]))).trans (congrArg Host.Outcome.next ?_)
  rw [sendCap_unchanged s p hsame, State.emitCap, hsent]
/-- The wait over, the port shows AVAIL where it carries traffic and its package stays (R449, Table 15-6). -/
theorem exec_joiningWaitEnd (hjoin : (s.port p).joinUntil ≠ 0) (hover : (s.port p).joinUntil ≤ s.clk) (hused : s.linkUsed p = true) (hidle : s.dev.stepGroup = none) :
    ∃ t, exec (.joiningWaitEnd p) s = .next t ∧ (t.port p).joinUntil = 0 ∧ t.pool = s.pool ∧
      (s.dev.phase ≠ .drain → s.portHasVcs p = true → ∃ g, (t.port p).capSent = some g ∧ g.status = 1) := by
  let u := s.modPort p (fun x => { x with joinUntil := 0 })
  have hserved := tryService_besideService (u.sendCap p) p
  have hidle' : (u.sendCap p).dev.stepGroup = none := (sendCap_stepGroup u p).trans hidle
  refine ⟨(u.sendCap p).tryService p, (if_neg (by simp [hjoin, hused, hover])).trans (congrArg Host.Outcome.next (tryService_stepCheck hidle')), ?_, ?_, ?_⟩
  · have hheard := (hserved.heard p).trans (sendCap_heard u p)
    simp only [Port.heard, Prod.mk.injEq] at hheard
    obtain ⟨_, _, _, _, hwait⟩ := hheard
    rw [hwait]
    simp [u]
  · exact hserved.pool.trans (sendCap_pool u p)
  · intro hphase hvcs
    obtain ⟨g, hg, hstatus⟩ := sendCap_shows_status u p
    have hvcs' : u.portHasVcs p = true := hvcs
    have havail : u.capStatus p = 1 := by
      simp only [State.capStatus, hvcs']
      simp [u, hphase]
    exact ⟨g, (hserved.capSent p).trans hg, hstatus.trans havail⟩
end

-- SPDM messages (R374)
section
variable {s : State} {p : Nat} {f : Frag}
theorem wholeMessage_part (h : f.last = false) : wholeMessage [f] f.mseq = none := by simp [wholeMessage, h]
theorem wholeMessage_single (h0 : f.frag = 0) (h : f.last = true) : wholeMessage [f] f.mseq = some f.body := by simp [wholeMessage, h0, h]
theorem fragsOf_spdmMsg (m code : Nat) : fragsOf m (spdmMsg code) = [{ mseq := m, frag := 0, last := true, body := spdmMsg code }] := by
  simp [fragsOf, spdmMsg, leBytes, ceilDiv]
theorem emitFrags_out (s : State) (p m : Nat) (b : Bytes) : s.emitFrags p m b = { s with out := s.out ++ (fragsOf m b).map (fun f => .spdmFrag p f) } := foldl_emit _ _ _
theorem sendSpdm_spdmMsg (s : State) (p code : Nat) : s.sendSpdm p (spdmMsg code) =
    (s.modPort p (fun x => { x with
      spdmMseq := ((s.port p).spdmMseq + 1) % 256, spdmTx := some (((s.port p).spdmMseq + 1) % 256, 0, s.clk), spdmOut := spdmMsg code })).emit
      (.spdmFrag p { mseq := ((s.port p).spdmMseq + 1) % 256, frag := 0, last := true, body := spdmMsg code }) := by
  rw [State.sendSpdm, emitFrags_out, fragsOf_spdmMsg]
  rfl
theorem exec_spdm_part (hused : s.linkUsed p = true) (hbody : f.body.length ≤ 48) (hfrag : f.frag ≤ 1023) (hpart : f.last = false) (hnone : (s.port p).spdmRx = []) :
    exec (.spdm p f) s = .next (s.modPort p (fun x => { x with spdmRx := [f] })) := by
  refine (if_neg (by simp [hused, hbody, hfrag])).trans ?_
  rw [hnone, List.filter_nil, List.nil_append, wholeMessage_part hpart]
/-- The responder of a session that begins answers its first request (log 27). -/
theorem linkSpdm_begins {msg : Bytes} (hrole : s.leads p = false) (hst : (s.port p).cryptState = 1) (hstage : (s.port p).spdmStage = 0) (hcode : leAt msg 1 1 = 0x84) :
    s.linkSpdm p msg = (s.modPort p (fun y => { y with spdmStage := y.spdmStage + 1 })).sendSpdm p (spdmMsg 0x04) := by
  simp [State.linkSpdm, State.linkAnswer, hrole, hst, hstage, hcode, spdmSteps]
theorem exec_spdm_whole {m : Nat} (hused : s.linkUsed p = true) (hbody : f.body.length ≤ 48) (hfrag : f.frag = 0) (hlast : f.last = true) (hnone : (s.port p).spdmRx = [])
    (hrole : s.leads p = false) (hst : (s.port p).cryptState = 1) (hstage : (s.port p).spdmStage = 0) (hcode : leAt f.body 1 1 = 0x84)
    (hm : m = ((s.port p).spdmMseq + 1) % 256) (hidle : s.dev.stepGroup = none) :
    exec (.spdm p f) s = .next { s.modPort p (fun x => { x with spdmRx := [], spdmStage := 1, spdmMseq := m, spdmTx := some (m, 0, s.clk), spdmOut := spdmMsg 0x04 }) with
      out := s.out ++ [.ctrl p 6 [f.mseq], .spdmFrag p { mseq := m, frag := 0, last := true, body := spdmMsg 0x04 }] } := by
  let u := (s.modPort p (fun x => { x with spdmRx := [] })).emit (.ctrl p 6 [f.mseq])
  have hport : u.port p = { s.port p with spdmRx := [] } := port_modPort_same s p (fun x => { x with spdmRx := [] })
  have hleads : u.leads p = false := by
    rw [← hrole]
    simp only [State.leads, hport]
    rfl
  have hanswer : u.linkSpdm p f.body = { s.modPort p (fun x => { x with
      spdmRx := [], spdmStage := 1, spdmMseq := m, spdmTx := some (m, 0, s.clk), spdmOut := spdmMsg 0x04 }) with
      out := s.out ++ [.ctrl p 6 [f.mseq], .spdmFrag p { mseq := m, frag := 0, last := true, body := spdmMsg 0x04 }] } := by
    rw [linkSpdm_begins hleads (by rw [hport]; exact hst) (by rw [hport]; exact hstage) hcode, sendSpdm_spdmMsg, port_modPort_same, hport]
    simp only [modPort_modPort, ← hm, u, emit_modPort]
    rw [modPort_congr (s := s) (p := p) (g := fun x => { x with
      spdmRx := [], spdmStage := 1, spdmMseq := m, spdmTx := some (m, 0, s.clk), spdmOut := spdmMsg 0x04 }) (by simp [hstage])]
    simp [State.emit]
  refine (if_neg (by simp [hused, hbody, hfrag])).trans ?_
  rw [hnone, List.filter_nil, List.nil_append, wholeMessage_single hfrag hlast]
  exact congrArg Host.Outcome.next ((congrArg State.stepCheck hanswer).trans (stepCheck_idle hidle))
theorem exec_spdmAck {m n a : Nat} (hused : s.linkUsed p = true) (htx : (s.port p).spdmTx = some (m, n, a)) :
    exec (.spdmAck p m) s = .next (s.modPort p (fun x => { x with spdmTx := none })) := by
  refine (if_neg (by simp [hused])).trans (congrArg Host.Outcome.next ?_)
  rw [htx]
  exact if_pos (by simp)
section
variable {m n a : Nat} (htx : (s.port p).spdmTx = some (m, n, a)) (hlate : a + 10000 ≤ s.clk)
include htx hlate
theorem exec_spdmRepeat (hn : n < 8) : exec (.spdmRepeat p) s = .next { s.modPort p (fun x => { x with spdmTx := some (m, n + 1, s.clk) }) with
    out := s.out ++ (fragsOf m (s.port p).spdmOut).map (fun f => .spdmFrag p f) } := by
  show execSpdmRepeat p s = _
  rw [execSpdmRepeat, htx]
  dsimp only
  rw [if_neg (by omega), if_neg (by omega), emitFrags_out]
  rfl
theorem exec_spdmRepeat_fails (hn : 8 ≤ n) (hidle : s.dev.stepGroup = none) :
    ∃ t, exec (.spdmRepeat p) s = .next t ∧ (t.port p).cryptState = 3 ∧ (t.port p).spdmTx = none ∧ t.pool = s.pool := by
  have hfail : Mgmt (s.modPort p (fun y => { y with cryptState := 3, spdmTx := none })) (s.sessionFail p) := event_mgmt _ _ _ _ _ _ _
  have hserved := (BesideService.of_mgmt hfail).trans (tryService_besideService (s.sessionFail p) p)
  have hport := hserved.port p
  have hidle' : (s.sessionFail p).dev.stepGroup = none := (BesideService.of_mgmt hfail).stepGroup.trans hidle
  rw [port_modPort_same] at hport
  refine ⟨(s.sessionFail p).tryService p, ?_, congrArg Port.cryptState hport, congrArg Port.spdmTx hport, hserved.pool⟩
  show execSpdmRepeat p s = _
  rw [execSpdmRepeat, htx]
  dsimp only
  rw [if_neg (by omega), if_pos hn, tryService_stepCheck hidle']
end
end

/-- Settles O34: frames and messages change their port alone, and an entry into service that they bring leaves what they set. -/
theorem linkRecords : Obligations.LinkRecords := by
  unfold Obligations.LinkRecords
  refine ⟨⟨fun s p f => exec_cap_refused, fun s p f hused hgood hidle => ?_, fun s p f => exec_capRepeat, fun s p => exec_joiningWaitEnd⟩,
    fun s p f => exec_spdm_part, fun s p m f => exec_spdm_whole, fun s p m n a => exec_spdmAck,
    fun s p m n a htx hlate => ⟨exec_spdmRepeat htx hlate, exec_spdmRepeat_fails htx hlate⟩⟩
  obtain ⟨t, hexec, hheard, hpool⟩ := exec_cap_heard hused hgood hidle
  simp only [Port.heard, Prod.mk.injEq] at hheard
  obtain ⟨hcap, hcseq, huid, hallow, hjoin⟩ := hheard
  refine ⟨t, hexec, hcap, hcseq, huid, hpool, fun h0 h => ?_⟩
  rw [hallow, hjoin]
  exact newPartner_clears s p f h0 h

end Sys2Proof.Machine
end

section
/-! Faults of lanes, narrowing, and links that fail (R387, R388, R391 to R394). -/

namespace Sys2Proof.Machine
open Sys2Proof

-- The mask that an end asks for (R391, R393, R394)
section
variable {s : State} {p m : Nat}
theorem askMask_narrows (hnone : (s.port p).narrowing = none) (hwide : max 1 (s.port p).minWidth ≤ popc 4 m) :
    s.askMask p m = (s.modPort p (fun y => { y with
      narrowing := some { mask := m, sw := ((s.port p).codewords + 16) % 65536, acked := false, since := s.clk, sentAt := s.clk } })).emit
      (.ctrl p 7 [m, 0, ((s.port p).codewords + 16) % 65536]) := by
  refine (if_neg (by omega)).trans (congrArg (fun u => State.emit u _) ?_)
  exact modPort_congr (by simp [hnone])
theorem askMask_falls (hnarrow : popc 4 m < max 1 (s.port p).minWidth) : s.askMask p m = s.portDown p 5 true .detect := if_pos hnarrow
theorem maskSettled_unacked {n : Narrow} (h : (s.port p).narrowing = some n) (hopen : (n.acked && n.switched) = false) : s.maskSettled p = s := by
  simp [State.maskSettled, h, hopen]
theorem laneFaulty_unused {l : Nat} (h : (s.port (l / 4)).st ≠ .inService) : s.laneFaulty l = s := by simp [State.laneFaulty, h]
theorem laneFaulty_asks {l : Nat} (hst : (s.port (l / 4)).st = .inService) (hin : (s.port (l / 4)).lanesIn &&& 2 ^ (l % 4) ≠ 0)
    (hnone : (s.port (l / 4)).narrowing = none) (htest : (s.port (l / 4)).test = none) :
    s.laneFaulty l = s.askMask (l / 4) ((s.port (l / 4)).lanesIn &&& (15 ^^^ 2 ^ (l % 4))) := by
  simp [State.laneFaulty, hst, hin, hnone, htest, abortTest_none htest]
/-- The use of a mask writes the port's lanes and the lanes' states, but for the management side. -/
def Lane.masked (l : Lane) (mask all now i : Nat) : Lane :=
  if mask.testBit i then (if l.st == 1 then l else { l with st := 1, winSince := now })
  else if all.testBit i then { l with st := if l.st == 3 then 3 else 2, scanning := none } else l
theorem useMask_mgmt (s : State) (p m : Nat) :
    Mgmt ((s.modPort p (fun x => { x with lanesIn := m, lanesOut := (x.lanesIn ||| x.lanesOut) &&& (15 ^^^ m) })).modLanes p
      (fun i l => l.masked m ((s.port p).lanesIn ||| (s.port p).lanesOut) s.clk i)) (s.useMask p m) :=
  (noteChange_mgmt _ _ _ _ _).trans (event_mgmt _ _ _ _ _ _ _)
theorem masked_in (l : Lane) {all now i : Nat} (h : m.testBit i = true) : (l.masked m all now i).st = 1 := by
  rw [Lane.masked, if_pos h]
  split
  · next hst => simpa using hst
  · rfl
theorem masked_out {l : Lane} {all now i : Nat} (h : m.testBit i = false) (hall : all.testBit i = true) (hst : l.st ≠ 3) : (l.masked m all now i).st = 2 := by
  simp [Lane.masked, h, hall, hst]
end

-- What a lane reports
section
variable {s : State} {l : Nat}
theorem exec_laneFault_unused (h : (s.port (l / 4)).st ≠ .inService) :
    exec (.laneFault l 1) s = .next (s.modLane l (fun x => { x with uncorrectable := x.uncorrectable + 4 })) ∧ exec (.laneFault l 0) s = .next s :=
  ⟨congrArg Host.Outcome.next (laneFaulty_unused (s := s.modLane l _) h), congrArg Host.Outcome.next (laneFaulty_unused h)⟩
theorem exec_laneFault {p m : Nat} (hp : p = l / 4) (hst : (s.port p).st = .inService) (hin : (s.port p).lanesIn &&& 2 ^ (l % 4) ≠ 0)
    (hnone : (s.port p).narrowing = none) (htest : (s.port p).test = none) (hm : m = (s.port p).lanesIn &&& (15 ^^^ 2 ^ (l % 4))) :
    exec (.laneFault l 0) s = .next (s.askMask p m) := by
  subst hp hm
  exact congrArg Host.Outcome.next (laneFaulty_asks hst hin hnone htest)
theorem exec_serWindow {b : Nat} (hin : (s.lane l).st = 1) (hst : (s.port (l / 4)).st = .inService) (hover : (s.lane l).winSince + 10000000 ≤ s.clk)
    (halarm : f32Above b s.link.serAlarm = false) (hlimit : f32Above b s.link.serLimit = false) :
    exec (.serWindow l b) s = .next (s.modLane l (fun y => { y with ser := b, winSince := s.clk })) := by
  refine (if_neg (by simp [hin, hst, hover])).trans (congrArg Host.Outcome.next ?_)
  rw [if_neg (by simp [hlimit]), if_neg (by simp [halarm]), halarm]
  simp only [Bool.or_false]
end

-- NARROW (R392, R393)
section
variable {s : State} {p : Nat}
section
variable {m w : Nat} (hst : (s.port p).st = .inService) (hm : m ≤ 15) (hnone : (s.port p).narrowing = none)
include hst hm hnone
theorem exec_narrow_agrees (hwide : max 1 (s.port p).minWidth ≤ popc 4 m) : exec (.narrow p m false w) s = .next ((s.modPort p (fun y => { y with
    narrowing := some { mask := m, sw := ((s.port p).codewords + 16) % 65536, acked := true, since := s.clk, sentAt := s.clk } })).emit
    (.ctrl p 7 [m, 1, ((s.port p).codewords + 16) % 65536])) := by
  show execNarrow p m false w s = _
  simp only [execNarrow, hnone]
  rw [if_neg (by simp [hst, hm]), if_neg (by simp), if_neg (by omega)]
theorem exec_narrow_falls (hnarrow : popc 4 m < max 1 (s.port p).minWidth) : exec (.narrow p m false w) s = .next (s.portDown p 5 true .detect) := by
  show execNarrow p m false w s = _
  simp only [execNarrow, hnone]
  rw [if_neg (by simp [hst, hm]), if_neg (by simp), if_pos hnarrow]
end
section
variable {n : Narrow} (hn : (s.port p).narrowing = some n)
include hn
theorem exec_narrowRepeat (hopen : n.acked = false) (hlate : n.sentAt + 200 ≤ s.clk) : exec (.narrowRepeat p) s =
    .next ((s.modPort p (fun x => { x with narrowing := some { n with sentAt := s.clk } })).emit (.ctrl p 7 [n.mask, 0, n.sw])) := by
  show execNarrowRepeat p s = _
  rw [execNarrowRepeat, hn]
  exact congrArg Host.Outcome.next (if_pos (by simp [hopen, hlate]))
theorem exec_narrow_acknowledged {w : Nat} (hst : (s.port p).st = .inService) (hm : n.mask ≤ 15) (hopen : n.switched = false) :
    exec (.narrow p n.mask true w) s = .next (s.modPort p (fun y => { y with narrowing := some { n with acked := true } })) := by
  refine ((if_neg (by simp [hst, hm])).trans (if_pos rfl)).trans (congrArg Host.Outcome.next ?_)
  rw [hn]
  refine (if_pos (by simp)).trans (maskSettled_unacked (n := { n with acked := true }) ?_ (by simp [hopen]))
  rw [port_modPort_same]
/-- At its counter the transmitter changes to the mask; the narrowing goes on until it is acknowledged. -/
theorem narrowSwitch_uses_mask (hswitch : n.switched = false) (hack : n.acked = false) : ∃ t, exec (.narrowSwitch p) s = .next t ∧
    Mgmt (((s.modPort p (fun x => { x with narrowing := some { n with switched := true } })).modPort p
      (fun x => { x with lanesIn := n.mask, lanesOut := (x.lanesIn ||| x.lanesOut) &&& (15 ^^^ n.mask) })).modLanes p
      (fun i l => l.masked n.mask ((s.port p).lanesIn ||| (s.port p).lanesOut) s.clk i)) t := by
  let u := s.modPort p (fun x => { x with narrowing := some { n with switched := true } })
  have hmask := useMask_mgmt u p n.mask
  have hport : u.port p = { s.port p with narrowing := some { n with switched := true } } := port_modPort_same s p (fun x => { x with narrowing := some { n with switched := true } })
  rw [hport] at hmask
  have hopen : (u.useMask p n.mask).maskSettled p = u.useMask p n.mask := by
    refine maskSettled_unacked (n := { n with switched := true }) ?_ (by simp [hack])
    rw [hmask.port, modLanes_port, port_modPort_same, hport]
  refine ⟨u.useMask p n.mask, ?_, hmask⟩
  show execNarrowSwitch p s = _
  rw [execNarrowSwitch, hn]
  exact congrArg Host.Outcome.next ((if_neg (by simp [hswitch])).trans hopen)
theorem exec_narrowTimeout (hlate : n.since + 2000 ≤ s.clk) : exec (.narrowTimeout p) s = .next (s.portDown p 6 true .detect) := by
  show execNarrowTimeout p s = _
  rw [execNarrowTimeout, hn]
  exact congrArg Host.Outcome.next (if_pos hlate)
end

-- Links that fail (R387, R388)
theorem exec_signalLost {b : Bool} (hst : (s.port p).st = .inService) (hidle : s.dev.stepGroup = none) :
    exec (.signalLost p b) s = .next (s.portDown p (if b then 2 else 1) true .detect) :=
  congrArg Host.Outcome.next ((if_pos (by simp [hst])).trans (stepCheck_idle (by simp [hidle])))
theorem exec_downIdleEnd (hidling : (s.port p).idling = true) (hover : (s.port p).downAt + 100000 ≤ s.clk) :
    exec (.downIdleEnd p) s = .next (s.modPort p (fun x => { x with idling := false })) :=
  congrArg Host.Outcome.next (if_pos (by simp [hidling, hover]))
theorem exec_retrain (hst : (s.port p).st = .inService) : exec (.retrain p) s = .next (s.portDown p 7 true .detect) := by
  refine (if_neg (by simp [hst, PortState.code])).trans (congrArg Host.Outcome.next ?_)
  rw [State.retrainPort, hst]
end

/-- Settles O36: every fall is one of the port, and a narrowing moves the port's mask and its lanes' states. -/
theorem laneCare : Obligations.LaneCare := by
  unfold Obligations.LaneCare
  refine ⟨fun s l => exec_laneFault_unused, fun s l p m hp hst hin hnone htest hm => ?_, fun s l b => exec_serWindow,
    fun s p m w hst hm hnone => ⟨exec_narrow_agrees hst hm hnone, fun hnarrow => ⟨_, exec_narrow_falls hst hm hnone hnarrow, portDown_goesDown _ _ _ _⟩⟩,
    fun s p n hn => ⟨exec_narrowRepeat hn, fun w => exec_narrow_acknowledged hn, fun hswitch hack => ?_,
      fun hlate => ⟨_, exec_narrowTimeout hn hlate, portDown_goesDown _ _ _ _⟩⟩,
    fun s p b hst hidle => ⟨_, exec_signalLost hst hidle, portDown_goesDown _ _ _ _⟩, fun s p => exec_downIdleEnd,
    fun s p hst => ⟨_, exec_retrain hst, portDown_goesDown _ _ _ _⟩⟩
  · have hexec := exec_laneFault hp hst hin hnone htest hm
    refine ⟨fun hwide => ?_, fun hnarrow => ?_⟩
    · rw [hexec, askMask_narrows hnone hwide]
    · rw [askMask_falls hnarrow] at hexec
      exact ⟨_, hexec, portDown_goesDown _ _ _ _⟩
  · obtain ⟨t, hexec, hmask⟩ := narrowSwitch_uses_mask hn hswitch hack
    refine ⟨t, hexec, ?_, ?_, ?_, by rw [hmask.pool]; simp, fun i hi hbit => ?_, fun i hi hbit hin hst => ?_⟩
    iterate 3 rw [hmask.port, modLanes_port, port_modPort_same, port_modPort_same]
    · rw [hmask.lane, lane_modLanes_at _ _ _ hi]
      exact masked_in _ hbit
    · rw [hmask.lane, lane_modLanes_at _ _ _ hi]
      exact masked_out hbit (by simp [hin]) hst

end Sys2Proof.Machine
end

section
/-! Bit-error tests between two ends, and eye scans (R397 to R404). -/

namespace Sys2Proof.Machine
open Sys2Proof

theorem BesideService.test {s t : State} (h : BesideService s t) (p : Nat) : (t.port p).test = (s.port p).test :=
  (congrArg Port.test (h.port p) : (t.port p).beside.test = (s.port p).beside.test)
theorem linkUsed_of_inService {s : State} {p : Nat} (h : (s.port p).st = .inService) : s.linkUsed p = true := by simp [State.linkUsed, h]
theorem diagUsed_of_linkUsed {s : State} {p : Nat} (h : s.linkUsed p = true) : s.diagUsed p = true := by simp [State.diagUsed, h]

-- The start of a test (R401)
section
variable {s : State} {p : Nat}
/-- The test that a DIAG START names, at the end that follows. -/
def followed (s : State) (m d : Nat) : Test :=
  { lanes := m, dur := d, leader := false, window := false, acked := true, sent := true, since := s.clk, ended := false, endAt := 0, results := [], peers := [] }
theorem exec_diagStart {m d : Nat} (hst : (s.port p).st = .linked) (hnone : (s.port p).test = none) (h0 : 0 < m) (hm : m ≤ 15) :
    exec (.diagStart p m d) s = .next ((((s.toPort p .test true id).modPort p (fun y => { y with test := some (followed s m d) })).modLanes p
      (fun i l => if m.testBit i then { l with st := 3 } else l)).emit (.ctrl p 8 [m, 3, 1, d])) := by
  have hused : s.diagUsed p = true := diagUsed_of_linkUsed (by simp [State.linkUsed, hst])
  have hmask : m ≠ 0 := by omega
  show execDiagStart p m d s = _
  simp only [execDiagStart, hst, abortTest_none hnone]
  rw [if_neg (by simp [hused, hm]), if_neg (by simp [hmask]), if_neg (by simp), if_neg (by simp)]
  rfl
theorem diagStart_tests {m d : Nat} (hst : (s.port p).st = .linked) (hnone : (s.port p).test = none) (h0 : 0 < m) (hm : m ≤ 15) :
    ∃ t, exec (.diagStart p m d) s = .next t ∧ (t.port p).st = .test ∧ t.out.getLast? = some (.ctrl p 8 [m, 3, 1, d]) ∧ (t.port p).test = some (followed s m d) := by
  refine ⟨_, exec_diagStart hst hnone h0 hm, ?_, ?_, ?_⟩
  · rw [(emit_mgmt _ _).port, modLanes_port, port_modPort_same, (toPort_mgmt _ _ _ _ _).port, port_modPort_same]
  · simp [State.emit]
  · rw [(emit_mgmt _ _).port, modLanes_port, port_modPort_same]
theorem diagAck_tests {x : Test} (hx : (s.port p).test = some x) (hused : s.diagUsed p = true) (hleader : x.leader = true) (hsent : x.sent = true)
    (hack : x.acked = false) (hwindow : x.window = false) :
    ∃ t, exec (.diagAck p x.lanes) s = .next t ∧ (t.port p).st = .test ∧ (t.port p).test = some { x with acked := true, since := s.clk } := by
  let u := (s.modPort p (fun y => { y with test := some { x with acked := true, since := s.clk } })).modLanes p
    (fun i l => if x.lanes.testBit i then { l with st := 3 } else l)
  have hport : ((u.toPort p .test true id).port p) = { u.port p with st := .test, stSince := u.clk } := by
    rw [(toPort_mgmt _ _ _ _ _).port, port_modPort_same]
    rfl
  refine ⟨u.toPort p .test true id, ?_, by rw [hport], by rw [hport]; simp [u]⟩
  refine (if_neg (by simp [hused])).trans ?_
  rw [hx]
  exact (if_neg (by simp [hleader, hsent, hack])).trans (congrArg Host.Outcome.next (if_neg (by simp [hwindow])))
theorem exec_diagAckTimeout {x : Test} (hx : (s.port p).test = some x) (hleader : x.leader = true) (hsent : x.sent = true) (hack : x.acked = false)
    (hlate : x.since + 10000 ≤ s.clk) : exec (.diagAckTimeout p) s = .next (s.stopTest p) := by
  show execDiagAckTimeout p s = _
  rw [execDiagAckTimeout, hx]
  exact congrArg Host.Outcome.next (if_pos (by simp [hleader, hsent, hack, hlate]))
theorem exec_diagStop {x : Test} (hx : (s.port p).test = some x) (hused : s.diagUsed p = true) (hended : x.ended = false) :
    exec (.diagStop p) s = .next (s.stopTest p) := by
  refine (if_neg (by simp [hused])).trans ?_
  rw [hx]
  exact congrArg Host.Outcome.next (if_neg (by simp [hended]))
end

-- The results of a test (R400, R404)
section
variable {s : State} {p l : Nat} {x : Test}
theorem widen_keeps (s : State) (p m : Nat) : ((s.widen p m).port p).st = (s.port p).st ∧ (s.widen p m).pool = s.pool ∧ ∀ l, (s.widen p m).lane l = s.lane l := by
  unfold State.widen
  split
  · exact ⟨rfl, rfl, fun _ => rfl⟩
  · exact ⟨by simp, by simp, fun _ => rfl⟩
theorem judgeLane_waits (hx : (s.port p).test = some x) (hown : tfind x.results l = none) : s.judgeLane p l = s := by simp [State.judgeLane, hx, hown]
/-- Counts of both directions make the verdict of a lane, and end its part of the test. -/
theorem judgeLane_records {a b : Nat × Nat} (hx : (s.port p).test = some x) (hown : tfind x.results l = some a) (hpeer : tfind x.peers l = some b) :
    ((s.judgeLane p l).lane (4 * p + l)).bertRes = (if s.bertMeets a = true ∧ s.bertMeets b = true then 1 else 2) ∧ (s.judgeLane p l).pool = s.pool ∧
    ((s.judgeLane p l).port p).st = (s.port p).st := by
  let worse := if a.2 * b.1 < b.2 * a.1 then b else a
  let left := x.lanes &&& (15 ^^^ 2 ^ l)
  let res := if (s.bertMeets a && s.bertMeets b) = true then 1 else 2
  let u := (s.recordTest p l res worse).modPort p (fun y => { y with test := if left == 0 then none else some { x with lanes := left } })
  have hrecord := recordTest_lanesOnly s p l res worse
  have hres : (u.lane (4 * p + l)).bertRes = (if s.bertMeets a = true ∧ s.bertMeets b = true then 1 else 2) := by
    refine (recordTest_bertRes s p l res worse (4 * p + l)).trans ((if_pos rfl).trans ?_)
    simp [res]
  have hst : (u.port p).st = (s.port p).st := by
    rw [port_modPort_same, hrecord.port]
  have hjudge : s.judgeLane p l = if (x.window && (s.port p).st == .inService && (s.bertMeets a && s.bertMeets b)) = true then u.widen p (2 ^ l) else u := by
    rw [State.judgeLane, hx]
    dsimp only
    rw [hown, hpeer]
  obtain ⟨hwst, hwpool, hwlane⟩ := widen_keeps u p (2 ^ l)
  rw [hjudge]
  split
  · exact ⟨by rw [hwlane]; exact hres, hwpool.trans hrecord.pool, hwst.trans hst⟩
  · exact ⟨hres, hrecord.pool, hst⟩
theorem exec_diagResult {b n : Nat} (hx : (s.port p).test = some x) (hst : (s.port p).st = .inService) (hlane : x.lanes.testBit l = true) :
    exec (.diagResult p l b n) s =
      .next (((s.modPort p (fun y => { y with test := some { x with peers := tset x.peers l (b, n) } })).judgeLane p l).tryService p) := by
  have hused := linkUsed_of_inService hst
  refine (if_neg (by simp [diagUsed_of_linkUsed hused])).trans ?_
  rw [hx]
  exact (if_neg (by simp [hused])).trans (if_neg (by simp [hlane]))
theorem exec_diagResult_waits {b n : Nat} (hx : (s.port p).test = some x) (hst : (s.port p).st = .inService) (hlane : x.lanes.testBit l = true)
    (hown : tfind x.results l = none) :
    exec (.diagResult p l b n) s = .next (s.modPort p (fun y => { y with test := some { x with peers := tset x.peers l (b, n) } })) := by
  let u := s.modPort p (fun y => { y with test := some { x with peers := tset x.peers l (b, n) } })
  have hport : u.port p = { s.port p with test := some { x with peers := tset x.peers l (b, n) } } :=
    port_modPort_same s p (fun y => { y with test := some { x with peers := tset x.peers l (b, n) } })
  have hwait : u.judgeLane p l = u := judgeLane_waits (x := { x with peers := tset x.peers l (b, n) }) (by rw [hport]) hown
  refine (exec_diagResult hx hst hlane).trans (congrArg Host.Outcome.next ((congrArg (fun t : State => t.tryService p) hwait).trans (tryService_unlinked ?_)))
  rw [hport]
  simp [hst]
theorem diagResult_judges {a : Nat × Nat} {b n : Nat} (hx : (s.port p).test = some x) (hst : (s.port p).st = .inService) (hlane : x.lanes.testBit l = true)
    (hown : tfind x.results l = some a) :
    ∃ t, exec (.diagResult p l b n) s = .next t ∧
      (t.lane (4 * p + l)).bertRes = (if s.bertMeets a = true ∧ s.bertMeets (b, n) = true then 1 else 2) ∧ t.pool = s.pool := by
  let u := s.modPort p (fun y => { y with test := some { x with peers := tset x.peers l (b, n) } })
  have hport : u.port p = { s.port p with test := some { x with peers := tset x.peers l (b, n) } } :=
    port_modPort_same s p (fun y => { y with test := some { x with peers := tset x.peers l (b, n) } })
  obtain ⟨hres, hpool, hst'⟩ := judgeLane_records (s := u) (x := { x with peers := tset x.peers l (b, n) }) (a := a) (b := (b, n)) (by rw [hport]) hown (by simp)
  refine ⟨u.judgeLane p l, (exec_diagResult hx hst hlane).trans (congrArg Host.Outcome.next (tryService_unlinked ?_)), hres, hpool⟩
  rw [hst', hport]
  simp [hst]
theorem exec_diagResultRepeat (hused : s.linkUsed p = true) (hx : (s.port p).test = some x) (hended : x.ended = true) (hnone : x.peers = []) :
    exec (.diagResultRepeat p) s = .next { s with out := s.out ++ (bitsOf 4 x.lanes).map (fun i =>
      .ctrl p 8 [2 ^ i, 4, 1, 0, min (tget (0, 0) x.results i).1 (2 ^ 64 - 1), min (tget (0, 0) x.results i).2 (2 ^ 64 - 1)]) } := by
  refine congrArg Host.Outcome.next ((if_pos hused).trans ?_)
  have hall : (bitsOf 4 x.lanes).filter (fun i => (tfind x.peers i).isNone) = bitsOf 4 x.lanes := by simp [hnone, tfind]
  rw [State.sendResults, hx]
  dsimp only
  rw [if_pos hended, hall]
  exact foldl_emit _ _ _
theorem diagResultTimeout_aborts (hx : (s.port p).test = some x) (hended : x.ended = true) (hused : s.linkUsed p = true) (hlane : x.lanes.testBit l = true)
    (hpeer : tfind x.peers l = none) (hlate : x.endAt + 1000000 ≤ s.clk) (hlast : x.lanes &&& (15 ^^^ 2 ^ l) = 0) :
    ∃ t, exec (.diagResultTimeout p l) s = .next t ∧ (t.port p).test = none ∧ (t.lane (4 * p + l)).bertRes = 3 ∧ t.pool = s.pool := by
  let u := (s.recordTest p l 3 (tget (0, 0) x.results l)).modPort p
    (fun y => { y with test := if x.lanes &&& (15 ^^^ 2 ^ l) == 0 then none else some { x with lanes := x.lanes &&& (15 ^^^ 2 ^ l) } })
  have hserved := tryService_besideService u p
  refine ⟨u.tryService p, ?_, (hserved.test p).trans ?_, (hserved.bertRes _).trans ?_, hserved.pool.trans (recordTest_lanesOnly _ _ _ _ _).pool⟩
  · show execDiagResultTimeout p l s = _
    rw [execDiagResultTimeout, hx]
    exact if_neg (by simp [hended, hused, hlane, hpeer, hlate])
  · rw [port_modPort_same, hlast]
    rfl
  · exact (recordTest_bertRes _ _ _ _ _ _).trans (if_pos rfl)
/-- The test's duration over, the port trains anew and keeps its counts (R401). -/
theorem testEnd_detects {c : List (Nat × Nat)} (hx : (s.port p).test = some x) (hst : (s.port p).st = .test) (hover : x.since + x.dur * 1000 ≤ s.clk)
    (htries : 0 < s.link.trainTries) :
    ∃ t, exec (.testEnd p c) s = .next t ∧ (t.port p).st = .detect ∧
      (t.port p).test = some { x with ended := true, results := (bitsOf 4 x.lanes).foldl (fun r i => tset r i (c.getD i (0, 0))) [] } := by
  refine ⟨(s.toDetect p 0 true).modPort p (fun y => { y with
    test := some { x with ended := true, results := (bitsOf 4 x.lanes).foldl (fun r i => tset r i (c.getD i (0, 0))) [] } }), ?_, ?_, ?_⟩
  · show execTestEnd p c s = _
    rw [execTestEnd, hx]
    exact if_neg (by simp [hst, hover])
  · rw [port_modPort_same, (toDetect_mgmt true htries).port]
    simp [State.lanesOff, Port.anew]
  · rw [port_modPort_same]
end

-- Eye scans (R397, R398)
/-- The record of the last eye of a scan at rate 0, which has neither baseline nor margin. -/
def eyeAtRate0 (s : State) (l start vstep width : Nat) (errors : List Nat) : EyeRec :=
  { lane := l, eye := 2, rate := 0, traffic := (s.lane l).st == 1, baseline := false, degraded := false, dwell := s.link.eyeDwell, vstep := vstep, width := width, height := 0,
    startSlot := start, endSlot := s.slot, baseWidth := ((tfind (s.lane l).bases 2).map (fun b => b.width)).getD 0,
    baseHeight := ((tfind (s.lane l).bases 2).map (fun b => b.height)).getD 0, errors := errors.map (fun e => min e 65535) }
theorem exec_eyeScanComplete {s : State} {l a b c : Nat} {e : List Nat} (hscan : (s.lane l).scanning = some a) (hrate : (s.port (l / 4)).rate = 0) :
    exec (.eyeScanComplete l 2 b c 0 e) s = .next (s.modLane l (fun x => { x with eyeRec := some (eyeAtRate0 s l a b c e), scanning := none })) := by
  show execEyeScanComplete l 2 b c 0 e s = _
  rw [execEyeScanComplete, hscan]
  cases hbase : tfind (s.lane l).bases 2 with
  | none => simp [hrate, hbase, eyeAtRate0]
  | some r => simp [hrate, hbase, eyeAtRate0]

/-- Settles O37: each message and time of a test changes the test of its port and the records of its lanes. -/
theorem diagMessages : Obligations.DiagMessages := by
  unfold Obligations.DiagMessages
  refine ⟨fun s p m d => diagStart_tests, fun s p x => diagAck_tests, fun s p x hx hst htries => ⟨fun hleader hsent hack hlate => ?_, fun hused hended => ?_⟩,
    fun s p l b n x hx hst hlane _ => ⟨exec_diagResult_waits hx hst hlane, fun a => diagResult_judges hx hst hlane⟩,
    fun s p x hused hx hended hnone _ => exec_diagResultRepeat hused hx hended hnone, fun s p l x => diagResultTimeout_aborts, fun s p c x hx hst hover htries => ?_,
    fun s l k a b c e hscan hk hrate => ?_⟩
  · exact ⟨_, exec_diagAckTimeout hx hleader hsent hack hlate, stopTest_detects hx hst htries⟩
  · exact ⟨_, exec_diagStop hx hused hended, stopTest_detects hx hst htries⟩
  · obtain ⟨t, hexec, hdetect, htest⟩ := testEnd_detects (c := c) hx hst hover htries
    exact ⟨t, hexec, hdetect, _, htest, rfl, rfl⟩
  · subst hk
    exact ⟨_, exec_eyeScanComplete hscan hrate, rfl, rfl, rfl, rfl, rfl, rfl, rfl, rfl⟩

end Sys2Proof.Machine
end

section
/-! The queue of commands and the CONST objects (R408) under carriage, translation and the bookkeeping of the pool: each operation leaves both, and the
device as it is but for a move between FULL and DEGRADED. -/

namespace Sys2Proof.Machine
open Sys2Proof

/-- The CONST objects of Table 14-3, which the factory wrote (R408). -/
def Dev.factory (d : Dev) : Nat × Bool × Nat × Nat × Nat := (d.uid, d.variantLH, d.stepping, d.mac, d.vendorId)
/-- A device read by its CONST objects, whatever its other fields, is read by `Dev.factory`. -/
@[simp] theorem factory_eta (d : Dev) : (d.uid, d.variantLH, d.stepping, d.mac, d.vendorId) = d.factory := rfl
@[simp] theorem factory_mk (uid : Nat) (variantLH : Bool) (stepping mac vendorId fwVersion : Nat) (fwCopy : Bool) (phase : Phase) (phaseSince : Nat) (spine : Bool)
    (mode factoryTest label : Nat) (roleStrapChanged rolePin : Bool) (straps : Nat) (strapsSampled : Bool) (bootStatus drainMax drainSince : Nat)
    (powerWarned : Option Nat) (offAfter warnings : Nat) (hbmTrained fwRunning afterReset : Bool) (stepGroup : Option Nat) (stepWait : List Nat) :
    (Dev.mk uid variantLH stepping mac vendorId fwVersion fwCopy phase phaseSince spine mode factoryTest label roleStrapChanged rolePin straps strapsSampled
      bootStatus drainMax drainSince powerWarned offAfter warnings hbmTrained fwRunning afterReset stepGroup stepWait).factory =
      (uid, variantLH, stepping, mac, vendorId) := rfl
/-- `t` has the queue of commands and the CONST objects of `s`. -/
@[reducible, simp] def Untouched (s t : State) : Prop := t.pending = s.pending ∧ t.dev.factory = s.dev.factory
theorem Untouched.trans {s t u : State} (h : Untouched s t) (g : Untouched t u) : Untouched s u := ⟨g.1.trans h.1, g.2.trans h.2⟩
@[simp] theorem ite_pending (c : Prop) [Decidable c] (s t : State) : (if c then s else t).pending = if c then s.pending else t.pending :=
  apply_ite (fun u : State => u.pending) c s t
@[simp] theorem ite_factory (c : Prop) [Decidable c] (s t : State) : (if c then s else t).dev.factory = if c then s.dev.factory else t.dev.factory :=
  apply_ite (fun u : State => u.dev.factory) c s t
@[simp] theorem foldl_untouched {α : Type} {f : State → α → State} (h : ∀ s x, Untouched s (f s x)) (l : List α) (s : State) : Untouched s (l.foldl f s) := by
  induction l generalizing s with
  | nil => exact ⟨rfl, rfl⟩
  | cons x r ih => exact (h s x).trans (ih _)
theorem FloodOnly.factory {d e : Dev} (h : FloodOnly d e) : e.factory = d.factory := by
  rcases h with rfl | ⟨_, p, x, _, rfl⟩ <;> rfl
/-- A device but for a move between FULL and DEGRADED (R458), which carriage itself can make. -/
def Dev.steady (d : Dev) : Dev := { d with phase := if d.phase = .degraded then .full else d.phase, phaseSince := 0 }
/-- `t` is untouched, and has the device of `s` but for a move between FULL and DEGRADED. -/
@[reducible, simp] def Steady (s t : State) : Prop := t.pending = s.pending ∧ t.dev.factory = s.dev.factory ∧ t.dev.steady = s.dev.steady
theorem Steady.refl (s : State) : Steady s s := ⟨rfl, rfl, rfl⟩
theorem Steady.trans {s t u : State} (h : Steady s t) (g : Steady t u) : Steady s u := ⟨g.1.trans h.1, g.2.1.trans h.2.1, g.2.2.trans h.2.2⟩
theorem Steady.untouched {s t : State} (h : Steady s t) : Untouched s t := ⟨h.1, h.2.1⟩
@[simp] theorem ite_steady (c : Prop) [Decidable c] (s t : State) : (if c then s else t).dev.steady = if c then s.dev.steady else t.dev.steady :=
  apply_ite (fun u : State => u.dev.steady) c s t
@[simp] theorem foldl_steady {α : Type} {f : State → α → State} (h : ∀ s x, Steady s (f s x)) (l : List α) (s : State) : Steady s (l.foldl f s) := by
  induction l generalizing s with
  | nil => exact .refl s
  | cons x r ih => exact (h s x).trans (ih _)
theorem Mgmt.steady {s t : State} (h : Mgmt s t) : Steady s t := by
  obtain ⟨v, e, o, rfl⟩ := h
  exact .refl s
theorem FloodOnly.steady {d e : Dev} (h : FloodOnly d e) : e.steady = d.steady := by
  rcases h with rfl | ⟨hd | hd, p, x, rfl | rfl, rfl⟩ <;> simp [Dev.steady, *]
theorem Carried.steady {s t : State} (h : Carried s t) : Steady s t := by
  obtain ⟨dev, vane, evt, out, tel, ports, sw, xact, win, hd, hp, rfl⟩ := h
  exact ⟨rfl, hd.factory, hd.steady⟩
theorem Sent.steady {s t : State} (h : Sent s t) : Steady s t := by
  obtain ⟨r, hr⟩ := h
  exact hr.steady
theorem Moved.steady {s t : State} (h : Moved s t) : Steady s t := by
  obtain ⟨m, x, r, hr⟩ := h
  exact hr.steady
/-- Whatever state the effect of a write gives is untouched. -/
def EffUntouched (s : State) (r : Except Nat State) : Prop := ∀ w, r = .ok w → Untouched s w
@[simp] theorem effUntouched_ok (s w : State) : EffUntouched s (.ok w) ↔ Untouched s w := by simp [EffUntouched]
@[simp] theorem effUntouched_error (s : State) (a : Nat) : EffUntouched s (.error a) := by simp [EffUntouched]
@[simp] theorem effUntouched_ite (s : State) (c : Prop) [Decidable c] (q r : Except Nat State) :
    EffUntouched s (if c then q else r) ↔ (c → EffUntouched s q) ∧ (¬c → EffUntouched s r) := by split <;> simp [*]
@[simp] theorem effUntouched_check (s : State) (c : Bool) (a : Nat) (r : Except Nat State) : EffUntouched s (check c a r) ↔ (c = true → EffUntouched s r) := by
  simp [check]
/-- Whatever next state a command answers is untouched. -/
def NextUntouched (s : State) (a : Answer) : Prop := ∀ t, a = .next t → Untouched s t
@[simp] theorem nextUntouched_next (s t : State) : NextUntouched s (.next t) ↔ Untouched s t := by simp [NextUntouched]
@[simp] theorem nextUntouched_ite (s : State) (c : Prop) [Decidable c] (a b : Answer) :
    NextUntouched s (if c then a else b) ↔ (c → NextUntouched s a) ∧ (¬c → NextUntouched s b) := by split <;> simp [*]
@[simp] theorem modDev_dev (s : State) (f : Dev → Dev) : (s.modDev f).dev = f s.dev := rfl

-- Outputs, objects, epochs, events and phases
@[simp] theorem modInst_steady (s : State) (i : Nat) (f : Inst → Inst) : Steady s (s.modInst i f) := by simp [State.modInst]
@[simp] theorem notifyOne_steady (e : Event) (s : State) (i : Nat × Session) : Steady s (notifyOne e s i) := by simp [notifyOne]
@[simp] theorem selfChange_steady (s : State) (u : EUnit) (f : State → State) : Steady (f s) (s.selfChange u f) := (noteChange_mgmt _ _ _ _ _).steady
@[simp] theorem cmdChange_steady (s : State) (u : EUnit) (f : State → State) : Steady (f s) (s.cmdChange u f) := (noteChange_mgmt _ _ _ _ _).steady
@[simp] theorem toPhase_untouched (s : State) (ph : Phase) (self : Bool) : Untouched s (s.toPhase ph self) := by simp [State.toPhase]
@[simp] theorem settlePhase_steady (s : State) : Steady s s.settlePhase := (settlePhase_carried s).steady

-- The switch core
@[simp] theorem setAdm_steady (s : State) (a v held out : Nat) : Steady s (s.setAdm a v held out) := by simp [State.setAdm]
@[simp] theorem grant_steady (s : State) (a v n : Nat) : Steady s (s.grant a v n) := by simp [State.grant]
@[simp] theorem grantMore_steady (a v n : Nat) (s : State) : Steady s (grantMore a v n s) := (grantMore_carried _ _ _ _).steady
@[simp] theorem charge_steady (s : State) (a v n : Nat) : Steady s (s.charge a v n) := by simp [State.charge]
@[simp] theorem freeCells_steady (s : State) (a v n : Nat) : Steady s (s.freeCells a v n) := by simp [State.freeCells]
@[simp] theorem addRepin_steady (s : State) (c : RepinCause) (dur : Nat) : Steady s (s.addRepin c dur) := by simp [State.addRepin]
@[simp] theorem enterFlood_steady (s : State) : Steady s s.enterFlood := by simp [State.enterFlood]
@[simp] theorem floodCheck_steady (s : State) : Steady s s.floodCheck := by simp [State.floodCheck]
@[simp] theorem addMark_steady (s : State) (m : Mark) : Steady s (s.addMark m) := by simp [State.addMark]
@[simp] theorem markFlow_steady (s : State) (t : Txn) (adm : Nat) : Steady s (s.markFlow t adm) := by simp [State.markFlow]
@[simp] theorem dropMarks_steady (s : State) (p : Mark → Bool) : Steady s (s.dropMarks p) := by simp [State.dropMarks]
@[simp] theorem enqueue_steady (s : State) (egress vc : Nat) (e : QEntry) : Steady s (s.enqueue egress vc e) := by simp [State.enqueue]
@[simp] theorem release_steady (s : State) (e : QEntry) : Steady s (s.release e) := by simp [State.release]
@[simp] theorem toInbox_steady (s : State) (t : Txn) : Steady s (s.toInbox t) := by simp [State.toInbox]
@[simp] theorem sendRsp_steady (s : State) (e : QEntry) : Steady s (s.sendRsp e) := by
  unfold State.sendRsp
  split <;> simp
@[simp] theorem failEntry_steady (s : State) (e : QEntry) (st : Nat) (repl : Bool) : Steady s (s.failEntry e st repl) := by simp [State.failEntry]
@[simp] theorem ageRsp_steady (s : State) (e : QEntry) : Steady s (s.ageRsp e) := by simp [State.ageRsp]
@[simp] theorem failContribs_steady (st : Nat) (mark : MarkOf) (l : List Contrib) (s : State) : Steady s (failContribs st mark l s) :=
  (failContribs_carried _ _ _ _).steady
@[simp] theorem discard_steady (s : State) (e : QEntry) (mark : MarkOf) : Steady s (s.discard e mark) := by
  unfold State.discard
  split <;> simp
@[simp] theorem markDiscard_steady (s : State) (e : QEntry) : Steady s (s.markDiscard e) := by simp [State.markDiscard]
@[simp] theorem melt_steady (s : State) (e : QEntry) (egress : Option Nat) : Steady s (s.melt e egress) := by
  dsimp only [State.melt]
  repeat' split
  all_goals simp
@[simp] theorem countRevoked_steady (s : State) : Steady s s.countRevoked := by simp [State.countRevoked]
@[simp] theorem retire_steady (s : State) (e : QEntry) : Steady s (s.retire e) := by
  dsimp only [State.retire]
  repeat' split
  all_goals simp
theorem headCheck_steady {s t : State} {e : QEntry} {egress : Option Nat} (h : s.headCheck e egress = some t) : Steady s t := by
  unfold State.headCheck at h
  split_ifs at h <;> cases h <;> simp
@[simp] theorem trim_steady (s : State) (e : QEntry) {put : QEntry → State → State} (h : ∀ x t, Steady t (put x t)) : Steady s (s.trim e put) := by
  unfold State.trim
  split
  · split <;> simp [h]
  · simp
@[simp] theorem accretePut_steady (s : State) (q : List QEntry) (e : QEntry) (tile home : Nat) : Steady s (s.accretePut q e tile home).2 := by
  dsimp only [State.accretePut]
  repeat' split
  all_goals simp
@[simp] theorem leave_steady (s : State) (e : QEntry) : Steady s (s.leave e).2 := by
  dsimp only [State.leave]
  repeat' split
  all_goals simp
@[simp] theorem winDeny_steady (s : State) (e : Nat) : Steady s (s.winDeny e) := by simp [State.winDeny]
@[simp] theorem takeTurn_steady (s : State) : Steady s s.takeTurn := by simp [State.takeTurn]
@[simp] theorem putTurn_steady (s : State) (e : QEntry) : Steady s (s.putTurn e) := by
  dsimp only [State.putTurn]
  repeat' split
  all_goals simp
@[simp] theorem putLine_steady (s : State) (e : QEntry) : Steady s (s.putLine e) := by simp [State.putLine]
@[simp] theorem putReq_steady (s : State) (e : QEntry) (eg : Nat) : Steady s (s.putReq e eg) := by simp [State.putReq]
@[simp] theorem agedOrPut_steady (s : State) (e : QEntry) (eg : Nat) : Steady s (s.agedOrPut e eg) := by simp [State.agedOrPut]
@[simp] theorem forward_steady (s : State) (e : QEntry) : Steady s (s.forward e) := by
  dsimp only [State.forward]
  repeat' split
  all_goals simp
@[simp] theorem launch_steady (s : State) (key : Nat) (t : Txn) : Steady s (s.launch key t) := by simp [State.launch]
@[simp] theorem issueAs_steady (s : State) (node : Nat) (t : Txn) (who : Purpose) (timeout : Nat) :
    Steady s (s.issueAs node t who timeout) := by simp [State.issueAs]
@[simp] theorem issue_steady (s : State) (t : Txn) (who : Purpose) (timeout : Nat) : Steady s (s.issue t who timeout) := by simp [State.issue]
@[simp] theorem reissue_steady (s : State) (key : Nat) (r : OutReq) : Steady s (s.reissue key r) := by simp [State.reissue]
@[simp] theorem backoff_steady (s : State) (key : Nat) (o : OutReq) : Steady s (s.backoff key o) := by simp [State.backoff]
@[simp] theorem endReq_steady (s : State) (key : Nat) : Steady s (s.endReq key) := by simp [State.endReq]
@[simp] theorem breakKey_steady (s : State) (t r : Txn) : Steady s (s.breakKey t r) := by simp [State.breakKey]
@[simp] theorem syncOne_steady (s : State) (k : Nat × Nat × Nat × Nat) : Steady s (s.syncOne k) := by simp [State.syncOne]
@[simp] theorem sendHeld_steady (s : State) (key : Nat) : Steady s (s.sendHeld key) := by
  unfold State.sendHeld
  split <;> simp
@[simp] theorem sendOut_steady (s : State) (t : Txn) : Steady s (s.sendOut t) := by
  unfold State.sendOut
  split <;> simp
@[simp] theorem pump_steady (s : State) : Steady s s.pump := by simp [State.pump]

-- Translation and withdrawals
@[simp] theorem logFault_steady (s : State) (f : FaultRec) : Steady s (s.logFault f) := by simp [State.logFault]
@[simp] theorem fill_steady (s : State) (tile : Nat) (e : TEntry) : Steady s (s.fill tile e) := by simp [State.fill]
@[simp] theorem touch_steady (s : State) (tile ctx va : Nat) (hit : Bool) : Steady s (s.touch tile ctx va hit) := by simp [State.touch]
@[simp] theorem countMiss_steady (s : State) (tile : Nat) : Steady s (s.countMiss tile) := by simp [State.countMiss]
@[simp] theorem edgeFail_steady (s : State) (e : QEntry) (st : Nat) : Steady s (s.edgeFail e st) := by simp [State.edgeFail]
@[simp] theorem edgeRetry_steady (s : State) (e : QEntry) : Steady s (s.edgeRetry e) := by simp [State.edgeRetry]
@[simp] theorem edgeForward_steady (s : State) (e : QEntry) (x : TEntry) : Steady s (s.edgeForward e x) := by simp [State.edgeForward]
@[simp] theorem setWalker_steady (s : State) (w : Nat) (x : Option Walk) : Steady s (s.setWalker w x) := by simp [State.setWalker]
theorem addMiss_steady {s t : State} {d : Nat} {m : Miss} (h : s.addMiss d m = some t) : Steady s t := (addMiss_xlated h).moved.steady
@[simp] theorem setHolds_steady (s : State) (tile : Nat) (l : List Held) : Steady s (s.setHolds tile l) := by simp [State.setHolds]
@[simp] theorem sendMgt_steady (s : State) (t : Txn) : Steady s (s.sendMgt t) := by simp [State.sendMgt]
@[simp] theorem askHost_steady (s : State) (h ctx va asker : Nat) (wr : Bool) : Steady s (s.askHost h ctx va asker wr) := by simp [State.askHost]
@[simp] theorem askPage_steady (s : State) (ctx va : Nat) (wr : Bool) : Steady s (s.askPage ctx va wr) := by
  unfold State.askPage
  split <;> simp
@[simp] theorem translateDirect_steady (s : State) (e : QEntry) (since : Nat) (first : Bool) : Steady s (s.translateDirect e since first) := by
  dsimp only [State.translateDirect]
  split
  · simp
  split
  · simp
  split
  · simp
  · next hm => simp [addMiss_steady hm]
@[simp] theorem resumeHolds_steady (tile : Nat) (l : List Held) (s : State) : Steady s (resumeHolds tile l s) := by
  induction l generalizing s with
  | nil => simp [resumeHolds]
  | cons h r ih => simp [resumeHolds, ih]
@[simp] theorem resumeTile_steady (s : State) (tile : Nat) : Steady s (s.resumeTile tile) := by simp [State.resumeTile]
@[simp] theorem walkRead_steady (s : State) (w : Nat) (k : Walk) (level fa : Nat) : Steady s (s.walkRead w k level fa) := by simp [State.walkRead]
@[simp] theorem wfill_steady (s : State) (d : Nat) (e : WEntry) : Steady s (s.wfill d e) := by simp [State.wfill]
@[simp] theorem failHeld_steady (s : State) (tile ctx va st : Nat) : Steady s (s.failHeld tile ctx va st) := by simp [State.failHeld]
@[simp] theorem waiterFail_steady (ctx va st : Nat) (s : State) (x : Waiter) : Steady s (waiterFail ctx va st s x) := by
  unfold waiterFail
  split <;> simp
@[simp] theorem walkFault_steady (s : State) (w : Nat) (k : Walk) : Steady s (s.walkFault w k) := by simp [State.walkFault]
@[simp] theorem waiterFill_steady (x : TEntry) (va : Nat) (s : State) (y : Waiter) : Steady s (waiterFill x va s y) := by
  unfold waiterFill
  split <;> simp
@[simp] theorem walkAbsent_steady (s : State) (w : Nat) (k : Walk) : Steady s (s.walkAbsent w k) := by simp [State.walkAbsent]
@[simp] theorem walkGot_steady (s : State) (w : Nat) (k : Walk) (x : TEntry) : Steady s (s.walkGot w k x) := by simp [State.walkGot]
@[simp] theorem walkLeaf_steady (s : State) (w : Nat) (k : Walk) (e : NEntry) : Steady s (s.walkLeaf w k e) := by simp [State.walkLeaf]
@[simp] theorem atsResult_steady (s : State) (w : Nat) (k : Walk) (base size t : Nat) (r wr u : Bool) :
    Steady s (s.atsResult w k base size t r wr u) := by simp [State.atsResult]
@[simp] theorem walkBegin_steady (s : State) (w : Nat) (k : Walk) : Steady s (s.walkBegin w k) := by
  dsimp only [State.walkBegin]
  repeat' split
  all_goals simp
@[simp] theorem walkEntry_steady (s : State) (w : Nat) (k : Walk) (r : Txn) : Steady s (s.walkEntry w k r) := by simp [State.walkEntry]
@[simp] theorem atsDone_steady (s : State) (w addr size : Nat) (r wr u : Bool) : Steady s (s.atsDone w addr size r wr u) := by
  unfold State.atsDone
  split <;> simp
@[simp] theorem prgAt_steady (c va : Nat) (ok : Bool) (s : State) (w : Nat) : Steady s (prgAt c va ok s w) := by
  unfold prgAt
  split <;> simp
@[simp] theorem pageAnswer_steady (s : State) (c va : Nat) (ok : Bool) : Steady s (s.pageAnswer c va ok) := by simp [State.pageAnswer]
@[simp] theorem tellPage_steady (c va : Nat) (ok : Bool) (s : State) (asker : Nat) : Steady s (State.tellPage c va ok s asker) := by simp [State.tellPage]
@[simp] theorem remoteAts_steady (s : State) (from_ w ctx va : Nat) : Steady s (s.remoteAts from_ w ctx va) := by
  unfold State.remoteAts
  split <;> simp
@[simp] theorem remotePage_steady (s : State) (from_ ctx va : Nat) (wr : Bool) : Steady s (s.remotePage from_ ctx va wr) := by
  unfold State.remotePage
  split <;> simp
@[simp] theorem redoLine_steady (s : State) (p : Purpose) : Steady s (s.redoLine p) := by
  unfold State.redoLine
  split <;> simp
@[simp] theorem unholdStale_steady (s : State) (key : Nat) : Steady s (unholdStale s key) := by
  dsimp only [unholdStale]
  repeat' split
  all_goals simp
@[simp] theorem applyNotice_steady (s : State) (home id : Nat) (fa : Bool) (ctx base len2m : Nat) :
    Steady s (s.applyNotice home id fa ctx base len2m) := by simp [State.applyNotice]
@[simp] theorem runWd_steady (s : State) (w : Withdrawal) : Steady s (s.runWd w) := by simp [State.runWd]
@[simp] theorem startWd_steady (s : State) (fa : Bool) (ctx base len2m nfa nval : Nat) (cause : WdCause) :
    Steady s (s.startWd fa ctx base len2m nfa nval cause) := by simp [State.startWd]
@[simp] theorem startCtxWd_steady (s : State) (ctx : Nat) (cause : WdCause) : Steady s (s.startCtxWd ctx cause) := by simp [State.startCtxWd]
@[simp] theorem wdNext_steady (n : Nat) (s : State) : Steady s (wdNext n s) := by
  induction n generalizing s with
  | zero => simp [wdNext]
  | succ n ih =>
    rw [wdNext]
    repeat' split
    all_goals simp [ih]

-- The pool
theorem takeGranule_steady {s t : State} {d : Nat} {g : Granule} (h : s.takeGranule d = some (g, t)) : Steady s t := by
  unfold State.takeGranule at h
  split at h
  · cases h
  · split at h <;> cases h <;> simp
@[simp] theorem allocGranules_steady (e n i : Nat) (s : State) : Steady s (allocGranules e n i s).2 := by
  induction n generalizing i s with
  | zero => simp [allocGranules]
  | succ n ih =>
    rw [allocGranules]
    split
    · simp
    · next ht => simp [ih, takeGranule_steady ht]
@[simp] theorem putParity_steady (s : State) (x : Ext) (off : Nat) : Steady s (s.putParity x off) := by simp [State.putParity]
@[simp] theorem putMac_steady (s : State) (x : Ext) (off : Nat) : Steady s (s.putMac x off) := by simp [State.putMac]
@[simp] theorem poolWrite_steady (s : State) (off : Nat) (b : Bytes) : Steady s (s.poolWrite off b) := by
  unfold State.poolWrite
  split <;> simp
@[simp] theorem moraine_steady (s : State) (m : Moraine) : Steady s (s.moraine m) := by simp [State.moraine]
@[simp] theorem moraineFor_steady (e : Nat) (x : Ext) (cause stack : Nat) (lines : List Nat) (s : State) (page : Nat) :
    Steady s (moraineFor e x cause stack lines s page) := by simp [moraineFor]
@[simp] theorem recordPoison_steady (s : State) (e : Nat) (x : Ext) (cause stack : Nat) (lines : List Nat) :
    Steady s (s.recordPoison e x cause stack lines) := by simp [State.recordPoison]
@[simp] theorem poison_steady (s : State) (e : Nat) (x : Ext) (cause stack : Nat) (lines : List Nat) :
    Steady s (s.poison e x cause stack lines) := by simp [State.poison]
@[simp] theorem macCheck_steady (s : State) (off : Nat) : Steady s (s.macCheck off) := by
  unfold State.macCheck
  split <;> simp
@[simp] theorem lineUe_steady (s : State) (off : Nat) : Steady s (s.lineUe off) := by
  unfold State.lineUe
  split <;> simp
@[simp] theorem setDie_steady (s : State) (d : Nat) (st : DieState) : Steady s (s.setDie d st) := by simp [State.setDie]
@[simp] theorem retireCheck_steady (s : State) (d : Nat) : Steady s (s.retireCheck d) := by simp [State.retireCheck]
@[simp] theorem failStack_steady (s : State) (k cause : Nat) (self : Bool) : Steady s (s.failStack k cause self) := by
  dsimp only [State.failStack]
  repeat' split
  all_goals simp
@[simp] theorem countUe_steady (s : State) (k : Nat) : Steady s (s.countUe k) := by simp [State.countUe]
@[simp] theorem rebuildStripe_steady (s : State) (d : Nat) : Steady s (s.rebuildStripe d) := by
  dsimp only [State.rebuildStripe]
  repeat' split
  all_goals simp
@[simp] theorem evacuate_steady (s : State) (d : Nat) : Steady s (s.evacuate d) := by
  unfold State.evacuate
  split
  · simp
  split
  · simp
  split
  · simp
  split
  · simp
  · next ht => simp [takeGranule_steady ht]
@[simp] theorem dirDrop_steady (s : State) (line h : Nat) : Steady s (s.dirDrop line h) := by
  unfold State.dirDrop
  split <;> simp
@[simp] theorem noteLost_steady (s : State) (e h : Nat) : Steady s (s.noteLost e h) := by simp [State.noteLost]
@[simp] theorem dirDead_steady (s : State) (line h : Nat) : Steady s (s.dirDead line h) := by
  dsimp only [State.dirDead]
  repeat' split
  all_goals simp
@[simp] theorem dirClean_steady (s : State) (line : Nat) : Steady s (s.dirClean line) := by
  unfold State.dirClean
  split <;> simp
@[simp] theorem modMove_steady (s : State) (mv : Nat) (f : Move → Move) : Steady s (s.modMove mv f) := by simp [State.modMove]
@[simp] theorem abortMove_steady (s : State) (mv : Nat) : Steady s (s.abortMove mv) := by
  unfold State.abortMove
  split <;> simp
@[simp] theorem abortCheck_steady (s : State) (mv : Nat) : Steady s (s.abortCheck mv) := by
  unfold State.abortCheck
  split <;> simp
@[simp] theorem extActivate_steady (s : State) (e : Nat) : Steady s (s.extActivate e) := by simp [State.extActivate]
@[simp] theorem sendBisnp_steady (s : State) (line h : Nat) : Steady s (s.sendBisnp line h) := by simp [State.sendBisnp]
@[simp] theorem startBackInv_steady (s : State) (line h : Nat) (discard : Bool) (rev : Option (Nat × Nat)) :
    Steady s (s.startBackInv line h discard rev) := by simp [State.startBackInv]
@[simp] theorem pumpBisnps_steady (s : State) : Steady s s.pumpBisnps := by simp [State.pumpBisnps]
@[simp] theorem backInvExt_steady (s : State) (x : Ext) (only : Option Nat) (discard : Bool) (rev : Option (Nat × Nat)) :
    Steady s (s.backInvExt x only discard rev) := by simp [State.backInvExt]
@[simp] theorem extRelease_steady (s : State) (e : Nat) : Steady s (s.extRelease e) := by simp [State.extRelease]
@[simp] theorem extToZeroing_steady (s : State) (e : Nat) : Steady s (s.extToZeroing e) := by simp [State.extToZeroing]
@[simp] theorem granuleZeroed_steady (s : State) (e : Nat) : Steady s (s.granuleZeroed e) := by
  unfold State.granuleZeroed
  split <;> simp
@[simp] theorem countAccess_steady (s : State) (off : Nat) (read : Bool) : Steady s (s.countAccess off read) := by simp [State.countAccess]
@[simp] theorem decay_steady (s : State) : Steady s s.decay := by simp [State.decay]
@[simp] theorem startMove_steady (s : State) (page word land : Nat) : Steady s (s.startMove page word land) := by simp [State.startMove]
@[simp] theorem driftScanRsp_steady (s : State) (page : Nat) (r : Txn) : Steady s (s.driftScanRsp page r) := by
  dsimp only [State.driftScanRsp]
  repeat' split
  all_goals simp
@[simp] theorem driftIssue_steady (s : State) (mv n : Nat) : Steady s (s.driftIssue mv n) := by
  induction n generalizing s with
  | zero => simp [State.driftIssue]
  | succ n ih =>
    rw [State.driftIssue]
    repeat' split
    all_goals simp [ih]
@[simp] theorem breakFor_steady (s : State) (o : OutReq) (r : Txn) : Steady s (s.breakFor o r) := by simp [State.breakFor]
@[simp] theorem driftCopyRsp_steady (s : State) (key mv pos : Nat) (o : OutReq) (r : Txn) (isRead : Bool) :
    Steady s (s.driftCopyRsp key mv pos o r isRead) := by
  unfold State.driftCopyRsp
  split <;> simp
@[simp] theorem driftEntryRsp_steady (s : State) (mv : Nat) : Steady s (s.driftEntryRsp mv) := by
  unfold State.driftEntryRsp
  split <;> simp

end Sys2Proof.Machine
end

section
/-! The queue of commands and the CONST objects under Vane writes, engines, the home, host ports and contexts: each operation leaves both,
and the device as it is where no phase is entered. -/

namespace Sys2Proof.Machine
open Sys2Proof

-- The common course of a Vane write
@[simp] theorem noteRt_steady (s : State) (cause : Nat) : Steady s (s.noteRt cause) := by simp [State.noteRt]
@[simp] theorem noteRefused_steady (s : State) (f : VFrame) (abort : Nat) : Steady s (s.noteRefused f abort) := by simp [State.noteRefused]
@[simp] theorem acknowledge_steady (s : State) (sess : Nat) (f : VFrame) : Steady s (s.acknowledge sess f) := by simp [State.acknowledge]
@[simp] theorem judge_untouched (s : State) (f : VFrame) (u : Option EUnit) {eff : State → Except Nat State} (h : EffUntouched s (eff s)) :
    Untouched s (s.judge f u eff).2 := by
  unfold State.judge
  split
  · simp
  · split
    · simp
    · next t ht => simpa using h t ht
@[simp] theorem vaneJudge_untouched (s : State) (sess : Nat) (f : VFrame) (u : Option EUnit) {eff : State → Except Nat State} (h : EffUntouched s (eff s)) :
    Untouched s (s.vaneJudge sess f u eff) := by simp [State.vaneJudge, h]
@[simp] theorem authFail_steady (s : State) (where_ : Nat) : Steady s (s.authFail where_) := by simp [State.authFail]
@[simp] theorem resend_steady (s : State) (sess : Nat) (k : Kept) : Steady s (s.resend sess k) := by simp [State.resend]
@[simp] theorem vaneServe_untouched (s : State) (sess : Nat) (f : VFrame) {k : State → State} (h : ∀ t, Untouched t (k t)) : Untouched s (s.vaneServe sess f k) := by
  unfold State.vaneServe
  repeat' split
  all_goals simp [h]
@[simp] theorem vaneWrite_untouched (s : State) (v : VCtx) (obj : Nat × Nat) (p : Bytes) (u : Option EUnit) {eff : State → Except Nat State}
    (h : ∀ t, EffUntouched t (eff t)) : NextUntouched s (s.vaneWrite v obj p u eff) := by simp [State.vaneWrite, h]

-- Engines
@[simp] theorem clearWaits_steady (s : State) (n : Nat) : Steady s (s.clearWaits n) := by simp [State.clearWaits]
@[simp] theorem ringDrain_steady (s : State) (n : Nat) : Steady s (s.ringDrain n) := by simp [State.ringDrain]
@[simp] theorem ringCfgWrite_untouched (n v : Nat) (s : State) : EffUntouched s (ringCfgWrite n v s) := by simp [ringCfgWrite]
@[simp] theorem dbIgnore_steady (s : State) : Steady s s.dbIgnore := by simp [State.dbIgnore]
@[simp] theorem ringFault_steady (s : State) (n st : Nat) : Steady s (s.ringFault n st) := by simp [State.ringFault]
@[simp] theorem resumeRing_steady (s : State) (n : Nat) : Steady s (s.resumeRing n) := by simp [State.resumeRing]
@[simp] theorem fetchNext_steady (s0 : State) (n : Nat) : Steady s0 (s0.fetchNext n) := by simp [State.fetchNext]
@[simp] theorem doorbell_steady (s : State) (n off value width : Nat) : Steady s (s.doorbell n off value width) := by simp [State.doorbell]
@[simp] theorem serveDoorbell_steady (s : State) (t : Txn) : Steady s (s.serveDoorbell t).2.2 := by
  dsimp only [State.serveDoorbell]
  repeat' split
  all_goals simp
@[simp] theorem afterEnd_steady (s : State) (n : Nat) : Steady s (s.afterEnd n) := by simp [State.afterEnd]
@[simp] theorem modWork_steady (s : State) (n idx : Nat) (f : Work → Work) : Steady s (s.modWork n idx f) := by simp [State.modWork]
@[simp] theorem wantXlate_steady (s : State) (n idx ctx va need : Nat) : Steady s (s.wantXlate n idx ctx va need) := by
  dsimp only [State.wantXlate]
  split
  · simp
  split
  · next hm => simp [addMiss_steady hm]
  · simp
@[simp] theorem countHits_steady (s : State) (n idx k : Nat) : Steady s (s.countHits n idx k) := by simp [State.countHits]
@[simp] theorem finish_steady (s : State) (n idx : Nat) (st : Status) : Steady s (s.finish n idx st) := by simp [State.finish]
@[simp] theorem faultDesc_steady (s : State) (n idx va : Nat) : Steady s (s.faultDesc n idx va) := by simp [State.faultDesc]
@[simp] theorem fetchedDesc_steady (s : State) (n idx : Nat) (b : Bytes) : Steady s (s.fetchedDesc n idx b) := by simp [State.fetchedDesc]
@[simp] theorem wantOperands_steady (s : State) (n : Nat) (w : Work) (x : Nat) : Steady s (s.wantOperands n w x) := by simp [State.wantOperands]
@[simp] theorem snapshot_steady (s : State) (n idx : Nat) : Steady s (s.snapshot n idx) := by
  dsimp only [State.snapshot]
  repeat' split
  all_goals simp
@[simp] theorem issueLine_steady (s : State) (n idx : Nat) (w : Work) (t : ETile) : Steady s (s.issueLine n idx w t) := by simp [State.issueLine]
@[simp] theorem issueTile_steady (n idx no k : Nat) (s : State) : Steady s (issueTile n idx no k s) := by
  induction k generalizing s with
  | zero => simp [issueTile]
  | succ k ih =>
    rw [issueTile]
    repeat' split
    all_goals simp [ih]
@[simp] theorem addMissOr_steady (s : State) (d : Nat) (m : Miss) : Steady s ((s.addMiss d m).getD s) := by
  cases h : s.addMiss d m with
  | none => simp
  | some t => simpa using addMiss_steady h
@[simp] theorem prefetch_steady (s : State) (n : Nat) (w : Work) (x : Nat) : Steady s (s.prefetch n w x) :=
  (prefetch_xlated _ _ _ _).moved.steady
@[simp] theorem startTile_steady (s : State) (n idx : Nat) (w : Work) : Steady s (s.startTile n idx w) := by
  dsimp only [State.startTile]
  repeat' split
  all_goals simp
@[simp] theorem resumeCut_steady (s : State) (n idx : Nat) (w : Work) (t : ETile) : Steady s (s.resumeCut n idx w t) := by
  dsimp only [State.resumeCut]
  repeat' split
  all_goals simp
@[simp] theorem refill_steady (s : State) (tile : Nat) : Steady s (s.refill tile) :=
  foldl_steady (fun _ _ => foldl_steady (fun _ _ => foldl_steady (fun _ _ => issueTile_steady _ _ _ _ _) _ _) _ _) _ _
@[simp] theorem tileCheck_steady (s : State) (n idx : Nat) : Steady s (s.tileCheck n idx) := by
  unfold State.tileCheck
  split <;> simp
@[simp] theorem haltRing_steady (s : State) (n idx : Nat) (st : Status) : Steady s (s.haltRing n idx st) := by simp [State.haltRing]
@[simp] theorem recorded_steady (s : State) (n : Nat) (w : Work) : Steady s (s.recorded n w) := by simp [State.recorded]
@[simp] theorem breakFlow_steady (s : State) (n : Nat) (t r : Txn) : Steady s (s.breakFlow n t r) := by simp [State.breakFlow]

-- Rings and descriptors
@[simp] theorem restartRing_steady (s : State) (n x : Nat) : Steady s (s.restartRing n x) := by simp [State.restartRing]
@[simp] theorem ringCtlWrite_untouched (n value : Nat) (s : State) : EffUntouched s (ringCtlWrite n value s) := by simp [ringCtlWrite]
theorem drrPick_steady {s t u : State} {k n : Nat} {l : List Nat} (h : drrPick s k l t = some (n, u)) : Steady t u := by
  induction k generalizing l t with
  | zero => simp [drrPick] at h
  | succ k ih =>
    cases l with
    | nil => simp [drrPick] at h
    | cons m r =>
      rw [drrPick] at h
      split at h
      · exact ih h
      split at h
      · cases h
        simp
      · simpa using ih h
theorem pick_steady {s t : State} {tile n : Nat} {w : Work} (h : s.pick tile = some (n, w, t)) : Steady s t := by
  dsimp only [State.pick] at h
  split at h
  · cases h
  split at h
  · cases h
  next hp =>
    split at h
    · cases h
    · cases h
      simpa using drrPick_steady hp
theorem picked_steady {s t : State} {n op : Nat} {w : Work} (h : s.picked n op = some (w, t)) : Steady s t := by
  unfold State.picked at h
  split at h
  · next hp =>
    split at h <;> cases h
    exact pick_steady hp
  · cases h
@[simp] theorem execNop_untouched (n : Nat) (s : State) : NextUntouched s (execNop n s) := by
  unfold execNop
  split
  · simp
  · next hp => simp [picked_steady hp]
@[simp] theorem execCopy_untouched (n : Nat) (s : State) : NextUntouched s (execCopy n s) := by
  unfold execCopy
  split <;> simp
@[simp] theorem execFill_untouched (n : Nat) (s : State) : NextUntouched s (execFill n s) := by
  unfold execFill
  split <;> simp
@[simp] theorem atomicIssue_steady (s : State) (n : Nat) (w : Work) (b : MTrans) : Steady s (s.atomicIssue n w b) := by simp [State.atomicIssue]
@[simp] theorem execAtomic_untouched (n : Nat) (s : State) : NextUntouched s (execAtomic n s) := by
  unfold execAtomic
  split
  · simp
  split
  · simp
  next hp =>
    split
    · simp [picked_steady hp]
    · split <;> simp
@[simp] theorem execEngineTileStart_untouched (tile : Nat) (s : State) : NextUntouched s (execEngineTileStart tile s) := by
  unfold execEngineTileStart
  split
  · simp
  next hp =>
    split
    · simp
    split <;> simp [pick_steady hp]
@[simp] theorem lineEnd_steady (s : State) (n idx no : Nat) (st : Status) : Steady s (s.lineEnd n idx no st) := by simp [State.lineEnd]
@[simp] theorem lineWrite_steady (s : State) (n idx no pos len : Nat) (o : OutReq) (r : Txn) : Steady s (s.lineWrite n idx no pos len o r) := by
  dsimp only [State.lineWrite]
  repeat' split
  all_goals simp
@[simp] theorem execMoverLineResponse_untouched (tag : Nat) (s : State) : NextUntouched s (execMoverLineResponse tag s) := by
  dsimp only [execMoverLineResponse]
  repeat' split
  all_goals simp
@[simp] theorem retarget_steady (s : State) (key : Nat) (o : OutReq) (n idx kind a need : Nat) : Steady s (s.retarget key o n idx kind a need) := by
  dsimp only [State.retarget]
  repeat' split
  all_goals simp
@[simp] theorem retryReq_steady (s : State) (key : Nat) (o : OutReq) : Steady s (s.retryReq key o) := by
  dsimp only [State.retryReq]
  repeat' split
  all_goals simp
@[simp] theorem execMoverRetry_untouched (tag : Nat) (s : State) : NextUntouched s (execMoverRetry tag s) := by
  dsimp only [execMoverRetry]
  repeat' split
  all_goals simp
@[simp] theorem execDescriptorSignal_untouched (n : Nat) (s : State) : NextUntouched s (execDescriptorSignal n s) := by
  dsimp only [execDescriptorSignal]
  repeat' split
  all_goals simp
@[simp] theorem execCompletionRecord_untouched (n : Nat) (s : State) : NextUntouched s (execCompletionRecord n s) := by
  dsimp only [execCompletionRecord]
  repeat' split
  all_goals simp
@[simp] theorem execNotificationVector_untouched (n : Nat) (s : State) : NextUntouched s (execNotificationVector n s) := by
  dsimp only [execNotificationVector]
  split <;> simp
@[simp] theorem orphan_steady (s : State) (n : Nat) : Steady s (s.orphan n) := by simp [State.orphan]

-- The home
@[simp] theorem readData_steady (s : State) (t : Txn) (off : Nat) : Steady s (s.readData t off).2 := by simp [State.readData]
@[simp] theorem healLine_steady (s : State) (x : Ext) (off : Nat) : Steady s (s.healLine x off) := by simp [State.healLine]
@[simp] theorem countReq_steady (s : State) (t : Txn) (off : Nat) (read : Bool) : Steady s (s.countReq t off read) := by simp [State.countReq]
@[simp] theorem land_steady (s : State) (t : Txn) (off : Nat) : Steady s (s.land t off) := by simp [State.land]
@[simp] theorem performPool_steady (s : State) (t : Txn) (off : Nat) : Steady s (s.performPool t off).2 := by
  dsimp only [State.performPool]
  repeat' split
  all_goals simp
@[simp] theorem homeReply_steady (s : State) (e : QEntry) (st : Nat) (data : Bytes) : Steady s (s.homeReply e st data) := by simp [State.homeReply]
theorem servePool_steady {s t : State} {e : QEntry} {x : Txn} (h : s.servePool e x = some t) : Steady s t := by
  dsimp only [State.servePool] at h
  repeat' split at h
  all_goals cases h
  all_goals simp
@[simp] theorem meetUe_steady (s : State) (t : Txn) : Steady s (s.meetUe t) := by
  dsimp only [State.meetUe]
  split <;> simp
@[simp] theorem lineHead_untouched (tile : Nat) (ue : Bool) (s : State) : NextUntouched s (s.lineHead tile ue) := by
  dsimp only [State.lineHead]
  split
  · simp
  split
  · simp
  split
  · simp
  split
  · next hh => 
    split at hh
    · cases hh
    · simpa using (headCheck_steady hh).untouched
  split
  · simp
  split
  · simp
  split
  · simp
  split
  · simp
  split
  · simp
  split
  · next hp => simpa using (servePool_steady hp).untouched
  · simp
@[simp] theorem lineRun_untouched (tile n : Nat) (s : State) : NextUntouched s (lineRun tile n s) := by
  induction n generalizing s with
  | zero => simp [lineRun]
  | succ n ih =>
    rw [lineRun]
    split
    · next t ht =>
      have hst := lineHead_untouched tile false s t ht
      split
      · exact fun u hu => hst.trans (ih t u hu)
      · simpa using hst
    · exact lineHead_untouched tile false s

-- Host ports
@[simp] theorem issueHost_steady (s : State) (h : Nat) (t : Txn) (who : Purpose) : Steady s (s.issueHost h t who) := by simp [State.issueHost]
@[simp] theorem cxlFail_steady (s : State) (h dpa st : Nat) : Steady s (s.cxlFail h dpa st) := by simp [State.cxlFail]
@[simp] theorem cxlStore_steady (s : State) (off mask : Nat) (data : Bytes) : Steady s (s.cxlStore off mask data) := by simp [State.cxlStore]
@[simp] theorem cxlTry_steady (s : State) (h : Nat) (a : HostAcc) : Steady s (s.cxlTry h a).1 := by
  dsimp only [State.cxlTry]
  repeat' split
  all_goals simp
@[simp] theorem cxlReq_steady (s : State) (h kind dpa mask : Nat) (data : Bytes) : Steady s (s.cxlReq h kind dpa mask data) := by simp [State.cxlReq]
@[simp] theorem cxlGoOn_steady (s : State) (h : Nat) (a : HostAcc) : Steady s (s.cxlGoOn h a) := by
  dsimp only [State.cxlGoOn]
  repeat' split
  all_goals simp
@[simp] theorem cxlResume_steady (s : State) : Steady s s.cxlResume := by simp [State.cxlResume]
@[simp] theorem execRwd_untouched (h dpa : Nat) (data : Bytes) (s : State) : NextUntouched s (execRwd h dpa data s) := by
  dsimp only [execRwd]
  repeat' split
  all_goals simp
@[simp] theorem endBackInv_steady (s : State) (line h : Nat) : Steady s (s.endBackInv line h) := by simp [State.endBackInv]
@[simp] theorem sendBirsp_steady (s : State) (h st : Nat) (t : Txn) : Steady s (s.sendBirsp h st t) := by simp [State.sendBirsp]
@[simp] theorem unbindHost_steady (s : State) (h : Nat) : Steady s (s.unbindHost h) := by simp [State.unbindHost]
@[simp] theorem hostDead_steady (s : State) (h : Nat) (self : Bool) : Steady s (s.hostDead h self) := by simp [State.hostDead]
@[simp] theorem hostLinkDown_steady (s : State) (h : Nat) : Steady s (s.hostLinkDown h) := by simp [State.hostLinkDown]
@[simp] theorem scanEnd_steady (s : State) (h : Nat) : Steady s (s.scanEnd h) := by simp [State.scanEnd]
@[simp] theorem hpCtlWrite_untouched (h value : Nat) (s : State) : EffUntouched s (hpCtlWrite h value s) := by simp [hpCtlWrite]
@[simp] theorem serveBisnp_steady (s : State) (h : Nat) (e : QEntry) : Steady s (s.serveBisnp h e) := by simp [State.serveBisnp]
@[simp] theorem execM2sBirsp_untouched (h dpa : Nat) (s : State) : NextUntouched s (execM2sBirsp h dpa s) := by
  unfold execM2sBirsp
  split <;> simp
@[simp] theorem execBiTimeout_untouched (h line : Nat) (s : State) : NextUntouched s (execBiTimeout h line s) := by
  dsimp only [execBiTimeout]
  repeat' split
  all_goals simp
@[simp] theorem modAcc_steady (s : State) (h id : Nat) (f : HostAcc → HostAcc) : Steady s (s.modAcc h id f) := by simp [State.modAcc]
@[simp] theorem stallRid_steady (s : State) (h rid fa st : Nat) : Steady s (s.stallRid h rid fa st) := by simp [State.stallRid]
@[simp] theorem accAnswer_steady (s : State) (h : Nat) (a : HostAcc) (st : Status) : Steady s (s.accAnswer h a st) := by
  unfold State.accAnswer
  split <;> simp
@[simp] theorem stallAcc_steady (s : State) (h : Nat) (a : HostAcc) : Steady s (s.stallAcc h a) := by simp [State.stallAcc]
@[simp] theorem hostKickOne_steady (h : Nat) (s : State) (a : HostAcc) : Steady s (hostKickOne h s a) := by simp [hostKickOne]
@[simp] theorem hostKick_steady (s : State) (h : Nat) : Steady s (s.hostKick h) := by simp [State.hostKick]
@[simp] theorem hostAccess_steady (s : State) (h rid : Nat) (htag pasid : Option Nat) (kind off len : Nat) (ro : Bool) (atop : Nat) (data : Bytes) :
    Steady s (s.hostAccess h rid htag pasid kind off len ro atop data) := by
  dsimp only [State.hostAccess]
  repeat' split
  all_goals simp
@[simp] theorem execHostAtomicop_untouched (h rid htag : Nat) (pasid : Option Nat) (off : Nat) (op : HostAtomic) (width : Nat) (data : Bytes) (s : State) :
    NextUntouched s (execHostAtomicop h rid htag pasid off op width data s) := by
  unfold execHostAtomicop
  split <;> simp
@[simp] theorem accLine_steady (h : Nat) (a : HostAcc) (fa : Nat) (s : State) (i : Nat) : Steady s (accLine h a fa s i) := by simp [accLine]
@[simp] theorem frameRsp_steady (s : State) (h id : Nat) (r : Txn) : Steady s (s.frameRsp h id r) := by
  unfold State.frameRsp
  split <;> simp
@[simp] theorem hostLineRsp_steady (s : State) (key h id part : Nat) (o : OutReq) (r : Txn) : Steady s (s.hostLineRsp key h id part o r) := by
  unfold State.hostLineRsp
  split <;> simp
@[simp] theorem hostRsp_steady (s : State) (key : Nat) (o : OutReq) (r : Txn) : Steady s (s.hostRsp key o r) := by
  unfold State.hostRsp
  split <;> simp
@[simp] theorem execHostRetryDeadline_untouched (h id : Nat) (s : State) : NextUntouched s (execHostRetryDeadline h id s) := by
  unfold execHostRetryDeadline
  split <;> simp
@[simp] theorem hostRetry_steady (s : State) : Steady s s.hostRetry := by simp [State.hostRetry]
@[simp] theorem hostReply_steady (s : State) (h : Nat) (e : QEntry) (st : Nat) (data : Bytes) : Steady s (s.hostReply h e st data) := by simp [State.hostReply]
@[simp] theorem flush_steady (s : State) (h : Nat) : Steady s (s.flush h) := by simp [State.flush]
@[simp] theorem serveHost_steady (s : State) (h : Nat) (e : QEntry) (t : Txn) : Steady s (s.serveHost h e t) := by
  dsimp only [State.serveHost]
  repeat' split
  all_goals simp
@[simp] theorem endFab_steady (s : State) (h : Nat) (f : HostFab) (st : Nat) (data : Bytes) : Steady s (s.endFab h f st data) := by simp [State.endFab]
@[simp] theorem execHostCompletion_untouched (h htag : Nat) (c : HostCpl) (s : State) : NextUntouched s (execHostCompletion h htag c s) := by
  dsimp only [execHostCompletion]
  repeat' split
  all_goals simp
@[simp] theorem execHostCompletionTimeout_untouched (h htag : Nat) (s : State) : NextUntouched s (execHostCompletionTimeout h htag s) := by
  unfold execHostCompletionTimeout
  split <;> simp
@[simp] theorem tdispStep_steady (s : State) (h msg : Nat) (from_ : List TdiState) (to_ : TdiState) :
    Steady s (s.tdispStep h msg from_ to_) := by simp [State.tdispStep]
@[simp] theorem hostRefclkLost_steady (s : State) (h : Nat) : Steady s (s.hostRefclkLost h) := by simp [State.hostRefclkLost]

-- Contexts, keys and bundles
@[simp] theorem setCtx_steady (s : State) (c : Nat) (st : CtxState) : Steady s (s.setCtx c st) := by simp [State.setCtx]
@[simp] theorem eraseBkeys_steady (s : State) (c : Nat) : Steady s (s.eraseBkeys c) := by simp [State.eraseBkeys]
@[simp] theorem orphanLoad_steady (s : State) : Steady s s.orphanLoad := by simp [State.orphanLoad]
@[simp] theorem endBundle_steady (s : State) (st : BundlePhase) (cause : Nat) : Steady s (s.endBundle st cause) := by simp [State.endBundle]
@[simp] theorem enterStopping_steady (s : State) (c : Nat) {ab : Nat → State → State} (h : ∀ i t, Steady t (ab i t)) : Steady s (s.enterStopping c ab) := by
  simp [State.enterStopping, h]
@[simp] theorem sweepQueue_steady (s : State) (c egress : Nat) : Steady s (s.sweepQueue c egress) := by simp [State.sweepQueue]
@[simp] theorem sweepLine_steady (s : State) (c tile : Nat) : Steady s (s.sweepLine c tile) := by simp [State.sweepLine]
@[simp] theorem sweepHolds_steady (s : State) (c tile : Nat) : Steady s (s.sweepHolds c tile) := by simp [State.sweepHolds]
@[simp] theorem sweep_steady (s : State) (c : Nat) : Steady s (s.sweep c) := by simp [State.sweep]
@[simp] theorem revokeGrant_steady (s : State) (e g : Nat) : Steady s (s.revokeGrant e g) := by simp [State.revokeGrant]
@[simp] theorem destroyKey_steady (s : State) (k : Nat) : Steady s (s.destroyKey k) := by simp [State.destroyKey]
@[simp] theorem destroyKeys_steady (s : State) (c : Nat) : Steady s (s.destroyKeys c) := by simp [State.destroyKeys]
@[simp] theorem destroyRevoked_steady (s : State) : Steady s s.destroyRevoked := by simp [State.destroyRevoked]
@[simp] theorem enterRevoking_steady (s : State) (c : Nat) : Steady s (s.enterRevoking c) := by simp [State.enterRevoking]
@[simp] theorem thaw_steady (s : State) (c : Nat) : Steady s (s.thaw c) := by simp [State.thaw]
@[simp] theorem sendCtx_steady (s : State) (c : Nat) (clean : Bool) : Steady s (s.sendCtx c clean) := by simp [State.sendCtx]
@[simp] theorem modChange_steady (s : State) (c : Nat) (f : CtxChange → CtxChange) : Steady s (s.modChange c f) := by simp [State.modChange]
@[simp] theorem ctxStep_steady (s : State) (ch : CtxChange) (to_ : CtxState) : Steady s (s.ctxStep ch to_) := by
  dsimp only [State.ctxStep]
  split <;> simp
@[simp] theorem ctxAdvance_steady (s : State) (ch : CtxChange) : Steady s (s.ctxAdvance ch) := by
  dsimp only [State.ctxAdvance]
  split <;> simp
@[simp] theorem ctxAck_steady (s : State) (n c : Nat) : Steady s (s.ctxAck n c) := by
  unfold State.ctxAck
  split <;> simp
@[simp] theorem ctxAbsent_steady (s : State) (n : Nat) : Steady s (s.ctxAbsent n) := by simp [State.ctxAbsent]
@[simp] theorem ctxActivateWrite_untouched (c : Nat) (clean : Bool) (nfa nval : Nat) (s : State) :
    EffUntouched s (ctxActivateWrite c clean nfa nval s) := by simp [ctxActivateWrite]
@[simp] theorem ctxStopWrite_untouched {ab : Nat → State → State} (h : ∀ i t, Steady t (ab i t)) (c nfa nval : Nat) (s : State) :
    EffUntouched s (ctxStopWrite ab c nfa nval s) := by simp [ctxStopWrite, h]
@[simp] theorem ctxNotice_steady (s : State) {ab : Nat → State → State} (h : ∀ i t, Steady t (ab i t)) (home c st kgen : Nat) (clean : Bool) :
    Steady s (s.ctxNotice ab home c st kgen clean) := by
  dsimp only [State.ctxNotice]
  split <;> simp [h]
@[simp] theorem keyGenerateWrite_untouched (slot : Nat) (host : Bool) (owner : Nat) (s : State) :
    EffUntouched s (keyGenerateWrite slot host owner s) := by simp [keyGenerateWrite]
@[simp] theorem keyDestroyWrite_untouched (slot : Nat) (s : State) : EffUntouched s (keyDestroyWrite slot s) := by simp [keyDestroyWrite]
@[simp] theorem bkeyDeliver_steady (s : State) (sess payload len : Nat) : Steady s (s.bkeyDeliver sess payload len).2 := by
  dsimp only [State.bkeyDeliver]
  repeat' split
  all_goals simp
@[simp] theorem bundleReads_steady (a n : Nat) (s : State) : Steady s (bundleReads a n s) := by
  induction n generalizing a s with
  | zero => simp [bundleReads]
  | succ n ih => simp [bundleReads, ih]
@[simp] theorem readBundle_steady (s : State) (a n : Nat) : Steady s (s.readBundle a n) := by simp [State.readBundle]
@[simp] theorem bundleLoadWrite_untouched (rec_ : Nat) (s : State) : EffUntouched s (bundleLoadWrite rec_ s) := by simp [bundleLoadWrite]
@[simp] theorem readChunk_steady (s : State) : Steady s s.readChunk := by simp [State.readChunk]
@[simp] theorem loadDone_steady (s : State) : Steady s s.loadDone := by
  unfold State.loadDone
  split <;> simp
@[simp] theorem bundleHdr_steady (s : State) : Steady s s.bundleHdr := by simp [State.bundleHdr]
@[simp] theorem bundleWrites_steady (ctx kgen off : Nat) (d : Bytes) (n : Nat) (s : State) : Steady s (bundleWrites ctx kgen off d n s) := by
  induction n generalizing off d s with
  | zero => simp [bundleWrites]
  | succ n ih => simp [bundleWrites, ih]
@[simp] theorem bundleChunk_steady (s : State) : Steady s s.bundleChunk := by
  dsimp only [State.bundleChunk]
  repeat' split
  all_goals simp
@[simp] theorem bundleRsp_steady (s : State) (key : Nat) (o : OutReq) (r : Txn) (pos : Option Nat) :
    Steady s (s.bundleRsp key o r pos) := by simp [State.bundleRsp]

end Sys2Proof.Machine
end

section
/-! The queue of commands and the CONST objects under end-points, arrivals, operator runs, departures, rack time and links: each operation
leaves both, and the device as it is where no phase is entered. -/

namespace Sys2Proof.Machine
open Sys2Proof

-- End-points
@[simp] theorem farunOut_steady (s : State) (n engine p : Nat) (t : Txn) (dest : Option Nat) :
    Steady s (s.farunOut n engine p t dest) := by simp [State.farunOut]
@[simp] theorem farunData_steady (s : State) (f : Farun) (t : Txn) (st : Nat) : Steady s (s.farunData f t st).2 := by
  dsimp only [State.farunData]
  repeat' split
  all_goals simp
@[simp] theorem farunServe_steady (s : State) (n p : Nat) (t : Txn) : Steady s (s.farunServe n p t) := by simp [State.farunServe]
@[simp] theorem farunSend_steady (s : State) (n engine : Nat) (t0 : Txn) : Steady s (s.farunSend n engine t0) := by
  dsimp only [State.farunSend]
  repeat' split
  all_goals simp
@[simp] theorem farunKick_steady (s : State) (n : Nat) : Steady s (s.farunKick n) := by simp [State.farunKick]
@[simp] theorem fenceEnd_steady (s : State) (n engine : Nat) : Steady s (s.fenceEnd n engine) := by simp [State.fenceEnd]
@[simp] theorem farunEnd_steady (s : State) (key engine : Nat) (o : OutReq) (st : Status) (tnode : Nat) :
    Steady s (s.farunEnd key engine o st tnode) := by simp [State.farunEnd]
@[simp] theorem farunSyncEnd_steady (s : State) (key engine : Nat) (o : OutReq) (st : Status) :
    Steady s (s.farunSyncEnd key engine o st) := by simp [State.farunSyncEnd]
@[simp] theorem farunAgain_steady (s : State) (n key q dest : Nat) (o : OutReq) : Steady s (s.farunAgain n key q dest o) := by simp [State.farunAgain]
@[simp] theorem farunRsp_steady (s : State) (key engine : Nat) (o : OutReq) (r : Txn) : Steady s (s.farunRsp key engine o r) := by
  dsimp only [State.farunRsp]
  repeat' split
  all_goals simp
@[simp] theorem farunTimeout_steady (s : State) (n : Nat) (p : OutReq → Bool) : Steady s (s.farunTimeout n p) := by
  refine foldl_steady (fun t r => ?_) _ _
  split <;> simp
@[simp] theorem farunLeave_steady (s : State) (n lnode kind : Nat) : Steady s (s.farunLeave n lnode kind) := by simp [State.farunLeave]
@[simp] theorem farunPortDown_steady (s : State) (p : Nat) : Steady s (s.farunPortDown p) := by simp [State.farunPortDown]
@[simp] theorem farunTime_steady (s : State) (n p : Nat) (usable : Bool) (r : TimeRec) : Steady s (s.farunTime n p usable r) := by simp [State.farunTime]
@[simp] theorem farunRecs_steady (s : State) (n : Nat) : Steady s (s.farunRecs n) := by simp [State.farunRecs]
@[simp] theorem farunCtl_steady (s : State) (t : Txn) : Steady s (s.farunCtl t) := by simp [State.farunCtl]
@[simp] theorem toFarun_steady (s : State) (p : Nat) (t : Txn) : Steady s (s.toFarun p t) := by simp [State.toFarun]

-- Arrivals and responses
@[simp] theorem takeIn_steady (s : State) (a : Nat) (t : Txn) : Steady s (s.takeIn a t) := by simp [State.takeIn]
@[simp] theorem deferReq_steady (s : State) (e : QEntry) {retry : QEntry → State} (h : ∀ x, Steady s (retry x)) : Steady s (s.deferReq e retry) := by
  simp [State.deferReq, h]
@[simp] theorem holdBehind_steady (s : State) (e : QEntry) : Steady s (s.holdBehind e) := by simp [State.holdBehind]
@[simp] theorem arriveReq_steady (s : State) (a : Nat) (t : Txn) : Steady s (s.arriveReq a t) := by simp [State.arriveReq]
@[simp] theorem routeOn_steady (s : State) (e : QEntry) : Steady s (s.routeOn e) := by
  dsimp only [State.routeOn]
  repeat' split
  all_goals simp
@[simp] theorem arriveRsp_steady (s : State) (a : Nat) (t : Txn) : Steady s (s.arriveRsp a t) := by simp [State.arriveRsp]
@[simp] theorem cleanStatus_steady (s : State) (r : Txn) : Steady s (s.cleanStatus r).2 := by
  unfold State.cleanStatus
  split <;> simp
@[simp] theorem birspAtHome_steady (s : State) (key line h st : Nat) : Steady s (s.birspAtHome key line h st) := by simp [State.birspAtHome]
@[simp] theorem execBirsp_untouched (adm : Nat) (t : Txn) (s : State) : NextUntouched s (execBirsp adm t s) := by
  dsimp only [execBirsp]
  repeat' split
  all_goals simp
@[simp] theorem enterHost_steady (s : State) (h : Nat) (e : QEntry) : Steady s (s.enterHost h e) := by
  dsimp only [State.enterHost]
  repeat' split
  all_goals simp
@[simp] theorem headOf_untouched (s : State) (egress vc : Nat) : NextUntouched s (s.headOf egress vc) := by
  dsimp only [State.headOf]
  split
  · simp
  split
  · simp
  split
  · simp
  split
  · next hh => simpa using (headCheck_steady hh).untouched
  split
  · simp
  split <;> simp
@[simp] theorem sweepOld_steady (s : State) (k : Nat) : Steady s (sweepOld s k) := by simp [sweepOld]
@[simp] theorem sweepOldLine_steady (s : State) (tile : Nat) : Steady s (sweepOldLine s tile) := by simp [sweepOldLine]
@[simp] theorem execAccHoldExpired_untouched (egress vc : Nat) (s : State) : NextUntouched s (execAccHoldExpired egress vc s) := by
  unfold execAccHoldExpired
  split
  · split <;> simp
  split
  · simp
  · exact headOf_untouched (s.setQueue _ _ _) _ _
@[simp] theorem execAccretionTimeout_untouched (tag : Nat) (s : State) : NextUntouched s (execAccretionTimeout tag s) := by
  dsimp only [execAccretionTimeout]
  repeat' split
  all_goals simp
@[simp] theorem accEnableWrite_untouched (on : Bool) (s : State) : EffUntouched s (accEnableWrite on s) := by simp [accEnableWrite]
@[simp] theorem splitOne_steady (t : Txn) (st : Nat) (s : State) (x : Contrib × Bytes) : Steady s (splitOne t st s x) := by simp [splitOne]
@[simp] theorem splitAcc_steady (s : State) (a : AccEntry) (o r : Txn) : Steady s (s.splitAcc a o r) := by simp [State.splitAcc]
@[simp] theorem fetchRsp_steady (s : State) (n idx part : Nat) (b : Bytes) : Steady s (s.fetchRsp n idx part b) := by
  dsimp only [State.fetchRsp]
  repeat' split
  all_goals simp
@[simp] theorem noteBroken_steady (s : State) (n : Nat) (o : OutReq) (r : Txn) : Steady s (s.noteBroken n o r) := by simp [State.noteBroken]
@[simp] theorem snapEnd_steady (s : State) (n idx : Nat) (st : Status) : Steady s (s.snapEnd n idx st) := by simp [State.snapEnd]
@[simp] theorem act_steady (s : State) (key : Nat) (o : OutReq) (r : Txn) : Steady s (s.act key o r) := by
  dsimp only [State.act]
  repeat' split
  all_goals simp
@[simp] theorem consume_steady (s : State) (key : Nat) (o : OutReq) (r : Txn) : Steady s (s.consume key o r) := by simp [State.consume]
@[simp] theorem strayed_steady (s : State) (r : Txn) : Steady s (s.strayed r) := by simp [State.strayed]
@[simp] theorem goOn_steady (s : State) : Steady s s.goOn := by simp [State.goOn]
@[simp] theorem execResponseAtRequester_untouched (s : State) : NextUntouched s (execResponseAtRequester s) := by
  dsimp only [execResponseAtRequester]
  repeat' split
  all_goals simp
@[simp] theorem execRequestTimeout_untouched (node tag : Nat) (s : State) : NextUntouched s (execRequestTimeout node tag s) := by
  dsimp only [execRequestTimeout]
  repeat' split
  all_goals simp

-- Operator runs
@[simp] theorem useFlakes_steady (s : State) (tile n : Nat) : Steady s (s.useFlakes tile n) := by simp [State.useFlakes]
@[simp] theorem setInst_steady (s : State) (i : Nat) (st : InstState) : Steady s (s.setInst i st) := by simp [State.setInst]
@[simp] theorem sendCol_steady (s : State) (t : Txn) : Steady s (s.sendCol t) := by simp [State.sendCol]
@[simp] theorem sendCtl_steady (s : State) (i kind phase st : Nat) : Steady s (s.sendCtl i kind phase st) := by simp [State.sendCtl]
@[simp] theorem orphanRun_steady (s : State) (i : Nat) : Steady s (s.orphanRun i) := by simp [State.orphanRun]
@[simp] theorem thawStripe_steady (s : State) (e : OpsEntry) : Steady s (s.thawStripe e) := by simp [State.thawStripe]
@[simp] theorem endLaunch_steady (s : State) (i : Nat) (st : Status) : Steady s (s.endLaunch i st) := by simp [State.endLaunch]
@[simp] theorem runFail_steady (s : State) (i : Nat) (st : Status) : Steady s (s.runFail i st) := by simp [State.runFail]
@[simp] theorem instAbort_steady (i : Nat) (s : State) : Steady s (instAbort i s) := by
  unfold instAbort
  split <;> simp
@[simp] theorem rearm_steady (s : State) (i : Nat) : Steady s (s.rearm i) := by simp [State.rearm]
@[simp] theorem startRun_steady (s : State) (i : Nat) : Steady s (s.startRun i) := by simp [State.startRun]
@[simp] theorem runOk_steady (s : State) (i : Nat) : Steady s (s.runOk i) := by simp [State.runOk]
@[simp] theorem releaseFlag_steady (s : State) (i : Nat) : Steady s (s.releaseFlag i) := by
  rw [State.releaseFlag]
  exact Steady.trans (modInst_steady _ _ _) (foldl_steady (fun _ _ => issue_steady _ _ _ _) _ _)
@[simp] theorem delivered_steady (s : State) (i : Nat) : Steady s (s.delivered i) := by simp [State.delivered]
@[simp] theorem runCheck_steady (s : State) (i : Nat) : Steady s (s.runCheck i) := by simp [State.runCheck]
@[simp] theorem writeLine_steady (s : State) (i : Nat) (x : Inst) (node : Nat) (l : Nat × List (Byte × Bool)) :
    Steady s (s.writeLine i x node l) := by simp [State.writeLine]
@[simp] theorem sendGroup_steady (s : State) (i g : Nat) : Steady s (s.sendGroup i g) := by simp [State.sendGroup]
@[simp] theorem emitGroup_steady (s : State) (i g : Nat) : Steady s (s.emitGroup i g) := by
  rw [State.emitGroup]
  split
  · simp
  split
  · simp
  · exact Steady.trans ((modInst_steady _ _ _).trans (useFlakes_steady _ _ _))
      (foldl_steady (fun _ _ => foldl_steady (fun _ _ => writeLine_steady _ _ _ _ _) _ _) _ _)
@[simp] theorem announce_steady (s : State) (i : Nat) : Steady s (s.announce i) := by simp [State.announce]
@[simp] theorem advance_steady (s : State) (i : Nat) : Steady s (s.advance i) := by
  dsimp only [State.advance]
  repeat' split
  all_goals simp
@[simp] theorem settleRun_steady (s : State) (i : Nat) (gs : List Nat) : Steady s (s.settleRun i gs) := by simp [State.settleRun]
@[simp] theorem creditAll_steady (s : State) : Steady s s.creditAll := by simp [State.creditAll]
@[simp] theorem colDiscard_steady (s : State) : Steady s s.colDiscard := by simp [State.colDiscard]
@[simp] theorem catchUp_steady (s : State) (t : Txn) : Steady s (s.catchUp t) := by simp [State.catchUp]
@[simp] theorem arriveCol_steady (s : State) (a : Nat) (t : Txn) {k : State → State} (h : ∀ u, Steady u (k u)) : Steady s (s.arriveCol a t k) := by
  dsimp only [State.arriveCol]
  repeat' split
  all_goals simp [h]
@[simp] theorem colDataIn_steady (t : Txn) (s : State) : Steady s (State.colDataIn t s) := by simp [State.colDataIn]
@[simp] theorem colSideIn_steady (t : Txn) (s : State) : Steady s (State.colSideIn t s) := by simp [State.colSideIn]
@[simp] theorem colPartIn_steady (t : Txn) (s : State) : Steady s (State.colPartIn t s) := by
  unfold State.colPartIn
  split <;> simp
@[simp] theorem abortIn_steady (t : Txn) (s : State) : Steady s (State.abortIn t s) := by simp [State.abortIn]
@[simp] theorem creditIn_steady (t : Txn) (s : State) : Steady s (State.creditIn t s) := by simp [State.creditIn]
@[simp] theorem execOpLaunch_untouched (n : Nat) (s : State) : NextUntouched s (execOpLaunch n s) := by
  dsimp only [execOpLaunch]
  split
  · simp
  · next hp => simp [picked_steady hp]
@[simp] theorem execResultWriteResponse_untouched (tag : Nat) (s : State) : NextUntouched s (execResultWriteResponse tag s) := by
  dsimp only [execResultWriteResponse]
  repeat' split
  all_goals simp
@[simp] theorem opsSlushEntryWrite_untouched (e : OpsEntry) (s : State) : EffUntouched s (opsSlushEntryWrite e s) := by simp [opsSlushEntryWrite]

-- Commands of end-points
@[simp] theorem farunCol_steady (s : State) (n : Nat) (t0 : Txn) : Steady s (s.farunCol n t0) := by
  dsimp only [State.farunCol]
  split <;> simp
@[simp] theorem execResyncIssue_untouched (unit : FarunUnit) (ctx flow dest : Nat) (s : State) : NextUntouched s (execResyncIssue unit ctx flow dest s) := by
  dsimp only [execResyncIssue]
  repeat' split
  all_goals simp

-- Departures and messages
@[simp] theorem restoreLanded_steady (s : State) (n : Nat) : Steady s (s.restoreLanded n) := by simp [State.restoreLanded]
@[simp] theorem failTouching_steady (s : State) (n : Nat) : Steady s (s.failTouching n) := by simp [State.failTouching]
@[simp] theorem restorePage_steady (s : State) (page fa : Nat) : Steady s (s.restorePage page fa) := by
  dsimp only [State.restorePage]
  repeat' split
  all_goals simp
@[simp] theorem setBind_steady (s : State) (c : Nat) (b : Bind) : Steady s (s.setBind c b) := by simp [State.setBind]
@[simp] theorem dropWd_steady (s : State) (id : Nat) : Steady s (s.dropWd id) := by simp [State.dropWd]
@[simp] theorem wdComplete_steady (s : State) (w : Withdrawal) : Steady s (s.wdComplete w) := by
  dsimp only [State.wdComplete]
  repeat' split
  all_goals simp
@[simp] theorem wdDone_steady (s : State) (n id : Nat) : Steady s (s.wdDone n id) := by
  unfold State.wdDone
  split <;> simp
@[simp] theorem wdAbsent_steady (s : State) (n : Nat) : Steady s (s.wdAbsent n) := by simp [State.wdAbsent]
@[simp] theorem tableDone_steady (s : State) (n : Nat) : Steady s (s.tableDone n) := by simp [State.tableDone]
@[simp] theorem applyLeave_steady (s : State) (n kind uid slot : Nat) : Steady s (s.applyLeave n kind uid slot) := by
  dsimp only [State.applyLeave]
  repeat' split
  all_goals simp
@[simp] theorem applyReturn_steady (s : State) (from_ n uid slot : Nat) : Steady s (s.applyReturn from_ n uid slot) := by simp [State.applyReturn]
@[simp] theorem sendLeave_steady (s : State) (nodes : List Nat) (kind uid : Nat) : Steady s (s.sendLeave nodes kind uid) := by simp [State.sendLeave]
@[simp] theorem declareLeave_steady (s : State) (nodes : List Nat) (kind uid : Nat) : Steady s (s.declareLeave nodes kind uid) := by simp [State.declareLeave]
@[simp] theorem declareReturn_steady (s : State) (nodes : List Nat) (uid : Nat) : Steady s (s.declareReturn nodes uid) := by simp [State.declareReturn]
@[simp] theorem arriveMgt_steady (s : State) (a : Nat) (t : Txn) {k : State → State} (h : ∀ u, Steady u (k u)) : Steady s (s.arriveMgt a t k) := by
  simp [State.arriveMgt, h]
@[simp] theorem mgtDiscard_steady (s : State) : Steady s s.mgtDiscard := by simp [State.mgtDiscard]
@[simp] theorem answerTable_steady (s : State) (n : Nat) : Steady s (s.answerTable n) := by simp [State.answerTable]
@[simp] theorem askTable_steady (s : State) : Steady s s.askTable := by simp [State.askTable]
@[simp] theorem askAgain_steady (s : State) (n : Nat) : Steady s (s.askAgain n) := by simp [State.askAgain]
@[simp] theorem execMgtMsg_untouched (adm : Nat) (t : Txn) (s : State) : NextUntouched s (execMgtMsg adm t s) := by
  refine (nextUntouched_next _ _).mpr (arriveMgt_steady _ _ _ fun u => ?_).untouched
  split
  · simp
  split <;> simp
  split <;> simp
@[simp] theorem sendCtxAck_steady (s : State) (c : Nat) : Steady s (s.sendCtxAck c) := by simp [State.sendCtxAck]
@[simp] theorem bundleLoadChecked_untouched (rec_ : Nat) (s : State) : EffUntouched s (bundleLoadChecked rec_ s) := by simp [bundleLoadChecked]

-- Rack time
@[simp] theorem setQuality_steady (s : State) (q : Quality) : Steady s (s.setQuality q) := by simp [State.setQuality]
@[simp] theorem refLoss_steady (s : State) : Steady s s.refLoss := by
  unfold State.refLoss
  split <;> simp
@[simp] theorem stepTo_steady (s : State) (target : Nat) : Steady s (s.stepTo target) := by simp [State.stepTo]
@[simp] theorem slewBy_steady (s : State) (off : ℤ) : Steady s (s.slewBy off) := by simp [State.slewBy]
@[simp] theorem correct_steady (s : State) (off : ℤ) (target bound : Nat) : Steady s (s.correct off target bound) := by simp [State.correct]
@[simp] theorem refPresent_steady (s : State) : Steady s s.refPresent := by simp [State.refPresent]
@[simp] theorem marked4_steady (s : State) (n : Nat) : Steady s (s.marked4 n) := by simp [State.marked4]
@[simp] theorem rejectMark_steady (s : State) : Steady s s.rejectMark := by simp [State.rejectMark]
@[simp] theorem applySet_steady (s : State) (e : Nat) : Steady s (s.applySet e) := by simp [State.applySet]
@[simp] theorem pulseAcquiring_steady (s : State) : Steady s s.pulseAcquiring := by simp [State.pulseAcquiring]
@[simp] theorem pulseLocked_steady (s : State) : Steady s s.pulseLocked := by simp [State.pulseLocked]
@[simp] theorem pulseHoldover_steady (s : State) : Steady s s.pulseHoldover := by simp [State.pulseHoldover]
@[simp] theorem pulseUnlocked_steady (s : State) : Steady s s.pulseUnlocked := by simp [State.pulseUnlocked]
@[simp] theorem execEpochPulse_untouched (highNs : Nat) (s : State) : NextUntouched s (execEpochPulse highNs s) := by
  dsimp only [execEpochPulse]
  repeat' split
  all_goals simp
@[simp] theorem rtSetWrite_untouched (e : Nat) (s : State) : EffUntouched s (rtSetWrite e s) := by simp [rtSetWrite]
@[simp] theorem rtSourceWrite_untouched (src : Nat) (s : State) : EffUntouched s (rtSourceWrite src s) := by simp [rtSourceWrite]
@[simp] theorem rtSrcPortWrite_untouched (p : Nat) (s : State) : EffUntouched s (rtSrcPortWrite p s) := by simp [rtSrcPortWrite]
@[simp] theorem follow_steady (s : State) (r : TimeRec) : Steady s (s.follow r) := by simp [State.follow]
@[simp] theorem recUnlocked_steady (s : State) (r : TimeRec) (derived : Nat) : Steady s (s.recUnlocked r derived) := by simp [State.recUnlocked]
@[simp] theorem recSource_steady (s : State) (r : TimeRec) (derived : Nat) : Steady s (s.recSource r derived) := by
  unfold State.recSource
  split <;> simp
@[simp] theorem recUntimed_steady (s : State) (r : TimeRec) : Steady s (s.recUntimed r) := by
  unfold State.recUntimed
  split <;> simp
@[simp] theorem execTime_untouched (p : Nat) (r : TimeRec) (s : State) : NextUntouched s (execTime p r s) := by
  dsimp only [execTime]
  repeat' split
  all_goals simp
@[simp] theorem sendTime_steady (s : State) (p : Nat) : Steady s (s.sendTime p) := by
  dsimp only [State.sendTime]
  repeat' split
  all_goals simp
@[simp] theorem rtResumeWrite_untouched (slot : Nat) (s : State) : EffUntouched s (rtResumeWrite slot s) := by simp [rtResumeWrite]

-- Commands of translation
@[simp] theorem ctxBindWrite_untouched (c rec_ : Nat) (s : State) : EffUntouched s (ctxBindWrite c rec_ s) := by simp [ctxBindWrite]
@[simp] theorem withdrawWrite_untouched (rec_ : Nat) (s : State) : EffUntouched s (withdrawWrite rec_ s) := by simp [withdrawWrite]
@[simp] theorem execWithdrawalNotice_untouched (home id : Nat) (form : Bool) (ctx base len2m xgen : Nat) (bind : Option Nat) (s : State) :
    NextUntouched s (execWithdrawalNotice home id form ctx base len2m xgen bind s) := by
  dsimp only [execWithdrawalNotice]
  repeat' split
  all_goals simp
@[simp] theorem execDoneNoticeSend_untouched (home id : Nat) (s : State) : NextUntouched s (execDoneNoticeSend home id s) := by
  unfold execDoneNoticeSend
  split <;> simp
@[simp] theorem silent_steady (s : State) (w : Withdrawal) (n : Nat) : Steady s (s.silent w n) := by simp [State.silent]
@[simp] theorem execWithdrawalTimeout_untouched (id : Nat) (s : State) : NextUntouched s (execWithdrawalTimeout id s) := by
  unfold execWithdrawalTimeout
  split <;> simp
@[simp] theorem execNotifyStoreResponse_untouched (tag : Nat) (s : State) : NextUntouched s (execNotifyStoreResponse tag s) := by
  dsimp only [execNotifyStoreResponse]
  repeat' split
  all_goals simp
@[simp] theorem admitWaits_steady (s : State) (d : Nat) : Steady s (s.admitWaits d) := by
  refine foldl_steady (fun t m => ?_) _ _
  split
  · simp
  split <;> simp
@[simp] theorem execWalkStart_untouched (w : Nat) (s : State) : NextUntouched s (execWalkStart w s) := by
  dsimp only [execWalkStart]
  repeat' split
  all_goals simp
@[simp] theorem execWalkEntryRead_untouched (tag : Nat) (s : State) : NextUntouched s (execWalkEntryRead tag s) := by
  dsimp only [execWalkEntryRead]
  repeat' split
  all_goals simp
@[simp] theorem execWalkTimeout_untouched (w : Nat) (s : State) : NextUntouched s (execWalkTimeout w s) := by
  unfold execWalkTimeout
  split <;> simp
@[simp] theorem execAtsCompletion_untouched (w addr size : Nat) (r wr u : Bool) (s : State) : NextUntouched s (execAtsCompletion w addr size r wr u s) := by
  unfold execAtsCompletion
  split <;> simp
@[simp] theorem nextPage_steady (s : State) (h : Nat) : Steady s (s.nextPage h) := by simp [State.nextPage]
@[simp] theorem execMovingReread_untouched (w : Nat) (s : State) : NextUntouched s (execMovingReread w s) := by
  dsimp only [execMovingReread]
  repeat' split
  all_goals simp
@[simp] theorem execAtsInvalidate_untouched (h pasid itag base len2m : Nat) (s : State) : NextUntouched s (execAtsInvalidate h pasid itag base len2m s) := by
  unfold execAtsInvalidate
  split <;> simp

-- Links
@[simp] theorem filterRx_steady (s : State) : Steady s s.filterRx := by simp [State.filterRx]
@[simp] theorem toPort_steady (s : State) (p : Nat) (st : PortState) (self : Bool) (f : Port → Port) :
    Steady s (s.toPort p st self f) := by simp [State.toPort]
@[simp] theorem modLanes_steady (s : State) (p : Nat) (f : Nat → Lane → Lane) : Steady s (s.modLanes p f) := by simp [State.modLanes]
@[simp] theorem lanesOff_steady (s : State) (p : Nat) : Steady s (s.lanesOff p) := by simp [State.lanesOff]
@[simp] theorem toDetect_steady (s : State) (p n : Nat) (self : Bool) : Steady s (s.toDetect p n self) := by simp [State.toDetect]
@[simp] theorem attempt_steady (s : State) (p : Nat) : Steady s (s.attempt p) := by simp [State.attempt]
@[simp] theorem logDown_steady (s : State) (p cause : Nat) : Steady s (s.logDown p cause) := by simp [State.logDown]
@[simp] theorem sendTrain_steady (s : State) (p : Nat) : Steady s (s.sendTrain p) := by simp [State.sendTrain]
@[simp] theorem toExchange_steady (s : State) (p : Nat) : Steady s (s.toExchange p) := by simp [State.toExchange]
@[simp] theorem noteGiven_steady (s : State) (p : Nat) : Steady s (s.noteGiven p) := by simp [State.noteGiven]
@[simp] theorem emitCap_steady (s : State) (p : Nat) : Steady s (s.emitCap p) := by
  unfold State.emitCap
  split <;> simp
@[simp] theorem sendCap_steady (s : State) (p : Nat) : Steady s (s.sendCap p) := by simp [State.sendCap]
@[simp] theorem emitFrags_steady (s : State) (p mseq : Nat) (b : Bytes) : Steady s (s.emitFrags p mseq b) := by simp [State.emitFrags]
@[simp] theorem sendSpdm_steady (s : State) (p : Nat) (b : Bytes) : Steady s (s.sendSpdm p b) := by simp [State.sendSpdm]
@[simp] theorem startSession_steady (s : State) (p : Nat) : Steady s (s.startSession p) := by simp [State.startSession]
@[simp] theorem sessionFail_steady (s : State) (p : Nat) : Steady s (s.sessionFail p) := by simp [State.sessionFail]
@[simp] theorem sessionUp_steady (s0 : State) (p : Nat) : Steady s0 (s0.sessionUp p) := by simp [State.sessionUp]
@[simp] theorem grantFloors_steady (s : State) (p : Nat) : Steady s (s.grantFloors p) := by simp [State.grantFloors]
@[simp] theorem farunRenumber_steady (s : State) (n : Nat) : Steady s (s.farunRenumber n) := by simp [State.farunRenumber]
@[simp] theorem attachFarun_steady (s : State) (p node : Nat) (c : CapFrame) : Steady s (s.attachFarun p node c) := by simp [State.attachFarun]
@[simp] theorem farunRegive_steady (s : State) : Steady s s.farunRegive := by simp [State.farunRegive]
@[simp] theorem partnerBack_steady (s : State) (p : Nat) : Steady s (s.partnerBack p) := by
  unfold State.partnerBack
  split <;> simp
@[simp] theorem enterService_steady (s : State) (p : Nat) : Steady s (s.enterService p) := by simp [State.enterService]
@[simp] theorem tryService_steady (s : State) (p : Nat) : Steady s (s.tryService p) := by simp [State.tryService]
@[simp] theorem emitResult_steady (s : State) (p i : Nat) (c : Nat × Nat) : Steady s (s.emitResult p i c) := by simp [State.emitResult]
@[simp] theorem recordTest_steady (s : State) (p i res : Nat) (c : Nat × Nat) : Steady s (s.recordTest p i res c) := by simp [State.recordTest]
@[simp] theorem abortTest_steady (s : State) (p : Nat) : Steady s (s.abortTest p) := by
  unfold State.abortTest
  split <;> simp
@[simp] theorem widen_steady (s : State) (p mask : Nat) : Steady s (s.widen p mask) := by simp [State.widen]
@[simp] theorem judgeLane_steady (s : State) (p i : Nat) : Steady s (s.judgeLane p i) := by
  dsimp only [State.judgeLane]
  repeat' split
  all_goals simp
@[simp] theorem sendResults_steady (s : State) (p : Nat) : Steady s (s.sendResults p) := by
  unfold State.sendResults
  split <;> simp
@[simp] theorem enterLinked_steady (s : State) (p : Nat) (lim : Bool) : Steady s (s.enterLinked p lim) := by simp [State.enterLinked]
@[simp] theorem rateDone_steady (s : State) (p : Nat) : Steady s (s.rateDone p) := by simp [State.rateDone]
@[simp] theorem rateFailed_steady (s : State) (p : Nat) : Steady s (s.rateFailed p) := by simp [State.rateFailed]
@[simp] theorem countMelt_steady (s : State) (cls : Nat) : Steady s (s.countMelt cls) := by simp [State.countMelt]
@[simp] theorem downEntry_steady (p : Nat) (s : State) (e : QEntry) : Steady s (State.downEntry p s e) := by
  dsimp only [State.downEntry]
  repeat' split
  all_goals simp
@[simp] theorem downFlit_steady (s : State) (f : RetryFlit) : Steady s (s.downFlit f) := by
  unfold State.downFlit
  split <;> simp
@[simp] theorem partnerGone_steady (s : State) (p : Nat) : Steady s (s.partnerGone p) := by
  dsimp only [State.partnerGone]
  split <;> simp
@[simp] theorem portDown_steady (s : State) (p cause : Nat) (self : Bool) (to_ : PortState) :
    Steady s (s.portDown p cause self to_) := by simp [State.portDown]
@[simp] theorem retrainPort_steady (s : State) (p : Nat) (self : Bool) : Steady s (s.retrainPort p self) := by
  unfold State.retrainPort
  split <;> simp
@[simp] theorem askMask_steady (s : State) (p mask : Nat) : Steady s (s.askMask p mask) := by simp [State.askMask]
@[simp] theorem maskSettled_steady (s : State) (p : Nat) : Steady s (s.maskSettled p) := by
  dsimp only [State.maskSettled]
  repeat' split
  all_goals simp
@[simp] theorem useMask_steady (s : State) (p mask : Nat) : Steady s (s.useMask p mask) := by simp [State.useMask]
@[simp] theorem laneFaulty_steady (s : State) (l : Nat) : Steady s (s.laneFaulty l) := by simp [State.laneFaulty]
@[simp] theorem startGroup_untouched (s : State) (g : Nat) : Untouched s (s.startGroup g) := by simp [State.startGroup]
@[simp] theorem fullCheck_untouched (s : State) : Untouched s s.fullCheck := by simp [State.fullCheck]
@[simp] theorem stepOn_untouched (n : Nat) (s : State) : Untouched s (stepOn n s) := by
  induction n generalizing s with
  | zero => simp [stepOn]
  | succ n ih =>
    rw [stepOn]
    repeat' split
    all_goals simp [ih]
@[simp] theorem stepCheck_untouched (s : State) : Untouched s s.stepCheck := by simp [State.stepCheck]
@[simp] theorem replay_untouched (s : State) (p : Nat) : Untouched s (s.replay p) := by simp [State.replay]
@[simp] theorem lcbIn_untouched (s : State) (p lcb : Nat) : Untouched s (s.lcbIn p lcb) := by simp [State.lcbIn]
@[simp] theorem sendAck_untouched (s : State) (p : Nat) (nak : Bool) : Untouched s (s.sendAck p nak) := by simp [State.sendAck]
@[simp] theorem nakNow_untouched (s : State) (p : Nat) : Untouched s (s.nakNow p) := by simp [State.nakNow]
@[simp] theorem sequenced_untouched (s : State) (p : Nat) (f : Flit) {k : State → State} (h : ∀ t, Untouched t (k t)) : Untouched s (s.sequenced p f k) := by
  dsimp only [State.sequenced]
  repeat' split
  all_goals simp [h]
@[simp] theorem run_untouched {a : Answer} {s : State} (h : NextUntouched s a) : Untouched s (run a s) := by
  unfold run
  split
  · exact h _ rfl
  · simp
@[simp] theorem deliver_untouched (p : Nat) (s : State) (t : Txn) : Untouched s (State.deliver p s t) := by
  dsimp only [State.deliver]
  repeat' split
  all_goals simp [execRd, execWr, execAtom, execResync, execBisnp, execRspData, execRspAtom, execRspDone, execColData, execColSide, execColPart,
    execColCtlCredit, execColCtlAbort, execNodeLeave, execDoneNotice, execCtxStateNotice, execCtxStateAck]
@[simp] theorem takeFlit_untouched (p : Nat) (s : State) (body : Bytes) : Untouched s (State.takeFlit p s body) := by simp [State.takeFlit]
@[simp] theorem sendFlit_untouched (s : State) (p : Nat) (tag : Bool) (body : Bytes) (t : Option Txn) :
    Untouched s (s.sendFlit p tag body t) := by simp [State.sendFlit]
@[simp] theorem closeGroup_untouched (s : State) (p : Nat) : Untouched s (s.closeGroup p) := by simp [State.closeGroup]
@[simp] theorem sendWords_untouched (n p : Nat) (ws : List Nat) (t : Option Txn) (s : State) : Untouched s (sendWords n p ws t s) := by
  induction n generalizing ws s with
  | zero => simp [sendWords]
  | succ n ih => simp [sendWords, ih]
@[simp] theorem transmit_untouched (s : State) (p : Nat) : Untouched s (s.transmit p) := by
  dsimp only [State.transmit]
  repeat' split
  all_goals simp

-- Commands of links
@[simp] theorem portEnableWrite_untouched (p : Nat) (on : Bool) (s : State) : EffUntouched s (portEnableWrite p on s) := by
  dsimp only [portEnableWrite]
  repeat' split
  all_goals simp
@[simp] theorem retrainWrite_untouched (p : Nat) (s : State) : EffUntouched s (retrainWrite p s) := by simp [retrainWrite]
@[simp] theorem testWrite_untouched (p : Nat) (s : State) : EffUntouched s (testWrite p s) := by simp [testWrite]
@[simp] theorem rewidenWrite_untouched (p : Nat) (s : State) : EffUntouched s (rewidenWrite p s) := by simp [rewidenWrite]
@[simp] theorem portCtlWrite_untouched (p value : Nat) (s : State) : EffUntouched s (portCtlWrite p value s) := by
  unfold portCtlWrite
  split <;> simp
@[simp] theorem laneSlipWrite_untouched (l value : Nat) (s : State) : EffUntouched s (laneSlipWrite l value s) := by simp [laneSlipWrite]
@[simp] theorem laneCtlWrite_untouched (l value : Nat) (s : State) : EffUntouched s (laneCtlWrite l value s) := by
  unfold laneCtlWrite
  split <;> simp
@[simp] theorem execEyeScanComplete_untouched (l eye vstep width height : Nat) (errors : List Nat) (s : State) :
    NextUntouched s (execEyeScanComplete l eye vstep width height errors s) := by
  unfold execEyeScanComplete
  split <;> simp
@[simp] theorem lockCheck_untouched (s : State) (p : Nat) : Untouched s (s.lockCheck p) := by simp [State.lockCheck]
@[simp] theorem execTrainingTimeout_untouched (p : Nat) (s : State) : NextUntouched s (execTrainingTimeout p s) := by
  dsimp only [execTrainingTimeout]
  split <;> simp
@[simp] theorem newPartner_untouched (s : State) (p : Nat) (f : CapFrame) : Untouched s (s.newPartner p f) := by simp [State.newPartner]
@[simp] theorem noteLeaving_untouched (s : State) (p : Nat) (f : CapFrame) : Untouched s (s.noteLeaving p f) := by simp [State.noteLeaving]
@[simp] theorem nextKeys_untouched (s : State) (p : Nat) : Untouched s (s.nextKeys p) := by simp [State.nextKeys]
@[simp] theorem linkAnswer_untouched (s : State) (p code : Nat) : Untouched s (s.linkAnswer p code) := by
  dsimp only [State.linkAnswer]
  repeat' split
  all_goals simp
@[simp] theorem linkSpdm_untouched (s : State) (p : Nat) (msg : Bytes) : Untouched s (s.linkSpdm p msg) := by
  dsimp only [State.linkSpdm]
  repeat' split
  all_goals simp
@[simp] theorem execSpdm_untouched (p : Nat) (f : Frag) (s : State) : NextUntouched s (execSpdm p f s) := by
  dsimp only [execSpdm]
  repeat' split
  all_goals simp
@[simp] theorem execSpdmAck_untouched (p mseq : Nat) (s : State) : NextUntouched s (execSpdmAck p mseq s) := by
  dsimp only [execSpdmAck]
  repeat' split
  all_goals simp
@[simp] theorem execSpdmRepeat_untouched (p : Nat) (s : State) : NextUntouched s (execSpdmRepeat p s) := by
  unfold execSpdmRepeat
  split <;> simp
@[simp] theorem takeGroup_untouched (p : Nat) (key : LinkKey) (iv pos : Nat) (l : List (Nat × Bytes)) (s : State) : Untouched s (takeGroup p key iv pos l s) := by
  induction l generalizing pos s with
  | nil => simp [takeGroup]
  | cons g r ih => simp [takeGroup, ih]
@[simp] theorem tagBad_untouched (s : State) (p n : Nat) : Untouched s (s.tagBad p n) := by simp [State.tagBad]
@[simp] theorem tagServe_untouched (t : State) (p : Nat) (f : Flit) : Untouched t (t.tagServe p f) := by simp [State.tagServe]
@[simp] theorem execNarrow_untouched (p mask : Nat) (ack : Bool) (_sw : Nat) (s : State) : NextUntouched s (execNarrow p mask ack _sw s) := by
  dsimp only [execNarrow]
  repeat' split
  all_goals simp
@[simp] theorem execNarrowRepeat_untouched (p : Nat) (s : State) : NextUntouched s (execNarrowRepeat p s) := by
  unfold execNarrowRepeat
  split <;> simp
@[simp] theorem execNarrowSwitch_untouched (p : Nat) (s : State) : NextUntouched s (execNarrowSwitch p s) := by
  unfold execNarrowSwitch
  split <;> simp
@[simp] theorem execNarrowTimeout_untouched (p : Nat) (s : State) : NextUntouched s (execNarrowTimeout p s) := by
  unfold execNarrowTimeout
  split <;> simp
@[simp] theorem execDiagAck_untouched (p mask : Nat) (s : State) : NextUntouched s (execDiagAck p mask s) := by
  dsimp only [execDiagAck]
  repeat' split
  all_goals simp
@[simp] theorem stopTest_untouched (s : State) (p : Nat) : Untouched s (s.stopTest p) := by
  unfold State.stopTest
  split <;> simp
@[simp] theorem execDiagAckTimeout_untouched (p : Nat) (s : State) : NextUntouched s (execDiagAckTimeout p s) := by
  unfold execDiagAckTimeout
  split <;> simp
@[simp] theorem execDiagStop_untouched (p : Nat) (s : State) : NextUntouched s (execDiagStop p s) := by
  dsimp only [execDiagStop]
  repeat' split
  all_goals simp
@[simp] theorem execDiagResult_untouched (p l bits errs : Nat) (s : State) : NextUntouched s (execDiagResult p l bits errs s) := by
  dsimp only [execDiagResult]
  repeat' split
  all_goals simp
@[simp] theorem execDiagResultTimeout_untouched (p l : Nat) (s : State) : NextUntouched s (execDiagResultTimeout p l s) := by
  unfold execDiagResultTimeout
  split <;> simp
@[simp] theorem execTestEnd_untouched (p : Nat) (counts : List (Nat × Nat)) (s : State) : NextUntouched s (execTestEnd p counts s) := by
  unfold execTestEnd
  split <;> simp
@[simp] theorem execEyeScanWindow_untouched (k : Nat) (s : State) : NextUntouched s (execEyeScanWindow k s) := by
  unfold execEyeScanWindow
  split <;> simp
@[simp] theorem windowTest_untouched (e : EventEnt) (s : State) (p : Nat) : Untouched s (State.windowTest e s p) := by
  dsimp only [State.windowTest]
  repeat' split
  all_goals simp
@[simp] theorem execBitErrorWindow_untouched (k : Nat) (s : State) : NextUntouched s (execBitErrorWindow k s) := by
  unfold execBitErrorWindow
  split <;> simp
@[simp] theorem execBitErrorWindowEnd_untouched (p l bits errs : Nat) (s : State) : NextUntouched s (execBitErrorWindowEnd p l bits errs s) := by
  unfold execBitErrorWindowEnd
  split <;> simp
@[simp] theorem scrubErr_untouched (mask : Nat) (s : State) (e : ScrubErr) : Untouched s (scrubErr mask s e) := by
  unfold scrubErr
  split <;> simp
@[simp] theorem scrubOn_untouched (n : Nat) (s : State) (k : Nat) : Untouched s (State.scrubOn n s k) := by simp [State.scrubOn]
@[simp] theorem execScrubWindow_untouched (k lines : Nat) (errs : List ScrubErr) (s : State) : NextUntouched s (execScrubWindow k lines errs s) := by
  unfold execScrubWindow
  split <;> simp

end Sys2Proof.Machine
end

section
/-! The queue of commands and the CONST objects under every command (R408, R410): only a cold reset writes the CONST objects, at their factory values. -/

namespace Sys2Proof.Machine
open Sys2Proof

-- The standby bank
@[simp] theorem toBank_untouched (s : State) (st : BankState) (self : Bool) (f : Tables → Tables) : Untouched s (s.toBank st self f) := by simp [State.toBank]
@[simp] theorem noteSegment_untouched (s : State) (sess : Nat) (f : VFrame) (bytes : Bytes) : Untouched s (s.noteSegment sess f bytes) := by simp [State.noteSegment]
@[simp] theorem fillBank_untouched (s : State) (sess : Nat) (f : VFrame) : Untouched s (s.fillBank sess f) := by simp [State.fillBank]
@[simp] theorem imageWrite_untouched (s : State) (sess : Nat) (f : VFrame) : Untouched s (s.imageWrite sess f) := by
  unfold State.imageWrite
  split <;> simp
@[simp] theorem doSwitch_untouched (s : State) (slot : Nat) : Untouched s (s.doSwitch slot) := by simp [State.doSwitch]
@[simp] theorem tblArmWrite_untouched (slot version : Nat) (s : State) : EffUntouched s (tblArmWrite slot version s) := by simp [tblArmWrite]
@[simp] theorem tblCancelWrite_untouched (version : Nat) (s : State) : EffUntouched s (tblCancelWrite version s) := by
  unfold tblCancelWrite
  split <;> simp

-- Phases, resets, power and thermal stages
@[simp] theorem enterSlush_untouched (s : State) : Untouched s s.enterSlush := by
  dsimp only [State.enterSlush]
  split
  · exact Untouched.trans (by simp) (foldl_steady (fun _ _ => by simp) _ _).untouched
  · simp
@[simp] theorem leaveStrap_untouched (s : State) : Untouched s s.leaveStrap := by simp [State.leaveStrap]
@[simp] theorem offPort_steady (s : State) (p : Nat) : Steady s (s.offPort p) := by
  unfold State.offPort
  split <;> simp
@[simp] theorem enterOff_untouched (s : State) : Untouched s s.enterOff := by simp [State.enterOff]
@[simp] theorem enterDrain_untouched (s : State) (self : Bool) : Untouched s (s.enterDrain self) :=
  Untouched.trans (by simp) ((foldl_steady (fun _ _ => by simp) _ _).trans (foldl_steady sendCap_steady _ _)).untouched
@[simp] theorem leaveOwn_untouched (s : State) (kind : Nat) : Untouched s (s.leaveOwn kind) := by simp [State.leaveOwn]
@[simp] theorem awaitTable_untouched (s : State) : Untouched s s.awaitTable := by simp [State.awaitTable]
@[simp] theorem resetKept_untouched (s : State) : Untouched s s.resetKept := ⟨rfl, rfl⟩
@[simp] theorem packageReset_untouched (s : State) : Untouched s s.packageReset := by simp [State.packageReset]
@[simp] theorem devCtlWrite_untouched (value : Nat) (s : State) : EffUntouched s (devCtlWrite value s) := by simp [devCtlWrite]
@[simp] theorem trainFail_untouched (s : State) (k : Nat) : Untouched s (s.trainFail k) := by simp [State.trainFail]
@[simp] theorem trainStack_untouched (failed : List Nat) (s : State) (k : Nat) : Untouched s (State.trainStack failed s k) := by simp [State.trainStack]
@[simp] theorem execPowerOffAfterExpired_untouched (s : State) : NextUntouched s (execPowerOffAfterExpired s) := by
  unfold execPowerOffAfterExpired
  split <;> simp
@[simp] theorem thermalDrain_untouched (s : State) : Untouched s s.thermalDrain := by
  unfold State.thermalDrain
  split <;> simp
@[simp] theorem toStage_untouched (s : State) (st : Thermal) : Untouched s (s.toStage st) := by simp [State.toStage]
@[simp] theorem raiseStage_untouched (s : State) (st : Thermal) : Untouched s (s.raiseStage st) := by simp [State.raiseStage]
@[simp] theorem thmFlowSet_untouched (flow : Nat) (s : State) : EffUntouched s (thmFlowSet flow s) := by simp [thmFlowSet]
@[simp] theorem execTjSample_untouched (die stack : List ℤ) (s : State) : NextUntouched s (execTjSample die stack s) := by
  dsimp only [execTjSample]
  repeat' split
  all_goals simp
@[simp] theorem execStageHoldExpired_untouched (s : State) : NextUntouched s (execStageHoldExpired s) := by
  dsimp only [execStageHoldExpired]
  repeat' split
  all_goals simp
theorem takeEntry_untouched {s t : State} {q k : Nat} {e : QEntry} (h : s.takeEntry q k = some (e, t)) : Untouched s t := by
  simp only [State.takeEntry, Option.map_eq_some_iff] at h
  obtain ⟨x, -, hx⟩ := h
  cases hx
  simp
@[simp] theorem sramAnswer_untouched (s : State) (l : SramLoc) : Untouched s (s.sramAnswer l) := by
  unfold State.sramAnswer
  split
  · split
    · next ht => simp [takeEntry_untouched ht]
    · simp
  · split
    · next ht => split <;> simp [takeEntry_untouched ht]
    · simp
  · split
    · next ht => split <;> simp [takeEntry_untouched ht]
    · simp
  · simp
  · split <;> simp
  · simp
  · split
    · next ht => split <;> simp [takeEntry_untouched ht]
    · simp
  · simp
@[simp] theorem measurePower_untouched (s : State) : Untouched s s.measurePower := by simp [State.measurePower]

-- Commands of the pool
@[simp] theorem execDriftScan_untouched (s : State) : NextUntouched s (execDriftScan s) := by
  unfold execDriftScan
  split <;> simp
@[simp] theorem execDriftCopyDone_untouched (mv : Nat) (s : State) : NextUntouched s (execDriftCopyDone mv s) := by
  unfold execDriftCopyDone
  split <;> simp
@[simp] theorem execDriftRelease_untouched (mv : Nat) (s : State) : NextUntouched s (execDriftRelease mv s) := by
  unfold execDriftRelease
  split <;> simp
@[simp] theorem driftEnableWrite_untouched (on : Bool) (s : State) : EffUntouched s (driftEnableWrite on s) := by simp [driftEnableWrite]
@[simp] theorem driftLandReleaseWrite_untouched (fa : Nat) (s : State) : EffUntouched s (driftLandReleaseWrite fa s) := by simp [driftLandReleaseWrite]
@[simp] theorem poolBackptrWrite_untouched (page entry : Nat) (s : State) : EffUntouched s (poolBackptrWrite page entry s) := by simp [poolBackptrWrite]
@[simp] theorem zeroPage_untouched (s : State) (page : Nat) : Untouched s (s.zeroPage page) := by
  dsimp only [State.zeroPage]
  split <;> simp
@[simp] theorem extCtlWrite_untouched (e value : Nat) (s : State) : EffUntouched s (extCtlWrite e value s) := by simp [extCtlWrite]
@[simp] theorem extGrantsWrite_untouched (e rec_ : Nat) (s : State) : EffUntouched s (extGrantsWrite e rec_ s) := by simp [extGrantsWrite]
@[simp] theorem extRevokeWrite_untouched (e g : Nat) (s : State) : EffUntouched s (extRevokeWrite e g s) := by simp [extRevokeWrite]
@[simp] theorem stackCtlWrite_untouched (k value : Nat) (s : State) : EffUntouched s (stackCtlWrite k value s) := by simp [stackCtlWrite]

-- Rows of the dictionary
@[simp] theorem epochAccept_untouched (u : EUnit) (s : State) : Untouched s (epochAccept u s) := by simp [epochAccept]
@[simp] theorem modVane_untouched (s : State) (f : Vane → Vane) : Untouched s (modVane s f) := by simp [modVane]
@[simp] theorem modSw_untouched (s : State) (f : Switch → Switch) : Untouched s (modSw s f) := by simp [modSw]
@[simp] theorem modXact_untouched (s : State) (f : Xact → Xact) : Untouched s (modXact s f) := by simp [modXact]
@[simp] theorem modMov_untouched (s : State) (f : Mov → Mov) : Untouched s (modMov s f) := by simp [modMov]
@[simp] theorem modLink_untouched (s : State) (f : LinkCfg → LinkCfg) : Untouched s (modLink s f) := by simp [modLink]
@[simp] theorem modWin_untouched (s : State) (e : Nat) (f : WinEp → WinEp) : Untouched s (modWin s e f) := by simp [modWin]
@[simp] theorem ageLimitWrite_untouched (b : Bytes) (s : State) : EffUntouched s (ageLimitWrite b s) := by simp [ageLimitWrite]
@[simp] theorem repinHoldWrite_untouched (v : Nat) (s : State) : EffUntouched s (repinHoldWrite v s) := by simp [repinHoldWrite]
@[simp] theorem movTimeoutWrite_untouched (v : Nat) (s : State) : EffUntouched s (movTimeoutWrite v s) := by simp [movTimeoutWrite]
@[simp] theorem windowModeWrite_untouched (p v : Nat) (s : State) : EffUntouched s (windowModeWrite p v s) := by simp [windowModeWrite]
@[simp] theorem portAllowWrite_untouched (p : Nat) (b : Bytes) (s : State) : EffUntouched s (portAllowWrite p b s) := by simp [portAllowWrite]
@[simp] theorem aptBaseWrite_untouched (v : Nat) (s : State) : EffUntouched s (aptBaseWrite v s) := by simp [aptBaseWrite]
@[simp] theorem aptLog2Write_untouched (v : Nat) (s : State) : EffUntouched s (aptLog2Write v s) := by simp [aptLog2Write]
@[simp] theorem winTableWrite_untouched (e : Nat) (b : Bytes) (s : State) : EffUntouched s (winTableWrite e b s) := by simp [winTableWrite]
@[simp] theorem graceWrite_untouched (v : Nat) (s : State) : EffUntouched s (graceWrite v s) := by simp [graceWrite]
@[simp] theorem slushNodesWrite_untouched (b : Bytes) (s : State) : EffUntouched s (slushNodesWrite b s) := by simp [slushNodesWrite]
@[simp] theorem extField_untouched (e : Nat) (f : Ext → Ext) (s : State) : EffUntouched s (extField e f s) := by simp [extField]
@[simp] theorem hpModeWrite_untouched (h v : Nat) (s : State) : EffUntouched s (hpModeWrite h v s) := by simp [hpModeWrite]
@[simp] theorem nopasidWrite_untouched (h v : Nat) (s : State) : EffUntouched s (nopasidWrite h v s) := by simp [nopasidWrite]
@[simp] theorem ctxCtlWrite_untouched (v : Nat) (s : State) : EffUntouched s (ctxCtlWrite v s) := by simp [ctxCtlWrite]
@[simp] theorem keyCtlWrite_untouched (v : Nat) (s : State) : EffUntouched s (keyCtlWrite v s) := by simp [keyCtlWrite]

-- Frames of the dictionary, SPDM and the mailbox
@[simp] theorem serveRaw_untouched (s : State) (sess : Nat) (f : VFrame) {k : State → Answer} (h : ∀ t, NextUntouched t (k t)) :
    NextUntouched s (s.serveRaw sess f k) := by
  dsimp only [State.serveRaw]
  split
  · simp
  split
  · simp
  split
  · simp
  split
  · simp
  split
  · simp
  split
  · simp
  · exact fun u hu => Untouched.trans (by simp) (h _ u hu)
@[simp] theorem measure_untouched (s : State) (i t : Nat) : Untouched s (s.measure i t) := by simp [State.measure]
/-- Whatever state a write of a row of the dictionary gives is untouched. -/
def RowUntouched (r : ObjRow) : Prop := ∀ sess k b s, EffUntouched s (r.write sess k b s)
theorem rowsDev_untouched : ∀ r ∈ rowsDev, RowUntouched r := by
  simp [rowsDev, RowUntouched, roN, rwN, rwS, woN, epochRow]
theorem rowsVane_untouched : ∀ r ∈ rowsVane, RowUntouched r := by
  simp [rowsVane, RowUntouched, roN, roB, rwN, rwS]
theorem rowsSwitch_untouched : ∀ r ∈ rowsSwitch, RowUntouched r := by
  simp [rowsSwitch, RowUntouched, roN, roB, rwN, rwS]
theorem rowsPort_untouched : ∀ r ∈ rowsPort, RowUntouched r := by
  simp [rowsPort, RowUntouched, roN, roB, rwN, rwS, woN]
theorem rowsLane_untouched : ∀ r ∈ rowsLane, RowUntouched r := by
  simp [rowsLane, RowUntouched, roN, roB, rwN, rwS, woN]
theorem rowsXlate_untouched : ∀ r ∈ rowsXlate, RowUntouched r := by
  simp [rowsXlate, RowUntouched, roN, roB, rwN, rwS, woN]
theorem rowsOps_untouched : ∀ r ∈ rowsOps, RowUntouched r := by
  simp [rowsOps, RowUntouched, roN, roB, rwN, rwS]
theorem rowsTime_untouched : ∀ r ∈ rowsTime, RowUntouched r := by
  simp [rowsTime, RowUntouched, roN, roB, rwN, rwS, woN]
theorem rowsPool_untouched : ∀ r ∈ rowsPool, RowUntouched r := by
  simp [rowsPool, RowUntouched, roN, roB, rwN, rwS, woN]
theorem rowsExt_untouched : ∀ r ∈ rowsExt, RowUntouched r := by
  simp [rowsExt, RowUntouched, roN, roB, rwN, woN]
theorem rowsHost_untouched : ∀ r ∈ rowsHost, RowUntouched r := by
  simp [rowsHost, RowUntouched, roN, roB, rwN, rwS, woN]
theorem rowsSec_untouched : ∀ r ∈ rowsSec, RowUntouched r := by
  simp [rowsSec, RowUntouched, roN, roB, rwN, rwS, woN]
theorem rowsFail_untouched : ∀ r ∈ rowsFail, RowUntouched r := by
  simp [rowsFail, RowUntouched, roN, roB, rwN, rwS]
theorem objAt_untouched {i t k : Nat} {r : ObjRow} (h : objAt i t = some (r, k)) : RowUntouched r := by
  have hall : ∀ r ∈ allRows, RowUntouched r := by
    simp only [allRows, List.forall_mem_append]
    exact ⟨⟨⟨⟨⟨⟨⟨⟨⟨⟨⟨⟨rowsDev_untouched, rowsVane_untouched⟩, rowsSwitch_untouched⟩, rowsPort_untouched⟩, rowsLane_untouched⟩, rowsXlate_untouched⟩,
      rowsOps_untouched⟩, rowsTime_untouched⟩, rowsPool_untouched⟩, rowsExt_untouched⟩, rowsHost_untouched⟩, rowsSec_untouched⟩, rowsFail_untouched⟩
  exact hall r (findRow_some h)
theorem put_untouched {r : ObjRow} (hr : RowUntouched r) (sess k : Nat) (f : VFrame) (s : State) : Untouched s (r.put sess k f s).2 := by
  unfold ObjRow.put
  split
  · simp
  · exact judge_untouched _ _ _ (by simp [hr _ _ _ _])
theorem putSegment_untouched {r : ObjRow} (hr : RowUntouched r) (sess k : Nat) (f : VFrame) (s : State) : Untouched s (r.putSegment sess k f s) := by
  dsimp only [ObjRow.putSegment]
  split
  · simp
  split
  · exact Untouched.trans (by simp) (vaneJudge_untouched _ _ _ _ (hr _ _ _ _))
  · simp
@[simp] theorem serveFrame_untouched (s : State) (sess : Nat) (f : VFrame) : NextUntouched s (s.serveFrame sess f) := by
  dsimp only [State.serveFrame]
  split
  · split
    · split
      · simp
      · rintro _ ⟨⟩
    · split <;> simp
  split
  · simp
  next r k hrow =>
    have hr := objAt_untouched hrow
    split
    · simp
    split
    · simp
    split
    · simp
    split
    · simpa using putSegment_untouched hr _ _ _ _
    · simpa using put_untouched hr _ _ _ _
@[simp] theorem spdmSay_untouched (s : State) (ch : SpdmChan) (code : Nat) (body : List Nat) : Untouched s (s.spdmSay ch code body) := by simp [State.spdmSay]
@[simp] theorem spdmError_untouched (s : State) (ch : SpdmChan) (err : Nat) : Untouched s (s.spdmError ch err) := by simp [State.spdmError]
@[simp] theorem closeSession_untouched (s : State) (i : Nat) : Untouched s (s.closeSession i) := by simp [State.closeSession]
@[simp] theorem keyExchange_untouched (s : State) (ch : SpdmChan) (leaf : Nat) (auth : Bool) : Untouched s (s.keyExchange ch leaf auth) := by
  dsimp only [State.keyExchange]
  repeat' split
  all_goals simp
@[simp] theorem spdmFinish_untouched (s : State) (ch : SpdmChan) (i proof : Nat) : Untouched s (s.spdmFinish ch i proof) := by
  unfold State.spdmFinish
  split <;> simp
@[simp] theorem vendorRequest_untouched (s : State) (ch : SpdmChan) (i payload len : Nat) :
    Untouched s (s.vendorRequest ch i payload len) := by simp [State.vendorRequest]
@[simp] theorem spdmServe_untouched (s : State) (ch : SpdmChan) (r : SpdmReq) : Untouched s (s.spdmServe ch r) := by
  dsimp only [State.spdmServe]
  repeat' split
  all_goals simp
@[simp] theorem serveTen_untouched (s : State) (f : VFrame) : Untouched s (s.serveTen f).2 := by
  dsimp only [State.serveTen]
  split
  · simp
  next hrow =>
    split
    · simp
    split
    · simp
    split
    · simp
    · exact put_untouched (objAt_untouched hrow) _ _ _ _
@[simp] theorem mailEnd_untouched (s : State) (h g : Nat) (f : Mailbox → Mailbox) : Untouched s (s.mailEnd h g f) := by simp [State.mailEnd]
@[simp] theorem mailRefuse_untouched (s : State) (h g : Nat) : Untouched s (s.mailRefuse h g) := by simp [State.mailRefuse]
@[simp] theorem mailAnswer_untouched (s : State) (h g : Nat) (r : VFrame) : Untouched s (s.mailAnswer h g r) := by simp [State.mailAnswer]
@[simp] theorem execMailboxGo_untouched (h g : Nat) (req : Bytes) (ctl : Nat) (s : State) : NextUntouched s (execMailboxGo h g req ctl s) := by
  dsimp only [execMailboxGo]
  repeat' split
  all_goals simp
@[simp] theorem ideKm_untouched (s : State) (h stream : Nat) (secure : Bool) : Untouched s (s.ideKm h stream secure) := by simp [State.ideKm]
@[simp] theorem execDoeRequest_untouched (h len : Nat) (r : DoeReq) (s : State) : NextUntouched s (execDoeRequest h len r s) := by
  dsimp only [execDoeRequest]
  repeat' split
  all_goals simp

-- The passing of time
@[simp] theorem tick_untouched (s : State) : Untouched s s.tick := by simp [State.tick]

/-- Every command leaves the queue behind it and the CONST objects alone, but for a cold reset. -/
theorem exec_untouched_or_coldReset (c : Instr) (s : State) : NextUntouched s (exec c s) ∨ exec c s = .next s.coldReset := by
  cases c with
  | coldReset => exact .inr rfl
  | railsOutOfTolerance rail => exact .inr rfl
  | _ =>
    left
    simp [exec, execRingEnable, execRingDisable, execRingConfigure, execRestart, execTail, execCmplHead, execRingDrainEnd, execLineQueueHead, execMemRd, execMemWr,
      execHostLinkUp, execHostLinkDown, execDeadScanDone, execDeclareDead, execRevive, execClearRid, execHostMemRead, execHostMemWrite, execLockInterfaceRequest,
      execStartInterfaceRequest, execStopInterfaceRequest, execGetDeviceInterfaceReport, execGetDeviceInterfaceState, execIdeIntegrityFail, execPriReset, execRd,
      execWr, execAtom, execResync, execBisnp, execRspData, execRspAtom, execRspDone, execQueueHead, execMeltSweep, execRepinWindowEnd, execAccEnable, execColData,
      execColSide, execColPart, execColCtlAbort, execColCtlCredit, execRunStart, execRunPeriod, execPhaseDeadline, execOpsSlushEntry, execFarunIssue, execFence,
      execNodeLeave, execCtxActivate, execCtxStop, execCtxStateNotice, execCtxStateAck, execKeyGenerate, execKeyDestroy, execBundleLoad, execBundleChunk,
      execBundleKeyExpiry, execRefclkLost, execRefclkPresent, execEpochPulseMissing, execTimeRecordMissing, execRtSet, execRtSource, execRtSrcPort, execEpochStart,
      execHoldoverLimit, execRtResumeSlot, execScheduledResume, execCtxBind, execWithdrawContext, execWithdrawFa, execDoneNotice, execHoldExpired, execPrgResponse,
      execSlowWaitExpired, execAtsEnableCleared, execPortEnable, execPortCtlRetrain, execPortTest, execRewiden, execLaneSlip, execLaneScan, execRebase,
      execSignalDetected, execLaneLock, execDeskew, execTrain, execTrainRepeat, execEqualiseConverged, execVerifyEnd, execCap, execCapRepeat, execJoiningWaitEnd,
      execKeyUpdate, execData, execIdle, execTag, execNakRepeat, execReplayTimeout, execAckTimeout, execCreditRefresh, execPortTransmit, execLaneFault,
      execSerWindow, execSignalLost, execDownIdleEnd, execRetrain, execDiagStart, execDiagResultRepeat, execTblImage, execImageCheckDone, execTblArm, execTblCancel,
      execSwitchOver, execBankRetired, execColdResetRelease, execStrapSample, execFirmwareAuthenticated, execWarmReset, execPackageReset, execDrain, execDrainEnd,
      execRoleStrapChanged, execHbmTrainingDone, execPoolInitDone, execPowerWarnNAsserted, execThmFlowWrite, execFlowStale, execFlowLowExpired, execThermalTrip,
      execSramUe, execHpRefclkLost, execVaneSessionsLapse, execTelemetrySnapshot, execDriftEnable, execDriftLandRelease, execPoolBackptr, execHoleZeroed,
      execExtActivate, execExtRelease, execExtentReleased, execGranuleZeroed, execExtGrants, execExtRevoke, execRevocationComplete, execChannelTimeout,
      execStackFail, execRebuildStripe, execEvacuateGranule, execRead, execWrite, execDescribe, execEpochRecordWrite, execSegmentTimeout, execSettleTimeout,
      execMctpAssemblyTimeout, execArpRequest, execNeighbourSolicitation, execIcmpEcho, execSpdmRequest, execBkeyDeliver]
/-- A cold reset keeps the queue, and gives the CONST objects their factory values (R410). -/
theorem coldReset_pending (s : State) : s.coldReset.pending = s.pending := rfl
theorem coldReset_factory (s : State) : s.coldReset.dev.factory = State.reset.dev.factory := rfl
theorem constSafe_iff (s : State) : ConstSafe s ↔ s.dev.factory = State.reset.dev.factory := by
  simp only [ConstSafe, Dev.factory, Prod.mk.injEq]
  rfl

/-- Settles O7: a command changes nothing of the queue, and a cold reset keeps it. -/
theorem execKeepsQueue : Obligations.ExecKeepsQueue := by
  intro c s t ht
  rcases exec_untouched_or_coldReset c s with h | h
  · exact (h t ht).1
  · rw [h] at ht
    cases ht
    exact coldReset_pending s

/-- Settles O6: no command writes a CONST object but a cold reset, which writes the factory's values; nor does a nanosecond. -/
theorem stepKeepsConst : Obligations.StepKeepsConst := by
  intro s t hs ht
  rw [constSafe_iff] at hs ⊢
  unfold step at ht
  split at ht
  · cases ht
    exact (tick_untouched s).2.trans hs
  next c rest _ =>
    rcases exec_untouched_or_coldReset c { s with pending := rest } with h | h
    · exact (h t ht).2.trans hs
    · rw [h] at ht
      cases ht
      exact coldReset_factory _

end Sys2Proof.Machine
end

section
/-! The state after a cold reset (R410), and a step as the command at the front of the queue. -/

namespace Sys2Proof.Machine
open Sys2Proof

/-- Settles O1: this is `step` at a queue that is not empty. -/
theorem stepRunsFront : Obligations.StepRunsFront := by
  intro c q s hq
  rw [step, hq]

/-- The contexts of a reset state are context 0, ACTIVE, and FREE ones. -/
theorem reset_ctx_free {c : Nat} (hc : c ≠ 0) : (State.reset.ctx c).st = .free := by
  show (tget {} [(0, _)] c : Ctx).st = .free
  rw [tget, if_neg (Ne.symm hc), tget]
/-- Settles O3: a cold reset's state is written out, and its tables of rings, extents, keys and instances are empty. -/
theorem resetValues : Obligations.ResetValues :=
  ⟨rfl, rfl, rfl, rfl, rfl, rfl, rfl, fun _ => rfl, fun _ => rfl, fun _ => rfl, rfl, fun _ => reset_ctx_free, fun _ => rfl, rfl, rfl, rfl⟩
/-- Settles O4: the pool of a reset state is empty, and its CONST objects are the factory's. -/
theorem resetMeetsInvariants : Obligations.ResetMeetsInvariants :=
  ⟨rfl, rfl, rfl, rfl, rfl, rfl⟩

-- A cold reset of any state
theorem coldReset_host (s : State) (h : Nat) : s.coldReset.host h = { State.reset.host h with refclk := (s.host h).refclk } :=
  tget_tmap ({} : HostPort) s.hp (fun _ x => { refclk := x.refclk }) h rfl
theorem coldReset_farun (s : State) : ∀ q ∈ s.coldReset.farun, q.2.ports = [] := by
  intro q hq
  obtain ⟨x, -, rfl⟩ := List.mem_map.mp (show q ∈ s.detached from hq)
  rfl
/-- The requests left are those of end-points. -/
theorem coldReset_reqs (s : State) : ∀ q ∈ s.coldReset.reqs, q ∈ s.reqs ∧ ∃ i, q.2.who = .farun i ∨ q.2.who = .farunSync i := by
  intro q hq
  obtain ⟨hmem, hwho⟩ := List.mem_filter.mp (show q ∈ s.farunReqs from hq)
  refine ⟨hmem, ?_⟩
  split at hwho
  · next i h => exact ⟨i, .inl h⟩
  · next i h => exact ⟨i, .inr h⟩
  · cases hwho
theorem coldReset_out (s : State) : s.coldReset.out = s.out ++ [.pin 1 0, .pin 0 1] := by
  show (s.out ++ [.pin 1 0]) ++ [.pin 0 1] = _
  simp
/-- Settles O19: both commands are `State.coldReset`, which takes every unit but the ones named from `State.reset`. -/
theorem coldResetClears : Obligations.ColdResetClears := by
  intro s c hc
  have hexec : exec c s = .next s.coldReset := by
    rcases hc with rfl | ⟨r, rfl⟩ <;> rfl
  exact ⟨s.coldReset, hexec, ⟨rfl, rfl, rfl, rfl, rfl⟩, rfl, rfl, rfl, rfl, rfl, rfl, rfl, rfl, rfl, rfl, rfl, rfl, rfl, rfl, rfl, rfl, rfl, rfl, rfl, rfl, rfl, rfl,
    coldReset_host s, coldReset_farun s, coldReset_reqs s, coldReset_out s, rfl⟩

/-- Settles O27: after the glitch filter the first test is whether REFCLK is there (R488). -/
theorem pulsesNeedRefclk : Obligations.PulsesNeedRefclk := by
  intro s w hclk
  refine ⟨fun hw => ?_, fun hw => ?_⟩
  · show execEpochPulse w s = _
    rw [execEpochPulse, if_neg (Nat.not_lt.mpr hw), hclk]
    rfl
  · show execEpochPulse w s = _
    rw [execEpochPulse, if_pos hw]

end Sys2Proof.Machine
end

section
/-! Frames of the dictionary (R414 to R430): READ and DESCRIBE, accepted and stale writes, epoch records, repeated SEQs, and what the transports' timeouts and the
management port's questions change. -/

namespace Sys2Proof.Machine
open Sys2Proof

/-- Settles O14: the epoch check comes before the object's own checks and effect (R420). -/
theorem staleWriteHasNoEffect : Obligations.StaleWriteHasNoEffect := fun _ _ =>
  ⟨fun _ h he => vaneWrite_stale h he, fun _ h he => vaneWrite_stale h he, fun _ _ h he => vaneWrite_stale h he, fun _ _ h he => vaneWrite_stale h he,
    fun _ _ h he => vaneWrite_stale h he, fun _ _ _ _ h he => vaneWrite_stale h he, fun _ _ _ h he => vaneWrite_stale h he, fun _ h he => vaneWrite_stale h he,
    fun _ h he => vaneWrite_stale h he, fun _ h he => vaneWrite_stale h he⟩

-- Frames that come to their object
section
variable {s : State} {sess : Nat} {f : VFrame} {r : ObjRow} {k : Nat}

theorem slice_length (b : Bytes) (i n : Nat) : (slice b i n).length = n := by
  simp only [slice, List.length_append, List.length_replicate, List.length_take]
  omega
theorem describe_length (r : ObjRow) (i t k : Nat) (s : State) : (r.describe i t k s).length = 64 := by
  rw [ObjRow.describe, List.length_append, length_leBytes, slice_length]
theorem objectAbort_readable (hop : f.op = 1) (ho : objAt f.index f.sub = some (r, k)) (hr : r.acc ≠ .wo) : objectAbort f s = none := by
  simp [objectAbort, ho, hop, hr]
theorem objectAbort_describe (hop : f.op = 3) (ho : objAt f.index f.sub = some (r, k)) : objectAbort f s = none := by
  simp [objectAbort, ho, hop]
/-- Outside the measured quantities a READ takes nothing first. -/
theorem measure_other {i : Nat} (t : Nat) (hi : i ≠ 0x9000) : s.measure i t = s := by
  simp [State.measure, hi]
theorem serveFrame_read (hf : factoryIndex f.index = false) (hop : f.op = 1) (ho : objAt f.index f.sub = some (r, k)) (hd : r.ty.isDomain = false)
    (hi : f.index ≠ 0x9000) : s.serveFrame sess f = .next (s.respond sess f (s.rspFrame f 0 false (r.read sess k s))) := by
  simp [State.serveFrame, hf, ho, hop, measure_other _ hi, ObjRow.payload, hd]
theorem serveFrame_describe (hf : factoryIndex f.index = false) (hop : f.op = 3) (ho : objAt f.index f.sub = some (r, k)) :
    s.serveFrame sess f = .next (s.respond sess f (s.rspFrame f 0 false (r.describe f.index f.sub k s))) := by
  simp [State.serveFrame, hf, ho, hop]
/-- A command that counts the datagram and sends its response changes nothing else, and the response comes last. -/
theorem responded_mgmtOnly {c : Instr} {q : VFrame} (h : exec c s = .next ((s.countDatagram sess).respond sess f q)) :
    ∃ t, exec c s = .next t ∧ MgmtOnly s t ∧ t.out.getLast? = some (.vane sess q) := by
  refine ⟨_, h, (countDatagram_mgmt s sess).trans (respond_mgmt _ sess f q), ?_⟩
  rw [respond_out, List.getLast?_concat]
end

/-- Settles O11: a READ and a DESCRIBE pass the checks on the object, and are served by a response alone. -/
theorem readAndDescribe : Obligations.ReadAndDescribe := by
  refine ⟨fun s sess f r k hr hop hm hf ho hacc hd hi => ?_, fun s sess f r k hr hop hm hf ho => ?_⟩
  · have hexec : exec (.read sess f) s = .next ((s.countDatagram sess).respond sess f ((s.countDatagram sess).rspFrame f 0 false (r.read sess k (s.countDatagram sess)))) := by
      show s.serveRaw sess f (fun t => t.serveFrame sess f) = _
      rw [serveRaw_serves hr hm (objectAbort_readable hop ho hacc), serveFrame_read hf hop ho hd hi]
    obtain ⟨t, ht, hmgmt, hout⟩ := responded_mgmtOnly hexec
    exact ⟨t, _, ht, hmgmt, hout, rfl, rfl, rfl, rfl⟩
  · have hexec : exec (.describe sess f) s =
        .next ((s.countDatagram sess).respond sess f ((s.countDatagram sess).rspFrame f 0 false (r.describe f.index f.sub k (s.countDatagram sess)))) := by
      show s.serveRaw sess f (fun t => t.serveFrame sess f) = _
      rw [serveRaw_serves hr hm (objectAbort_describe hop ho), serveFrame_describe hf hop ho]
    obtain ⟨t, ht, hmgmt, hout⟩ := responded_mgmtOnly hexec
    exact ⟨t, _, ht, hmgmt, hout, rfl, rfl, rfl, describe_length _ _ _ _ _, describe_length _ _ _ _ _⟩

-- Writes
section
variable {s w : State} {sess : Nat} {f : VFrame} {r : ObjRow} {k : Nat}

theorem judge_ok {u : Option EUnit} {eff : State → Except Nat State} (he : ∀ x, u = some x → (s.epochRec x).epoch = f.epoch) (hw : eff s = .ok w) :
    s.judge f u eff = (0, w.accept u) := by
  have hu : u.any (fun x => (s.epochRec x).epoch != f.epoch) = false := by
    cases u with
    | none => rfl
    | some x => simp [he x rfl]
  simp [State.judge, hu, hw]
theorem put_ok (hl : f.payload.length = r.ty.len) (he : ∀ u, unitOf f = some u → (s.epochRec u).epoch = f.epoch) (hrng : r.inRange f.payload = true)
    (hw : r.write sess k f.payload s = .ok w) : r.put sess k f s = (0, w.accept (unitOf f)) := by
  rw [ObjRow.put, if_neg (by simp [hl]), judge_ok he (by rw [check, if_pos hrng, hw])]
/-- A WRITE of an object that is no DOMAIN comes to the object's own check, and ends with the answer to that. -/
theorem exec_write_put (h : Reaches s sess f) (hop : f.op = 2) (hm : malformedReq f (s.frameMax sess) = false) (hf : factoryIndex f.index = false)
    (ho : objAt f.index f.sub = some (r, k)) (hc : r.acc ≠ .const) (hro : r.acc ≠ .ro) (hl : r.locked (s.countDatagram sess) = false) (hd : r.ty.isDomain = false) :
    exec (.write sess f) s = .next ((r.put sess k f (s.countDatagram sess)).2.refuse sess f (r.put sess k f (s.countDatagram sess)).1) := by
  rw [exec_write, serveRaw_serves h hm (objectAbort_writable hop ho hc hro hl), serveFrame_write hf hop ho hd]
/-- Such a WRITE with the unit's epoch and a good payload is accepted, and has the effect of its object. -/
theorem exec_write_ok (h : Reaches s sess f) (hop : f.op = 2) (hm : malformedReq f (s.frameMax sess) = false) (hf : factoryIndex f.index = false)
    (ho : objAt f.index f.sub = some (r, k)) (hc : r.acc ≠ .const) (hro : r.acc ≠ .ro) (hl : r.locked (s.countDatagram sess) = false) (hd : r.ty.isDomain = false)
    (hlen : f.payload.length = r.ty.len) (hrng : r.inRange f.payload = true) (he : ∀ u, unitOf f = some u → (s.epochRec u).epoch = f.epoch)
    (hw : r.write sess k f.payload (s.countDatagram sess) = .ok w) : exec (.write sess f) s = .next ((w.accept (unitOf f)).refuse sess f 0) := by
  rw [exec_write_put h hop hm hf ho hc hro hl hd, put_ok hlen (fun u hu => by rw [countDatagram_epochRec, he u hu]) hrng hw]
theorem refuse_getLast (s : State) (sess : Nat) (f : VFrame) (a : Nat) : (s.refuse sess f a).out.getLast? = some (.vane sess (s.rspFrame f a false [])) := by
  rw [refuse_out, List.getLast?_concat]
theorem refuse_epochRec (s : State) (sess : Nat) (f : VFrame) (a : Nat) (u : EUnit) : (s.refuse sess f a).epochRec u = s.epochRec u := by
  rw [State.epochRec, refuse_epochs]
  rfl
end

/-- Settles O12: an accepted WRITE is the object's effect, the raised epoch and the response. -/
theorem writeTakesEffect : Obligations.WriteTakesEffect := by
  intro s w sess f r k hr hop hm hf ho hc hro hl hd hlen hrng he hw
  exact ⟨_, _, exec_write_ok hr hop hm hf ho hc hro hl hd hlen hrng he hw, (accept_mgmt _ _).trans (refuse_mgmt _ _ _ _), refuse_getLast _ _ _ _, rfl, rfl, rfl⟩

-- Epoch records
section
variable {s : State} {u : EUnit}

/-- Epoch records lie below the factory-test range. -/
theorem epochRecord_index_lt (h : u.ok = true) : u.obj.1 < 0xF000 := by
  cases u <;> simp only [EUnit.ok, ringOk, ctxOk, portOk, extOk, hostOk, decide_eq_true_eq] at h <;> simp only [EUnit.obj] <;> omega
theorem epochAccept_mgmt (u : EUnit) (s : State) : Mgmt s (epochAccept u s) := modEpoch_mgmt _ _ _
theorem dpState_countDatagram (s : State) (i : Nat) (u : EUnit) : (s.countDatagram i).dpState u = s.dpState u := by
  obtain ⟨v, e, o, h⟩ := countDatagram_mgmt s i
  rw [h]
  cases u <;> rfl
/-- The record after an accepted write of it: the managed state is the data path's, DISAGREE is clear, and the epoch has risen (R426, R430). -/
theorem settled_epochRec (s : State) (u : EUnit) (sess : Nat) (f : VFrame) (a : Nat) :
    (((epochAccept u s).accept (some u)).refuse sess f a).epochRec u =
      { s.epochRec u with mg := some (s.dpState u), disagree := false, epoch := ((s.epochRec u).epoch + 1) % 4294967296, self := false, slot := s.slot } := by
  rw [refuse_epochRec, State.accept, epochRec_modEpoch, epochAccept, epochRec_modEpoch]
  rfl
end

/-- Settles O15: the record's write is accepted with the current epoch, typed or in a frame of 16 bytes; a frame of another length fails the check of LENGTH. -/
theorem epochRecordWriteSettles : Obligations.EpochRecordWriteSettles := by
  refine ⟨fun s v u h he => ?_, fun s sess f u hok hi ht hr hop hm he => ?_⟩
  · have hexec : exec (.epochRecordWrite v u) s =
        .next (((epochAccept u (s.countDatagram v.sess)).accept (some u)).refuse v.sess (writeFrame v u.obj.1 u.obj.2 (s.epochBytes u)) 0) := by
      have hj := judge_ok (s := s.countDatagram v.sess) (f := writeFrame v u.obj.1 u.obj.2 (s.epochBytes u)) (u := some u) (eff := fun t => .ok (epochAccept u t))
        (fun x hx => by cases hx; rw [countDatagram_epochRec, he]; rfl) rfl
      rw [show exec (.epochRecordWrite v u) s = s.vaneWrite v u.obj (s.epochBytes u) (some u) (fun t => .ok (epochAccept u t)) from rfl, vaneWrite_reaches h,
        State.vaneJudge, hj]
    refine ⟨_, hexec, refuse_answered _ _ _ _ _ _, (countDatagram_mgmt _ _).trans ((epochAccept_mgmt _ _).trans ((accept_mgmt _ _).trans (refuse_mgmt _ _ _ _))), ?_, ?_, ?_⟩
    · rw [settled_epochRec, dpState_countDatagram]
    · rw [settled_epochRec]
    · rw [settled_epochRec, countDatagram_epochRec, he]
      norm_num
  · obtain ⟨r, k, ho, hacc, hty, hrng, hlock, hwrite⟩ := objAt_epoch u hok
    rw [← hi, ← ht] at ho
    have hunit := unitOf_epoch u hok f hi ht
    have hf : factoryIndex f.index = false := by
      simp [factoryIndex, hi, Nat.not_le.mpr (epochRecord_index_lt hok)]
    have hc : r.acc ≠ .const := by simp [hacc]
    have hro : r.acc ≠ .ro := by simp [hacc]
    have hd : r.ty.isDomain = false := by simp [hty, OType.isDomain]
    refine ⟨fun hlen => ?_, fun hlen => ?_⟩
    · have hexec := exec_write_ok hr hop hm hf ho hc hro (hlock _) hd (by rw [hty, hlen]; rfl) (by simp [ObjRow.inRange, hty, hrng])
        (fun x hx => by rw [hunit] at hx; cases hx; exact he) (hwrite sess f.payload _)
      rw [hunit] at hexec
      refine ⟨_, _, hexec, (countDatagram_mgmt _ _).trans ((epochAccept_mgmt _ _).trans ((accept_mgmt _ _).trans (refuse_mgmt _ _ _ _))), refuse_getLast _ _ _ _, rfl, rfl, rfl, ?_, ?_⟩
      · rw [settled_epochRec, dpState_countDatagram]
      · rw [settled_epochRec]
    · have hexec := exec_write_put hr hop hm hf ho hc hro (hlock _) hd
      rw [put_badLength k (by rw [hty]; exact hlen)] at hexec
      exact refused_mgmtOnly hexec

-- Repeated requests, and sessions that are not served
section
variable {s : State} {sess : Nat} {f : VFrame}

theorem authFail_mgmt (s : State) (w : Nat) : Mgmt s (s.authFail w) := Mgmt.trans ⟨_, s.evt, s.out, rfl⟩ (event_mgmt _ _ _ _ _ _ _)
theorem resend_mgmt (s : State) (sess : Nat) (kp : Kept) : Mgmt s (s.resend sess kp) := Mgmt.trans ⟨_, s.evt, s.out, rfl⟩ (emit_mgmt _ _)
theorem countDatagram_out (s : State) (i : Nat) : (s.countDatagram i).out = s.out := by
  unfold State.countDatagram
  split <;> rfl
/-- A well-formed frame of a session that is served, under a SEQ that is kept: the kept response, or a refusal (R418). -/
theorem exec_write_kept {kp : Kept} (ho : s.vaneOpen sess f = true) (ha : s.answers sess = true) (hr : s.rateOk sess = true) (hp : s.prvView sess = true)
    (hm : malformedReq f (s.frameMax sess) = false) (hk : s.keptOf sess f.seq = some kp) :
    exec (.write sess f) s = .next (if kp.req == f then (s.countDatagram sess).resend sess kp
      else (s.countDatagram sess).refuse sess f ((objectAbort f (s.countDatagram sess)).getD abortSeq)) := by
  rw [exec_write, State.serveRaw]
  simp [ho, ha, hr, hp, hm, keptOf_countDatagram, hk]
theorem exec_write_unanswered (ho : s.vaneOpen sess f = true) (ha : s.answers sess = false) : exec (.write sess f) s = .next s.dropFrame := by
  rw [exec_write, State.serveRaw]
  simp [ho, ha]
/-- Clear I3C without the privilege of R423. -/
theorem exec_write_clear (ho : s.vaneOpen 0 f = true) (hp : s.prvView 0 = false) (hm : malformedReq f (s.frameMax 0) = false) :
    exec (.write 0 f) s = .next (((s.countDatagram 0).authFail 1).refuse 0 f abortAuth) := by
  rw [exec_write, State.serveRaw]
  simp [ho, hp, hm, State.answers, State.rateOk, State.onI3c]
end

/-- Settles O16: the order of R420 down to the kept response, for each of the four frames. -/
theorem sessionRules : Obligations.SessionRules := by
  refine ⟨fun s sess f kp ho ha hr hp hm hk => ⟨fun hreq => ?_, fun hreq habort => ?_⟩, fun s sess f ho ha => exec_write_unanswered ho ha, fun s f ho hp hm => ?_⟩
  · refine ⟨_, (exec_write_kept ho ha hr hp hm hk).trans (by rw [if_pos (by simp [hreq])]), (countDatagram_mgmt _ _).trans (resend_mgmt _ _ _), ?_⟩
    rw [← countDatagram_out s sess]
    rfl
  · refine refused_mgmtOnly ((exec_write_kept ho ha hr hp hm hk).trans ?_)
    rw [if_neg (by simp [hreq]), habort]
    rfl
  · exact ⟨_, _, exec_write_clear ho hp hm, (countDatagram_mgmt _ _).trans ((authFail_mgmt _ _).trans (refuse_mgmt _ _ _ _)), refuse_getLast _ _ _ _, rfl, rfl, rfl⟩

-- The timeouts of the dictionary, and the management port
theorem notifyOne_epochs (e : Event) (s : State) (i : Nat × Session) : (notifyOne e s i).vane.epochs = s.vane.epochs := by
  unfold notifyOne
  split <;> rfl
theorem foldl_notifyOne_epochs (e : Event) (l : List (Nat × Session)) (s : State) : (l.foldl (notifyOne e) s).vane.epochs = s.vane.epochs := by
  induction l generalizing s with
  | nil => rfl
  | cons x l ih => rw [List.foldl_cons, ih, notifyOne_epochs]
/-- An event is noted and notified; no epoch record changes. -/
theorem event_epochRec (s : State) (cls code sev unit detail aux : Nat) (u : EUnit) : (s.event cls code sev unit detail aux).epochRec u = s.epochRec u := by
  unfold State.event State.epochRec
  split
  · rfl
  · rw [foldl_notifyOne_epochs]
theorem exec_segmentTimeout {s : State} {x : Transfer} {l : List Transfer} (hl : s.vane.transfers = x :: l) (hlate : x.at_ + s.vane.segTimeout * 1000000 ≤ s.clk) :
    ∃ l', exec (.segmentTimeout x.sess x.index x.sub) s = .next { s with vane := { s.vane with transfers := { x with abandoned := true } :: l' } } ∧
      l'.length = l.length := by
  refine ⟨l.map (fun y => if y.sess == x.sess && y.index == x.index && y.sub == x.sub && decide (y.at_ + s.vane.segTimeout * 1000000 ≤ s.clk)
    then { y with abandoned := true } else y), ?_, List.length_map _⟩
  show execSegmentTimeout x.sess x.index x.sub s = _
  rw [execSegmentTimeout, State.modTransfers, hl]
  simp [hlate]
theorem exec_settleTimeout {s : State} {u : EUnit} (hsince : (s.epochRec u).since ≠ 0) (hlate : (s.epochRec u).since + s.vane.settle * 1000000 ≤ s.clk)
    (hdp : s.dpState u ≠ s.mgState u) (hd : (s.epochRec u).disagree = false) :
    exec (.settleTimeout u) s = .next ((s.modEpoch u (fun x => { x with disagree := true })).event 1 0x01 1 u.obj.1 u.obj.2 0) := by
  show execSettleTimeout u s = _
  rw [execSettleTimeout]
  simp [hsince, hlate, hdp, hd]

/-- Settles O17: each timeout compares its deadline with the clock, and the management port answers the device's own addresses. -/
theorem transportEvents : Obligations.TransportEvents := by
  refine ⟨⟨fun s x l => exec_segmentTimeout, fun s u hsince hlate hdp hd => ?_, fun s g hcold => ?_⟩, fun s hopen => ⟨fun hip => ?_, fun hip => ?_, fun p hip => ?_⟩⟩
  · refine ⟨_, exec_settleTimeout hsince hlate hdp hd, (modEpoch_mgmt _ _ _).trans (event_mgmt _ _ _ _ _ _ _), ?_⟩
    rw [event_epochRec, epochRec_modEpoch]
  · show execMctpAssemblyTimeout g s = _
    rw [execMctpAssemblyTimeout, if_neg (by simp [hcold])]
    rfl
  · show execArpRequest s.vane.ipv4 s = _
    simp [execArpRequest, hopen, hip]
  · show execNeighbourSolicitation s.vane.ipv6 s = _
    simp [execNeighbourSolicitation, hopen, hip]
  · show execIcmpEcho false s.vane.ipv4 p s = _
    simp [execIcmpEcho, hopen, hip]

end Sys2Proof.Machine
end

section
/-! Coolant and the thermal stages (R470, R471, R494, R495). -/

namespace Sys2Proof.Machine
open Sys2Proof

-- The coolant flow
theorem countDatagram_thm (s : State) (i : Nat) : (s.countDatagram i).thm = s.thm := by
  obtain ⟨v, e, o, h⟩ := countDatagram_mgmt s i
  rw [h]
theorem countDatagram_clk (s : State) (i : Nat) : (s.countDatagram i).clk = s.clk := by
  obtain ⟨v, e, o, h⟩ := countDatagram_mgmt s i
  rw [h]
/-- `THM.FLOW` as a write sets it at time `clk`. -/
def Therm.reported (t : Therm) (flow clk : Nat) : Therm := { t with flow := flow, flowAt := clk, flowStale := false }.watch clk
/-- A change of the thermal record commutes with what touches the management side alone. -/
theorem Mgmt.modThm {s t : State} (h : Mgmt s t) (f : Therm → Therm) : Mgmt (s.modThm f) (t.modThm f) := by
  obtain ⟨v, e, o, rfl⟩ := h
  exact ⟨v, e, o, rfl⟩
theorem thmFlowWrite_accepts {s : State} {v : VCtx} {q : Nat} (h : Write s v (0x9000, 0x12) (leBytes 2 q)) (hq : q ≤ 10000) :
    Accepts (.thmFlowWrite v q) v s (s.modThm (fun t => t.reported q s.clk)) := by
  refine vaneWrite_accepts_mgmt (u := none) h (fun _ hu => nomatch hu) (x := (s.countDatagram v.sess).modThm (fun t => t.reported q s.clk)) ?_
    ((countDatagram_mgmt s v.sess).modThm _)
  rw [thmFlowSet, check, if_pos (by simp [hq]), countDatagram_clk]
  rfl
theorem thmFlowWrite_outOfRange {s : State} {v : VCtx} {q : Nat} (h : Write s v (0x9000, 0x12) (leBytes 2 q)) (hq : 10000 < q) (hu : q ≠ 0xFFFF) :
    Aborts (.thmFlowWrite v q) v s 0x09 := by
  refine vaneWrite_aborts (u := none) h (fun _ hu => nomatch hu) ?_
  rw [thmFlowSet, check, if_neg (by simp [hu, Nat.not_le.mpr hq])]
  rfl
theorem reported_low1000 {t : Therm} {q clk : Nat} (hq : q ≤ 10000) :
    (t.reported q clk).low1000 = if q < 1000 then some (t.low1000.getD clk) else none := by
  have hne : q ≠ 0xFFFF := by omega
  simp [Therm.reported, Therm.watch, Therm.flowBelow, hne]
/-- A value of `THM.FLOW` grows stale: as below 2,200 mL/min, with event 5/0x03. -/
theorem exec_flowStale {s : State} (hs : s.thm.flowStale = false) (hlate : s.thm.flowAt + 1000000000 ≤ s.clk) (hc : s.dev.phase ≠ .cold) (ht : s.thm.stage ≠ .trip) :
    Does .flowStale s (s.modThm (fun t => { t with flowStale := true }.watch s.clk)) := by
  refine ⟨_, ?_, event_mgmt _ 5 0x03 1 0 0 0⟩
  show execFlowStale s = _
  rw [execFlowStale, if_pos (by simp [hs, hlate, hc, ht])]

-- Junction samples
theorem raiseStage_normal (s : State) : s.raiseStage .normal = s := if_neg (Nat.not_lt_zero _)
/-- The first sample of a device, within limits: recorded, and the stage stays. -/
theorem exec_tjSample_first {s : State} {d k : List Int} (hc : s.dev.phase ≠ .cold) (ht : s.thm.stage ≠ .trip) (hp : s.thm.tjPrev = none)
    (hn : tjStage (maxInt (tjReadings d k)) = .normal) : exec (.tjSample d k) s = .next (s.modThm (fun t =>
      { t with tjMax := maxInt (tjReadings d k), tjPrev := some (maxInt (tjReadings d k)), tjHeld := false, sensors := sensorList d k }.watch s.clk)) := by
  show execTjSample d k s = _
  rw [execTjSample, if_neg (by simp [hc, ht]), hp]
  simp only [hn, raiseStage_normal]
/-- The first reading that jumps is put off. -/
theorem exec_tjSample_jump {s : State} {d k : List Int} {x : Int} (hc : s.dev.phase ≠ .cold) (ht : s.thm.stage ≠ .trip) (hp : s.thm.tjPrev = some x)
    (hh : s.thm.tjHeld = false) (hj : 20000 < (maxInt (tjReadings d k) - x).natAbs) :
    exec (.tjSample d k) s = .next { s with thm := { s.thm with tjHeld := true } } := by
  show execTjSample d k s = _
  rw [execTjSample, if_neg (by simp [hc, ht]), hp, hh]
  simp only [hj, if_true]
  rfl

-- Moving to a stage
section
variable {s : State} {st : Thermal}

/-- The state in which a stage is entered: the thermal record says so, and event 5/0x01 is noted. -/
def State.stageNoted (s : State) (st : Thermal) : State :=
  ((s.modThm (fun t => { t with stage := st, stageSlot := s.slot, backSince := none })).modThm (fun t => t.watch s.clk)).event 5 0x01 1 0 st.code (ofSigned 64 s.thm.tjMax)
theorem toStage_eq (hs : s.thm.stage ≠ st) (hd : st ≠ .drain) : s.toStage st = (s.stageNoted st).settlePhase := by
  rw [State.toStage, if_neg (by simp [hs]), if_neg (by simp [hd])]
  rfl
theorem stageNoted_mgmt (s : State) (st : Thermal) :
    Mgmt (s.modThm (fun t => { t with stage := st, stageSlot := s.slot, backSince := none }.watch s.clk)) (s.stageNoted st) := event_mgmt _ _ _ _ _ _ _
/-- Entering a stage other than DRAIN writes the thermal record and leaves the pool alone (Table 16-8). -/
theorem toStage_thm (hs : s.thm.stage ≠ st) (hd : st ≠ .drain) :
    (s.toStage st).thm = { s.thm with stage := st, stageSlot := s.slot, backSince := none }.watch s.clk := by
  obtain ⟨_, _, _, hthm, -⟩ := (settlePhase_carried (s.stageNoted st)).keeps
  obtain ⟨v, e, o, h⟩ := stageNoted_mgmt s st
  rw [toStage_eq hs hd, hthm, h]
  rfl
theorem toStage_pool (hs : s.thm.stage ≠ st) (hd : st ≠ .drain) : (s.toStage st).pool = s.pool := by
  obtain ⟨v, e, o, h⟩ := stageNoted_mgmt s st
  rw [toStage_eq hs hd, settlePhase_pool, h]
  rfl
/-- SHED takes a device in FULL to DEGRADED (R458). -/
theorem settlePhase_degrades (hp : s.dev.phase = .full) (hd : s.degradedCond = true) : s.settlePhase.dev.phase = .degraded := by
  obtain ⟨v, e, o, h⟩ := noteChange_mgmt s { s with dev := { s.dev with phase := .degraded, phaseSince := s.clk } } .device true false
  rw [State.settlePhase, if_pos (by simp [hp, hd]), State.toPhase, h]
theorem toStage_shed_degrades (hs : s.thm.stage ≠ .shed) (hp : s.dev.phase = .full) : (s.toStage .shed).dev.phase = .degraded := by
  obtain ⟨v, e, o, h⟩ := stageNoted_mgmt s .shed
  rw [toStage_eq hs (by decide)]
  refine settlePhase_degrades ?_ ?_
  · rw [h]
    exact hp
  · have hcode : (s.stageNoted .shed).thm.stage.code = 2 := by
      rw [h]
      rfl
    simp [State.degradedCond, hcode]
end

/-- A time that stands, and the wait after it, against the clock. -/
theorem passed {o : Option Nat} {x wait clk : Nat} (hx : o = some x) (h : x + wait ≤ clk) : o.any (fun t => decide (t + wait ≤ clk)) = true := by
  rw [hx, Option.any_some, decide_eq_true h]
theorem not_passed {o : Option Nat} {x wait clk : Nat} (hx : o = some x) (h : ¬ x + wait ≤ clk) : ¬ o.any (fun t => decide (t + wait ≤ clk)) = true := by
  rw [hx, Option.any_some, decide_eq_false h]
  exact Bool.false_ne_true
/-- Too little flow for two seconds raises the stage to SHED. -/
theorem exec_flowLowExpired {s : State} {x : Nat} (hc : s.dev.phase ≠ .cold) (hx : s.thm.low1000 = some x) (hlate : x + 2000000000 ≤ s.clk) (hst : s.thm.stage.code < 2) :
    exec .flowLowExpired s = .next (s.toStage .shed) := by
  show execFlowLowExpired s = _
  rw [execFlowLowExpired, if_neg (by simp [hc]), if_pos (passed hx hlate)]
  exact congrArg _ (if_pos hst)
theorem exec_stageHoldExpired_alert {s : State} {x : Nat} (hx : s.thm.backSince = some x) (hlate : x + 10000000000 ≤ s.clk) (hst : s.thm.stage = .alert) :
    exec .stageHoldExpired s = .next (s.toStage .normal) := by
  show execStageHoldExpired s = _
  rw [execStageHoldExpired, if_pos (passed hx hlate), hst]
theorem exec_stageHoldExpired_shed {s : State} {x : Nat} (hx : s.thm.backSince = some x) (hlate : x + 10000000000 ≤ s.clk) (hst : s.thm.stage = .shed) :
    exec .stageHoldExpired s = .next (s.toStage .alert) := by
  show execStageHoldExpired s = _
  rw [execStageHoldExpired, if_pos (passed hx hlate), hst]
theorem exec_stageHoldExpired_early {s : State} {x : Nat} (hx : s.thm.backSince = some x) (hsoon : s.clk < x + 10000000000) : exec .stageHoldExpired s = .next s := by
  show execStageHoldExpired s = _
  rw [execStageHoldExpired, if_neg (not_passed hx (Nat.not_le.mpr hsoon))]
/-- A port in TRIP: its transmitter idles, and it is not up. -/
def Port.tripped (x : Port) : Port := { x with st := if x.st == PortState.disabled then PortState.disabled else PortState.detect, idling := true }
theorem exec_thermalTrip {s : State} {tj : Int} (htj : 115000 ≤ tj) (ht : s.thm.stage ≠ .trip) :
    ∃ u : State, u = (s.modThm (fun t => { t with tjMax := tj })).toStage .trip ∧
      exec (.thermalTrip tj) s = .next ({ u with ports := tmap u.ports (fun _ x => x.tripped) }.emit (.pin 0 0)) := by
  refine ⟨_, rfl, ?_⟩
  show execThermalTrip tj s = _
  rw [execThermalTrip, if_neg (by simp [ht, Int.not_lt.mpr htj])]
  rfl
theorem tripped_idles (ps : Tab Port) : ∀ x ∈ tmap ps (fun _ x => x.tripped), x.2.idling = true ∧ (x.2.st = .disabled ∨ x.2.st = .detect) := by
  intro x hx
  obtain ⟨y, -, rfl⟩ := List.mem_map.mp hx
  refine ⟨rfl, ?_⟩
  by_cases hst : y.2.st = .disabled
  · exact .inl (if_pos (by simp [hst]))
  · exact .inr (if_neg (by simp [hst]))

/-- Settles O24: every clause is one write of the thermal record, and a move of the stage adds an event and the phase of R458. -/
theorem thermalStages : Obligations.ThermalStages := by
  refine ⟨⟨fun s v q h hq => ?_, fun s v q h hq hu => thmFlowWrite_outOfRange h hq hu, fun s hs hlate hc ht => ?_⟩,
    ⟨fun s d k hc ht => ⟨fun hp hn => ?_, fun x hp hh hj => exec_tjSample_jump hc ht hp hh hj⟩, fun s x hc hx hlate hst => ?_, fun s x hx => ⟨?_, ?_, ?_⟩, fun s tj htj ht => ?_⟩⟩
  · have hlow := reported_low1000 (t := s.thm) (clk := s.clk) hq
    exact ⟨_, thmFlowWrite_accepts h hq, rfl, rfl, rfl, rfl, fun hl => hlow.trans (if_pos hl), fun hl => hlow.trans (if_neg (Nat.not_lt.mpr hl)), rfl⟩
  · exact ⟨_, exec_flowStale hs hlate hc ht, rfl, rfl, rfl, rfl⟩
  · exact ⟨_, exec_tjSample_first hc ht hp hn, rfl, rfl, rfl, rfl, rfl⟩
  · have hne : s.thm.stage ≠ .shed := fun h => by simp [h, Thermal.code] at hst
    have hthm := toStage_thm (st := .shed) hne (by decide)
    exact ⟨_, exec_flowLowExpired hc hx hlate hst, by rw [hthm]; rfl, by rw [hthm]; rfl, toStage_shed_degrades hne, toStage_pool hne (by decide)⟩
  · intro hlate hst
    have hne : s.thm.stage ≠ .normal := by rw [hst]; decide
    have hthm := toStage_thm hne (by decide)
    exact ⟨_, exec_stageHoldExpired_alert hx hlate hst, by rw [hthm]; rfl, by rw [hthm]; rfl, toStage_pool hne (by decide)⟩
  · intro hlate hst
    have hne : s.thm.stage ≠ .alert := by rw [hst]; decide
    have hthm := toStage_thm hne (by decide)
    exact ⟨_, exec_stageHoldExpired_shed hx hlate hst, by rw [hthm]; rfl, by rw [hthm]; rfl, toStage_pool hne (by decide)⟩
  · exact exec_stageHoldExpired_early hx
  · obtain ⟨u, hu, hexec⟩ := exec_thermalTrip htj ht
    have hne : (s.modThm (fun t => { t with tjMax := tj })).thm.stage ≠ .trip := ht
    have hthm : u.thm = _ := hu ▸ toStage_thm hne (by decide)
    refine ⟨_, hexec, ?_, ?_, List.getLast?_concat, tripped_idles _, ?_⟩
    · show u.thm.stage = _
      rw [hthm]
      rfl
    · show u.thm.tjMax = _
      rw [hthm]
      rfl
    · show u.pool = _
      rw [hu, toStage_pool hne (by decide)]
      rfl

end Sys2Proof.Machine
end

section
/-! Host links that go down (R326, R489): what a port's death sets going leaves the links of the host ports and the states of the fabric ports as they are. -/

namespace Sys2Proof.Machine
open Sys2Proof

/-- What of a host port its link moves: its reference clock, whether it has trained, and its state. -/
def HostPort.link (x : HostPort) : Bool × Bool × HostState := (x.refclk, x.trained, x.st)
def hostLinks (t : Tab HostPort) (h : Nat) : Bool × Bool × HostState := (tget {} t h).link
def portStates (t : Tab Port) (p : Nat) : PortState := (tget {} t p).st
/-- The host ports' links and the fabric ports' states are in `t` as in `s`. -/
@[reducible, simp] def LinksStand (s t : State) : Prop := hostLinks t.hp = hostLinks s.hp ∧ portStates t.ports = portStates s.ports
theorem LinksStand.trans {s t u : State} (h : LinksStand s t) (g : LinksStand t u) : LinksStand s u := ⟨g.1.trans h.1, g.2.trans h.2⟩
@[simp] theorem ite_hostLinks (c : Prop) [Decidable c] (s t : State) : hostLinks (if c then s else t).hp = if c then hostLinks s.hp else hostLinks t.hp :=
  apply_ite (fun u : State => hostLinks u.hp) c s t
@[simp] theorem ite_portStates (c : Prop) [Decidable c] (s t : State) : portStates (if c then s else t).ports = if c then portStates s.ports else portStates t.ports :=
  apply_ite (fun u : State => portStates u.ports) c s t
@[simp] theorem foldl_linksStand {α : Type} {f : State → α → State} (h : ∀ s x, LinksStand s (f s x)) (l : List α) (s : State) : LinksStand s (l.foldl f s) := by
  induction l generalizing s with
  | nil => exact ⟨rfl, rfl⟩
  | cons x r ih => exact (h s x).trans (ih _)
theorem Carried.linksStand {s t : State} (h : Carried s t) : LinksStand s t := by
  obtain ⟨_, _, _, _, _, _, _, _, _, _, _, _, hhp, _⟩ := h.keeps
  exact ⟨by rw [hhp], funext h.port_st⟩
theorem Moved.linksStand {s t : State} (h : Moved s t) : LinksStand s t := by
  obtain ⟨m, x, r, hc⟩ := h
  exact hc.linksStand
theorem Mgmt.linksStand {s t : State} (h : Mgmt s t) : LinksStand s t := (Carried.of_mgmt h).linksStand
/-- A change of a host port that leaves its link as it is. -/
theorem modHost_link {s : State} {h : Nat} {f : HostPort → HostPort} (hf : (f (s.host h)).link = (s.host h).link) : LinksStand s (s.modHost h f) := by
  refine ⟨funext fun g => ?_, rfl⟩
  show ((s.modHost h f).host g).link = (s.host g).link
  rw [host_modHost]
  split
  · next hg => rw [hf, hg]
  · rfl
@[simp] theorem modHost_linksStand (s : State) (h : Nat) {f : HostPort → HostPort} (hf : ∀ x, (f x).refclk = x.refclk ∧ (f x).trained = x.trained ∧ (f x).st = x.st) :
    LinksStand s (s.modHost h f) := modHost_link (by simp [HostPort.link, hf])

-- CXL.mem accesses that go on (R321 to R323)
@[simp] theorem emit_linksStand (s : State) (o : Output) : LinksStand s (s.emit o) := ⟨rfl, rfl⟩
@[simp] theorem poison_linksStand (s : State) (e : Nat) (x : Ext) (cause stack : Nat) (lines : List Nat) : LinksStand s (s.poison e x cause stack lines) := by
  simp [State.poison, State.recordPoison, moraineFor, State.moraine]
@[simp] theorem dirDrop_linksStand (s : State) (line h : Nat) : LinksStand s (s.dirDrop line h) := by
  obtain ⟨d, hd⟩ := dirDrop_dirOnly s line h
  rw [hd]
  exact ⟨rfl, rfl⟩
@[simp] theorem dirClean_linksStand (s : State) (line : Nat) : LinksStand s (s.dirClean line) := by
  have hdead : ∀ (u : State) (h : Nat), LinksStand u (u.dirDead line h) := fun u h => by
    dsimp only [State.dirDead]
    repeat' split
    all_goals simp [State.noteLost]
  unfold State.dirClean
  split
  · simp
  · exact foldl_linksStand hdead _ _
@[simp] theorem macCheck_linksStand (s : State) (off : Nat) : LinksStand s (s.macCheck off) := by
  dsimp only [State.macCheck]
  repeat' split
  all_goals simp
@[simp] theorem charge_linksStand (s : State) (a v n : Nat) : LinksStand s (s.charge a v n) := (charge_carried s a v n).linksStand
@[simp] theorem startBackInv_linksStand (s : State) (line h : Nat) (discard : Bool) (rev : Option (Nat × Nat)) : LinksStand s (s.startBackInv line h discard rev) := by
  simp [State.startBackInv, State.sendBisnp, State.enqueue, State.setQueue]
@[simp] theorem cxlFail_linksStand (s : State) (h dpa st : Nat) : LinksStand s (s.cxlFail h dpa st) := by simp [State.cxlFail]
theorem Served.linksStand {s t : State} (h : Served s t) : LinksStand s t := by
  obtain ⟨_, _, _, rfl⟩ := h
  exact ⟨rfl, rfl⟩
@[simp] theorem freshBytes_linksStand (s : State) (n : Nat) : LinksStand s (s.freshBytes n).2 := (freshBytes_served s n).linksStand
@[simp] theorem countAccess_linksStand (s : State) (off : Nat) (read : Bool) : LinksStand s (s.countAccess off read) := (modPool_served s _).linksStand
@[simp] theorem healLine_linksStand (s : State) (x : Ext) (off : Nat) : LinksStand s (s.healLine x off) := (healLine_served s x off).1.linksStand
@[simp] theorem cxlStore_linksStand (s : State) (off mask : Nat) (data : Bytes) : LinksStand s (s.cxlStore off mask data) := (poolWrite_served s off _).1.linksStand
@[simp] theorem cxlTry_linksStand (s : State) (h : Nat) (a : HostAcc) : LinksStand s (s.cxlTry h a).1 := by
  dsimp only [State.cxlTry]
  repeat' split
  all_goals simp
@[simp] theorem cxlGoOn_linksStand (s : State) (h : Nat) (a : HostAcc) : LinksStand s (s.cxlGoOn h a) := by
  dsimp only [State.cxlGoOn]
  repeat' split
  all_goals simp
theorem cxlResume_linksStand (s : State) : LinksStand s s.cxlResume := foldl_linksStand (fun _ _ => cxlGoOn_linksStand _ _ _) _ _

-- A link that goes down
section
variable {s : State} {h : Nat}

/-- The death of a port moves no link and no port's state but its own to DEAD. -/
theorem hostDead_links (hst : (s.host h).st = .active) (self : Bool) : LinksStand (s.modHost h (fun p => { p with st := .dead })) (s.hostDead h self) := by
  unfold State.hostDead
  rw [if_neg (by simp [hst])]
  extract_lets s1 s1b s2 s3 s4
  have hscan : LinksStand (s.modHost h (fun p => { p with st := .dead })) (s.modHost h (fun p => { p with st := .dead, scanning := true })) := by
    rw [← modHost_modHost s h (fun p => { p with st := .dead }) (fun p => { p with scanning := true })]
    exact modHost_link rfl
  have hnoted : LinksStand (s.modHost h (fun p => { p with st := .dead, scanning := true })) s1 := (noteChange_mgmt _ _ _ _ _).linksStand
  have hdropped : LinksStand s1 s1b := foldl_linksStand (fun _ _ => dirDrop_linksStand _ _ _) _ _
  clear_value s1b
  have hended : LinksStand s1b s3 := ⟨rfl, rfl⟩
  have hanswered : LinksStand (s3.modHost h (fun p => { p with snoops := [] })) s4 := (foldl_carried _ (fun _ _ => sendBirsp_carried _ _ _ _) _ _).linksStand
  have hdead := ((hscan.trans hnoted).trans (hdropped.trans hended)).trans ((modHost_link rfl).trans hanswered)
  clear_value s4
  exact hdead.trans ((modHost_link (f := fun p => { p with accs := p.accs.filter (fun a => a.kind ≤ 3) }) rfl).trans
    ((unbindHost_moved _ h).linksStand.trans (cxlResume_linksStand _)))
/-- The link of a port that has gone down: untrained, and DEAD where it was ACTIVE (R326). -/
def HostPort.linkLost (x : HostPort) : Bool × Bool × HostState := (x.refclk, false, if x.st = .active then .dead else x.st)
theorem hostLinkDown_linksStand (s : State) (h : Nat) :
    LinksStand ((s.unlinked h).modHost h (fun p => { p with st := if p.st = .active then .dead else p.st })) (s.hostLinkDown h) := by
  show LinksStand _ ((s.unlinked h).hostDead h true)
  by_cases hact : ((s.unlinked h).host h).st = .active
  · rw [modHost_congr (f' := fun p => { p with st := .dead }) (by simp only [hact, if_true])]
    exact hostDead_links hact true
  · rw [hostDead_inactive hact, modHost_congr (f' := fun p => p) (by simp only [hact, if_false])]
    obtain ⟨hlinks, hports⟩ := modHost_link (s := s.unlinked h) (h := h) (f := fun p => p) rfl
    exact ⟨hlinks.symm, hports.symm⟩
theorem hostLinkDown_link (s : State) (h g : Nat) : ((s.hostLinkDown h).host g).link = if g = h then (s.host h).linkLost else (s.host g).link := by
  refine (congrFun (hostLinkDown_linksStand s h).1 g).trans ?_
  show (State.host _ g).link = _
  rw [host_modHost, State.unlinked, host_modHost, host_modHost]
  split
  · rw [if_pos rfl]
    rfl
  · rfl
theorem hostLinkDown_port_st (s : State) (h p : Nat) : ((s.hostLinkDown h).port p).st = (s.port p).st := congrFun (hostLinkDown_linksStand s h).2 p
/-- A host port whose reference clock goes loses its link (R489); one that was not ACTIVE moves nothing else. -/
theorem hostRefclkLost_host (s : State) (h : Nat) : ((s.hostRefclkLost h).host h).link = (false, false, if (s.host h).st = .active then .dead else (s.host h).st) := by
  refine (hostLinkDown_link _ h h).trans ?_
  rw [if_pos rfl, HostPort.linkLost, host_modHost, if_pos rfl]
theorem hostRefclkLost_pool (hst : (s.host h).st ≠ .active) : (s.hostRefclkLost h).pool = s.pool := by
  have hinactive : (((s.modHost h (fun p => { p with refclk := false })).unlinked h).host h).st ≠ .active := by
    rwa [unlinked_host, host_modHost, if_pos rfl]
  exact (congrArg State.pool (hostDead_inactive hinactive true)).trans rfl
end

end Sys2Proof.Machine
end

section
/-! The device's own events (R26, R438, R442, R455, R460, R489): HBM training and the pool's initialisation, uncorrectable SRAM errors, ROLE_SEL and the telemetry
snapshot. -/

namespace Sys2Proof.Machine
open Sys2Proof

-- HBM training (R438, R442)
/-- What the training of stack `k` of `s` leaves in `t`. -/
structure StackTrained (failed : List Nat) (s t : State) (k : Nat) : Prop where
  dev : t.dev = s.dev
  mem : t.pool.mem = s.pool.mem
  other : ∀ j, j ≠ k → t.stack j = s.stack j
  retired : ∀ d, (s.die d).st = .retired → (t.die d).st = .retired
  online : failed.contains k = false → (t.stack k).st = .online
  failed : failed.contains k = true → (t.stack k).st = .failed ∧ (t.die (k / 6)).st = .retired
theorem setDie_other (s : State) {d j : Nat} (hj : j ≠ d) (st : DieState) : (s.setDie d st).die j = s.die j := by
  unfold State.setDie
  split
  · rfl
  · simp [hj]
theorem setDie_dev (s : State) (d : Nat) (st : DieState) : (s.setDie d st).dev = s.dev := by
  unfold State.setDie
  split <;> simp
/-- The die of a stack that fails training is RETIRED, and no other die moves. -/
theorem trainFail_trained {failed : List Nat} {s : State} {k : Nat} (hk : failed.contains k = true) : StackTrained failed s (s.trainFail k) k := by
  unfold State.trainFail
  extract_lets s1
  have hs1 : Mgmt (s.modStack k (fun x => { x with st := .failed })) (s1.event 3 0x01 2 k 3 0) := (noteChange_mgmt _ _ _ _ _).trans (event_mgmt _ _ _ _ _ _ _)
  obtain ⟨v, e, o, hs1⟩ := hs1
  have hdies := (setDie_diesAndLog (s1.event 3 0x01 2 k 3 0) (k / 6) .exposed).trans (setDie_diesAndLog _ (k / 6) .retired)
  have hstack : ∀ j, (((s1.event 3 0x01 2 k 3 0).setDie (k / 6) .exposed).setDie (k / 6) .retired).stack j = (s.modStack k (fun x => { x with st := .failed })).stack j :=
    fun j => (hdies.stack j).trans (by rw [hs1]; rfl)
  refine ⟨?_, ?_, fun j hj => ?_, fun d hd => ?_, fun h => ?_, fun _ => ⟨?_, ?_⟩⟩
  · rw [setDie_dev, setDie_dev, hs1]
    rfl
  · rw [setDie_mem, setDie_mem, hs1]
    rfl
  · rw [hstack, stack_modStack, if_neg hj]
  · by_cases hdk : d = k / 6
    · rw [hdk, setDie_die]
    · rw [setDie_other _ hdk, setDie_other _ hdk, hs1]
      exact hd
  · rw [hk] at h
    cases h
  · rw [hstack, stack_modStack, if_pos rfl]
  · rw [setDie_die]
theorem trainStack_trained (failed : List Nat) {s : State} {k : Nat} (hst : (s.stack k).st = .untrained) : StackTrained failed s (State.trainStack failed s k) k := by
  unfold State.trainStack
  rw [if_neg (by simp [hst])]
  split
  · next hk => exact trainFail_trained hk
  · next hk =>
    obtain ⟨v, e, o, hnote⟩ := noteChange_mgmt s (s.modStack k (fun x => { x with st := .online })) (.stack k) true false
    rw [hnote]
    exact ⟨rfl, rfl, fun j hj => (stack_modStack _ _ _ _).trans (if_neg hj), fun d hd => hd, fun _ => congrArg Stack.st ((stack_modStack _ _ _ _).trans (if_pos rfl)),
      fun h => absurd h hk⟩
/-- Every stack trains once: what is said of one holds of all of them. -/
theorem foldl_trainStack (failed : List Nat) (ks : List Nat) (hks : ks.Nodup) (s : State) (hst : ∀ k ∈ ks, (s.stack k).st = .untrained) (t : State)
    (ht : t = ks.foldl (State.trainStack failed) s) :
    t.dev = s.dev ∧ t.pool.mem = s.pool.mem ∧ (∀ d, (s.die d).st = .retired → (t.die d).st = .retired) ∧ (∀ j, j ∉ ks → t.stack j = s.stack j) ∧
      ∀ k ∈ ks, (failed.contains k = false → (t.stack k).st = .online) ∧ (failed.contains k = true → (t.stack k).st = .failed ∧ (t.die (k / 6)).st = .retired) := by
  induction ks generalizing s with
  | nil =>
    rw [ht]
    exact ⟨rfl, rfl, fun _ h => h, fun _ _ => rfl, fun _ h => absurd h List.not_mem_nil⟩
  | cons k ks ih =>
    obtain ⟨hnew, hks⟩ := List.nodup_cons.mp hks
    obtain ⟨hdev, hmem, hother, hretired, honline, hfailed⟩ := trainStack_trained failed (hst k List.mem_cons_self)
    have hleft : ∀ j ∈ ks, ((State.trainStack failed s k).stack j).st = .untrained := fun j hj => by
      rw [hother j (fun h => hnew (h ▸ hj))]
      exact hst j (List.mem_cons_of_mem _ hj)
    obtain ⟨gdev, gmem, gretired, gother, gks⟩ := ih hks _ hleft ht
    refine ⟨gdev.trans hdev, gmem.trans hmem, fun d hd => gretired d (hretired d hd), fun j hj => ?_, fun j hj => ?_⟩
    · obtain ⟨hjk, hjks⟩ := not_or.mp (mt List.mem_cons.mpr hj)
      rw [gother j hjks, hother j hjk]
    · rcases List.mem_cons.mp hj with rfl | hj
      · rw [gother j hnew]
        exact ⟨honline, fun h => ⟨(hfailed h).1, gretired _ (hfailed h).2⟩⟩
      · exact gks j hj
theorem fullCheck_slush {s : State} (hp : s.dev.phase = .slush) : s.fullCheck = s := if_neg (by simp [hp])
theorem hbmTrainingDone_trains {s : State} (l : List Nat) (ht : s.dev.hbmTrained = false) (hp : s.dev.phase = .slush) (hst : ∀ k, k < 24 → (s.stack k).st = .untrained) :
    ∃ t, exec (.hbmTrainingDone l) s = .next t ∧ t.dev = { s.dev with hbmTrained := true } ∧ t.pool.mem = s.pool.mem ∧
      ∀ k, k < 24 → (l.contains k = false → (t.stack k).st = .online) ∧ (l.contains k = true → (t.stack k).st = .failed ∧ (t.die (k / 6)).st = .retired) := by
  obtain ⟨hdev, hmem, -, -, hks⟩ := foldl_trainStack l (List.range 24) List.nodup_range s (fun k hk => hst k (List.mem_range.mp hk)) _ rfl
  have hexec : exec (.hbmTrainingDone l) s =
      .next ((((List.range 24).foldl (State.trainStack l) s).modDev (fun d => { d with hbmTrained := true })).fullCheck) := by
    show execHbmTrainingDone l s = _
    rw [execHbmTrainingDone, if_neg (by simp [ht, hp, Phase.code])]
  generalize (List.range 24).foldl (State.trainStack l) s = u at hexec hdev hmem hks
  refine ⟨u.modDev (fun d => { d with hbmTrained := true }), ?_, ?_, hmem, fun k hk => hks k (List.mem_range.mpr hk)⟩
  · rw [hexec, fullCheck_slush]
    rw [State.modDev, hdev]
    exact hp
  · rw [State.modDev, hdev]

-- Uncorrectable SRAM errors (R455)
/-- The error counted at its tile. -/
def State.tileCounted (s : State) (g : Nat) : State :=
  { s with tel := { s.tel with tileErr := tmod (0, 0, 0) s.tel.tileErr g (fun e => (e.1, e.2.1 + 1, s.slot)) } }
theorem exec_sramUe (s : State) (g : Nat) (l : SramLoc) : ∃ u, Mgmt (s.tileCounted g) u ∧ exec (.sramUe g l) s = .next (u.sramAnswer l) :=
  ⟨_, event_mgmt _ _ _ _ _ _ _, rfl⟩
theorem tileCounted_tileErr (s : State) (g : Nat) :
    tget (0, 0, 0) (s.tileCounted g).tel.tileErr g = ((tget (0, 0, 0) s.tel.tileErr g).1, (tget (0, 0, 0) s.tel.tileErr g).2.1 + 1, s.slot) := by
  simp [State.tileCounted]
/-- R458 moves the phase, and notes it on the management side. -/
theorem settlePhase_phaseOnly (s : State) : ∃ d, Mgmt { s with dev := d } s.settlePhase := by
  unfold State.settlePhase
  repeat' split
  · exact ⟨_, noteChange_mgmt _ _ _ _ _⟩
  · exact ⟨_, noteChange_mgmt _ _ _ _ _⟩
  · exact ⟨s.dev, .refl s⟩
theorem enterFlood_floods {s : State} (hf : s.sw.flood = false) : s.enterFlood.tel = s.tel ∧ s.enterFlood.sw.flood = true ∧ s.enterFlood.pool = s.pool := by
  have hflood : s.enterFlood = (State.event { s with sw := { s.sw with flood := true } } 8 0x01 1 0 0 0).settlePhase := if_neg (by simp [hf])
  obtain ⟨v, e, o, h⟩ := event_mgmt { s with sw := { s.sw with flood := true } } 8 0x01 1 0 0 0
  obtain ⟨d, v', e', o', h'⟩ := settlePhase_phaseOnly (State.event { s with sw := { s.sw with flood := true } } 8 0x01 1 0 0 0)
  rw [hflood, h', h]
  exact ⟨rfl, rfl, rfl⟩
theorem row_poisoned (s : State) (i e : Nat) : (((s.sramAnswer (.row i e)).inst i).row e).psn = true := by
  rw [State.sramAnswer, inst_modInst, if_pos rfl, Inst.row, tmod, tget_tset_same]
theorem xlate_dropped (s : State) (n k : Nat) : (s.sramAnswer (.xlate n k)).cacheOf n = (s.cacheOf n).eraseIdx k := tget_tset_same _ _ _ _
/-- A packet whose first cell is lost leaves its queue, under a REPIN window for what it would have followed (R455). -/
theorem firstCell_taken {s : State} {q k : Nat} {e : QEntry} (he : (tget [] s.sw.queues q)[k]? = some e) :
    (s.sramAnswer (.firstCell q k)).tel = s.tel ∧ tget [] (s.sramAnswer (.firstCell q k)).sw.queues q = (tget [] s.sw.queues q).eraseIdx k ∧
      (∃ r ∈ (s.sramAnswer (.firstCell q k)).sw.repins, r.cause = .egress (q / 10)) ∧ (s.sramAnswer (.firstCell q k)).pool = s.pool := by
  have hans : s.sramAnswer (.firstCell q k) = (State.release { s with sw := { s.sw with queues := tset s.sw.queues q ((tget [] s.sw.queues q).eraseIdx k) } } e).addRepin
      (.egress (q / 10)) (s.sw.repinHold * 1000) := by
    simp [State.sramAnswer, State.takeEntry, he]
  obtain ⟨ports, sw, hrel, hqueues, -⟩ := (release_charged { s with sw := { s.sw with queues := tset s.sw.queues q ((tget [] s.sw.queues q).eraseIdx k) } } e).keeps
  rw [hans, hrel]
  refine ⟨rfl, ?_, ⟨_, List.mem_append_right _ List.mem_cons_self, rfl⟩, rfl⟩
  show tget [] sw.queues q = _
  rw [hqueues]
  exact tget_tset_same _ _ _ _

-- ROLE_SEL (R26)
theorem exec_roleStrapChanged (s : State) (b : Bool) : exec (.roleStrapChanged b) s = .next { s with dev := { s.dev with
    rolePin := b, roleStrapChanged := if 2 ≤ s.dev.phase.code ∧ b ≠ s.dev.rolePin then true else s.dev.roleStrapChanged } } := by
  have hnoted : (s.dev.roleStrapChanged || (decide (2 ≤ s.dev.phase.code) && b != s.dev.rolePin)) =
      if 2 ≤ s.dev.phase.code ∧ b ≠ s.dev.rolePin then true else s.dev.roleStrapChanged := by
    by_cases hp : 2 ≤ s.dev.phase.code <;> by_cases hb : b = s.dev.rolePin <;> simp [hp, hb]
  rw [← hnoted]
  rfl

-- Telemetry (R460)
theorem leAt_head (n v : Nat) (p : Bytes) : leAt (leBytes n v ++ p) 0 n = v % 256 ^ n := by
  have hs : slice (leBytes n v ++ p) 0 n = leBytes n v := by
    simp [slice, length_leBytes]
  rw [leAt, hs, leNat_leBytes]
theorem leAt_tail (n v : Nat) (p : Bytes) (m : Nat) : leAt (leBytes n v ++ p) n m = leAt p 0 m := by
  rw [leAt, leAt, slice, slice, List.drop_left' (length_leBytes n v), List.drop_zero]
/-- A snapshot begins with its slot and its number. -/
theorem snapBytes_head (s : State) : ∃ p, s.snapBytes = leBytes 8 s.slot ++ (leBytes 8 (s.tel.seq + 1) ++ p) := by
  refine ⟨[0, 0, 0, 0, 0, 0].flatMap (leBytes 8) ++ (List.range 256).flatMap s.portSnap ++ (List.range 256).flatMap s.tileSnap ++ s.packageSnap, ?_⟩
  rw [State.snapBytes, List.flatMap_cons, List.flatMap_cons]
  simp only [List.append_assoc]
theorem exec_telemetrySnapshot {s : State} (hdue : s.snapDue = true) : exec .telemetrySnapshot s =
    .next { s.measurePower with tel := { s.tel with snap := s.measurePower.snapBytes, seq := s.tel.seq + 1 } } := if_neg (by simp [hdue])

/-- Settles O23: training goes stack by stack, an SRAM error is counted before its place answers, and the rest are single writes of the state. -/
theorem deviceEvents : Obligations.DeviceEvents := by
  refine ⟨⟨fun s l ht hp hst => hbmTrainingDone_trains l ht hp hst, fun s ht hp hcode hoff hreset => ?_⟩,
    ⟨fun s g x hx => ⟨fun i e => ?_, fun n k => ?_, fun q k e he => ?_, fun hf => ?_⟩, fun s h => ?_, exec_roleStrapChanged, fun s hdue => ?_⟩⟩
  · show execPoolInitDone s = _
    rw [execPoolInitDone, if_neg (by simp [ht, hp, hoff, Nat.not_lt.mpr hcode])]
    exact congrArg _ (if_neg (by simp [hreset]))
  · obtain ⟨u, ⟨v, e', o, rfl⟩, hexec⟩ := exec_sramUe s g (.row i e)
    exact ⟨_, hexec, (tileCounted_tileErr s g).trans (by rw [hx]), row_poisoned _ i e, rfl⟩
  · obtain ⟨u, ⟨v, e', o, rfl⟩, hexec⟩ := exec_sramUe s g (.xlate n k)
    exact ⟨_, hexec, (tileCounted_tileErr s g).trans (by rw [hx]), xlate_dropped _ n k, rfl⟩
  · obtain ⟨u, ⟨v, e', o, rfl⟩, hexec⟩ := exec_sramUe s g (.firstCell q k)
    obtain ⟨htel, hqueue, ⟨r, hr, hcause⟩, hpool⟩ := firstCell_taken (s := { s.tileCounted g with vane := v, evt := e', out := o }) he
    exact ⟨_, r, hexec, by rw [htel, hx]; exact tileCounted_tileErr s g, hqueue, hr, hcause, hpool⟩
  · obtain ⟨u, ⟨v, e', o, rfl⟩, hexec⟩ := exec_sramUe s g .markTable
    obtain ⟨htel, hflood, hpool⟩ := enterFlood_floods (s := { s.tileCounted g with vane := v, evt := e', out := o }) hf
    exact ⟨_, hexec, by rw [State.sramAnswer, htel, hx]; exact tileCounted_tileErr s g, hflood, hpool⟩
  · have hlink := hostRefclkLost_host s h
    have hst : ((s.hostRefclkLost h).host h).st = _ := congrArg (fun x => x.2.2) hlink
    exact ⟨_, rfl, congrArg Prod.fst hlink, congrArg (fun x => x.2.1) hlink, fun hact => hst.trans (if_pos hact), fun hact => ⟨hst.trans (if_neg hact), hostRefclkLost_pool hact⟩⟩
  · obtain ⟨p, hp⟩ := snapBytes_head s.measurePower
    refine ⟨_, exec_telemetrySnapshot hdue, rfl, ?_, ?_, rfl, _, _, rfl⟩
    · show leAt s.measurePower.snapBytes 0 8 = _
      rw [hp, leAt_head]
      rfl
    · show leAt s.measurePower.snapBytes 8 8 = _
      rw [hp, leAt_tail, leAt_head]
      rfl

end Sys2Proof.Machine
end

section
/-! Bring-up and the package reset (R433 to R440, R452): the two parts of STRAP, the entry of SLUSH under the built-in default, and what Table 15-8 keeps. -/

namespace Sys2Proof.Machine
open Sys2Proof

-- The management side with its sessions as they are
/-- `t` differs from `s` on the management side alone, and has its sessions. -/
def Quiet (s t : State) : Prop := Mgmt s t ∧ t.vane.sessions = s.vane.sessions
theorem Quiet.refl (s : State) : Quiet s s := ⟨.refl s, rfl⟩
theorem Quiet.trans {s t u : State} (h : Quiet s t) (g : Quiet t u) : Quiet s u := ⟨h.1.trans g.1, g.2.trans h.2⟩
theorem notifyOne_sessions (e : Event) (s : State) (i : Nat × Session) : (notifyOne e s i).vane.sessions = s.vane.sessions := by
  unfold notifyOne
  split <;> rfl
theorem event_quiet (s : State) (cls code sev unit detail aux : Nat) : Quiet s (s.event cls code sev unit detail aux) := by
  refine ⟨event_mgmt _ _ _ _ _ _ _, ?_⟩
  have hfold : ∀ (e : Event) (l : List (Nat × Session)) (u : State), (l.foldl (notifyOne e) u).vane.sessions = u.vane.sessions := fun e l => by
    induction l with
    | nil => exact fun _ => rfl
    | cons x l ih => exact fun u => (ih _).trans (notifyOne_sessions e u x)
  unfold State.event
  split
  · rfl
  · exact hfold _ _ _
theorem noteChange_quiet (old s : State) (u : EUnit) (self force : Bool) : Quiet s (State.noteChange old s u self force) := by
  refine ⟨noteChange_mgmt _ _ _ _ _, ?_⟩
  unfold State.noteChange
  extract_lets moved s1
  have hs1 : s1.vane.sessions = s.vane.sessions := by
    unfold s1
    split <;> rfl
  split
  · exact hs1
  · split
    · exact (event_quiet _ _ _ _ _ _ _).2.trans hs1
    · exact hs1
theorem emit_quiet (s : State) (o : Output) : Quiet s (s.emit o) := ⟨emit_mgmt s o, rfl⟩

-- Ports that begin to train
/-- `t` differs from `s` in the training of its ports, of which the logs stay, and on the management side. -/
def TrainsPorts (s t : State) : Prop := ∃ ports, (∀ p, (tget {} ports p : Port).kept = (s.port p).kept) ∧ Quiet { s with ports := ports } t
theorem TrainsPorts.refl (s : State) : TrainsPorts s s := ⟨s.ports, fun _ => rfl, .refl s⟩
theorem TrainsPorts.trans {s t u : State} (h : TrainsPorts s t) (g : TrainsPorts t u) : TrainsPorts s u := by
  obtain ⟨ports, hkept, ⟨v, e, o, rfl⟩, hsess⟩ := h
  obtain ⟨ports', hkept', ⟨v', e', o', rfl⟩, hsess'⟩ := g
  exact ⟨ports', fun p => (hkept' p).trans (hkept p), ⟨v', e', o', rfl⟩, hsess'.trans hsess⟩
theorem toPort_trainsPorts (s : State) (p : Nat) (st : PortState) (self : Bool) : TrainsPorts s (s.toPort p st self (fun x => x)) := by
  refine ⟨(s.modPort p (fun x => { x with st := st, stSince := s.clk })).ports, fun q => ?_, noteChange_quiet _ _ _ _ _⟩
  show ((s.modPort p _).port q).kept = _
  rw [port_modPort]
  split
  · next hq =>
    rw [hq]
    rfl
  · rfl
theorem foldl_trainsPorts {f : State → Nat → State} (h : ∀ s p, TrainsPorts s (f s p)) (l : List Nat) (s : State) : TrainsPorts s (l.foldl f s) := by
  induction l generalizing s with
  | nil => exact .refl s
  | cons p l ih => exact (h s p).trans (ih _)

-- SLUSH (R435, R439, R440)
/-- The package in SLUSH under the built-in default, before a port has moved. -/
def State.slushed (s : State) : State :=
  { s with tbl := { s.tbl with active := defaultImage s.dev.straps, defaultSince := s.clk, history := [(s.rt.now, (defaultImage s.dev.straps).nodes)] },
           dev := { s.dev with mode := if s.dev.spine then 2 else 0, bootStatus := if strapPosOk s.dev.straps then 0 else 3, phase := .slush, phaseSince := s.clk } }
theorem enterSlush_trainsPorts (s : State) : TrainsPorts s.slushed s.enterSlush := by
  unfold State.enterSlush
  extract_lets w img s1 s2 s3
  have hs3 : TrainsPorts s.slushed s3 := ⟨s.ports, fun _ => rfl, (noteChange_quiet _ _ _ _ _).trans (emit_quiet _ _)⟩
  clear_value s3
  split
  · refine hs3.trans (foldl_trainsPorts (fun t p => ?_) _ _)
    split
    · exact toPort_trainsPorts _ _ _ _
    · exact .refl t
  · exact hs3
theorem enterSlush_phase (s : State) : s.enterSlush.dev.phase = .slush := by
  obtain ⟨_, _, ⟨_, _, _, h⟩, _⟩ := enterSlush_trainsPorts s
  rw [h]
  rfl

-- STRAP (R433, R434, R436)
theorem toPhase_does (s : State) (ph : Phase) (self : Bool) : Mgmt { s with dev := { s.dev with phase := ph, phaseSince := s.clk } } (s.toPhase ph self) :=
  noteChange_mgmt _ _ _ _ _
section
variable {s : State}

theorem leaveStrap_waits (h : s.dev.strapsSampled = false ∨ s.dev.fwRunning = false) : s.leaveStrap = s := by
  rcases h with h | h <;> simp [State.leaveStrap, h]
theorem leaveStrap_leaves (hp : s.dev.phase = .strap) (hs : s.dev.strapsSampled = true) (hf : s.dev.fwRunning = true) (hw : s.dev.powerWarned = none) :
    s.leaveStrap = s.enterSlush := by simp [State.leaveStrap, hp, hs, hf, hw]
variable (hp : s.dev.phase = .strap) (hb : s.dev.bootStatus = 0)
include hp hb

theorem strapStuck_free : s.strapStuck = false := by simp [State.strapStuck, hp, hb]
theorem exec_strapSample (l : List Nat) (hs : s.dev.strapsSampled = false) (hclk : s.dev.phaseSince + 1960000 ≤ s.clk) : exec (.strapSample l) s =
    .next (if l.all (fun x => x % 16384 == l.headD 0 % 16384) then (s.modDev (fun d => { d with
        straps := l.headD 0 % 16384, strapsSampled := true, spine := l.headD 0 % 16384 % 2 == 1, rolePin := l.headD 0 % 16384 % 2 == 1 })).leaveStrap
      else s.modDev (fun d => { d with bootStatus := 2 })) :=
  if_neg (by simp [strapStuck_free hp hb, hs, Nat.not_lt.mpr hclk])
theorem exec_firmwareAuthenticated (a b : Bool) (hf : s.dev.fwRunning = false) : exec (.firmwareAuthenticated a b) s =
    .next (if a || b then (s.modDev (fun d => { d with fwRunning := true, fwCopy := !a, fwVersion := (Config.fwVersion (!a)).toNat })).leaveStrap
      else s.modDev (fun d => { d with bootStatus := 1 })) :=
  congrArg Host.Outcome.next (if_neg (by simp [strapStuck_free hp hb, hf]))
theorem exec_strapSample_stable {w : Nat} (hs : s.dev.strapsSampled = false) (hclk : s.dev.phaseSince + 1960000 ≤ s.clk) (hw : w < 2 ^ 14) (hf : s.dev.fwRunning = false) :
    exec (.strapSample (List.replicate 16 w)) s = .next { s with dev := { s.dev with straps := w, strapsSampled := true, spine := w % 2 == 1, rolePin := w % 2 == 1 } } := by
  have hhead : (List.replicate 16 w).headD 0 % 16384 = w := Nat.mod_eq_of_lt hw
  have hall : (List.replicate 16 w).all (fun x => x % 16384 == w) = true := by simp [show w % 16384 = w from Nat.mod_eq_of_lt hw]
  rw [exec_strapSample hp hb _ hs hclk, hhead, if_pos hall, leaveStrap_waits]
  · rfl
  · exact .inr hf
theorem exec_strapSample_unstable {a b : Nat} (hs : s.dev.strapsSampled = false) (hclk : s.dev.phaseSince + 1960000 ≤ s.clk) (hab : a % 2 ^ 14 ≠ b % 2 ^ 14) :
    exec (.strapSample (a :: b :: List.replicate 14 a)) s = .next { s with dev := { s.dev with bootStatus := 2 } } := by
  have hall : ¬ (a :: b :: List.replicate 14 a).all (fun x => x % 16384 == (a :: b :: List.replicate 14 a).headD 0 % 16384) = true := by
    simp [show ¬ b % 16384 = a % 16384 from Ne.symm hab]
  rw [exec_strapSample hp hb _ hs hclk, if_neg hall]
  rfl
end
/-- A device that STRAP has stuck stays as it is. -/
theorem stuck_stays {s : State} (hb : s.dev.bootStatus ≠ 0) (l : List Nat) (a b : Bool) :
    exec (.strapSample l) s = .next s ∧ exec (.firmwareAuthenticated a b) s = .next s := by
  have hstuck : s.strapStuck = true := by simp [State.strapStuck, hb]
  exact ⟨if_pos (by simp [hstuck]), congrArg Host.Outcome.next (if_pos (by simp [hstuck]))⟩

/-- Settles O20: each part of STRAP writes its fields of the device, and the second of the two enters SLUSH. That a stuck STRAP stays, whatever comes later, is log 10's
choice. -/
theorem bootsThroughStrap : Obligations.BootsThroughStrap := by
  refine ⟨fun s hp => ⟨_, congrArg Host.Outcome.next (if_pos (by simp [hp])), toPhase_does _ _ _⟩,
    fun s w hp hb hs hclk hw hf => exec_strapSample_stable hp hb hs hclk hw hf, fun s a b hp hb hs hclk hab => exec_strapSample_unstable hp hb hs hclk hab,
    fun s b hp hb hf hs => ?_, fun s hp hb hf => exec_firmwareAuthenticated hp hb false false hf, fun s l a b _ hb => stuck_stays hb l a b,
    fun s b hp hb hf hs hw => ⟨_, exec_firmwareAuthenticated hp hb true b hf, ?_⟩⟩
  · rw [exec_firmwareAuthenticated hp hb true b hf, if_pos (by simp), leaveStrap_waits]
    · rfl
    · exact .inl hs
  · rw [if_pos (by simp), leaveStrap_leaves]
    · exact enterSlush_phase _
    · exact hp
    · exact hs
    · rfl
    · exact hw

-- The package reset (R452)
theorem resetKept_host (s : State) (h : Nat) : s.resetKept.host h = { State.reset.host h with refclk := (s.host h).refclk, errLog := (s.host h).errLog } :=
  tget_tmap ({} : HostPort) s.hp (fun _ x => { refclk := x.refclk, errLog := x.errLog }) h rfl
theorem resetKept_stack_st (s : State) (k : Nat) : (s.resetKept.stack k).st = (s.stack k).st :=
  (congrArg Stack.st (tget_tmap ({} : Stack) s.pool.stks (fun _ x => { st := x.st }) k rfl) :)
theorem resetKept_die_retired {s : State} {d : Nat} (hd : (s.die d).st = .retired) : (s.resetKept.die d).st = .retired := by
  have hdie : s.resetKept.die d = if (s.die d).st == .retired || !(s.die d).failed.isEmpty then { st := .retired, failed := (s.die d).failed } else {} :=
    tget_tmap ({} : Die) s.pool.dies (fun _ x => if x.st == .retired || !x.failed.isEmpty then { st := .retired, failed := x.failed } else {}) d rfl
  rw [hdie, if_pos (by simp [hd])]
theorem resetKept_port (s : State) (p : Nat) : s.resetKept.port p = (s.port p).kept := tget_tmap ({} : Port) s.ports (fun _ x => x.kept) p rfl
theorem resetKept_lane (s : State) (l : Nat) : s.resetKept.lane l = (s.lane l).kept := tget_tmap ({} : Lane) s.lanes (fun _ x => x.kept) l rfl
theorem resetKept_sessions (s : State) : ∀ x ∈ s.resetKept.vane.sessions, x.1 = 0 := fun x hx => by
  simpa using (List.mem_filter.mp (show x ∈ s.vane.sessions.filter (fun x => x.1 == 0) from hx)).2
/-- A package reset leaves what Table 15-8 says: `resetKept`, then SLUSH, then the wait for the context table. -/
theorem packageReset_after {s : State} (ht : s.thm.stage ≠ .trip) : AfterPackageReset s s.packageReset := by
  have hreset : s.packageReset = s.resetKept.enterSlush.awaitTable := if_neg (by simp [ht])
  obtain ⟨ports, hkept, ⟨v, e, o, h⟩, hsess⟩ := enterSlush_trainsPorts s.resetKept
  have hport : ∀ p, (tget {} ports p : Port).kept = (s.port p).kept := fun p => by
    rw [hkept p, show s.resetKept.slushed.port p = (s.port p).kept from resetKept_port s p]
    rfl
  have hlogs : ∀ p, (tget {} ports p : Port).downCount = (s.port p).downCount ∧ (tget {} ports p : Port).downCause = (s.port p).downCause ∧
      (tget {} ports p : Port).downSlot = (s.port p).downSlot := fun p =>
    ⟨(congrArg Port.downCount (hport p) :), (congrArg Port.downCause (hport p) :), (congrArg Port.downSlot (hport p) :)⟩
  have hlane : ∀ l, (s.resetKept.lane l).conv = (s.lane l).conv ∧ (s.resetKept.lane l).bases = (s.lane l).bases ∧
      (s.resetKept.lane l).bertBits = (s.lane l).bertBits ∧ (s.resetKept.lane l).bertErrs = (s.lane l).bertErrs := fun l => by
    rw [resetKept_lane]
    exact ⟨rfl, rfl, rfl, rfl⟩
  rw [hreset]
  exact {
    slush := by rw [h]; exact ⟨rfl, rfl, rfl, rfl, rfl⟩
    engines := by rw [h]; exact ⟨rfl, rfl, rfl, rfl, rfl, rfl, rfl, rfl, resetKept_host s⟩
    pool := by rw [h]; exact ⟨rfl, rfl, rfl, rfl, rfl, resetKept_stack_st s, fun d => resetKept_die_retired, rfl⟩
    secrets := ⟨by rw [h]; rfl, by rw [h]; rfl, fun x hx => resetKept_sessions s x (by rw [← show _ = s.resetKept.vane.sessions from hsess]; exact hx)⟩
    keeps := by
      rw [h]
      exact ⟨rfl, rfl, rfl, rfl, rfl, rfl, rfl, rfl, rfl, rfl, rfl, rfl, rfl,
        hlogs, hlane⟩ }
/-- What a reset leaves does not depend on the management side. -/
theorem afterPackageReset_of_mgmt {s t u : State} (h : Mgmt s t) (hu : AfterPackageReset t u) : AfterPackageReset s u := by
  obtain ⟨v, e, o, rfl⟩ := h
  obtain ⟨hslush, hengines, hpool, hsecrets, hkeeps⟩ := hu
  exact ⟨hslush, hengines, hpool, hsecrets, hkeeps⟩

/-- Settles O21: the pin and the write of `DEV.CTL` come to the same reset. -/
theorem packageResetEntersSlush : Obligations.PackageResetEntersSlush := by
  refine ⟨fun s n hn hp ht => ⟨_, congrArg Host.Outcome.next (if_neg (by simp [hp, Nat.not_lt.mpr hn])), packageReset_after ht⟩,
    fun s n b hn => congrArg Host.Outcome.next (if_pos (by simp [hn])), fun s v hw ht => ?_⟩
  have hcount := countDatagram_mgmt s v.sess
  exact ⟨_, vaneWrite_accepts (u := none) hw (fun _ hu => nomatch hu) rfl, afterPackageReset_of_mgmt hcount (packageReset_after (by rwa [countDatagram_thm]))⟩

end Sys2Proof.Machine
end

section
/-! DRAIN, the power warning and OFF (R450, R453, R468): the rings and frames that DRAIN moves, and the ports and host links that OFF takes down. -/

namespace Sys2Proof.Machine
open Sys2Proof

-- DRAIN (R450)
/-- A ring as the drain of the device leaves it at a device time (R429). -/
def Ring.drained (r : Ring) (now : Nat) : Ring :=
  if r.st = .running ∨ r.st = .halted then { r with st := .draining, drainSince := now, cfg := { r.cfg with enable := false } }
  else { r with cfg := { r.cfg with enable := false } }
theorem modRing_mgmt {s t : State} (h : Mgmt s t) (n : Nat) (f : Ring → Ring) : Mgmt (s.modRing n f) (t.modRing n f) := by
  obtain ⟨v, e, o, rfl⟩ := h
  exact ⟨v, e, o, rfl⟩
theorem ringDrain_mgmt (s : State) (n : Nat) : Mgmt (s.modRing n (fun r => r.drained s.clk)) (s.ringDrain n) := by
  have hcongr : ∀ f : Ring → Ring, f (s.ring n) = (s.ring n).drained s.clk → s.modRing n (fun r => r.drained s.clk) = s.modRing n f := fun f hf =>
    congrArg (fun r => { s with mov := { s.mov with rings := tset s.mov.rings n r } }) hf.symm
  unfold State.ringDrain
  split
  · next h =>
    have hst : (s.ring n).st = .running ∨ (s.ring n).st = .halted := by simpa using h
    rw [hcongr (fun r => { r with st := .draining, drainSince := s.clk, cfg := { r.cfg with enable := false } }) (by rw [Ring.drained, if_pos hst])]
    exact cmdChange_mgmt _ _ _
  · next h =>
    have hst : ¬ ((s.ring n).st = .running ∨ (s.ring n).st = .halted) := by simpa using h
    rw [hcongr (fun r => { r with cfg := { r.cfg with enable := false } }) (by rw [Ring.drained, if_neg hst])]
    exact .refl _
/-- In `t` every ring of `ns` that ran or was halted in `s` drains, every ring that drained in `s` still does, and beside rings and the management side `t` is `s`. -/
structure RingsDrain (ns : List Nat) (s t : State) : Prop where
  only : ∃ r, Mgmt { s with mov := { s.mov with rings := r } } t
  drains : ∀ n ∈ ns, (s.ring n).st = .running ∨ (s.ring n).st = .halted → (t.ring n).st = .draining
  stays : ∀ n, (s.ring n).st = .draining → (t.ring n).st = .draining
  other : ∀ n, n ∉ ns → t.ring n = s.ring n
theorem drainRings (ns : List Nat) (s : State) : RingsDrain ns s (ns.foldl (fun t n => (t.setMg (.ring n) (some 0)).ringDrain n) s) := by
  induction ns generalizing s with
  | nil => exact ⟨⟨s.mov.rings, .refl s⟩, fun _ h => absurd h List.not_mem_nil, fun _ h => h, fun _ _ => rfl⟩
  | cons n ns ih =>
    have hstep : Mgmt (s.modRing n (fun r => r.drained s.clk)) ((s.setMg (.ring n) (some 0)).ringDrain n) :=
      (modRing_mgmt (setMg_mgmt s (.ring n) (some 0)) n _).trans (ringDrain_mgmt _ n)
    obtain ⟨v, e, o, hstep⟩ := hstep
    have hring : ∀ m, ((s.setMg (.ring n) (some 0)).ringDrain n).ring m = if m = n then (s.ring n).drained s.clk else s.ring m := fun m => by
      rw [hstep]
      exact ring_modRing s n m _
    obtain ⟨⟨r, v', e', o', honly⟩, hdrains, hstays, hother⟩ := ih ((s.setMg (.ring n) (some 0)).ringDrain n)
    have hleft : ∀ m, (s.ring m).st = .draining → (((s.setMg (.ring n) (some 0)).ringDrain n).ring m).st = .draining := fun m hm => by
      rw [hring]
      split
      · next hmn => rw [Ring.drained, if_neg (by simp [← hmn, hm]), ← hmn, hm]
      · exact hm
    rw [List.foldl_cons]
    refine ⟨⟨r, v', e', o', by rw [honly, hstep]; rfl⟩, fun m hm hst => ?_, fun m hm => hstays m (hleft m hm), fun m hm => ?_⟩
    · by_cases hmn : m = n
      · refine hstays m ?_
        rw [hring, if_pos hmn, Ring.drained, if_pos (hmn ▸ hst)]
      · refine hdrains m ((List.mem_cons.mp hm).resolve_left hmn) ?_
        rwa [hring, if_neg hmn]
    · obtain ⟨hmn, hmns⟩ := not_or.mp (mt List.mem_cons.mpr hm)
      rw [hother m hmns, hring, if_neg hmn]
/-- A ring that is not listed is DISABLED. -/
theorem ring_listed {s : State} {n : Nat} (h : (s.ring n).st ≠ .disabled) : n ∈ s.mov.rings.map Prod.fst := by
  rcases tget_default_or_mem ({} : Ring) s.mov.rings n with hd | hm
  · exact absurd (congrArg Ring.st hd) h
  · exact List.mem_map.mpr ⟨_, hm, rfl⟩

-- The frames of DRAIN (R443, Table 15-6)
/-- The frame last sent on port `p` shows DRAINING. -/
def State.showsDraining (s : State) (p : Nat) : Prop := ∃ f, (s.port p).capSent = some f ∧ f.status = 2
/-- `t` differs from `s` in its ports and on the management side alone. -/
def PortsOnly (s t : State) : Prop := ∃ ports, Mgmt { s with ports := ports } t
theorem PortsOnly.refl (s : State) : PortsOnly s s := ⟨s.ports, .refl s⟩
theorem PortsOnly.trans {s t u : State} (h : PortsOnly s t) (g : PortsOnly t u) : PortsOnly s u := by
  obtain ⟨p, v, e, o, rfl⟩ := h
  obtain ⟨p', v', e', o', rfl⟩ := g
  exact ⟨p', v', e', o', rfl⟩
theorem PortsOnly.dev {s t : State} (h : PortsOnly s t) : t.dev = s.dev := by
  obtain ⟨p, v, e, o, rfl⟩ := h
  rfl
theorem sendCap_portsOnly (s : State) (p : Nat) : PortsOnly s (s.sendCap p) := by
  by_cases h : (s.port p).capSent.map (fun g => { g with cseq := 0, echo := 0 }) = some (s.capContent p)
  · rw [sendCap_unchanged s p h]
    exact .refl s
  · exact ⟨_, sendCap_changed s p h⟩
theorem sendCap_port_other (s : State) {p q : Nat} (hq : q ≠ p) : (s.sendCap p).port q = s.port q := by
  by_cases h : (s.port p).capSent.map (fun g => { g with cseq := 0, echo := 0 }) = some (s.capContent p)
  · rw [sendCap_unchanged s p h]
  · rw [(sendCap_changed s p h).port, port_modPort, if_neg hq]
theorem sendCap_showsDraining {s : State} (hp : s.dev.phase = .drain) (p : Nat) : (s.sendCap p).showsDraining p := by
  obtain ⟨f, hf, hst⟩ := sendCap_shows_status s p
  exact ⟨f, hf, hst.trans (by simp [State.capStatus, hp])⟩
theorem sendCaps_showDraining (ps : List Nat) {s : State} (hp : s.dev.phase = .drain) : PortsOnly s (ps.foldl State.sendCap s) ∧
    ∀ q, q ∈ ps ∨ s.showsDraining q → (ps.foldl State.sendCap s).showsDraining q := by
  induction ps generalizing s with
  | nil => exact ⟨.refl s, fun q hq => hq.resolve_left List.not_mem_nil⟩
  | cons p ps ih =>
    have hsend := sendCap_portsOnly s p
    obtain ⟨honly, hshow⟩ := ih (s := s.sendCap p) (by rw [hsend.dev, hp])
    refine ⟨hsend.trans honly, fun q hq => hshow q ?_⟩
    by_cases hqp : q = p
    · exact .inr (hqp ▸ sendCap_showsDraining hp p)
    · refine hq.imp (fun h => (List.mem_cons.mp h).resolve_left hqp) fun h => ?_
      rw [State.showsDraining, sendCap_port_other s hqp]
      exact h
/-- What the entry of DRAIN leaves. -/
structure DrainEntered (s t : State) : Prop where
  dev : t.dev = { s.dev with phase := .drain, phaseSince := s.clk, drainSince := s.clk }
  pool : t.pool = s.pool
  rings : ∀ n, (s.ring n).st = .running ∨ (s.ring n).st = .halted → (t.ring n).st = .draining
  ports : ∀ p, p < 256 → t.showsDraining p
theorem enterDrain_enters (s : State) (self : Bool) : DrainEntered s (s.enterDrain self) := by
  unfold State.enterDrain
  extract_lets s1 s2
  have h1 : Mgmt { s with dev := { s.dev with phase := .drain, phaseSince := s.clk, drainSince := s.clk } } s1 := by
    obtain ⟨v, e, o, h⟩ := noteChange_mgmt s { s with dev := { s.dev with phase := .drain, phaseSince := s.clk } } .device self false
    refine ⟨v, e, o, ?_⟩
    unfold s1
    rw [State.toPhase, h]
    rfl
  obtain ⟨v, e, o, h1⟩ := h1
  obtain ⟨⟨r, v', e', o', honly⟩, hdrains, -, -⟩ : RingsDrain _ s1 s2 := drainRings _ s1
  clear_value s2
  have hdev : s2.dev = { s.dev with phase := .drain, phaseSince := s.clk, drainSince := s.clk } := by rw [honly, h1]
  obtain ⟨⟨ports, v'', e'', o'', hcaps⟩, hshow⟩ := sendCaps_showDraining (List.range 256) (s := s2) (by rw [hdev])
  refine ⟨?_, ?_, fun n hn => ?_, fun p hp => hshow p (.inl (List.mem_range.mpr hp))⟩
  · rw [hcaps]
    exact hdev
  · rw [hcaps]
    show s2.pool = _
    rw [honly, h1]
  · rw [hcaps]
    have hring : s1.ring n = s.ring n := by rw [h1]; rfl
    refine hdrains n (ring_listed ?_) (by rwa [hring])
    rw [hring]
    rcases hn with hn | hn <;> rw [hn] <;> decide

-- OFF (R450)
/-- The phase outlasts what moves a device between FULL and DEGRADED alone. -/
theorem phase_of_steady {d e : Dev} (h : e.steady = d.steady) (hf : d.phase ≠ .full) (hd : d.phase ≠ .degraded) : e.phase = d.phase := by
  have hphase : (if e.phase = .degraded then .full else e.phase) = if d.phase = .degraded then .full else d.phase := (congrArg Dev.phase h :)
  rw [if_neg hd] at hphase
  split at hphase
  · exact absurd hphase.symm hf
  · exact hphase
theorem SameDown.port_st {s t : State} (h : SameDown s t) (p : Nat) : (t.port p).st = (s.port p).st := congrArg Prod.fst (h p)
theorem toPort_st (s : State) (p : Nat) (st : PortState) (self : Bool) (f : Port → Port) (q : Nat) :
    ((s.toPort p st self f).port q).st = if q = p then st else (s.port q).st := by
  rw [(toPort_mgmt s p st self f).port, port_modPort]
  split <;> rfl
/-- A port that goes down comes to the state asked for, and no other port moves. -/
theorem portDown_st (s : State) (p cause : Nat) (self : Bool) (to_ : PortState) (q : Nat) :
    ((s.portDown p cause self to_).port q).st = if q = p then to_ else (s.port q).st := by
  unfold State.portDown
  extract_lets x entries s1 s2 s3 s4 s5
  have h1 : (s1.port q).st = if q = p then to_ else (s.port q).st := toPort_st _ _ _ _ _ _
  have h2 : SameDown s1 s2 := (((SameDown.of_links (modLanes_sides s1 p _).1).trans (abortTest_down _ p)).trans
    (.of_links (event_mgmt _ 2 0x01 1 p cause 0).sides.1)).trans (modPort_down _ p fun _ => rfl)
  have h3 : SameLinks s2 s3 := by simp [SameLinks, s3]
  have h4 : SameLinks s3 s4 := by simp [SameLinks, s4]
  have h5 : SameDown s4 s5 := partnerGone_down (s4.addRepin _ _) p
  clear_value s1 s2 s3 s4 s5
  have hs5 := h2.trans ((SameDown.of_links (h4.trans h3)).trans h5)
  split
  · exact ((hs5.trans (.of_links (refLoss_links _))).port_st q).trans h1
  · exact (hs5.port_st q).trans h1
theorem offPort_st (s : State) (p q : Nat) : ((s.offPort p).port q).st = if q = p then .disabled else (s.port q).st := by
  unfold State.offPort
  split
  · next h =>
    split
    · next hq => rw [hq, h]
    · rfl
  · exact portDown_st _ _ _ _ _ _
  · refine ((SameDown.of_links (modLanes_sides _ p _).1).port_st q).trans ((toPort_st _ _ _ _ _ _).trans ?_)
    rw [(abortTest_down s p).port_st]
theorem offPorts_st (ps : List Nat) (s : State) (q : Nat) (hq : q ∈ ps ∨ (s.port q).st = .disabled) : ((ps.foldl State.offPort s).port q).st = .disabled := by
  induction ps generalizing s with
  | nil => exact hq.resolve_left List.not_mem_nil
  | cons p ps ih =>
    refine ih _ ?_
    rw [offPort_st]
    by_cases hqp : q = p
    · exact .inr (if_pos hqp)
    · rw [if_neg hqp]
      exact hq.imp (fun h => (List.mem_cons.mp h).resolve_left hqp) id
/-- A host port without its link. -/
def HostPort.unlinked (x : HostPort) : Prop := x.trained = false ∧ x.st ≠ .active
theorem hostLinkDown_unlinked (s : State) (h g : Nat) (hg : g = h ∨ (s.host g).unlinked) : ((s.hostLinkDown h).host g).unlinked := by
  have hlink := hostLinkDown_link s h g
  by_cases hgh : g = h
  · rw [if_pos hgh] at hlink
    refine ⟨congrArg (fun x => x.2.1) hlink, ?_⟩
    rw [show ((s.hostLinkDown h).host g).st = _ from congrArg (fun x => x.2.2) hlink]
    simp only [HostPort.linkLost]
    split
    · decide
    · next hst => exact hst
  · rw [if_neg hgh] at hlink
    obtain ⟨htrained, hst⟩ := hg.resolve_left hgh
    exact ⟨(congrArg (fun x => x.2.1) hlink).trans htrained, fun hact => hst ((congrArg (fun x => x.2.2) hlink).symm.trans hact)⟩
theorem hostLinksDown_unlinked (hs : List Nat) (s : State) (g : Nat) (hg : g ∈ hs ∨ (s.host g).unlinked) : ((hs.foldl State.hostLinkDown s).host g).unlinked := by
  induction hs generalizing s with
  | nil => exact hg.resolve_left List.not_mem_nil
  | cons h hs ih =>
    refine ih _ ?_
    by_cases hgh : g = h
    · exact .inr (hostLinkDown_unlinked s h g (.inl hgh))
    · exact hg.imp (fun hm => (List.mem_cons.mp hm).resolve_left hgh) fun hu => hostLinkDown_unlinked s h g (.inr hu)
theorem hostLinksDown_port_st (hs : List Nat) (s : State) (p : Nat) : ((hs.foldl State.hostLinkDown s).port p).st = (s.port p).st := by
  induction hs generalizing s with
  | nil => rfl
  | cons h hs ih => exact (ih _).trans (hostLinkDown_port_st s h p)
/-- What the entry of OFF leaves: no fabric port and no host link is up. -/
structure OffEntered (t : State) : Prop where
  phase : t.dev.phase = .off
  ports : ∀ p, p < 256 → (t.port p).st = .disabled
  hosts : ∀ h, h < 8 → (t.host h).trained = false ∧ (t.host h).st ≠ .active
theorem enterOff_enters (s : State) : OffEntered s.enterOff := by
  obtain ⟨v, e, o, hphase⟩ := noteChange_mgmt s { s with dev := { s.dev with phase := .off, phaseSince := s.clk } } .device true false
  have hoff : (s.toPhase .off true).dev.phase = .off := by rw [State.toPhase, hphase]
  have hsteady := (foldl_steady offPort_steady (List.range 256) (s.toPhase .off true)).trans (foldl_steady hostLinkDown_steady (List.range 8) _)
  have hports : ∀ p, p < 256 → ((List.foldl State.offPort (s.toPhase .off true) (List.range 256)).port p).st = .disabled := fun p hp =>
    offPorts_st _ _ p (.inl (List.mem_range.mpr hp))
  unfold State.enterOff
  extract_lets s1 s2
  change ∀ p, p < 256 → (s2.port p).st = .disabled at hports
  change Steady s1 ((List.range 8).foldl State.hostLinkDown s2) at hsteady
  change s1.dev.phase = .off at hoff
  clear_value s1 s2
  refine ⟨?_, fun p hp => (hostLinksDown_port_st _ s2 p).trans (hports p hp), fun h hh => hostLinksDown_unlinked _ s2 h (.inl (List.mem_range.mpr hh))⟩
  rw [phase_of_steady hsteady.2.2 (by rw [hoff]; decide) (by rw [hoff]; decide), hoff]

-- The power warning (R468)
/-- Notices of the package's own nodes go out; no departure is applied here (R461). -/
theorem leaveOwn_carried (s : State) (kind : Nat) : Carried s (s.leaveOwn kind) := by
  have hnone : s.ownNodes.filter (fun n => !s.ownNodes.contains n) = [] := List.filter_eq_nil_iff.mpr fun n hn => by simp [hn]
  rw [State.leaveOwn, State.declareLeave, hnone, List.foldl_nil]
  exact foldl_carried _ (fun _ _ => foldl_carried _ (fun _ _ => sendOut_carried _ _) _ _) _ _
/-- The warning counted, and its time kept if it is the first. -/
def State.warned (s : State) : State :=
  s.modDev (fun d => { d with warnings := d.warnings + 1, powerWarned := some (d.powerWarned.getD (s.clk - 2000)) })
section
variable {s : State} {n : Nat} (hc : s.dev.phase ≠ .cold) (ho : s.dev.phase ≠ .off) (hn : 2000 ≤ n)
include hc ho hn

theorem exec_powerWarn_again (hw : s.dev.powerWarned.isSome = true) :
    Does (.powerWarnNAsserted n) s { s with dev := { s.dev with warnings := s.dev.warnings + 1 } } := by
  obtain ⟨x, hx⟩ := Option.isSome_iff_exists.mp hw
  have hwarned : s.warned = { s with dev := { s.dev with warnings := s.dev.warnings + 1 } } := by
    simp [State.warned, State.modDev, hx]
  refine ⟨s.warned.event 5 0x02 3 0 0 0, ?_, hwarned ▸ event_mgmt _ _ _ _ _ _ _⟩
  show execPowerWarnNAsserted n s = _
  rw [execPowerWarnNAsserted, if_neg (by simp [hc, ho, Nat.not_lt.mpr hn])]
  exact if_pos hw
theorem exec_powerWarn_first (hw : s.dev.powerWarned = none) (hs : s.inService = true) :
    exec (.powerWarnNAsserted n) s = .next (((s.warned.event 5 0x02 3 0 0 0).enterDrain true).leaveOwn 2) := by
  show execPowerWarnNAsserted n s = _
  rw [execPowerWarnNAsserted, if_neg (by simp [hc, ho, Nat.not_lt.mpr hn])]
  exact (if_neg (by simp [hw])).trans (if_pos (by simp [hs]))
theorem powerWarn_drains (hw : s.dev.powerWarned = none) (hs : s.inService = true) : ∃ t, exec (.powerWarnNAsserted n) s = .next t ∧ t.dev.phase = .drain ∧
    t.dev.warnings = s.dev.warnings + 1 ∧ t.dev.powerWarned = some (s.clk - 2000) ∧ t.pool = s.pool ∧ ∀ m, (s.ring m).st = .running → (t.ring m).st = .draining := by
  refine ⟨_, exec_powerWarn_first hc ho hn hw hs, ?_⟩
  obtain ⟨v, e, o, hevent⟩ := event_mgmt s.warned 5 0x02 3 0 0 0
  obtain ⟨hdev, hpool, hrings, -⟩ := enterDrain_enters (s.warned.event 5 0x02 3 0 0 0) true
  generalize (s.warned.event 5 0x02 3 0 0 0).enterDrain true = u at hdev hpool hrings
  have hleave := leaveOwn_carried u 2
  obtain ⟨_, _, _, _, _, _, _, _, _, hmov, _, hpool', _⟩ := hleave.keeps
  have hphase : u.dev.phase = .drain := by rw [hdev]
  have hdev' : (u.leaveOwn 2).dev = u.dev := hleave.dev_eq (by rw [hphase]; decide) (by rw [hphase]; decide)
  rw [hdev', hdev, hpool', hpool, hevent]
  refine ⟨rfl, rfl, ?_, rfl, fun m hm => ?_⟩
  · simp [State.warned, State.modDev, hw]
  · rw [State.ring, hmov]
    exact hrings m (.inl (by rw [hevent]; exact hm))
end

/-- The write of DRAIN is taken from TABLES or in service (R450). -/
theorem devCtlWrite_drain (s : State) : devCtlWrite 1 s = check (s.dev.phase == .tables || s.inService) abortRefused (.ok (s.enterDrain false)) := rfl
theorem countDatagram_dev (s : State) (i : Nat) : (s.countDatagram i).dev = s.dev := by
  obtain ⟨v, e, o, h⟩ := countDatagram_mgmt s i
  rw [h]
theorem countDatagram_inService (s : State) (i : Nat) : (s.countDatagram i).inService = s.inService := by
  rw [State.inService, countDatagram_dev, State.inService]

/-- Settles O22: DRAIN drains the rings and sends the frames, OFF takes every port and link down, and each timer compares its deadline with the clock. -/
theorem drainAndPowerLoss : Obligations.DrainAndPowerLoss := by
  refine ⟨fun s v hw => ⟨fun hp => ?_, fun ht hs => ?_⟩, fun s hp => ⟨fun hend => ?_, fun hd hclk => congrArg Host.Outcome.next (if_neg (by simp [hd, Nat.not_le.mpr hclk]))⟩,
    fun s n hc ho => ⟨fun hn hw => exec_powerWarn_again hc ho hn hw, fun hn hw hs => powerWarn_drains hc ho hn hw hs, fun hn => if_pos (by simp [hn])⟩,
    fun s x hx hp => ⟨fun hlate => ?_, fun hsoon => ?_⟩⟩
  · obtain ⟨v', e, o, hcount⟩ := countDatagram_mgmt s v.sess
    obtain ⟨hdev, hpool, hrings, hports⟩ := enterDrain_enters (s.countDatagram v.sess) false
    have htaken : (s.dev.phase == .tables || s.inService) = true := by simpa using hp
    refine ⟨_, vaneWrite_accepts (u := none) hw (fun _ hu => nomatch hu) (?_ : devCtlWrite 1 (s.countDatagram v.sess) = .ok _), ?_, ?_, ?_, ?_, hports⟩
    · rw [devCtlWrite_drain, countDatagram_dev, countDatagram_inService, check, if_pos htaken]
    · rw [hdev]
    · rw [hdev, countDatagram_clk]
    · rw [hpool, hcount]
    · have hring : ∀ n, (s.countDatagram v.sess).ring n = s.ring n := fun n => by
        rw [hcount]
        rfl
      exact fun n hn => hrings n (by rwa [hring])
  · refine vaneWrite_aborts (u := none) hw (fun _ hu => nomatch hu) ?_
    rw [devCtlWrite_drain, countDatagram_dev, countDatagram_inService, check, if_neg (by simp [ht, hs])]
    rfl
  · obtain ⟨hphase, hports, hhosts⟩ := enterOff_enters s
    exact ⟨_, congrArg Host.Outcome.next (if_pos (by simpa [hp] using hend)), hphase, hports, hhosts⟩
  · obtain ⟨hphase, hports, hhosts⟩ := enterOff_enters s
    refine ⟨_, ?_, hphase, hports, hhosts⟩
    show execPowerOffAfterExpired s = _
    rw [execPowerOffAfterExpired, hx]
    exact congrArg Host.Outcome.next (if_pos (by simp [hp, hlate]))
  · show execPowerOffAfterExpired s = _
    rw [execPowerOffAfterExpired, hx]
    exact congrArg Host.Outcome.next (if_neg (by simp [hp, Nat.not_le.mpr hsoon]))

end Sys2Proof.Machine
end

section
/-! Notices and messages that arrive (R106, R120, R335, R462, R464, R475): what a departure and a return change here, and the messages of the context table. -/

namespace Sys2Proof.Machine
open Sys2Proof

-- Arrival
/-- A message for this package is charged and released before it acts. -/
theorem arriveMgt_here {s : State} {a : Nat} {t : Txn} (ha : s.canArrive a = true) (hd : t.dnode = s.poolNode) (hc : t.ty.cls ≠ 3) :
    ∃ u, Charged s u ∧ ∀ k, s.arriveMgt a t k = k u := by
  refine ⟨(s.takeIn a t).release ((s.takeIn a t).entry t a (s.vcAt a 4)), (takeIn_charged hc).trans (release_charged _ _), fun k => ?_⟩
  unfold State.arriveMgt
  rw [if_neg (show ¬ (!s.canArrive a) = true by simp [ha])]
  exact if_neg (show ¬ (t.dnode != s.poolNode) = true by simp [hd])

-- A departure (R464)
theorem addNew_contains_other (l : List Nat) {n m : Nat} (hm : m ≠ n) : (addNew l n).contains m = l.contains m := by
  unfold addNew
  split
  · rfl
  · simp [hm]
theorem dropMarks_marks (s : State) (p : Mark → Bool) : (s.dropMarks p).sw.marks = s.sw.marks.filter (fun m => !p m) := by
  unfold State.dropMarks State.floodCheck
  split
  · obtain ⟨v, e, o, hevent⟩ := event_mgmt { s with sw := { s.sw with marks := s.sw.marks.filter (fun m => !p m), flood := false } } 8 0x02 0 0 0 0
    obtain ⟨d, v', e', o', hphase⟩ := settlePhase_phaseOnly ((State.event { s with sw := { s.sw with marks := s.sw.marks.filter (fun m => !p m), flood := false } }
      8 0x02 0 0 0 0).addRepin .floodEnd (State.ageLimit { s with sw := { s.sw with marks := s.sw.marks.filter (fun m => !p m) } } 0 +
        State.ageLimit { s with sw := { s.sw with marks := s.sw.marks.filter (fun m => !p m) } } 2))
    rw [hphase, hevent]
    rfl
  · rfl
theorem tableDone_secOnly (s : State) (n : Nat) : ∃ x, s.tableDone n = { s with sec := x } := by
  unfold State.tableDone
  split
  · exact ⟨s.sec, rfl⟩
  · exact ⟨_, rfl⟩
/-- What a departure of node `n` leaves in `t`. -/
structure NodeLeft (s t : State) (n kind slot : Nat) : Prop where
  absent : t.absent = addNew s.absent n
  departures : t.departures = s.departures + 1
  noticeSlot : t.noticeSlot = tset s.noticeSlot n slot
  marks : t.sw.marks = s.sw.marks.filter (fun m => !(m.snode == n))
  excluded : kind = 4 → ∀ p, s.nodePkg n = some p → t.excluded.contains p = true
  pool : t.pool = s.pool
/-- With no run, landing frame, withdrawal or change of a context under way, a departure touches nothing of them. -/
theorem applyLeave_leaves {s : State} (hi : s.ops.insts = []) (hl : s.pool.landed = []) (hw : s.xl.wds = []) (hc : s.sec.changes = []) (n kind uid slot : Nat) :
    NodeLeft s (s.applyLeave n kind uid slot) n kind slot := by
  unfold State.applyLeave
  extract_lets s1 s2 s3 s4 s5
  have hevent : Mgmt s1 s2 := event_mgmt _ _ _ _ _ _ _
  obtain ⟨v, e, o, hevent⟩ := hevent
  have hmarks : s3.sw.marks = s.sw.marks.filter (fun m => !(m.snode == n)) := (dropMarks_marks s2 _).trans (by rw [hevent])
  have hcarried : Carried s2 s3 := dropMarks_carried _ _
  obtain ⟨_, _, _, _, _, _, _, _, _, _, hxl, hpool, _, hsec, hops, habsent, hslot, hdepart, hexcl, _⟩ := hcarried.keeps
  have hidle : s4 = s3 := by
    have hfail : s3.failTouching n = s3 := by
      rw [State.failTouching, hops, hevent, show s1.ops.insts = [] from hi, List.foldl_nil]
    have hland : s3.restoreLanded n = s3 := by
      rw [State.restoreLanded, hpool, hevent, show s1.pool.landed = [] from hl, List.filter_nil, List.foldl_nil]
    exact (congrArg (State.restoreLanded · n) hfail).trans hland
  have hdone : s5 = s3.tableDone n := by
    have hwds : s4.wdAbsent n = s4 := by
      rw [State.wdAbsent, hidle, hxl, hevent, show s1.xl.wds = [] from hw, List.map_nil, List.foldl_nil]
    have hchanges : s4.ctxAbsent n = s4 := by
      rw [State.ctxAbsent, hidle, hsec, hevent, show s1.sec.changes = [] from hc, List.map_nil, List.foldl_nil]
    show ((s4.wdAbsent n).ctxAbsent n).tableDone n = _
    rw [hwds, hchanges, hidle]
  obtain ⟨x, hx⟩ := tableDone_secOnly s3 n
  rw [hx] at hdone
  clear_value s5 s4 s3 s2
  subst hdone hidle
  have hend : ∀ l, (kind = 4 → ∀ p, s.nodePkg n = some p → l.contains p = true) →
      NodeLeft s (State.settlePhase { s4 with sec := x, excluded := l }) n kind slot := fun l hexclude => by
    obtain ⟨d, v', e', o', hphase⟩ := settlePhase_phaseOnly { s4 with sec := x, excluded := l }
    rw [hphase]
    exact ⟨habsent.trans (by rw [hevent]), hdepart.trans (by rw [hevent]), hslot.trans (by rw [hevent]), hmarks, hexclude, hpool.trans (by rw [hevent])⟩
  split
  · split
    · next p hp =>
      refine hend _ fun _ q hq => ?_
      rw [Option.some.inj (hq.symm.trans hp)]
      exact addNew_contains _ _
    · next hp => exact hend s4.excluded fun _ q hq => nomatch hp.symm.trans hq
  · next hk => exact hend s4.excluded fun h => absurd (by simp [h]) hk

-- A return (R464, R475)
/-- A return ends the node's absence, and from its own package the exclusion. -/
theorem applyReturn_returns (s : State) (from_ n uid slot : Nat) : ∃ l, (∀ p, s.nodePkg n = some p →
      (s.nodePkg from_ = some p → l = s.excluded.filter (· != p)) ∧ (s.nodePkg from_ ≠ some p → l = s.excluded)) ∧
    ∃ d, Mgmt { s with absent := s.absent.filter (· != n), noticeSlot := tset s.noticeSlot n slot, excluded := l, dev := d } (s.applyReturn from_ n uid slot) := by
  unfold State.applyReturn
  extract_lets s1
  refine ⟨s1.excluded, fun p hp => ⟨fun hf => ?_, fun hf => ?_⟩, ?_⟩
  · simp [s1, hp, hf]
  · simp [s1, hp, hf]
  · obtain ⟨d, hphase⟩ := settlePhase_phaseOnly (s1.event 4 0x02 0 n 0 uid)
    obtain ⟨v, e, o, hevent⟩ := event_mgmt s1 4 0x02 0 n 0 uid
    rw [hevent] at hphase
    obtain ⟨v', e', o', hphase⟩ := hphase
    exact ⟨d, v', e', o', by rw [hevent, hphase]⟩
theorem filter_ne_contains (l : List Nat) (n m : Nat) : (l.filter (· != n)).contains m = (l.contains m && m != n) := by
  rw [Bool.eq_iff_iff]
  simp

-- Notices and messages as they arrive
section
variable {s : State} {a : Nat} {x : Txn} (ha : s.canArrive a = true) (hd : x.dnode = s.poolNode)
include ha hd

/-- What a notice does once it is here. -/
def State.noticed (u : State) (x : Txn) : State :=
  if x.rsvd != 0 || !(decide (x.mkind ≤ 4) || x.mkind == 8) then u.mgtDiscard
  else if u.ownNodes.contains x.lnode || x.slot < tget 0 u.noticeSlot x.lnode then u
  else if x.mkind == 8 then u.applyReturn x.snode x.lnode x.mword x.slot else u.applyLeave x.lnode x.mkind x.mword x.slot
theorem exec_nodeLeave : ∃ u, Charged s u ∧ exec (.nodeLeave a x) s = .next (u.noticed x) := by
  obtain ⟨u, hu, hk⟩ := arriveMgt_here (t := { x with ty := .nodeLeave }) ha hd (show TType.nodeLeave.cls ≠ 3 by decide)
  exact ⟨u, hu, congrArg Host.Outcome.next (hk _)⟩
/-- A message of a kind that the context table's messages do not have is discarded and counted; the answers set a binding, or end. -/
theorem exec_mgtMsg : ∃ u, Charged s u ∧ (x.rsvd ≠ 0 ∨ x.mkind = 0 ∨ 12 < x.mkind → exec (.mgtMsg a x) s = .next u.mgtDiscard) ∧
    (x.rsvd = 0 → x.mkind = 5 → exec (.mgtMsg a x) s = .next (u.modXl (fun y => { y with
      binds := tset y.binds (field x.mword 0 16) (bindOf (field x.mword 48 128)), xgen := tset y.xgen (field x.mword 0 16) (field x.mword 16 32),
      known := addNew y.known (field x.mword 0 16) }))) ∧
    (x.rsvd = 0 → x.mkind = 6 → exec (.mgtMsg a x) s = .next (u.tableDone x.snode)) := by
  obtain ⟨u, hu, hk⟩ := arriveMgt_here (t := { x with ty := .mgtMsg }) ha hd (show TType.mgtMsg.cls ≠ 3 by decide)
  have hexec : exec (.mgtMsg a x) s = execMgtMsg a x s := rfl
  refine ⟨u, hu, fun h => ?_, fun hr hm => ?_, fun hr hm => ?_⟩
  all_goals rw [hexec, execMgtMsg, hk]; refine congrArg Host.Outcome.next ?_
  · split
    · rfl
    · next hr =>
      rcases h.resolve_left (by simpa using hr) with hm | hm
      · simp only [hm]
      · obtain ⟨k, hk⟩ : ∃ k, x.mkind = k + 13 := ⟨x.mkind - 13, by omega⟩
        simp only [hk]
  · simp only [hr, hm, bne_self_eq_false, Bool.false_eq_true, if_false]
  · simp only [hr, hm, bne_self_eq_false, Bool.false_eq_true, if_false]
end

-- The table's last answers (R335)
theorem tableDone_last {s : State} {n : Nat} (h : s.sec.tableWait = [n]) : s.tableDone n = s.modSec (fun x => { x with tableWait := [], tableReady := true }) := by
  simp [State.tableDone, h]
theorem tableDone_more {s : State} {n m : Nat} (h : s.sec.tableWait = [n, m]) (hm : m ≠ n) :
    s.tableDone n = s.modSec (fun x => { x with tableWait := [m], tableReady := false }) := by
  simp [State.tableDone, h, hm]

/-- What a message leaves as it was: it is charged to its port and to the switch. -/
theorem Charged.notices {s u : State} (h : Charged s u) : u.ownNodes = s.ownNodes ∧ u.noticeSlot = s.noticeSlot ∧ u.departures = s.departures ∧
    u.excluded = s.excluded ∧ u.nodePkg = s.nodePkg ∧ u.sec = s.sec ∧ u.ops = s.ops := by
  obtain ⟨_, _, rfl, _⟩ := h.keeps
  exact ⟨rfl, rfl, rfl, rfl, rfl, rfl, rfl⟩

section
variable {u : State} {x : Txn}
/-- A notice without a reserved bit, of a kind of Table 16-5, about another's node, is weighed by its slot. -/
theorem noticed_departure (hr : x.rsvd = 0) (ho : u.ownNodes.contains x.lnode = false) (hs : tget 0 u.noticeSlot x.lnode ≤ x.slot) (hk : x.mkind ≤ 4) :
    u.noticed x = u.applyLeave x.lnode x.mkind x.mword x.slot := by
  unfold State.noticed
  rw [if_neg (by simp [hr, hk]), if_neg (by simp only [ho, Bool.false_or, decide_eq_true_eq]; omega), if_neg (by simp; omega)]
theorem noticed_return (hr : x.rsvd = 0) (ho : u.ownNodes.contains x.lnode = false) (hs : tget 0 u.noticeSlot x.lnode ≤ x.slot) (hk : x.mkind = 8) :
    u.noticed x = u.applyReturn x.snode x.lnode x.mword x.slot := by
  unfold State.noticed
  rw [if_neg (by simp [hr, hk]), if_neg (by simp only [ho, Bool.false_or, decide_eq_true_eq]; omega), if_pos (by simp [hk])]
theorem noticed_older (hr : x.rsvd = 0) (hs : x.slot < tget 0 u.noticeSlot x.lnode) (hk : x.mkind ≤ 4) : u.noticed x = u := by
  unfold State.noticed
  rw [if_neg (by simp [hr, hk]), if_pos (by simp [hs])]
theorem noticed_discarded (h : x.rsvd ≠ 0 ∨ (4 < x.mkind ∧ x.mkind ≠ 8)) : u.noticed x = u.mgtDiscard := by
  unfold State.noticed
  refine if_pos ?_
  rcases h with h | ⟨h4, h8⟩
  · simp [h]
  · simp [h4, h8]
end

/-- Settles O42: the notices by what `applyLeave` and `applyReturn` leave, the messages kind by kind. The layout of the kinds 5 and 6 and of `mword` is the
choice of log 16, who ends an exclusion and the counting of a repeated notice that of log 41. -/
theorem noticesArrive : Obligations.NoticesArrive := by
  unfold Obligations.NoticesArrive
  refine ⟨fun s a x ha hd => ?_, fun s a x ha hd => ?_⟩
  · obtain ⟨u, hu, hexec⟩ := exec_nodeLeave ha hd
    obtain ⟨hown, hslots, hdepart, hexcl, hpkg, hsec, hops⟩ := hu.notices
    rw [hexec]
    refine ⟨fun hr ho hs => ?_, fun hr hk hs => ?_, fun h => ?_⟩
    · rw [← hown] at ho
      rw [← hslots] at hs
      refine ⟨fun hk hi hl hw hc => ?_, fun hk => ?_⟩
      · obtain ⟨habsent, hcount, hslot, hmarks, hexclude, hpool⟩ := applyLeave_leaves (s := u) (by rw [hops, hi]) (by rw [hu.pool, hl]) (by rw [hu.xl, hw])
          (by rw [hsec, hc]) x.lnode x.mkind x.mword x.slot
        rw [noticed_departure hr ho hs hk]
        refine ⟨_, rfl, by rw [habsent, addNew_contains], fun n hn => ?_, by rw [hcount, hdepart], by rw [hslot, tget_tset_same], by rw [hmarks, hu.marks],
          by rw [← hpkg]; exact hexclude, by rw [hpool, hu.pool]⟩
        rw [habsent, addNew_contains_other _ hn, hu.absent]
      · obtain ⟨l, hl, d, _, _, _, hreturn⟩ := applyReturn_returns u x.snode x.lnode x.mword x.slot
        rw [noticed_return hr ho hs hk, hreturn]
        refine ⟨_, rfl, ?_, fun n hn => ?_, tget_tset_same _ _ _ _, fun p hp => ⟨fun hf => ?_, fun hf => ?_⟩, hu.pool⟩
        · exact (filter_ne_contains u.absent x.lnode x.lnode).trans (by simp)
        · exact (filter_ne_contains u.absent x.lnode n).trans (by simp [hn, hu.absent])
        · rw [← hpkg] at hp hf
          show l.contains p = false
          rw [(hl p hp).1 hf, filter_ne_contains]
          simp
        · rw [← hpkg] at hp hf
          exact ((hl p hp).2 hf).trans hexcl
    · rw [noticed_older hr (by rw [hslots]; exact hs) hk]
      exact ⟨u, rfl, hu.absent, hdepart, hslots, hu.pool⟩
    · rw [noticed_discarded h]
      exact ⟨_, rfl, congrArg (·.mgtDiscarded + 1) hu.xact, hu.absent, hdepart, hu.pool⟩
  · obtain ⟨u, hu, hdiscard, hbinding, hend⟩ := exec_mgtMsg ha hd
    obtain ⟨_, _, _, _, _, hsec, _⟩ := hu.notices
    refine ⟨fun h => ?_, fun hr hk => ?_, fun hr hk hw => ?_, fun n hr hk hw hn => ?_⟩
    · exact ⟨_, hdiscard h, congrArg (·.mgtDiscarded + 1) hu.xact, hu.xl, hsec, hu.pool⟩
    · refine ⟨_, hbinding hr hk, tget_tset_same _ _ _ _, tget_tset_same _ _ _ _, fun c hc => ?_, hu.pool⟩
      exact (tget_tset_ne _ _ _ _ _ hc).trans (congrArg (fun y => tget {} y.binds c) hu.xl)
    · exact ⟨_, (hend hr hk).trans (congrArg Host.Outcome.next (tableDone_last (by rw [hsec, hw]))), rfl, rfl, hu.xl, hu.pool⟩
    · exact ⟨_, (hend hr hk).trans (congrArg Host.Outcome.next (tableDone_more (by rw [hsec, hw]) hn)), rfl, rfl, hu.xl, hu.pool⟩

end Sys2Proof.Machine
end
